-- ==== Sys2Proof/Word.lean ====
section
/-! DEFINITION. The words of the block: bytes and 32- and 64-bit registers (R7, R26). -/

namespace Sys2Proof

/-- A byte. -/
abbrev Byte := BitVec 8
/-- A control register (R7) or Spoke control register (R59). -/
abbrev W32 := BitVec 32
/-- A Spoke register (R30). -/
abbrev W64 := BitVec 64

end Sys2Proof
end

