-- ==== Sys2Proof/Fields.lean ====
section
/-! DEFINITION. The structured operands of commands: Spoke addressing modes (R48, R77) and chain frames (R384). -/

namespace Sys2Proof

/-- Addressing modes of loads and stores (R48, R77). -/
inductive AddrMode where
  /-- Short form: `[ra3 + uimm4 × 8]`. -/
  | short (uimm4 : BitVec 4)
  /-- `[a + imm12]`. -/
  | offset (imm : BitVec 12)
  /-- `[a]+`. -/
  | postInc
  /-- `-[a]`. -/
  | preDec
  /-- `[a + b << s]`. -/
  | index (b : Nat) (s : BitVec 2)
  deriving DecidableEq, Repr

/-- A chain frame without its LENGTH and FCS, which hardware checks and computes (R384). UIDs are 128-bit numbers. -/
structure Frame where
  ftype : BitVec 8
  dirUp : Bool
  hops : Nat
  seq : BitVec 16
  src : BitVec 128
  dst : BitVec 128
  pelotonId : BitVec 64
  payload : List Byte
  deriving DecidableEq, Repr

end Sys2Proof
end

