-- ==== Sys2Proof/Syntax.lean ====
section
/-! DEFINITION. The commands: one constructor per row of the operation table (95_what_each_step_holds.md, opcode_table.json). -/

namespace Sys2Proof

/-- One command or event of the block; the operands say which master, engine or unit it comes from or acts on,
and what it carries. -/
inductive Instr where
  -- Spoke instruction set. c: the core's master ID (R444); d a b r: register codes 0-31 (R42); wide: the 32-bit form.
  /-- ADD (R69): Adds two registers, or in the short form adds rs to rd. -/
  | add (c d a b : Nat) (wide : Bool)
  /-- SUB (R69): Subtracts one register from another, modulo 2^64. -/
  | sub (c d a b : Nat) (wide : Bool)
  /-- AND (R69): Bitwise AND of two registers. -/
  | and (c d a b : Nat) (wide : Bool)
  /-- OR (R69): Bitwise OR of two registers. -/
  | or (c d a b : Nat) (wide : Bool)
  /-- XOR (R69): Bitwise XOR of two registers. -/
  | xor (c d a b : Nat) (wide : Bool)
  /-- MOV (R69): Copies one register to another. -/
  | mov (c d a : Nat) (wide : Bool)
  /-- SLL (R73): Shift left logical by the full 64-bit amount in b; amounts of 64 or more give 0. -/
  | sll (c d a b : Nat)
  /-- SRL (R73): Shift right logical by the full 64-bit amount in b; amounts of 64 or more give 0. -/
  | srl (c d a b : Nat)
  /-- SRA (R73): Shift right arithmetic; amounts of 64 or more give 64 copies of bit 63. -/
  | sra (c d a b : Nat)
  /-- ROL (R73): Rotate left by u(b) mod 64. -/
  | rol (c d a b : Nat)
  /-- ROR (R73): Rotate right by u(b) mod 64. -/
  | ror (c d a b : Nat)
  /-- NEG (R74): Negates a register; NEG of min returns min. -/
  | neg (c d a : Nat)
  /-- ABS (R74): Absolute value of a register; ABS of min returns min. -/
  | abs (c d a : Nat)
  /-- MUL (R71): Low 64 bits of the product, in 3 cycles. -/
  | mul (c d a b : Nat)
  /-- MULHS (R71): High 64 bits of the signed 128-bit product. -/
  | mulhs (c d a b : Nat)
  /-- MULHU (R71): High 64 bits of the unsigned 128-bit product. -/
  | mulhu (c d a b : Nat)
  /-- DIV (R72): Signed quotient in 34 cycles, with fixed results for divide by zero and min by -1. -/
  | div (c d a b : Nat)
  /-- DIVU (R72): Unsigned quotient in 34 cycles. -/
  | divu (c d a b : Nat)
  /-- REM (R72): Signed remainder taking the sign of the dividend. -/
  | rem (c d a b : Nat)
  /-- REMU (R72): Unsigned remainder. -/
  | remu (c d a b : Nat)
  /-- ADDI (R70): Adds a sign-extended immediate, long or short form. -/
  | addi (c d a : Nat) (imm : BitVec 12) (wide : Bool)
  /-- ANDI (R70): ANDs a sign-extended immediate. -/
  | andi (c d a : Nat) (imm : BitVec 12)
  /-- ORI (R70): ORs a sign-extended immediate. -/
  | ori (c d a : Nat) (imm : BitVec 12)
  /-- XORI (R70): XORs a sign-extended immediate. -/
  | xori (c d a : Nat) (imm : BitVec 12)
  /-- SLLI (R70): Shift left by an immediate 0-63. -/
  | slli (c d a : Nat) (n : BitVec 6)
  /-- SRLI (R70): Logical shift right by an immediate 0-63. -/
  | srli (c d a : Nat) (n : BitVec 6)
  /-- SRAI (R70): Arithmetic shift right by an immediate 0-63. -/
  | srai (c d a : Nat) (n : BitVec 6)
  /-- RORI (R70): Rotate right by an immediate 0-63. -/
  | rori (c d a : Nat) (n : BitVec 6)
  /-- CATI (R70): Shifts a left by 12 and ORs in the zero-extended immediate. -/
  | cati (c d a : Nat) (imm : BitVec 12)
  /-- LEAPC (R70): Writes pc plus a sign-extended immediate. -/
  | leapc (c d : Nat) (imm : BitVec 12)
  /-- CEQ (R75): Writes 1 if two registers are equal, else 0. -/
  | ceq (c d a b : Nat) (wide : Bool)
  /-- CNE (R75): Writes 1 if two registers differ, else 0. -/
  | cne (c d a b : Nat) (wide : Bool)
  /-- CLT (R75): Signed less-than compare. -/
  | clt (c d a b : Nat) (wide : Bool)
  /-- CLTU (R75): Unsigned less-than compare. -/
  | cltu (c d a b : Nat) (wide : Bool)
  /-- CLE (R75): Signed less-or-equal compare. -/
  | cle (c d a b : Nat) (wide : Bool)
  /-- CLEU (R75): Unsigned less-or-equal compare. -/
  | cleu (c d a b : Nat) (wide : Bool)
  /-- SEL (R75): Selects a or b by c in one cycle, whatever c holds. -/
  | sel (c d r a b : Nat)
  /-- CEQI (R75): Equality compare with an immediate. -/
  | ceqi (c d a : Nat) (imm : BitVec 12)
  /-- CNEI (R75): Inequality compare with an immediate. -/
  | cnei (c d a : Nat) (imm : BitVec 12)
  /-- CLTI (R75): Signed less-than compare with an immediate. -/
  | clti (c d a : Nat) (imm : BitVec 12)
  /-- CLTUI (R75): Unsigned less-than compare with an immediate. -/
  | cltui (c d a : Nat) (imm : BitVec 12)
  /-- CLEI (R75): Signed less-or-equal compare with an immediate. -/
  | clei (c d a : Nat) (imm : BitVec 12)
  /-- CLEUI (R75): Unsigned less-or-equal compare with an immediate. -/
  | cleui (c d a : Nat) (imm : BitVec 12)
  /-- CGTI (R75): Signed greater-than compare with an immediate. -/
  | cgti (c d a : Nat) (imm : BitVec 12)
  /-- CGTUI (R75): Unsigned greater-than compare with an immediate. -/
  | cgtui (c d a : Nat) (imm : BitVec 12)
  /-- LD (R77): Loads 8 to 64 bits in offset, auto-modify or index mode, stalling if the address leaves own scratch. -/
  | ld (c d a : Nat) (mode : AddrMode) (size : BitVec 3)
  /-- ST (R77): Stores 8 to 64 bits, posted if the address leaves own scratch. -/
  | st (c d a : Nat) (mode : AddrMode) (size : BitVec 3)
  /-- BZ (R81): Branches when the register is zero. -/
  | bz (c r : Nat) (off : BitVec 20) (wide : Bool)
  /-- BNZ (R81): Branches when the register is not zero. -/
  | bnz (c r : Nat) (off : BitVec 20) (wide : Bool)
  /-- BR (R81): Unconditional pc-relative branch. -/
  | br (c : Nat) (off : BitVec 20)
  /-- CALL (R33): Slides the window by 8 or 16, places a frame record and branches. -/
  | call (c : Nat) (off : BitVec 20) (slide16 : Bool)
  /-- CALLR (R33): Register-indirect call with a slide of 8 or 16. -/
  | callr (c a : Nat) (slide16 : Bool)
  /-- JR (R82): Jumps to the address in a register. -/
  | jr (c a : Nat)
  /-- RET (R33): Reads the frame record, slides the window back and returns. -/
  | ret (c : Nat)
  /-- REP (R49): Repeats the next instruction as many times as register c holds, interruptibly. -/
  | rep (c r : Nat) (wide : Bool)
  /-- REPI (R50): Repeats the next instruction 1-64 times without interruption. -/
  | repi (c : Nat) (n : BitVec 6)
  /-- ILLEGAL_INSTRUCTION (R43): A reserved encoding, reserved register code, privileged or illegal repeat combination faults at
  decode. -/
  | illegalInstruction (c : Nat)
  /-- FETCH_FAULT (R28): A fetch from outside the Spoke's own scratch faults with the failing address. -/
  | fetchFault (c : Nat)
  /-- WAIT (R85): Clock-gates the Spoke and returns its token until an enabled interrupt is pending. -/
  | wait (c : Nat)
  /-- WAIT_JOB (R86): Ends the current job, makes the Spoke eligible for dispatch and gates it. -/
  | waitJob (c d : Nat)
  /-- WAIT_END (R85): The readmission grant arrives and the waiting core issues its next instruction 4 cycles later. -/
  | waitEnd (c : Nat)
  /-- FENCE (R88): Holds issue until every earlier access of the core has been acknowledged. -/
  | fence (c : Nat)
  /-- HUBCALL (R89): Sends Hub-B a service request and gates the Spoke until an answer. -/
  | hubcall (c d a : Nat) (n : BitVec 12)
  /-- HUBCALL_ANSWER (R89): Hub-B's answer arrives; the core requests readmission and writes the answer to d. -/
  | hubcallAnswer (c : Nat) (v : BitVec 64)
  /-- HUBCALL_TIMEOUT (R89): After 1 ms without an answer the core writes all ones to d and logs a record. -/
  | hubcallTimeout (c : Nat)
  /-- EXC_RET (R57): Slides the window back by 24, clears EXC_ACTIVE and resumes at EXC_PC. -/
  | excRet (c : Nat)
  /-- CRR (R91): Reads a Spoke control register into d. -/
  | crr (c d : Nat) (n : BitVec 12)
  /-- CRW (R91): Writes a Spoke control register, effective before the next instruction. -/
  | crw (c : Nat) (n : BitVec 12) (a : Nat)
  /-- PCRR (R92): Hub core reads a privileged control register. -/
  | pcrr (c d : Nat) (n : BitVec 12)
  /-- PCRW (R92): Hub core writes a privileged control register. -/
  | pcrw (c : Nat) (n : BitVec 12) (a : Nat)
  /-- INTOFF (R92): Returns the prior Hub interrupt enable and disables Hub interrupts. -/
  | intoff (c d : Nat)
  /-- INTON (R92): Enables Hub interrupts. -/
  | inton (c : Nat)
  /-- MEASURE_LOCK (R519): Setting LOCK freezes FW_MEASURE, BOOT_INFO and BOOT_GEN until Hub reset. -/
  | measureLock (c a : Nat)
  /-- INTERRUPT_ENTRY (R55): A pending enabled interrupt is taken between instructions, lowest value first. -/
  | interruptEntry (c : Nat)
  /-- TIMER_COMPARE_FIRE (R524): CYCLE reaches the armed TIMER_CMP; INT_TIMER sets once and the compare disarms. -/
  | timerCompareFire (c : Nat)
  /-- CORE_RELEASE (R60): A core leaves reset at its vector when every RELEASE_COND bit is set in RELEASE_STATUS. -/
  | coreRelease (c : Nat)
  /-- PELOTON_TIME_REACHED (R60): Peloton time reaches the release time and sets the status bit. -/
  | pelotonTimeReached (c : Nat)
  /-- LOCKSTEP_MISMATCH (R65): A Hub pair output mismatch escalates to a device reset with platforms held. -/
  | lockstepMismatch (c : Nat)
  -- Wheels and banks. m: the issuing master; bank: 0-63 shared, 64 + 4w + k pool bank k of Wheel w.
  /-- SPOKE_RESET (R117): Hub-A resets a Spoke, clearing its HALTED bit and HUB_GO. -/
  | spokeReset (m w i : Nat)
  /-- HANDOVER_WRITE (R102): A write to BANK_OWNER_b or POOL_OWNER_k hands the bank over, possibly with a wipe, or is refused. -/
  | handoverWrite (m bank : Nat) (v : BitVec 32)
  /-- BANK_WIPE_DONE (R102): The bank wipe writes its last word and WIPING clears. -/
  | bankWipeDone (bank : Nat)
  /-- DMA_STARVED (R107): A DMA request denied for 65,536 consecutive cycles logs one record and sets DMA_STARVED. -/
  | dmaStarved (bank dma : Nat)
  /-- WDMA_GO (R113): Starts a Wheel DMA transfer, or sets ERR for bad parameters. -/
  | wdmaGo (m spoke : Nat)
  /-- WDMA_BEAT (R112): The engine moves one beat of an active slot in rotation, checked against the Spoke's rights. -/
  | wdmaBeat (w : Nat)
  /-- WDMA_DONE (R113): The last write is acknowledged; BUSY clears and INT_WDMA_DONE is raised. -/
  | wdmaDone (spoke : Nat)
  /-- BCAST_WRITE (R114): A Hub write to the broadcast window goes to every Wheel selected by WHEEL_GROUP_MASK. -/
  | bcastWrite (m off size : Nat) (v : BitVec 64)
  -- Cranks: context x (0 A, 1 B) of Wheel w; a command row runs the command at the head of the context's FIFO.
  /-- CTX_CLAIM (R121): A master claims a Crank context with its job's class and release kind. -/
  | ctxClaim (m w : Nat)
  /-- CRANK_GRANT (R122): A free context is granted to the waiting claim of highest class and INT_CRANK_DONE is raised. -/
  | crankGrant (w : Nat)
  /-- CTX_RELEASE (R139): The holder ends its job on the context, which enters WIPING. -/
  | ctxRelease (m w : Nat)
  /-- CMD_HI (R132): A write to CMD_HI pushes the 64-bit command into the context FIFO. -/
  | cmdHi (m w x : Nat) (v : BitVec 32)
  /-- NOTIFY (R133): Raises INT_CRANK_DONE for the holder. -/
  | notify (w x : Nat)
  /-- YIELDPT (R124): Yield point at which a preempting admitted context may be switched in. -/
  | yieldpt (w x : Nat)
  /-- MODE (R128): Yield point that sets wide or lane mode and adjusts the token holding. -/
  | mode (w x : Nat)
  /-- SYNCS (R133): Waits until S_XFER_COUNT reaches N. -/
  | syncs (w x : Nat)
  /-- ACCCLR (R135): Zeroes the current accumulator and its taint. -/
  | accclr (w x : Nat)
  /-- SETSEL (R133): Loads the selector from a doubleword, tainted if from S. -/
  | setsel (w x : Nat)
  /-- MACW (R133): Wide multiply-accumulate with optional shift and negate. -/
  | macw (w x : Nat)
  /-- ACCLDW (R133): Loads the wide accumulator from 256 bits. -/
  | accldw (w x : Nat)
  /-- ACCSTW (R136): Stores the low doublewords of the accumulator, only into S if tainted. -/
  | accstw (w x : Nat)
  /-- CARRY (R133): Stores one accumulator bit as a doubleword. -/
  | carry (w x : Nat)
  /-- MACL (R133): Sixteen-lane 32x32 multiply-accumulate. -/
  | macl (w x : Nat)
  /-- LQ (R133): Computes the lane temporaries from the accumulators and Y. -/
  | lq (w x : Nat)
  /-- LLD (R133): Loads the lane accumulators from 32-bit elements. -/
  | lld (w x : Nat)
  /-- LST (R133): Stores one half of each lane accumulator. -/
  | lst (w x : Nat)
  /-- MOVB (R133): Copies n doublewords within the context. -/
  | movb (w x : Nat)
  /-- SELB (R133): Constant-time select of one of two ranges by a selector bit, always into S. -/
  | selb (w x : Nat)
  /-- DECLASSIFY (R145): Copies the verified range from S to P only after a PASS verdict in a SIGN job. -/
  | declassify (w x : Nat)
  /-- PAIRV (R144): Ends the signing job, wipes S outside the kept range and begins the paired verify phase. -/
  | pairv (w x : Nat)
  /-- VERDICT (R144): Sets VERDICT to PASS or FAIL by comparing two ranges, once per verify phase. -/
  | verdict (w x : Nat)
  /-- YIELD_OVERRUN (R126): The count since the last yield point exceeds YIELD_WARN while a preemptor waits; one record. -/
  | yieldOverrun (w : Nat)
  /-- CRANK_WIPE_DONE (R139): The 4,800-cycle context wipe ends; tokens return or the context enters FAILED. -/
  | crankWipeDone (w x : Nat) (zero : Bool)
  /-- S_AREA_TRANSFER (R131): A Chamber transfer lands in an S area if the requesting job holds the context, else is refused. -/
  | sAreaTransfer (w : Nat)
  -- Cassette lanes: l = 2w + L for Wheel lanes, 64 + L for Hub lanes.
  /-- LANE_CLAIM (R155): A master claims a Cassette lane; a lower-class holder gets YIELD_REQ. -/
  | laneClaim (m l : Nat)
  /-- LANE_GRANT (R155): A wiped lane is granted to a waiting claim and INT_LANE_DONE is raised. -/
  | laneGrant (l : Nat)
  /-- LANE_RELEASE (R155): The holder ends its hold on the lane, which wipes. -/
  | laneRelease (m l : Nat)
  /-- LANE_WIPE_DONE (R157): The 32-cycle lane wipe ends and tokens return. -/
  | laneWipeDone (l : Nat)
  /-- INIT (R158): Starts a new message with an algorithm, clearing context, taint and lengths. -/
  | init (m l : Nat) (alg : BitVec 4)
  /-- ABSORB_SLOT (R163): Absorbs a Chamber key XOR pad into the context, tainting it. -/
  | absorbSlot (m l : Nat) (pad : BitVec 8) (block : Bool)
  /-- ABSORB_HOLD (R164): Absorbs the holding register's contents. -/
  | absorbHold (m l : Nat)
  /-- FINISH (R160): Pads and computes the digest and delivers it to OUT, HOLD, SLOT or COMPARE. -/
  | finish (m l : Nat) (outLen : BitVec 8) (dest : BitVec 2)
  /-- SAVE (R168): Writes the plain 256-byte context image of an untainted aligned context. -/
  | save (m l : Nat)
  /-- RESTORE (R168): Loads a plain context image from CTX_IMAGE. -/
  | restore (m l : Nat)
  /-- EXPORT_WRAPPED (R169): Writes an AES-GCM wrapped context image under the device context key. -/
  | exportWrapped (m l : Nat)
  /-- IMPORT_WRAPPED (R169): Loads a wrapped context image if tag, type, algorithm and owner match. -/
  | importWrapped (m l : Nat)
  /-- LANE_DATA (R159): A store to the DATA window appends bytes to the message, waiting if the FIFO is full. -/
  | laneData (m l size : Nat) (v : BitVec 64)
  /-- DECLARED_LENGTH_WRITE (R161): Sets the declared message length, ignored after the first absorbed byte. -/
  | declaredLengthWrite (m l : Nat) (v : BitVec 64)
  /-- LANE_OP_DONE (R160): A lane command's blocks complete and the result is delivered with INT_LANE_DONE. -/
  | laneOpDone (l : Nat)
  -- The Chamber: arguments as the requester's bank of CH_ARG registers holds them.
  /-- SLOT_ALLOC (R174): Allocates a RESERVED extent with the given attribute word. -/
  | slotAlloc (m : Nat) (attr : BitVec 32)
  /-- SLOT_FREE (R172): Wipes an owned extent and makes it EMPTY. -/
  | slotFree (m : Nat) (arg0 : BitVec 32)
  /-- SLOT_INFO (R174): Returns a slot's attribute word and state. -/
  | slotInfo (m : Nat) (arg0 : BitVec 32)
  /-- XFER (R175): Copies a key extent into a Crank S area over the Chamber-to-Wheel passage. -/
  | xfer (m : Nat) (arg0 arg1 : BitVec 32)
  /-- UNWRAP_BEGIN (R176): Claims an unwrap buffer for a wrapped key under a key-encryption key. -/
  | unwrapBegin (m : Nat) (arg0 arg1 arg2 : BitVec 32)
  /-- UNWRAP_END (R176): Unwraps the fed key with KWP and allocates a LOADED extent or fails. -/
  | unwrapEnd (m : Nat)
  /-- CH_FEED (R174): Appends a 32-bit word of the wrapped key to the unwrap buffer. -/
  | chFeed (m : Nat) (v : BitVec 32)
  /-- CHAMBER_CMD_DONE (R175): A Chamber command finishes its check or wipe and BUSY clears. -/
  | chamberCmdDone (m : Nat)
  /-- SLOT0_LOAD (R196): At PD_26 power-up the sequencer loads the device secret into slot 0, after any running OTP command. -/
  | slot0Load
  -- One-time-programmable array.
  /-- READ (R186): OTP word read with margin sensing and ECC or raw resolution. -/
  | read (m : Nat) (addr : BitVec 10)
  /-- PROGRAM (R203): Programs OTP_WDATA into a word if rights, lock and monotonic bits allow. -/
  | program (m : Nat) (addr : BitVec 10) (data : BitVec 32)
  /-- LOCK (R191): Checks the group seal and programs the three LOCK bits. -/
  | lock (m : Nat) (g : BitVec 5)
  /-- SEAL_CALC (R191): Returns the CRC-16 of a group's current contents. -/
  | sealCalc (m : Nat) (g : BitVec 5)
  /-- GEN_UDS (R196): Programs 256 Drip bits into G_6, seals and locks it. -/
  | genUds (m : Nat)
  /-- REPAIR (R188): Assigns a spare row to a failed row in all three redirection copies. -/
  | repair (m : Nat) (row : BitVec 7)
  /-- OTP_COMMAND_DONE (R204): An OTP command finishes pulsing or reading and sets CODE. -/
  | otpCommandDone (weak : BitVec 39)
  /-- PUMP_IDLE_OFF (R204): The charge pump stops after 1 ms with no programming command. -/
  | pumpIdleOff
  /-- SENSING_COMPLETE (R200): OTP sensing resolves redirection and critical words, completes any transition, and validates the
  wires. -/
  | sensingComplete
  -- Life cycle and Lantern.
  /-- LC_REQUEST (R210): Requests a life-cycle transition, refused unless allowed, authorised and in ACTIVE. -/
  | lcRequest (m : Nat) (v : BitVec 32)
  /-- TRANSITION_STEP (R213): The sequencer completes one transition step and programs its progress mark. -/
  | transitionStep
  /-- ERASE_FAULT (R215): A user-data block still busy after 4 s counts as failed and is logged. -/
  | eraseFault (block : Nat)
  /-- IDCODE (R217): Lantern instruction selecting the 32-bit IDCODE register. -/
  | idcode
  /-- SAMPLE (R217): Lantern boundary-scan sample, with BOUNDARY_SCAN. -/
  | sample
  /-- EXTEST (R218): Lantern boundary-scan test that never drives the PCTL pins. -/
  | extest
  /-- LN_UID (R217): Lantern readout of the 128-bit UID. -/
  | lnUid
  /-- LN_MAILBOX (R217): Lantern access to the life-cycle and Lantern registers. -/
  | lnMailbox (write : Bool) (off : BitVec 15) (v : BitVec 32)
  /-- LN_ACCESS (R220): Lantern device-map access as master 0x420 under the session rights. -/
  | lnAccess (dr : BitVec 96)
  /-- BYPASS (R217): Lantern one-bit bypass, also for unlisted instructions. -/
  | bypass (ir : BitVec 5)
  /-- LANTERN_ESCAPE (R217): An IEEE 1149.7 selection, deselection or reset escape on the two pins. -/
  | lanternEscape (kind : Nat)
  /-- LN_CHALLENGE_REQ (R222): Replaces any outstanding challenge with 32 fresh Drip bytes. -/
  | lnChallengeReq (m : Nat)
  /-- CHALLENGE_EXPIRY (R222): An outstanding challenge ends 60 s after issue. -/
  | challengeExpiry
  /-- CERT_CLAIM (R223): Claims or releases the certificate buffer for Lantern or PF0. -/
  | certClaim (m : Nat) (v : BitVec 32)
  /-- CERT_SUBMIT (R224): Submits the certificate, sets CERT_PENDING and raises INT_CERT. -/
  | certSubmit (m : Nat)
  /-- CERT_CHECK (R221): The ROM routine at 0x300 runs the certificate checks in order. -/
  | certCheck
  /-- CERT_TIMEOUT (R224): A submission not checked within 100 ms is refused. -/
  | certTimeout
  /-- LN_AUTH_GRANT (R225): ROM-only write that opens a session with the granted rights. -/
  | lnAuthGrant (m : Nat) (v : BitVec 32)
  /-- LN_CLOSE (R226): Closes the session, releasing halted cores and applying R178 for a Hub right. -/
  | lnClose (m : Nat)
  -- Resets and supplies. rail: 0 VDD_CORE, 1 VDD_SRAM, 2 VDDIO, 3 VDD_AON.
  /-- PORST_N_RISE (R229): The AON island starts, samples straps, powers PD_27 and begins OTP sensing. -/
  | porstNRise (straps : BitVec 2)
  /-- PORST_N_ASSERT (R442): PORST_N low holds every platform, closes the session and abandons OTP commands. -/
  | porstNAssert
  /-- DEVICE_RESET (R443): Switches off every domain, senses OTP again and reboots, keeping AON state. -/
  | deviceReset
  /-- TAMPER_N (R442): TAMPER_N asserted for 1 us starts a device reset and writes a TAMPER record. -/
  | tamperN
  /-- SUPPLY_TRIP (R488): A monitored rail below its trip for 1 us acts as PORST_N low. -/
  | supplyTrip (rail : Nat)
  /-- SUPPLY_RELEASE (R488): The rail stays above release for 100 us and the hold ends. -/
  | supplyRelease (rail : Nat)
  /-- VDD_AON_LOW (R489): VDD_AON below 1.62 V for 1 us acts as PORST_N low. -/
  | vddAonLow
  /-- VDD_AON_POWER_UP (R460): VDD_AON rises from below retention; Flowstone pointers reset to 0. -/
  | vddAonPowerUp
  -- Platforms p = 0-3, PCTL pins n = 0-11.
  /-- SET_IMAGES (R251): PLAT_VERIFY sets IMAGES_VERIFIED if its epoch matches and the platform is not quarantined. -/
  | setImages (m p : Nat) (epoch : BitVec 8)
  /-- SET_RECOVERY (R251): PLAT_VERIFY sets RECOVERY_VERIFIED if its epoch matches. -/
  | setRecovery (m p : Nat) (epoch : BitVec 8)
  /-- SET_GO (R251): PLAT_VERIFY sets the platform HUB_GO condition under the epoch check. -/
  | setGo (m p : Nat) (epoch : BitVec 8)
  /-- CLEAR_GO (R251): PLAT_VERIFY clears the platform HUB_GO condition. -/
  | clearGo (m p : Nat) (epoch : BitVec 8)
  /-- HOLD (R250): PLAT_CTRL.HOLD holds the platform, clears verification and advances EPOCH. -/
  | hold (m p : Nat)
  /-- PLATFORM_RELEASE (R249): When every release condition holds, the reset outputs are freed within 80 ns. -/
  | platformRelease (p : Nat)
  /-- DELAY_DONE (R249): DELAY_US passes after every other condition and the delay condition holds. -/
  | delayDone (p : Nat)
  /-- POWER_GOOD_STABLE (R249): Every power-good input has read high for PG_STABLE. -/
  | powerGoodStable (p : Nat)
  /-- POWER_GOOD_FALL (R250): A power-good input falling while released holds the platform. -/
  | powerGoodFall (n : Nat)
  /-- PCTL_ALERT_FALL (R505): An ALERT pin falls, setting PCTL_EVENTS, raising INT_PCTL and acting as a wake event. -/
  | pctlAlertFall (n : Nat)
  /-- PCTL_CFG_WRITE (R507): Reconfigures a PCTL pin only while the old and new platforms are held. -/
  | pctlCfgWrite (m n : Nat) (v : BitVec 32)
  /-- AUX_TXDATA (R508): Sends one UART byte on LANTERN_AUX unless BUSY. -/
  | auxTxdata (m : Nat) (v : BitVec 32)
  /-- AUDIT_BLOCK (R254): A host read delivers a whole 4 KiB block, which the audit lane hashes and compares. -/
  | auditBlock (p : Nat) (addr : BitVec 32) (data : List (BitVec 8)) (entryHere : Bool)
  /-- AUDIT_ENTRY_ARRIVAL (R255): A late block-table entry arrives and the pending comparison is made. -/
  | auditEntryArrival (p : Nat)
  /-- START (R311): Begins a recovery attempt, counting it or quarantining at LIMIT. -/
  | start (m p : Nat)
  /-- QUARANTINED_CLEAR (R311): Hub-A writing 1 to QUARANTINED clears it and COUNT. -/
  | quarantinedClear (m p : Nat)
  -- Flash ports p = 0-3; own-command slot k (0 chip select A, 1 B).
  /-- HOST_TRANSACTION_START (R259): HCS_N falls and the port begins to copy the transaction, or discards it on a deselect or
  quiet violation. -/
  | hostTransactionStart (p : Nat)
  /-- HOST_DECISION (R264): The port decides PASS or DENY from the active bank within 2 port clocks. -/
  | hostDecision (p : Nat) (opcode : BitVec 8) (addr : BitVec 32) (modeByte : BitVec 8) (early : Bool)
  /-- HOST_TRANSACTION_END (R269): HCS_N rises; FCS_A_N follows once decided, with a brake on a denied write, and the log entry is
  written. -/
  | hostTransactionEnd (p bytes : Nat)
  /-- OWN_READ (R274): Own command of KIND 0 reading flash data into a buffer. -/
  | ownRead (m p k : Nat) (v : BitVec 32)
  /-- OWN_WRITE (R274): Own command of KIND 1 writing up to 32 B. -/
  | ownWrite (m p k : Nat) (v : BitVec 32)
  /-- OWN_NO_DATA (R274): Own command of KIND 2 with opcode and optional address. -/
  | ownNoData (m p k : Nat) (v : BitVec 32)
  /-- OWN_POLL (R274): Own command of KIND 3 polling status every 1 us. -/
  | ownPoll (m p k : Nat) (v : BitVec 32)
  /-- OWN_CMD_START (R275): A waiting own command starts when its platform is held, absent or quiet. -/
  | ownCmdStart (p k : Nat)
  /-- OWN_CMD_DONE (R274): An own command ends, setting DONE or ERR. -/
  | ownCmdDone (p k : Nat) (status : BitVec 8) (data : List (BitVec 8))
  /-- OWN_POLL_TIMEOUT (R274): A poll ends after OWN_LEN ms without the masked status clearing. -/
  | ownPollTimeout (p k : Nat) (status : BitVec 8)
  /-- QUIET_OPEN (R276): FLASH_QUIET_N held low for 1 us opens a quiet window. -/
  | quietOpen (p : Nat)
  /-- QUIET_CLOSE (R276): FLASH_QUIET_N rises; own reads and polls stop and the bus is released within t_QEXIT. -/
  | quietClose (p : Nat)
  /-- SWEEP_BLOCK (R279): A sweep reads and compares one block during an open window. -/
  | sweepBlock (p : Nat) (data : List (BitVec 8))
  /-- PORT_BOOT_DONE (R278): Writing 1 to BOOT_DONE disarms the boot fetch audit. -/
  | portBootDone (m p : Nat)
  /-- SWAP (R294): TABLE_SWAP.SWAP sets SWAP_PENDING. -/
  | swap (m p : Nat)
  /-- SWAP_APPLY (R294): In the first idle port clock the banks swap and INT_TABLE_SWAPPED is raised. -/
  | swapApply (p : Nat)
  /-- COPY_ACTIVE (R295): Starts copying the active bank into the shadow. -/
  | copyActive (m p : Nat)
  /-- COPY_DONE (R295): The 257-clock copy ends and COPY_BUSY clears. -/
  | copyDone (p : Nat)
  /-- TLOG_POP (R300): Removes the oldest log entry if the popper may. -/
  | tlogPop (m p : Nat)
  /-- GK_RESET (R306): Hub-A resets the gatekeeper. -/
  | gkReset (m p : Nat)
  /-- GK_MAILBOX_IN (R303): The write to GK_MAILBOX_IN_HI raises INT_HUB_SIGNAL, possibly with IN_OVERRUN. -/
  | gkMailboxIn (m p : Nat) (hi : BitVec 32)
  /-- GK_MAILBOX_OUT (R303): The gatekeeper's write to GK_MAILBOX_OUT_HI sets OUT_READY. -/
  | gkMailboxOut (m p : Nat) (hi : BitVec 32)
  /-- IN_TAKEN (R303): The gatekeeper acknowledges the inbound message. -/
  | inTaken (m p : Nat)
  /-- GK_BOOT_DONE_MSG (R304): Mailbox message BOOT_DONE puts the shipped gatekeeper into lockdown. -/
  | gkBootDoneMsg (p : Nat)
  /-- OPEN_WINDOW (R304): Grants WRITE and ERASE to windows of a tag and clears WP_ASSERT. -/
  | openWindow (p : Nat) (tag : BitVec 8) (ms : BitVec 32)
  /-- CLOSE_WINDOW (R304): Restores the bank and sets WP_ASSERT. -/
  | closeWindow (p : Nat) (tag : BitVec 8)
  /-- UPDATE_WINDOW_EXPIRY (R304): The update window closes after its time, capped at WINDOW_MAX_MS. -/
  | updateWindowExpiry (p : Nat)
  /-- INTERVAL_END (R304): At each erase interval end the counters zero and the bank swaps back. -/
  | intervalEnd (p : Nat)
  -- PCI Express and the queue fabric. f: function, q: queue, c: the Spoke's master ID.
  /-- CONFIG_REQUEST (R326): A PCIe configuration request, retried until BOOT_DONE or CFG_READY. -/
  | configRequest (f off : Nat) (write : Bool) (v : BitVec 32)
  /-- PERST_N (R326): PERST_N, hot reset or link-down acts as FLR of every function and resets the controller. -/
  | perstN
  /-- FLR (R334): A function level reset stops the function's queues and discards their results. -/
  | flr (f : Nat)
  /-- BAR_ACCESS_FAULT (R327): A BAR0 access of an unsupported size aborts or is discarded and logged. -/
  | barAccessFault (write : Bool) (off size : Nat)
  /-- SPDM_REQUEST (R328): An SPDM 1.2 request over DOE on PF0 answered by the responder. -/
  | spdmRequest (code param : BitVec 8)
  /-- QUERY (R328): IDE_KM QUERY inside a secured SPDM session. -/
  | query
  /-- KEY_PROG (R328): IDE_KM programs an IDE key into the PCIe controller. -/
  | keyProg (stream : Nat) (key : BitVec 256)
  /-- K_SET_GO (R328): IDE_KM starts use of a key set. -/
  | kSetGo (stream : Nat)
  /-- K_SET_STOP (R328): IDE_KM stops use of a key set. -/
  | kSetStop (stream : Nat)
  /-- FUNC_VEC_WRITE (R329): Assigns a function's MSI-X range, refused on overlap. -/
  | funcVecWrite (m f : Nat) (v : BitVec 32)
  /-- FUNC_ENABLE (R333): FUNC_CTRL.EN moves a function through its OFF, ON, STOPPING and PENDING_ON states. -/
  | funcEnable (m f : Nat) (en : Bool)
  /-- QUEUE_ENABLE (R332): EN = 1 makes a queue ON if its configuration checks pass. -/
  | queueEnable (m q : Nat)
  /-- QUEUE_DISABLE (R334): EN = 0 starts a queue shutdown. -/
  | queueDisable (m q : Nat)
  /-- QUEUE_OFF (R334): INFLIGHT reaches 0 and the stopping queue becomes OFF. -/
  | queueOff (q : Nat)
  /-- QGROUP_ALIAS_WRITE (R336): A Hub write to the group alias goes to every selected queue group. -/
  | qgroupAliasWrite (m off : Nat) (v : BitVec 32)
  /-- DOORBELL (R338): A doorbell updates SQ_TAIL or CQ_HEAD, or is discarded. -/
  | doorbell (f index : Nat) (v : BitVec 32)
  /-- ENTRY_FETCH (R340): A fetched submission entry arrives and is checked. -/
  | entryFetch (q : Nat) (entry : List (BitVec 8))
  /-- PAYLOAD_FETCH (R341): The payload arrives and its header is checked, or the job ends with an error. -/
  | payloadFetch (q : Nat) (ok : Bool) (data : List (BitVec 8))
  /-- JOB_DISPATCH (R345): The scheduler dispatches a ready job to an eligible waiting Spoke. -/
  | jobDispatch (q c : Nat)
  /-- JOB_WINDOW_STORE (R346): A Spoke store to its job window is written into its job buffer or refused. -/
  | jobWindowStore (m off size : Nat) (v : BitVec 64)
  /-- JOB_COMPLETION (R347): After wipes and verify outcome, the fabric writes result, completion and MSI-X. -/
  | jobCompletion (c : Nat) (writeOk : Bool)
  /-- JOB_TIMEOUT (R348): A job running past JOB_LIMIT_US logs a record and raises QF_TIMEOUT. -/
  | jobTimeout (c : Nat)
  /-- QF_BOOT_DONE (R247): Setting BOOT_DONE in the queue fabric marks the device ready. -/
  | qfBootDone (m : Nat)
  /-- QUEUE_CREATE (R353): Admin operation creating a queue. -/
  | queueCreate (q : Nat) (ctx : List (BitVec 32))
  /-- QUEUE_DESTROY (R353): Admin operation writing EN = 0 to a queue. -/
  | queueDestroy (q : Nat)
  /-- QUEUE_SET (R353): Admin operation setting QUANTUM and WHEEL_MASK through the group alias. -/
  | queueSet (groups : BitVec 256) (index : Nat) (quantum wheelMask : BitVec 32)
  /-- FUNC_SET (R353): Admin operation configuring a function. -/
  | funcSet (f : Nat) (en : Bool) (base count : Nat)
  -- Trust services: the job on Spoke c runs the operation on its job buffer.
  /-- VERIFY (R362): Service operation verifying one signature. -/
  | verify (c : Nat)
  /-- APPRAISE (R367): Service operation appraising one evidence record. -/
  | appraise (c : Nat)
  /-- REFSET_LOAD (R366): Installs a reference set chunk by chunk from PF0. -/
  | refsetLoad (c : Nat)
  /-- POLICY_SET (R372): Replaces the group's key-release policy table. -/
  | policySet (c : Nat)
  /-- TICKET_KEYS (R371): Returns the group's ticket public keys. -/
  | ticketKeys (c : Nat)
  /-- RECORD_STATUS (R368): Returns one appraisal record of the group. -/
  | recordStatus (c : Nat)
  /-- TICKET (R369): Issues one signed minute ticket. -/
  | ticket (c : Nat)
  /-- KEY_RELEASE (R373): Releases one key to an appraised workload. -/
  | keyRelease (c : Nat)
  /-- DERIVE (R375): HKDF into a new Chamber slot. -/
  | derive (c : Nat)
  /-- SIGN (R376): Signs with a Chamber key after verify-before-release. -/
  | sign (c : Nat)
  -- Recovery: tr is the transport (0 PF0, 1 I3C, 2 chain UP, 3 chain DOWN).
  /-- RCV_STATUS (R316): Recovery request for the recovery state. -/
  | rcvStatus (tr : Nat) (seq : BitVec 8) (target : Nat)
  /-- RCV_DATA (R318): Recovery chunk delivery, claiming or continuing a target. -/
  | rcvData (tr : Nat) (seq : BitVec 8) (target index : Nat) (data : List (BitVec 8))
  /-- RCV_END (R320): Ends a recovery transfer, answered after commit. -/
  | rcvEnd (tr : Nat) (seq : BitVec 8) (target : Nat)
  /-- RCV_ABORT (R318): The claimant abandons its recovery claim. -/
  | rcvAbort (tr : Nat) (seq : BitVec 8) (target : Nat)
  /-- RCV_TIMEOUT (R318): A recovery claim ends after 10 s without a claimant message. -/
  | rcvTimeout (target : Nat)
  -- Chain ports x (0 UP, 1 DOWN) and peloton time. t: the captured peloton time of the frame, in 2^-16 ns.
  /-- LINK_MODE_WRITE (R383): Sets a chain port off, serial or tunnel. -/
  | linkModeWrite (m x : Nat) (v : BitVec 32)
  /-- LINK_UP (R383): Block lock, matching HELLO and three delay measurements bring a link up. -/
  | linkUp (x : Nat)
  /-- BLOCK_LOCK_LOSS (R383): Block lock lost for 1 us takes the link down. -/
  | blockLockLoss (x : Nat)
  /-- HELLO_TIMEOUT (R383): No HELLO for 1 ms, or 100 ms tunnelled, takes the link down. -/
  | helloTimeout (x : Nat)
  /-- HELLO_INTERVAL (R383): A port sends HELLO every 100 us, or 10 ms tunnelled. -/
  | helloInterval (x : Nat)
  /-- HELLO (R383): Neighbour frame carrying peloton ID and WHEEL_DISABLE. -/
  | hello (x : Nat) (f : Frame)
  /-- DELAY_REQ (R401): Link delay request captured with peloton time. -/
  | delayReq (x : Nat) (f : Frame) (t : Nat)
  /-- DELAY_RESP (R401): Link delay response; the requester computes RTT and delay. -/
  | delayResp (x : Nat) (f : Frame) (t : Nat)
  /-- TIME (R404): Pacer time frame corrects the member's time and is regenerated. -/
  | time (x : Nat) (f : Frame) (t : Nat)
  /-- ROLL_CALL (R393): Broadcast roll call answered once per epoch. -/
  | rollCall (x : Nat) (f : Frame)
  /-- ROLL_ANSWER (R394): A member's answer collected by the caller. -/
  | rollAnswer (x : Nat) (f : Frame)
  /-- ROSTER (R395): Broadcast roster chunk naming members and pacer. -/
  | roster (x : Nat) (f : Frame)
  /-- PACER_ASSIGN (R396): Assigns the pacer role to a member. -/
  | pacerAssign (x : Nat) (f : Frame)
  /-- TOPO_CHANGE (R392): Broadcast link-state change prompting a roll call. -/
  | topoChange (x : Nat) (f : Frame)
  /-- RCV_MSG (R386): Recovery message carried in a chain frame. -/
  | rcvMsg (x : Nat) (f : Frame)
  /-- IMAGE_QUERY (R307): Asks a neighbour for a platform image by manifest digest. -/
  | imageQuery (x : Nat) (f : Frame)
  /-- IMAGE_OFFER (R385): Offers a platform image with digest and rollback counter. -/
  | imageOffer (x : Nat) (f : Frame)
  /-- CP_TX_GO (R389): Sends a frame from a transmit slot on the chosen ports. -/
  | cpTxGo (m k : Nat) (v : BitVec 32)
  /-- CP_TX_DONE (R389): A transmit slot finishes sending and sets DONE or ERR. -/
  | cpTxDone (k : Nat)
  /-- RX_FULL (R390): PF0 sets RX_FULL and the peer port takes the tunnelled frame. -/
  | rxFull (m x : Nat)
  /-- TX_FULL_CLEAR (R390): PF0 clears TX_FULL after relaying the outgoing frame. -/
  | txFullClear (m x : Nat)
  /-- SYNC_INTERVAL_TICK (R401): Each SYNC_INTERVAL sends DELAY_REQ, and on the pacer TIME. -/
  | syncIntervalTick
  /-- HOLDOVER (R403): Ten intervals without accepted TIME enter holdover. -/
  | holdover
  /-- ROLL_INTERVAL (R392): The caller sends ROLL_CALL, or a member resumes calling, each interval. -/
  | rollInterval
  /-- ROLL_WAIT (R394): After 100 ms the caller derives the topology and roster. -/
  | rollWait
  /-- PT_SET (R398): The pacer sets peloton time forward. -/
  | ptSet (m : Nat) (hi : BitVec 32)
  /-- ARM_FIRE (R405): Peloton time reaches PT_ARM; FIRED sets and PT_FIRE is raised. -/
  | armFire
  -- Firmware update; the frame carries the payload of R420, tr as for recovery.
  /-- UPD_OFFER (R421): An update offer answered from the member's update state. -/
  | updOffer (tr : Nat) (f : Frame)
  /-- UPD_ANSWER (R421): A neighbour's answer to an offer. -/
  | updAnswer (tr : Nat) (f : Frame)
  /-- UPD_CHUNK (R422): An update chunk checked, forwarded and applied. -/
  | updChunk (tr : Nat) (f : Frame)
  /-- UPD_STATUS (R419): Update status request over PF0 or I3C. -/
  | updStatus (tr : Nat)
  /-- UPD_REPORT (R426): A member's staging report to the pacer. -/
  | updReport (x : Nat) (f : Frame)
  /-- UPD_ARM (R427): Arms activation of a staged set at T. -/
  | updArm (x : Nat) (f : Frame)
  /-- UPD_ABORT (R426): Aborts staging of an unarmed set. -/
  | updAbort (x : Nat) (f : Frame)
  /-- UPD_TIMEOUT (R422): A claimed source making no progress for 10 s ends the claim. -/
  | updTimeout
  /-- FORWARD_RESEND (R423): A sender hearing nothing for 50 ms resends from NEXT. -/
  | forwardResend (x : Nat)
  /-- ARM_WAIT (R426): ARM_WAIT after the first STAGED report aborts the update. -/
  | armWait
  /-- ACTIVATION (R429): At PT_FIRE a member drains, commits, restarts the Hub and reports ACTIVATED. -/
  | activation
  -- Freezes and Flowstone.
  /-- FREEZE (R447): The freeze of a violating master arrives and acts per master kind. -/
  | freeze
  /-- UNFREEZE (R448): Hub-A releases a frozen master that has been reset since its freeze. -/
  | unfreeze (m : Nat) (v : BitVec 32)
  /-- RECORD_ARRIVAL (R455): A Flowstone record reaches the AON island and waits, or is dropped. -/
  | recordArrival (island : Nat)
  /-- RECORD_STORE (R456): A record is stored in the array, preceded by PAD if needed, or dropped. -/
  | recordStore
  /-- FS_FREEZE (R458): Sets the writer's FREEZE_HOLD bit; new records go to the holding FIFO. -/
  | fsFreeze (m : Nat)
  /-- FS_THAW (R458): Clears the writer's hold; the last clear starts the merge. -/
  | fsThaw (m : Nat)
  /-- MERGE_END (R458): The holding FIFO is fully merged and MERGING clears. -/
  | mergeEnd
  /-- FREEZE_TIMEOUT (R459): A freeze longer than FS_FREEZE_LIMIT clears both holds and thaws. -/
  | freezeTimeout
  /-- FS_RELEASE (R462): Sets FS_RD_PTR to a record boundary, or is refused. -/
  | fsRelease (m : Nat) (v : BitVec 32)
  /-- COMMIT (R464): Captures the span and raises INT_FS_COMMIT to Hub-B. -/
  | commit (m : Nat)
  /-- COMMIT_DONE (R464): Ends the commit, optionally releasing the captured span. -/
  | commitDone (m : Nat) (release : Bool)
  /-- DROPPED_CLR (R465): Clears FS_DROPPED. -/
  | droppedClr (m : Nat)
  /-- FS_SW_GO (R454): A Hub core sends a software-written record. -/
  | fsSwGo (m : Nat)
  -- Power, clocks and the Cadence governor.
  /-- PD_REQ_WRITE (R470): Hub-A requests domains on or off, latched during transitions. -/
  | pdReqWrite (m : Nat) (v : BitVec 32)
  /-- DOMAIN_ON (R472): A domain finishes ramp, lock and wipe and is reported ON. -/
  | domainOn (d : Nat)
  /-- DOMAIN_OFF (R471): A domain finishes its shutdown and is OFF. -/
  | domainOff (d : Nat)
  /-- DOMAIN_FAULT (R483): A domain not ON within twice its time returns to OFF and is logged. -/
  | domainFault (d : Nat)
  /-- WHEEL_FREQ_WRITE (R469): Changes a Wheel's clock step, stopping it for up to 1 us. -/
  | wheelFreqWrite (m j : Nat) (v : BitVec 32)
  /-- RELOCK_DONE (R469): The Wheel oscillator relocks and the Wheel runs at the new step. -/
  | relockDone (w : Nat)
  /-- CLOCK_FAULT (R468): An island losing lock for 1 us clears its lock bit and is logged. -/
  | clockFault (island : Nat)
  /-- WHEEL_PARK (R473): A non-warm Wheel holding only its base for 10 us parks. -/
  | wheelPark (w : Nat)
  /-- WHEEL_UNPARK (R473): A request for a parked Wheel obtains its base and restarts its oscillator. -/
  | wheelUnpark (w : Nat)
  /-- WHEEL_WARM_WRITE (R473): Sets or clears Wheel warm bits, unparking newly warm Wheels. -/
  | wheelWarmWrite (m : Nat) (v : BitVec 32)
  /-- GOVERNOR_REQUEST (R22): An admission request reaches the governor over a control passage. -/
  | governorRequest
  /-- GOVERNOR_DECISION (R477): Each AON cycle the governor grants class 0 requests, then up to 8 general requests. -/
  | governorDecision
  /-- ADMISSION_GRANT (R22): A grant arrives at the requester, which starts its work. -/
  | admissionGrant
  /-- RECOMPUTE_END (R477): The 20-cycle recompute window ends and decisions resume. -/
  | recomputeEnd
  /-- CURRENT_CEILING_WRITE (R479): Lowers the ceiling, starting a recompute window. -/
  | currentCeilingWrite (m : Nat) (v : BitVec 32)
  /-- ACTIVE (R480): PWR_REQ target ACTIVE. -/
  | active (m : Nat)
  /-- LOW (R480): PWR_REQ target LOW switches off the Wheel domains. -/
  | low (m : Nat)
  /-- STANDBY (R480): PWR_REQ target STANDBY, refused at OPEN-HUB. -/
  | standby (m : Nat)
  /-- DEEP (R480): PWR_REQ target DEEP holds platforms, closes the session and switches everything off. -/
  | deep (m : Nat)
  /-- POWER_SEQUENCE_DONE (R480): A power-state sequence ends and BUSY clears. -/
  | powerSequenceDone
  /-- WAKE_TIME (R481): Peloton time reaches WAKE_TIME with the timer enabled, a wake event. -/
  | wakeTime
  /-- PWR_WAKE (R481): A wake event returns the device from STANDBY or resets it from DEEP. -/
  | pwrWake (cause pin : Nat)
  -- I3C target.
  /-- ENTDAA (R509): I3C dynamic address assignment CCC. -/
  | entdaa (addr : BitVec 7)
  /-- SETDASA (R509): I3C set dynamic address from static address. -/
  | setdasa (addr : BitVec 7)
  /-- SETAASA (R509): I3C set all addresses to static addresses. -/
  | setaasa
  /-- ENEC (R509): I3C enable events CCC. -/
  | enec (events : BitVec 8)
  /-- DISEC (R509): I3C disable events CCC. -/
  | disec (events : BitVec 8)
  /-- RSTDAA (R509): I3C reset dynamic address, re-enabling the spike filter. -/
  | rstdaa
  /-- SETMWL (R509): I3C set maximum write length. -/
  | setmwl (n : Nat)
  /-- SETMRL (R509): I3C set maximum read length. -/
  | setmrl (n : Nat)
  /-- GETMWL (R509): I3C get maximum write length. -/
  | getmwl
  /-- GETMRL (R509): I3C get maximum read length. -/
  | getmrl
  /-- GETPID (R509): I3C get provisional ID. -/
  | getpid
  /-- GETBCR (R509): I3C get bus characteristics register. -/
  | getbcr
  /-- GETDCR (R509): I3C get device characteristics register. -/
  | getdcr
  /-- GETSTATUS (R509): I3C get status. -/
  | getstatus
  /-- GETMXDS (R509): I3C get maximum data speed. -/
  | getmxds
  /-- I3C_PRIVATE_WRITE (R510): A private write fills the receive buffer and raises INT_I3C. -/
  | i3cPrivateWrite (data : List (BitVec 8))
  /-- I3C_PRIVATE_READ (R510): A private read returns the buffered message and clears TX_GO. -/
  | i3cPrivateRead
  /-- TX_GO (R510): Hub-B marks a response ready and the target requests an IBI. -/
  | txGo (m : Nat) (v : BitVec 32)
  /-- RX_FULL_CLEAR (R510): Hub-B clears RX_FULL so the target accepts writes again. -/
  | rxFullClear (m : Nat)
  -- Drip, plain registers and late events.
  /-- SELFTEST (R520): Starts a Drip self-test on 4,096 fresh raw samples. -/
  | selftest (m : Nat)
  /-- SELFTEST_END (R520): The self-test ends, setting SELFTEST_PASS and clearing HEALTH_FAIL on a pass. -/
  | selftestEnd (pass : Bool)
  /-- HEALTH_FAIL (R520): A continuous health test fails, emptying the pool. -/
  | healthFail
  /-- DRIP_DATA (R520): Reads the next pool word, waiting briefly or returning zero with READ_EMPTY. -/
  | dripData (m : Nat)
  /-- REGISTER_WRITE (R8): A write to a register with no behaviour of its own, per its access code. -/
  | registerWrite (m addr : Nat) (v : BitVec 32)
  /-- JOB_BUFFER_WIPE_DONE (R347): The fabric finishes zeroing a Spoke's job buffer, and that Spoke becomes dispatchable again. -/
  | jobBufferWipeDone (c : Nat)
  /-- BLOCK_LOCK_ACQUIRED (R383): A chain-port receiver gains 64b/66b block lock and sets CP_STATUS.BLOCK_LOCK. -/
  | blockLockAcquired (x : Nat)
  /-- POWER_GOOD_RISE (R249): A POWER_GOOD input rises and the PG_STABLE count toward the power-good condition begins. -/
  | powerGoodRise (n : Nat)
  /-- AUX_TX_DONE (R508): The UART byte on LANTERN_AUX finishes transmitting and AUX_TXDATA.BUSY clears. -/
  | auxTxDone
  /-- BAD_FRAME (R387): A chain frame with a failing FCS or an undefined TYPE arrives and is dropped and counted. -/
  | badFrame (x : Nat) (f : Frame) (fcsOk : Bool)
  /-- ACCESS_ACKNOWLEDGED (R15): A destination island acknowledges an earlier posted access, releasing a waiting FENCE or clearing
  a BCAST_PENDING bit. -/
  | accessAcknowledged (c w : Nat)
  deriving DecidableEq, Repr

end Sys2Proof
end

