-- ==== Sys2Proof/Config.lean ====
section
/-! DEFINITION. What an implementation fixes and the values the spec leaves open: opaque constants without a body. -/

namespace Sys2Proof.Config

/-- The n-th value drawn from a source of randomness (R520); free. -/
opaque freeWord : Nat → W32

/-- Byte i of a `FINISH` output beyond the end of the algorithm's digest (R158, R160 state none); free. -/
opaque digestTail : (alg : Nat) → (digest : List Byte) → (i : Nat) → Byte

/-- Silicon revision and vendor code in Lantern's `IDCODE` (R217 gives neither). -/
opaque siliconRevision : BitVec 4
opaque vendorCode : BitVec 11

/-- Length of Lantern's boundary register in bits (R217 gives none). -/
opaque boundaryLength : Nat
/-- What the boundary register captures (R218): the levels of the PCTL pins and of the FWP_N pins, which it observes at
places that no rule gives, and the other pins, whose levels are free (the last argument). -/
opaque boundaryValue : (pctl : BitVec 12) → (fwp : BitVec 4) → (others : Nat) → Nat
/-- What a debugger shifts into the boundary register with `EXTEST` (R217): the command's row carries no data, so the word is
free, one per draw. -/
opaque boundaryIn : (draw : Nat) → Nat

/-- What a debugger does beside reading and writing the device map (R216, R220). -/
inductive Debug where
  | halt (core : Nat)
  | resume (core : Nat)
  | step (core : Nat)
  | reset (core : Nat)
  | readReg (core reg : Nat)
  /-- Direct SRAM BIST access to a word of device memory. -/
  | sram (addr : Nat)
  /-- An OTP word as the tight-1 or the tight-0 threshold senses it. -/
  | otp (word : Nat) (tight1 : Bool)
  /-- A word of Crank operand memory. -/
  | operand (w index : Nat)
  deriving DecidableEq, Repr

/-- The addresses of an `LN_ACCESS` by which a debugger asks for these actions: R216 and R220 grant them, and no rule gives
them a place in the device map. -/
opaque debugAction : (addr : BitVec 40) → Option Debug

/-- An ECDSA P-384 signature (r, s) over a SHA-384 digest verifies under a public point (x, y): R221, R241, R362 name the
algorithm, no rule defines it. -/
opaque ecdsaP384 : (key digest sig : List Byte) → Bool

/-- An ML-DSA-65 signature over a message with an empty context string verifies under a public key (R221, R241). -/
opaque mldsa65 : (key msg sig : List Byte) → Bool

/-- A configuration-space word of a PCIe function that nothing has written: the base specification's headers and
capabilities, whose contents R323 and R325 do not give. -/
opaque configWord : (f off : Nat) → W32

/-- The parts of an SPDM response that depend on the device's own key pair and on the requester (R328): capability and
algorithm encodings, certificates, signatures, exchange data. -/
opaque spdmBody : (code param : Nat) → List Byte

/-- The Heltor firmware key digest that the ROM holds (R240), 48 bytes. -/
opaque heltorKeyDigest : List Byte

/-- Byte a of the Hub ROM; no rule lists its contents. -/
opaque romByte : (a : Nat) → Byte

/-- The entry point that a firmware manifest names (R245); R413 gives it no field. -/
opaque entryPoint : (manifest : List Byte) → W64

/-- The vector that the shipped firmware on Hub-A writes for Hub-B (R64, R247). -/
opaque hubBVector : W64

/-- What the Basic Flash Parameter Table of the device flash gives for 4S-4D-4D reads (R239): the opcodes of the 4-4-4
enable sequence, the DTR 4-4-4 read opcode, its wait states; and how the flash answers: none where the table lacks the
signature, a field or DTR support. -/
structure FlashTable where
  enable : List Nat
  readOpcode : Nat
  dummy : Nat
  deriving DecidableEq, Repr
opaque flashTable : Option FlashTable

/-- The peloton ID that the ROM gives the chain block in recovery listen (R316, R383 give none). -/
opaque romPelotonId : BitVec 64

/-! What the owner's platform configuration (the body of the `CONFIG` part) says of platform p; R307, R308, R412, R425 and
R426 name these items, no rule gives their layout. -/

/-- The platform signing-key digest, 48 bytes (R412). -/
opaque platformKeyDigest : (config : List Byte) → (p : Nat) → List Byte
/-- The platform's rollback floor (R308). -/
opaque platformFloor : (config : List Byte) → (p : Nat) → Nat
/-- The manifest digest of the image that the neighbours are asked for, 48 bytes (R307). -/
opaque wantedManifest : (config : List Byte) → (p : Nat) → List Byte
/-- Address and length of the staging region; length 0 where none is named (R425). -/
opaque stagingBase : (config : List Byte) → (p : Nat) → Nat
opaque stagingLength : (config : List Byte) → (p : Nat) → Nat
/-- `ARM_WAIT` and `ARM_LEAD` in ms where the configuration gives them (R426, R427). -/
opaque armWait : (config : List Byte) → Option Nat
opaque armLead : (config : List Byte) → Option Nat
/-- The conversion of a configuration body to another `CFG_VERSION` (R435). -/
opaque convertConfig : (config : List Byte) → (version : Nat) → List Byte

/-- Byte a of the flash on chip select `cs` of port p, outside the block, after `n` commands that may have changed it. -/
opaque attachedByte : (p cs n a : Nat) → Byte
/-- Flash address of platform p's image manifest in the owner's configuration (R252), and address and length of the
recovery region that a platform manifest names (R307; R413 gives it no field). -/
opaque manifestAddr : (config : List Byte) → (p : Nat) → Nat
opaque recoveryRegion : (manifest : List Byte) → Option (Nat × Nat)
/-- Address of the copy on chip select B in the owner's configuration (R307). -/
opaque copyAddr : (config : List Byte) → (p : Nat) → Option Nat
/-- Flash address of the image bytes of source 1 or 2, whose container names where they belong (R307, R413). -/
opaque sourceBase : (container : List Byte) → (k : Nat) → Nat
/-- The size of the device flash (R307). -/
opaque deviceFlashSize : Nat
/-- The policy that Hub firmware puts into a gatekeeper's scratch from `0x8000` on (R304). -/
opaque gatekeeperPolicy : (config : List Byte) → (p : Nat) → List Byte
/-- The device flash beyond its first 16 MiB (R234, R307). -/
opaque deviceFlashByte : (a : Nat) → Byte
/-- The erase size and opcode that SFDP or the owner's configuration gives for port p (R309). -/
opaque eraseSize : (p : Nat) → Nat
opaque eraseOpcode : (p : Nat) → Nat
/-- `TRACK_CFG`, `TRACK_CFG2` and `OWN_CFG_A` that SFDP, or where it lacks a field the owner's configuration, gives for
port p; none where the flash answers no SFDP signature (R252, R263). -/
opaque portSetup : (config : List Byte) → (p n : Nat) → Option (W32 × W32 × W32)

/-- Chunk k of the operation stream of a set that a member offers from its slot: no slot stores the stream (R410) and no
rule says where a later offer (R424) takes it from. -/
opaque streamChunk : (digest : List Byte) → (k : Nat) → List Byte

/-- What the owner's platform configuration says of a function: it is listed as a signer (R357). -/
opaque isSigner : (config : List Byte) → (f : Nat) → Bool
/-- What the header of a program pack declares (R377): the Wheels that it is for, its owner services with release kind SIGN,
the shipped ones, its longest run in Crank cycles and its scratch footprint. -/
structure Pack where
  wheels : W32
  services : List (Nat × Bool)
  shipped : Bool
  run : Nat
  footprint : Nat
  deriving DecidableEq, Repr
/-- The header of a pack; R377 gives it no layout. -/
opaque packHeader : (pack : List Byte) → Option Pack

/-- The keys that layer 1 derives from CDI_1 for Chamber slots 2 and 3 (R177 names them, no rule gives the derivation). -/
opaque layerOneKey : (slot : Nat) → (cdi : List Byte) → List Byte

/-! The public-key algorithms of the trust services (R360), which the spec names by their standards. -/

/-- A signature verifies: `ALG`, the message is a digest (`MODE` 1), public key, message, signature. -/
opaque verifies : (alg : Nat) → (digest : Bool) → (key msg sig : List Byte) → Bool
/-- The signature that the library makes from a private key, a message or digest and 32 B of Drip output. -/
opaque signature : (alg : Nat) → (digest : Bool) → (key msg rnd : List Byte) → List Byte
/-- The public key of a private one. -/
opaque publicKey : (alg : Nat) → (key : List Byte) → List Byte
/-- Length of an `RSA_CRT` key of the right size (R376 gives no encoding). -/
opaque rsaCrtLength : (alg : Nat) → Nat
/-- ML-KEM-768 encapsulation with randomness m: shared secret and ciphertext. -/
opaque mlkemEncaps : (key m : List Byte) → List Byte × List Byte
/-- X25519. -/
opaque x25519 : (scalar u : List Byte) → List Byte
/-- ML-KEM randomness (0) and X25519 scalar (1) expanded from the ephemeral seed (R374 gives no expansion). -/
opaque expandSeed : (seed : List Byte) → (i : Nat) → List Byte

end Sys2Proof.Config
end

