-- ==== Sys2Proof/Machine/State.lean ====
section
/-! DEFINITION. The state of the block as plain data. Control registers, bank registers and queue contexts live in
one map from device physical address to word (R514, R518); what stands behind the registers (cores, Cranks, lanes,
keys, fuses, queues of waiting work, records) has structures of its own. An index that a map does not list holds its
reset value. -/

namespace Sys2Proof.Machine

/-- A map with a default: pairs with rising keys, no entry at its default value. -/
abbrev SMap (β : Type) := List (Nat × β)

/-- What a core is doing (R31, R58, R60, R85 to R89). -/
inductive RunState where
  /-- In reset (R60). -/
  | reset
  /-- Released; waiting for the governor's token before its first instruction (R22, R474). -/
  | admitting
  /-- Leaving `WAIT`, `WAIT.JOB` or `HUBCALL`; waiting for the token (R85, R86, R89). -/
  | readmitting
  /-- The token has come; the next instruction issues at `WAIT_END` (R85). -/
  | granted
  | running
  /-- `FENCE` holds issue (R88). -/
  | fence
  | wait
  /-- `WAIT.JOB d` (R86). -/
  | waitJob (d : Nat)
  /-- `HUBCALL d` (R89). -/
  | hubcall (d : Nat)
  /-- Halted (R58). -/
  | halted
  deriving DecidableEq, Repr

/-- A Spoke, gatekeeper or Hub core (R30, R59). -/
structure Core where
  run : RunState := .reset
  /-- Its clock is stopped by a freeze (R447). -/
  frozen : Bool := false
  /-- It was reset after its freeze (R448). -/
  resetSinceFreeze : Bool := false
  /-- Reset count modulo 4 (R449). -/
  resetCount : Nat := 0
  /-- Halted by a Lantern session (R220, R226). -/
  lnHalted : Bool := false
  /-- A store waits for a full Crank FIFO (R132). -/
  stalled : Bool := false
  /-- It holds its active token; the token is of the class 0 reserve (R474, R475). -/
  holds : Bool := false
  tokenC0 : Bool := false
  /-- k1 to k7. -/
  kregs : SMap W64 := []
  /-- The physical window file. -/
  window : SMap W64 := []
  pc : W64 := 0
  /-- Logical positions (R32). -/
  wp : Nat := 0
  bot : Nat := 0
  /-- Frame record of each physical group that carries one (R34). -/
  records : SMap (Option W64) := []
  /-- Groups and records in the spill area (R37). -/
  spilled : Nat := 0
  spilledRecords : Nat := 0
  spillBase : W32 := 0xF000
  spillLimit : W32 := 0x10000
  ctrl : W32 := 0
  excInfo : W32 := 0
  excPc : W64 := 0
  excFpc : W64 := 0
  excAddr : W64 := 0
  excBase : W32 := 0
  intEnable : W32 := 0
  intPending : W32 := 0
  cycle : W64 := 0
  timerCmp : W64 := 0xFFFFFFFFFFFFFFFF
  timerArmed : Bool := true
  /-- Hub interrupt enable of `INTOFF` and `INTON` (R92). -/
  hubIntEnable : Bool := false
  /-- Posted accesses not yet acknowledged (R15, R88). -/
  unacked : Nat := 0
  /-- Service number and value of the request that waits (R89). -/
  hubRequest : Option (BitVec 12 × W64) := none
  deriving DecidableEq, Repr

/-- A Hub core's own privileged registers (R115, R336, R519). -/
structure HubRegs where
  wheelGroupMask : W32 := 0
  bcastPending : W32 := 0
  /-- Broadcast writes not yet acknowledged by each Wheel (R115). -/
  bcastOut : SMap Nat := []
  queueGroupMask : BitVec 256 := 0
  queueBcast : Nat := 0
  deriving DecidableEq, Repr

/-- A claim that waits for a Crank context or a lane (R121, R155). -/
structure Claim where
  master : Nat
  cls : Nat
  sign : Bool
  deriving DecidableEq, Repr

/-- States of R123. -/
inductive CtxState where
  | free | waiting | running | yielded | wiping | failed | error
  deriving DecidableEq, Repr

/-- A Crank context (R119, R151). -/
structure Ctx where
  state : CtxState := .free
  holder : Nat := 0
  /-- The holder's job when it was granted (R131, R140). -/
  job : Option Nat := none
  cls : Nat := 0
  sign : Bool := false
  laneMode : Bool := false
  requested : Bool := false
  admitted : Bool := false
  /-- A `MODE` to lane waits for 4 more tokens (R128). -/
  growing : Bool := false
  tokens : Nat := 0
  verifyPhase : Bool := false
  /-- 0 none, 1 PASS, 2 FAIL. -/
  verdict : Nat := 0
  range : Option (Nat × Nat) := none
  declassified : Bool := false
  sXferCount : Nat := 0
  completed : Nat := 0
  errIndex : Nat := 0
  errCode : Nat := 0
  taintAcc : Bool := false
  taintLane : Bool := false
  taintSel : Bool := false
  acc : BitVec 640 := 0
  laneAcc : SMap (BitVec 80) := []
  temps : SMap W32 := []
  sel : W64 := 0
  /-- Doublewords of P (0 to 2047) and S (2048 to 4095). -/
  area : SMap W64 := []
  fifo : List W64 := []
  /-- Crank cycles since the last multiply-accumulate (R133). -/
  macAge : Nat := 4
  /-- Pushes that wait for a full FIFO (R132). -/
  overflow : List W64 := []
  cmdLo : W32 := 0
  deriving DecidableEq, Repr

/-- A Crank (R119, R124, R126). -/
structure Crank where
  a : Ctx := {}
  b : Ctx := {}
  claims : List Claim := []
  rotate : Nat := 0
  /-- Crank cycles of the running job since its last yield point (R126). -/
  sinceYield : Nat := 0
  overrunLogged : Bool := false
  deriving DecidableEq, Repr

/-- What waits in a lane's input (R158). -/
inductive LaneItem where
  /-- A command word; `rom`: Hub-A wrote it while it fetched from Hub ROM (R177). -/
  | cmd (w : W32) (rom : Bool)
  | data (bytes : List Byte)
  /-- A write to a register of the lane: its offset and `size` bytes. -/
  | write (off size : Nat) (v : W64)
  deriving DecidableEq, Repr

/-- States of `LANE_STATUS` (R180). -/
inductive LaneState where
  | free | ready | busy | finished | error | wiping
  deriving DecidableEq, Repr

/-- A Cassette lane (R155 to R169). -/
structure Lane where
  state : LaneState := .free
  holder : Nat := 0
  cls : Nat := 0
  sign : Bool := false
  claims : List Claim := []
  rotate : Nat := 0
  requested : Bool := false
  admitted : Bool := false
  yieldReq : Bool := false
  alg : Nat := 0
  /-- A message was started (R159). -/
  started : Bool := false
  midstate : List Byte := []
  buffer : List Byte := []
  absorbed : Nat := 0
  declared : W64 := 0
  taint : Bool := false
  deriveOk : Bool := false
  hold : List Byte := []
  holdTaint : Bool := false
  holdDerive : Bool := false
  matchP : Bool := false
  matchN : Bool := false
  result : List Byte := []
  expected : SMap Byte := []
  slot : Nat := 0
  err : Nat := 0
  ctxImage : SMap Byte := []
  wrapImage : SMap Byte := []
  queue : List LaneItem := []
  /-- The `FINISH` under way. -/
  finishing : Option W32 := none
  deriving DecidableEq, Repr

/-- States of R171. -/
inductive SlotState where
  | empty | reserved | loaded
  deriving DecidableEq, Repr

/-- A Chamber slot; the key of an extent is held at its first slot (R170, R171). -/
structure Slot where
  state : SlotState := .empty
  attr : W32 := 0
  /-- First slot of the extent. -/
  head : Nat := 0
  key : List Byte := []
  /-- Master that allocated it and that master's job number then (R526). -/
  allocBy : Nat := 0
  allocJob : Option Nat := none
  deriving DecidableEq, Repr

/-- A master's bank of Chamber command registers (R174, R181). -/
structure ChBank where
  arg0 : W32 := 0
  arg1 : W32 := 0
  arg2 : W32 := 0
  busy : Bool := false
  code : Nat := 0
  result : W32 := 0
  resultHi : W32 := 0
  deriving DecidableEq, Repr

/-- An unwrap buffer in use (R176). -/
structure UnwrapBuf where
  master : Nat
  kek : Nat
  attr : W32
  length : Nat
  fed : List Byte
  /-- The requester's job when it claimed the buffer (R176, R526). -/
  job : Option Nat := none
  deriving DecidableEq, Repr

/-- A Chamber transfer on its way to a Crank (R131, R175). -/
structure Xfer where
  master : Nat
  wheel : Nat
  ctx : Nat
  /-- Index in S where the key goes. -/
  index : Nat
  key : List Byte
  /-- The requester's job (R131). -/
  job : Option Nat := none
  deriving DecidableEq, Repr

structure Chamber where
  slots : SMap Slot := []
  banks : SMap ChBank := []
  unwraps : List UnwrapBuf := []
  xfers : List Xfer := []
  deriveCtx : Byte := 0
  deriving DecidableEq, Repr

/-- A running OTP command (R204, R206). -/
structure OtpCmd where
  op : Nat
  addr : Nat
  data : W32
  deriving DecidableEq, Repr

/-- The fuse array and its controller (R183 to R206). -/
structure Otp where
  /-- Cells that read 1 at the tight-0 threshold, by word: main 0 to 1023, spare rows 1024 to 1151, redirection 1152 to 1163. -/
  cells : SMap (BitVec 39) := []
  /-- Marginal cells (R185). -/
  marginal : SMap (BitVec 39) := []
  /-- Resolved redirection entries: entry to row (R188). -/
  redirect : SMap (Option Nat) := []
  command : Option OtpCmd := none
  /-- A slot 0 load waits for the running command (R205). -/
  slot0Waiting : Bool := false
  pumpOn : Bool := false
  deriving DecidableEq, Repr

/-- A life-cycle transition under way (R213). -/
structure Transition where
  target : Nat
  step : Nat
  deriving DecidableEq, Repr

/-- Life cycle and Lantern (R208 to R228). -/
structure Lifecycle where
  transition : Option Transition := none
  /-- Blocks of the user-data region that failed their erase (R215). -/
  eraseFailed : List Nat := []
  /-- A transition was completed at the sensing before the device reset under way (R214, R227). -/
  resumed : Bool := false
  /-- Rights of the open session (R226). -/
  session : Option W32 := none
  challenge : Option (List Byte) := none
  /-- A requested challenge waits for Drip (R222, R520). -/
  challengeAsked : Bool := false
  certBuffer : SMap Byte := []
  certPending : Bool := false
  /-- Who made the submission that is pending, as `CERT_CLAIM` numbers it, and the challenge it used (R222, R223). -/
  certFrom : Nat := 0
  certChallenge : Option (List Byte) := none
  /-- What `EXTEST` last put into the boundary register (R217, R218), a free value (log 83). -/
  extest : Nat := 0
  /-- Lantern's instruction register and its selection state (R217). -/
  ir : BitVec 5 := 1
  selected : Bool := true
  /-- Freezes of Lantern so far: a refusal issued before its latest one belongs to that freeze (R24, R447). -/
  freezes : Nat := 0
  deriving DecidableEq, Repr

/-- Phase of a start (R229). -/
inductive BootPhase where
  /-- PORST_N low, or a supply hold. -/
  | held
  | sensing
  | up
  deriving DecidableEq, Repr

/-- Where the ROM is (R229 to R245, R316). -/
inductive RomPhase where
  /-- Hub-A has not started. -/
  | off
  /-- The domains and Drip power up (R230, R231). -/
  | power
  /-- Drip's self-test runs, for the second time if `again` (R230). -/
  | selfTest (again : Bool)
  /-- It chooses and loads a slot (R237). -/
  | choose
  /-- It runs nothing further: SCRAP (R229), Drip failed (R230), or no transport enabled (R316). -/
  | stopped
  /-- Recovery listen (R316). -/
  | listen
  /-- It jumped to the firmware (R245). -/
  | left
  deriving DecidableEq, Repr

/-- Reset sources and boot (R229 to R246, R443, R487 to R489). -/
structure Boot where
  rom : RomPhase := .off
  phase : BootPhase := .held
  porstLow : Bool := true
  /-- Supply monitors that hold the device: 0 VDD_CORE, 1 VDD_SRAM, 2 VDDIO, 3 VDD_AON. -/
  railHolds : List Nat := []
  /-- VDD_AON rose from below retention since the last rise of PORST_N (R460). -/
  aonUp : Bool := true
  straps : BitVec 2 := 0
  /-- `FW_MEASURE` (R177), 48 bytes. -/
  fwMeasure : SMap W32 := []
  measureLock : Bool := false
  bootInfo : W32 := 0
  bootGen : W32 := 0
  /-- The mode that the ROM reads the device flash in, and leaves it in (R238, R239). -/
  flashMode : Nat := 0
  /-- The shipped firmware completed the device half since it was entered (R247). -/
  fwDone : Bool := false
  /-- The vector that Hub-A wrote for Hub-B, and Hub-A's release of Hub-B (R64). -/
  hubBVector : W64 := 0
  hubBGo : Bool := false
  deriving DecidableEq, Repr

/-- A platform's counters that no register shows (R249). -/
structure Platform where
  /-- Every power-good input has been high since its last rise and PG_STABLE runs (R249). -/
  pgCounting : Bool := false
  pgStable : Bool := false
  delayDone : Bool := false
  /-- `PLAT_SEQ_p` as it is in effect: a change while the platform is released waits for the next hold (R249). -/
  seq : W32 := 0
  deriving DecidableEq, Repr

/-- A host transaction in flight (R259 to R269). -/
structure HostTxn where
  /-- 0 taken, 1 deselect violation, 2 quiet violation. -/
  kind : Nat := 0
  decided : Bool := false
  opcode : Nat := 0
  cont : Bool := false
  addr : Nat := 0
  /-- The entry that decided, `ACTION` `DENY` and class `REGWRITE` where R285 makes it so. -/
  entry : W32 := 0
  denied : Bool := false
  substituted : Bool := false
  window : Nat := 127
  tag : Nat := 0
  logged : Bool := false
  /-- The bank that decided; 2 for the static table. -/
  bank : Nat := 0
  modeByte : Byte := 0xFF
  /-- HCS_N rose before the decision, after these data bytes (R269). -/
  ended : Option Nat := none
  deriving DecidableEq, Repr

/-- A table change that the shipped program makes; `reply` is the message that it answers (R304, R305). -/
inductive GkChange where
  | boot
  | lockdown (reply : Option Nat)
  | limit (tag : Nat)
  | interval
  | openWindow (tag ms : Nat)
  | closeWindow (reply : Option Nat)
  deriving DecidableEq, Repr

/-- The shipped gatekeeper program of a port (R304). -/
structure GkProgram where
  lockdown : Bool := false
  /-- Tag of the open update window. -/
  window : Option Nat := none
  /-- Time in ms that the open window may last. -/
  windowMs : Nat := 0
  /-- Tags whose erase limit was reached in this interval. -/
  limited : List Nat := []
  /-- Message whose change waits for its swap. -/
  reply : Option Nat := none
  /-- A change waits for `INT_TABLE_SWAPPED`; those that follow wait behind it. -/
  waiting : Bool := false
  todo : List GkChange := []
  deriving DecidableEq, Repr

/-- A flash port beyond its registers (R258 to R306). -/
structure Port where
  txn : Option HostTxn := none
  /-- A brake is under way (R270). -/
  brake : Bool := false
  /-- The last passed opcode was `0x66` (R262). -/
  resetArmed : Bool := false
  /-- The own-command slot that holds the bus (R274). -/
  owner : Option Nat := none
  lastSlot : Nat := 1
  /-- Address of the last braked transaction. -/
  brakeAddr : Nat := 0
  /-- Tick of the last `EARLY_DATA` record (R282). -/
  earlyAt : Option Nat := none
  /-- A mailbox message that the gatekeeper has not taken (R303). -/
  mail : Bool := false
  tlog : List (List W32) := []
  tlogLost : Bool := false
  /-- Audited blocks that wait for their entry: address and digest (R255). -/
  pendingAudits : List (Nat × List Byte) := []
  gk : GkProgram := {}
  /-- Start of the millisecond in which the last sweep read ended, in ticks, and the bus time in port clocks that sweeps
  used in it (R279). -/
  sweepFrom : Nat := 0
  sweepUsed : Nat := 0
  /-- Gatekeeper scratch (R62). -/
  scratch : List Host.Cell := []
  deriving DecidableEq, Repr

/-- An entry of the MSI-X pool (R329). -/
structure Vector32 where
  address : W64 := 0
  data : W32 := 0
  masked : Bool := true
  pending : Bool := false
  deriving DecidableEq, Repr

/-- A PCIe function beyond its registers (R326, R334, R447). -/
structure Func where
  busMaster : Bool := false
  flr : Bool := false
  frozen : Bool := false
  resetSinceFreeze : Bool := false
  /-- Reset count modulo 4 (R449). -/
  resetCount : Nat := 0
  msixEnabled : Bool := false
  msixMasked : Bool := false
  config : SMap W32 := []
  deriving DecidableEq, Repr

/-- A fetched submission entry that waits for dispatch (R340, R341). -/
structure Entry where
  cid : Nat
  irq : Bool
  ordered : Bool
  op : Nat
  payloadAddr : Nat
  payloadLen : Nat
  resultCap : Nat
  resultAddr : Nat
  raw : List Byte
  payload : Option (List Byte)
  deriving DecidableEq, Repr

/-- A job on a Spoke (R344 to R348). -/
structure Job where
  number : Nat
  queue : Nat
  group : Nat
  func : Nat
  cls : Nat
  sign : Bool
  service : Nat
  entry : Entry
  /-- The job has ended: 0 by `WAIT.JOB`, 1 aborted. -/
  ended : Option Nat := none
  timedOut : Bool := false
  declassified : Bool := false
  wipeFault : Bool := false
  highWater : Nat := 128
  deriving DecidableEq, Repr

/-- A command of the Z512's own on a flash bus (R215, R238, R274). -/
structure FlashCmd where
  port : Nat
  cs : Nat
  opcode : Nat
  addr : Option Nat := none
  /-- Protocol as `OWN_CFG` codes it (R281); 4 is 4S-4S-4S (R215). -/
  proto : Nat := 0
  /-- A 4-byte address, dummy clocks, `CLK_DIV`. -/
  addr4 : Bool := false
  dummy : Nat := 0
  clkDiv : Nat := 16
  /-- A mode byte between address and dummy clocks (R238). -/
  modeByte : Option Byte := none
  /-- Bytes that the command reads, and bytes that it writes. -/
  read : Nat := 0
  bytes : List Byte := []
  deriving DecidableEq, Repr

/-- What leaves the block: the model's own trace of its outputs. -/
inductive Out where
  /-- A write to host memory by the queue fabric: function, address, bytes. -/
  | hostWrite (f addr : Nat) (bytes : List Byte)
  /-- An MSI-X message: function, vector of the pool. -/
  | msix (f vector : Nat)
  /-- A completion of a PCIe configuration or BAR request. -/
  | pcie (status : Nat) (v : W32)
  /-- Answer of the SPDM responder or of IDE_KM. -/
  | spdm (code : Nat) (bytes : List Byte)
  /-- A chain frame leaving port x. -/
  | frame (x : Nat) (f : Frame)
  /-- A recovery or update response on a transport: type, sequence, state, code, next. -/
  | response (tr rtype seq state code next : Nat)
  /-- Bits that Lantern shifts out. -/
  | lantern (bits : Nat) (v : Nat)
  /-- Bytes that the I3C target drives; `none` for not acknowledged. -/
  | i3c (bytes : Option (List Byte))
  /-- A byte on LANTERN_AUX. -/
  | uart (v : Byte)
  /-- A value that a read returned to a master. -/
  | readData (m : Nat) (v : W64)
  /-- A command of the Z512's own on a flash bus. -/
  | flash (c : FlashCmd)
  /-- FCS_A_N of port p falls, and FCLK copies HCLK (R259); or it rises (R269). -/
  | flashSelect (p : Nat) (low : Bool)
  /-- The injected FCLK cycle of a brake and the bits it adds: a full pulse, or one edge after a DTR phase (R268). -/
  | flashBrake (p bits : Nat) (edge : Bool)
  /-- The data phase of a host transaction (R259, R265 to R267, R270): `toHost` its direction, `passed` bytes as the other
  side drives them, then `ones` bytes that the host reads as 0xFF. -/
  | hostData (p : Nat) (toHost : Bool) (passed ones : Nat)
  /-- An interrupt to Hub firmware that no core register holds. -/
  | hubInt (name : String) (arg : Nat)
  deriving DecidableEq, Repr

/-- Queue fabric and PCIe controller beyond their registers (R323 to R355). -/
structure Fabric where
  funcs : SMap Func := []
  vectors : SMap Vector32 := []
  fetched : SMap (List Entry) := []
  jobs : SMap (Option Job) := []
  jobCount : Nat := 0
  /-- Spokes whose job buffer is being wiped (R347). -/
  wiping : List Nat := []
  /-- The governor's token granted in advance is in hand (R350, R475). -/
  preGrant : Bool := true
  spdm : Bool := false
  ideKeys : SMap (BitVec 256) := []
  ideGo : List Nat := []
  rcvData : SMap Byte := []
  /-- Writes that wait for their function's Bus Master Enable (R343). -/
  deferred : List (Nat × Out) := []
  deriving DecidableEq, Repr

/-- A policy entry (R372). -/
structure PolicyEntry where
  slot : Nat
  maxAge : Nat
  refsetId : Nat
  deriving DecidableEq, Repr

/-- What the trust services keep beside the shared banks of R363 (R366 to R372). -/
structure Services where
  /-- Chunks of each `SET_ID` received so far (R366). -/
  staging : SMap (List Byte) := []
  /-- Storage of replaced versions: offset, length, peloton time in ns from which it may be used again (R366). -/
  retired : List (Nat × Nat × Nat) := []
  policies : SMap (List PolicyEntry) := []
  /-- Ticket key slots of each group: EC and PQ (R371). -/
  ticketKeys : SMap (Option (Nat × Nat)) := []
  ticketSeq : Nat := 0
  bootNonce : List Byte := []
  deriving DecidableEq, Repr

/-- States of R317. -/
inductive RcvState where
  | idle | listen | claimed | receiving | entering
  deriving DecidableEq, Repr

/-- A recovery target (R316 to R321). -/
structure RcvTarget where
  state : RcvState := .idle
  claimant : Option Nat := none
  next : Nat := 0
  code : Nat := 0
  container : List Byte := []
  deriving DecidableEq, Repr

/-- Where the shipped firmware stands with a platform (R252, R307 to R310). `ep` is the epoch under which the verification
or the attempt began; source `k` is one of R307, or 0 for the staging region (R425); `i` counts what is done: first the
manifest, then each 4 KiB block, or each erase block. -/
inductive PlatWork where
  | verify (ep i : Nat)
  /-- The image failed: source `k` is next. -/
  | next (k ep : Nat)
  /-- Source 1 or 2 is checked. -/
  | source (k ep i : Nat)
  /-- Source 3: an image from outside is waited for. -/
  | outside (ep : Nat)
  /-- The primary range is rewritten from source `k`. -/
  | write (k ep i : Nat)
  /-- The range was rewritten from source `k`: it is verified again. -/
  | recheck (k ep i : Nat)
  /-- Verified, or every source failed: nothing more until the next hold. -/
  | rest (ep : Nat)
  deriving DecidableEq, Repr

/-- Recovery (R307 to R322). -/
structure Recovery where
  /-- The firmware's work on each platform (R252, R307). -/
  work : SMap (Option PlatWork) := []
  /-- Images from outside that are being written: header, manifest and table, then the image (R307 to R309). -/
  outside : SMap (List Byte × List Byte) := []
  targets : SMap RcvTarget := []
  /-- Chunks 0 and 1 of each transport and target (R318). -/
  headers : SMap (List Byte) := []
  /-- Attempt of each platform for which the neighbours were asked, counted from 1 (R307). -/
  asked : SMap Nat := []
  deriving DecidableEq, Repr

/-- A chain port beyond its registers (R383, R390, R402). -/
structure ChainPort where
  frozen : Bool := false
  resetSinceFreeze : Bool := false
  /-- Reset count modulo 4 (R449). -/
  resetCount : Nat := 0
  /-- Completed delay measurements (R383). -/
  delays : Nat := 0
  /-- Capture time of the outstanding `DELAY_REQ` (R401). -/
  reqSent : Option Nat := none
  /-- Advertised bound, hops and pacer of the last `TIME` on this side (R403). -/
  bound : Option (Nat × Nat) := none
  neighbour : Option (BitVec 128) := none
  tunTx : List Byte := []
  tunRx : SMap Byte := []
  /-- Frames that wait for `TX_FULL` to clear (R390). -/
  tunWait : List Frame := []
  deriving DecidableEq, Repr

/-- Chain ports, membership and time sync (R382 to R409). -/
structure Chain where
  ports : SMap ChainPort := []
  /-- Duplicate table: source, sequence, type; newest first (R387). -/
  seen : List (BitVec 128 × BitVec 16 × BitVec 8) := []
  seq : Nat := 0
  /-- Roll call state of the shipped Hub-B (R392 to R396). -/
  caller : Bool := true
  heardCaller : Option (BitVec 128) := none
  /-- Intervals since that caller was last heard (R393). -/
  heardAge : Nat := 0
  missed : Nat := 0
  epoch : Nat := 0
  answered : Option Nat := none
  collecting : Bool := false
  answers : List (BitVec 128 × List Byte) := []
  roster : List (BitVec 128) := []
  /-- The roster's topology is a ring (R395). -/
  ring : Bool := false
  /-- Roster chunks of the epoch being received. -/
  rosterParts : SMap (List (BitVec 128)) := []
  /-- Members missing from the last roster. -/
  missing : List (BitVec 128) := []
  deriving DecidableEq, Repr

/-- The peloton timebase beyond its registers (R397 to R404). -/
structure Timebase where
  /-- Peloton time in 2^-16 ns. -/
  now : Nat := 0
  accepted : Nat := 0
  /-- Negative correction still to absorb, in 2^-16 ns (R404). -/
  slow : Nat := 0
  bound : Nat := 0
  /-- What is left of the rate correction below 2^-16 ns, in 2^-40 of that (R397). -/
  residue : Nat := 0
  /-- Peloton time at the entry to `HOLDOVER` (R403). -/
  heldAt : Nat := 0
  deriving DecidableEq, Repr

/-- Update states of R421. -/
inductive UpdState where
  | idle | claiming | staging | staged | armed | conflict
  deriving DecidableEq, Repr

/-- A firmware set as the update protocol names it (R411, R421). -/
structure FwSet where
  digest : List Byte
  manifestDigest : List Byte
  rollback : Nat
  floor : Nat
  deriving DecidableEq, Repr

/-- A source whose header Hub-B is receiving after `UPD_ACCEPT` (R421). -/
structure UpdCandidate where
  tr : Nat
  set : FwSet
  total : Nat
  header : List Byte
  deriving DecidableEq, Repr

/-- Firmware update of the shipped Hub-B (R419 to R435). -/
structure Update where
  state : UpdState := .idle
  /-- The running set, its slot, and the generation and floor of the binding copy. -/
  active : FwSet := { digest := [], manifestDigest := [], rollback := 0, floor := 0 }
  activeSlot : Nat := 0
  generation : Nat := 0
  minRollback : Nat := 0
  /-- The running set has a valid first-start record (R434). -/
  firstStartDone : Bool := false
  candidate : Option UpdCandidate := none
  claim : Option FwSet := none
  source : Nat := 0
  total : Nat := 0
  container : List Byte := []
  /-- One more try of a chunk that mismatched was asked for (R436). -/
  retried : Bool := false
  /-- The claim can be checked and forwarded but not staged (R422 step 2). -/
  baseMismatch : Bool := false
  /-- The slot was read back and matches; `STAGED` waits for `LOCKED` or `PACER` (R422 step 5). -/
  built : Bool := false
  withdrawn : List (List Byte) := []
  /-- Neighbours that accept chunks: `NEXT` as last reported, and the next chunk to send (R423). -/
  forward : SMap (Option (Nat × Nat)) := []
  /-- Code of a neighbour's last answer (R424). -/
  lastAnswer : SMap (Option Nat) := []
  /-- Reports the pacer holds: member, digest, report (R426). -/
  reports : List (BitVec 128 × List Byte × Nat) := []
  /-- The pacer has sent `UPD_ARM` for its armed set (R426, R427). -/
  armedAny : Bool := false
  armTime : Option Nat := none
  armSeq : Nat := 0
  conflictRollback : Nat := 0
  /-- Dispatch is stopped and the activation goes on as the Wheels drain and the bus is free (R429). -/
  activating : Bool := false
  /-- The activation under way is a late one (R431); a delayed one has its record (R428). -/
  late : Bool := false
  delayed : Bool := false
  /-- Images in the staging regions, and platforms whose part waits for the next hold (R425). -/
  images : SMap (List Byte) := []
  platformParts : List Nat := []
  deriving DecidableEq, Repr

/-- A Flowstone record (R452): source, type, payload words, TIME and the flags. -/
structure Record where
  source : Nat
  rtype : Nat
  payload : List W32
  time : Nat := 0
  lost : Bool := false
  merged : Bool := false
  deriving DecidableEq, Repr

/-- Flowstone beyond its registers (R452 to R465). -/
structure Flowstone where
  /-- Records raised and not yet in the AON island, with their island (R455). -/
  raised : List (Nat × Record) := []
  arrived : List (Nat × Record) := []
  fifo : List Record := []
  /-- A record was dropped since the last stored one (R457). -/
  lostPending : Bool := false
  /-- A record was dropped from the FIFO since the last one held (R458). -/
  holdLost : Bool := false
  merging : Bool := false
  swHeader : SMap W32 := []
  swData : SMap W32 := []
  deriving DecidableEq, Repr

/-- A violation on its way to the firewall (R24, R447). -/
structure Violation where
  master : Nat
  kind : Nat
  addr : Nat
  /-- Reset count the access carried (R449). -/
  resetCount : Nat
  deriving DecidableEq, Repr

/-- Firewall (R444 to R450). -/
structure Firewall where
  pending : List Violation := []
  deriving DecidableEq, Repr

/-- What a governor request starts when it is granted (R474). -/
inductive Work where
  | preGrant
  | spoke (c : Nat)
  | ctx (w x : Nat)
  | ctxGrow (w x : Nat)
  | lane (l : Nat)
  | wheelBase (w : Nat)
  | ramp (d : Nat)
  deriving DecidableEq, Repr

/-- A governor request (R22, R474, R475). -/
structure Request where
  work : Work
  tokens : Nat
  class0 : Bool
  /-- Tick at which it reached the governor. -/
  raisedAt : Nat := 0
  deriving DecidableEq, Repr

/-- Account that pays a running Wheel's base cost (R476). -/
inductive Base where
  | none | general | reserve
  deriving DecidableEq, Repr

/-- Cadence governor beyond its registers (R474 to R479). -/
structure Governor where
  raised : List Request := []
  waiting : List Request := []
  granted : List Request := []
  general : Nat := 0
  /-- Reserve tokens in use, the pre-grant included (R475). -/
  reserve : Nat := 1
  recompute : Bool := false
  recomputeJoined : Bool := false
  /-- Ceiling that decisions use until the recompute window ends (R479). -/
  appliedCeiling : Nat := 1120
  bases : SMap Base := []
  /-- Wheels whose base waits to move to the general pool (R476). -/
  moving : List Nat := []
  deriving DecidableEq, Repr

/-- Domain states of R470; `PENDING_ON` is `stopping` with the request bit set. -/
inductive DomState where
  | off | starting | on | stopping
  deriving DecidableEq, Repr

/-- A device power-state sequence under way (R480). -/
structure PowerSeq where
  target : Nat
  deriving DecidableEq, Repr

/-- Power controller beyond its registers (R470 to R481). -/
structure Power where
  domains : SMap DomState := []
  /-- Wheel domain that ramps, and those that wait in order (R472). -/
  ramping : Option Nat := none
  rampQueue : List Nat := []
  /-- Wheels whose oscillator is stopped (R473); parked unless listed. -/
  parked : SMap Bool := []
  relocking : List Nat := []
  current : Nat := 0
  seq : Option PowerSeq := none
  deferred : Option Nat := none
  /-- Wake events that wait: cause bit and PCTL pin (R481). -/
  wakes : List (Nat × Nat) := []
  /-- PD_30 is in retention (R440). -/
  hubRetention : Bool := false
  /-- A domain request latched while a sequence runs (R480). -/
  latchedReq : Option W32 := none
  deriving DecidableEq, Repr

/-- A Wheel DMA slot's progress (R113). -/
structure Wdma where
  moved : Nat := 0
  /-- The master that wrote `GO`: the Spoke itself or a Hub core (R95, R112). -/
  starter : Nat := 0
  deriving DecidableEq, Repr

/-- I3C target beyond its registers (R509, R510). -/
structure I3c where
  /-- Static address and instance in effect (R510). -/
  staticAddr : Nat := 0x4C
  instId : Nat := 0
  maxWrite : Nat := 256
  maxRead : Nat := 256
  rx : List Byte := []
  tx : SMap Byte := []
  ibiPending : Bool := false
  /-- The MCTP message under way: its first transport header, and its bytes so far (R316, R509). -/
  header : List Byte := []
  message : List Byte := []
  deriving DecidableEq, Repr

/-- Drip beyond its registers (R520). -/
structure Drip where
  pool : List W32 := []
  testing : Bool := false
  deriving DecidableEq, Repr

/-- The whole block. -/
structure State where
  /-- Commands that wait, first in, first out. -/
  pending : List Instr := []
  /-- Free values drawn so far (the model's own counter). -/
  draws : Nat := 0
  /-- AON cycles that have passed (the model's own clock). -/
  ticks : Nat := 0
  /-- Outputs so far (the model's own trace). -/
  out : List Out := []
  /-- Device memory: Hub SRAM, shared banks, Spoke scratch, Wheel pools, by device physical address (R514). -/
  mem : List Host.Cell := []
  /-- The device flash on chip select B of FP_0 as the ROM and the shipped firmware use it; erased bytes read `0xFF`
  (R234, R417). -/
  flash : SMap Byte := []
  /-- How often a command that may change the flash on a chip select went onto its bus, by port for chip select A and by
  4 + port for B (the model's own counter: what such a flash holds is free, and free anew after each such command). -/
  flashGen : SMap Nat := []
  /-- Control registers, bank registers and queue contexts, by device physical address. -/
  regs : SMap W32 := []
  /-- Captured high halves, by reading master and address (R7). -/
  shadows : SMap (Option W32) := []
  cores : SMap Core := []
  hubs : SMap HubRegs := []
  wdma : SMap Wdma := []
  /-- Rotation of each Wheel's DMA engine (R112). -/
  wdmaNext : SMap Nat := []
  /-- Rotating pointer of each bank (R108). -/
  bankNext : SMap Nat := []
  /-- Banks whose starved DMA request is already recorded (R107). -/
  starved : List Nat := []
  cranks : SMap Crank := []
  lanes : SMap Lane := []
  chamber : Chamber := {}
  otp : Otp := {}
  lc : Lifecycle := {}
  boot : Boot := {}
  platforms : SMap Platform := []
  ports : SMap Port := []
  fabric : Fabric := {}
  svc : Services := {}
  rcv : Recovery := {}
  chain : Chain := {}
  time : Timebase := {}
  upd : Update := {}
  fs : Flowstone := {}
  fw : Firewall := {}
  gov : Governor := {}
  pwr : Power := {}
  /-- Filtered levels of the PCTL pins (R506). -/
  pins : SMap Bool := []
  i3c : I3c := {}
  drip : Drip := {}
  deriving DecidableEq, Repr

/-- The block held by PORST_N after power-up (R31, R200, R229, R460): every register at its reset value, every domain
off, nothing stored, no command waiting. -/
def State.reset : State := {}

/-- A meaning never faults: the spec gives every event an effect on the state (a violation freezes its master, R24,
R447; a fatal one resets the device, R443), so no constructor is needed and a run never ends here. -/
inductive Fault
  deriving DecidableEq, Repr

/-- Why a command has no meaning. -/
inductive Refusal where
  /-- Raised by an arm of the dispatch whose command is not modelled; safe (the run ends). -/
  | notModelled (mnemonic : String)
  deriving DecidableEq, Repr

end Sys2Proof.Machine
end

