-- ==== Sys2Proof/Machine/Regs.lean ====
section
/-! DEFINITION. The control registers (R514, R518): which bits software writes (R8) and what each register holds after
its reset. Offsets that no row lists read zero and ignore writes (R6). Registers whose value follows from the state
behind them (core, Crank, lane and domain states) are computed where they are read. -/

namespace Sys2Proof.Machine

/-- What a software write may do to a register, and its reset value. -/
structure RegInfo where
  /-- Bits that take the written value (RW). -/
  rw : W32 := 0
  /-- Bits that clear where 1 is written (W1C). -/
  w1c : W32 := 0
  reset : W32 := 0
  deriving DecidableEq, Repr

/-- A row of a register table: `count` registers from offset `base`, `stride` apart. -/
structure RegRow where
  name : String
  base : Nat
  count : Nat
  stride : Nat
  info : RegInfo
  deriving DecidableEq, Repr

/-- The row's registers include the offset. -/
def RegRow.has (r : RegRow) (off : Nat) : Bool :=
  r.base ≤ off && off < r.base + r.count * r.stride && (off - r.base) % r.stride = 0

/-- The entry of a table for an offset. -/
def tableFind (t : List RegRow) (off : Nat) : RegInfo :=
  match t with
  | [] => {}
  | r :: t => if r.has off then r.info else tableFind t off

/-- One register of a table. -/
def row (name : String) (off : Nat) (rw w1c : W32 := 0) (reset : W32 := 0) : RegRow :=
  { name, base := off, count := 1, stride := 4, info := { rw, w1c, reset } }

/-- An array of registers. -/
def rows (name : String) (off count stride : Nat) (rw w1c : W32 := 0) (reset : W32 := 0) : RegRow :=
  { name, base := off, count, stride, info := { rw, w1c, reset } }

/-- All 32 bits. -/
def all32 : W32 := 0xFFFFFFFF

/-- Power and Cadence governor (R482). -/
def powerTable : List RegRow :=
  [ row "PWR_STATE" 0x000,
    row "PWR_WAKE_EN" 0x008 0x0FFF000C 0 0x1,
    row "PWR_WAKE_CAUSE" 0x00C 0 0x0FFF000D,
    rows "WAKE_TIME" 0x010 2 4 all32,
    row "PD_REQ" 0x020 0x7FFFFFFF 0 0x48000000,
    row "WHEEL_WARM" 0x040 all32 0 0x3,
    rows "WHEEL_FREQ" 0x048 4 4,
    rows "ISLAND_LOCK" 0x060 2 4,
    row "CURRENT_CEILING" 0x100 0 0 1120,
    row "GOV_WARN_US" 0x114 0xFFFF 0 100,
    row "GOV_MAX_WAIT_US" 0x118 ]

/-- Platform control (R257, R312, R506, R508). -/
def platTable : List RegRow :=
  [ rows "PLAT_CTRL" 0x000 4 0x40 0x1,
    rows "PLAT_RELEASE_COND" 0x004 4 0x40 0x3C 0 0x11,
    rows "PLAT_STATUS" 0x008 4 0x40 0 0xC00,
    rows "PLAT_SEQ" 0x010 4 0x40 0xFFFFF003,
    rows "PG_STABLE" 0x014 4 0x40 0xFFFFF 0 0x2710,
    rows "PLAT_RECOVERY" 0x018 4 0x40 0x70F 0 0x3,
    rows "PCTL_CFG" 0x100 12 4,
    row "PCTL_EVENTS" 0x140 0 0x10FFF,
    row "AUX_CFG" 0x144 0x13 ]

/-- One-time-programmable array (R206). -/
def otpTable : List RegRow :=
  [ row "OTP_ADDR" 0x004 0x3FF,
    row "OTP_WDATA" 0x008 all32,
    row "OTP_STATUS" 0x010 0 0x40000000,
    row "OTP_EVENTS" 0x020 0 0x7 ]

/-- Life cycle and Lantern (R227); `CERT_CLAIM` and the buffer follow their holder. -/
def lcTable : List RegRow :=
  [ row "CERT_LEN" 0x064 0x1FFF ]

/-- Chamber shared registers (R181). -/
def chamberTable : List RegRow :=
  [ row "CH_EVENTS" 0x104 0 0x1 ]

/-- Firewall and freeze (R450), and the shared-bank registers (R98, R101, R105). -/
def fwTable : List RegRow :=
  [ row "FREEZE_EVENTS" 0x004 0 0x1,
    rows "BANK_OWNER" 0x1000 64 0x10 0 0 0x200,
    rows "BANK_SHARE" 0x1004 64 0x10 all32,
    rows "BANK_STATUS" 0x1008 64 0x10 0 0x10000 0x200 ]

/-- Flowstone control (R465). -/
def fsTable : List RegRow :=
  [ row "FS_STATUS" 0x000 0 0x2000000,
    row "FS_FREEZE_LIMIT" 0x028 0xFFFF 0 1000 ]

/-- Peloton timebase (R408). -/
def ptTable : List RegRow :=
  [ row "PT_CTRL" 0x008 0x3,
    row "PT_STATUS" 0x00C 0 0x100,
    row "PT_ERR_BOUND" 0x010 0 0 all32,
    row "SYNC_INTERVAL" 0x018 0xFFFF 0 1000,
    rows "PT_ARM" 0x030 2 4 all32,
    row "PT_ARM_CTRL" 0x038 0x1 0x2,
    rows "PT_PACER_UID" 0x040 4 4 all32 ]

/-- Registers of one chain port (R407). -/
def chainPortTable : List RegRow :=
  [ row "CP_CTRL" 0x000 0x103,
    row "CP_EVENTS" 0x008 0 0x3,
    row "CP_RX_BASE_LO" 0x030 0xFFFFE000,
    row "CP_RX_BASE_HI" 0x034 all32,
    row "CP_RX_SLOTS" 0x038 0x3F,
    row "CP_RX_TAIL" 0x040 0x3F,
    rows "CP_TX_ADDR_LO" 0x100 4 0x10 all32,
    rows "CP_TX_ADDR_HI" 0x104 4 0x10 all32,
    rows "CP_TX_LEN" 0x108 4 0x10 0x1FFF,
    rows "CP_TX_CTRL" 0x10C 4 0x10 0x300 0x6,
    row "TUN_CTRL" 0x200 0x8FFF0000 0x1,
    row "TUN_RX_LEN" 0x208 0x1FFF ]

/-- Common registers of the chain block (R407). -/
def chainTable : List RegRow :=
  [ rows "CHAIN_PELOTON_ID" 0x2010 2 4 all32 ]

/-- Drip (R520). -/
def dripTable : List RegRow :=
  [ row "DRIP_CTRL" 0x000 0x1 0 0x1,
    row "DRIP_STATUS" 0x004 0 0x200 ]

/-- I3C target (R511). -/
def i3cTable : List RegRow :=
  [ row "I3C_CFG" 0x000 0x807F0F00 0 0x804C0000,
    row "I3C_RX_LEN" 0x010 0 0x80000000,
    row "I3C_TX_CTRL" 0x014 0x1FF ]

/-- Flash port (R281, R306) but for its rule tables; `PORT_CTRL` of FP_0 differs. -/
def portTable (p : Nat) : List RegRow :=
  [ row "PORT_ID" 0x000 0 0 (BitVec.ofNat 32 p),
    row "PORT_CTRL" 0x004 (if p = 0 then 0xF09 else 0xF0D) 0 (if p = 0 then 0x5 else 0x1),
    row "PORT_STATUS" 0x008 0 0xF0,
    row "TRACK_CFG" 0x010 all32,
    row "TRACK_CFG2" 0x014 0x5F1F 0 0x1800,
    rows "OWN_CFG" 0x020 2 4 0x3FFF30 0 0x300,
    row "OWN_CLK" 0x028 0x1F 0 0x10,
    rows "OWN_CMD" 0x040 2 0x20 0xFF03FF,
    rows "OWN_ADDR" 0x044 2 0x20 all32,
    rows "OWN_LEN" 0x048 2 0x20 0x1FFF,
    rows "OWN_BUF_LO" 0x04C 2 0x20 0xFFFFFFF8,
    rows "OWN_BUF_HI" 0x050 2 0x20 all32,
    rows "OWN_STATUS" 0x054 2 0x20 0 0x6,
    row "SWEEP_CFG" 0x080 0x1FF 0 0x10,
    row "SWEEP_POS" 0x084 0xFFFF,
    rows "AUDIT_TABLE" 0x0A0 2 4 all32,
    row "AUDIT_IMAGE_BASE" 0x0A8 0xFFFFF000,
    row "AUDIT_BLOCKS" 0x0AC 0xFFFF,
    row "TABLE_CTRL" 0x3000 0x300 0 0x100,
    row "TABLE_STATUS" 0x3004 0 0x30,
    row "SPOKE_VECTOR" 0x3200 0xFFFE,
    row "RELEASE_COND" 0x3204 0xF 0 0x5,
    rows "GK_RELEASE_TIME" 0x3214 2 4 all32,
    row "GK_SCRATCH_PAGE" 0x321C 0x3,
    rows "GK_MAILBOX_IN" 0x3220 2 4 all32,
    rows "GK_MAILBOX_OUT" 0x3228 2 4 all32,
    row "GK_EVENTS" 0x3230 0 0x6 ]

/-- An opcode entry of R284. -/
def opEntry (action cls addr addrW dataW mode dummy dir extent : Nat) : W32 :=
  BitVec.ofNat 32 (action <<< 30 ||| cls <<< 27 ||| addr <<< 24 ||| addrW <<< 22 ||| dataW <<< 20 ||| mode <<< 19 |||
    dummy <<< 13 ||| dir <<< 12 ||| extent <<< 7)

/-- The opcode entry that both banks hold after a reset (R292). -/
def opDefault (n : Nat) : W32 :=
  if n = 0x03 then opEntry 0 0 1 0 0 0 0 0 0
  else if n = 0x0B then opEntry 0 0 1 0 0 0 8 0 0
  else if n = 0x6B then opEntry 0 0 1 0 1 0 8 0 0
  else if n = 0xEB then opEntry 0 0 1 1 1 1 4 0 0
  else if n = 0xED then opEntry 0 0 1 2 2 0 8 0 0
  else if n = 0x13 then opEntry 0 0 3 0 0 0 0 0 0
  else if n = 0x0C then opEntry 0 0 3 0 0 0 8 0 0
  else if n = 0x6C then opEntry 0 0 3 0 1 0 8 0 0
  else if n = 0xEC then opEntry 0 0 3 1 1 1 4 0 0
  else if n = 0xEE then opEntry 0 0 3 2 2 0 8 0 0
  else if n = 0x02 then opEntry 0 1 1 0 0 0 0 1 8
  else if n = 0x32 then opEntry 0 1 1 0 1 0 0 1 8
  else if n = 0x12 then opEntry 0 1 3 0 0 0 0 1 8
  else if n = 0x34 then opEntry 0 1 3 0 1 0 0 1 8
  else if n = 0x20 then opEntry 0 2 1 0 0 0 0 0 12
  else if n = 0x52 then opEntry 0 2 1 0 0 0 0 0 15
  else if n = 0xD8 then opEntry 0 2 1 0 0 0 0 0 16
  else if n = 0x21 then opEntry 0 2 3 0 0 0 0 0 12
  else if n = 0x5C then opEntry 0 2 3 0 0 0 0 0 15
  else if n = 0xDC then opEntry 0 2 3 0 0 0 0 0 16
  else if n = 0x60 || n = 0xC7 then opEntry 0 2 0 0 0 0 0 0 31
  else if n = 0x5A then opEntry 0 4 2 0 0 0 8 0 0
  else if [0x05, 0x15, 0x70, 0x9F, 0xAB].contains n then opEntry 0 4 0 0 0 0 0 0 0
  else if [0x04, 0x06, 0x30, 0x50, 0x66, 0x75, 0x7A, 0x99, 0xB0, 0xB9].contains n then opEntry 0 4 0 0 0 0 0 0 0
  else if [0x3B, 0x3C, 0x48, 0xBB, 0xBC].contains n then opEntry 1 4 0 0 0 0 0 0 0
  else opEntry 1 3 0 0 0 0 0 1 0

/-- A word of a port's rule tables: opcode entries and the three words of each window, which hold the reserved bits that
R285 and R287 act on, default permissions (R284, R292, R306). -/
def ruleInfo (off : Nat) : RegInfo :=
  if off < 0x1800 then { rw := all32, reset := opDefault ((off - 0x1000) % 0x400 / 4) }
  else if 0x2000 ≤ off && off < 0x2800 && off % 16 < 12 then { rw := all32 }
  else if off = 0x2800 || off = 0x2804 then { rw := 0xF, reset := 0x1 }
  else {}

/-- Flash port registers and tables. -/
def portInfo (p off : Nat) : RegInfo :=
  if 0x1000 ≤ off && off < 0x3000 then ruleInfo off else tableFind (portTable p) off

/-- PCIe host block (R354). -/
def hostTable : List RegRow :=
  [ row "ADMIN_SQ_BASE_LO" 0x010 0xFFFFF000,
    row "ADMIN_SQ_BASE_HI" 0x014 all32,
    row "ADMIN_CQ_BASE_LO" 0x018 0xFFFFF000,
    row "ADMIN_CQ_BASE_HI" 0x01C all32,
    row "ADMIN_CFG" 0x020 0x8FF00FFF,
    row "DIAG_BASE_LO" 0x040 0xFFFFFFE0,
    row "DIAG_BASE_HI" 0x044 all32,
    row "DIAG_CFG" 0x048 0x800F0FFF,
    row "DIAG_CONS" 0x050 0xFFF,
    row "RCV_CTRL" 0x2000 0 0x2,
    rows "RCV_REQ" 0x2010 4 4 all32 ]

/-- Queue fabric (R355). -/
def qfTable : List RegRow :=
  [ row "QF_CTRL" 0x004,
    row "QF_STATUS" 0x008 0 0x3,
    row "JOB_LIMIT_US" 0x00C 0xFFFFFF 0 20000,
    row "WHEEL_DISPATCH" 0x010 all32 ]

/-- Queue contexts (R331); words 0 to 6 but for `EN` are written only while the queue is off. -/
def qctxInfo (off : Nat) : RegInfo :=
  match off % 64 / 4 with
  | 0 => { rw := 0xFFFFF000 }
  | 1 => { rw := all32 }
  | 2 => { rw := 0xFFFFF000 }
  | 3 => { rw := all32 }
  | 4 => { rw := 0xFFF70FFF }
  | 5 => { rw := 0xFFFF00FF }
  | 6 => { rw := all32 }
  | 7 => { rw := 0xFF, reset := 1 }
  | 8 => { rw := all32 }
  | 10 => { reset := 0x80000000 }
  | _ => {}

/-- Wheel control block (R116) and `CRANK_CTRL` (R151), by Wheel window offset. -/
def wheelTable : List RegRow :=
  [ row "CRANK_CTRL" 0x30C004 0x0FFF0007 0 0x09600000,
    row "WHEEL_CTRL" 0x320004 0x1,
    rows "RELEASE_TIME" 0x320010 2 4 all32,
    rows "POOL_OWNER" 0x320020 4 4 0 0 0x200,
    rows "POOL_STATUS" 0x320030 4 4 0 0x10000 0x200,
    rows "SPOKE_VECTOR" 0x320100 16 0x10 0xFFFE,
    rows "RELEASE_COND" 0x320104 16 0x10 0xF 0 0x7,
    rows "RELEASE_STATUS" 0x320108 16 0x10,
    rows "WDMA_SRC_LO" 0x320200 16 0x20 all32,
    rows "WDMA_SRC_HI" 0x320204 16 0x20 all32,
    rows "WDMA_DST_LO" 0x320208 16 0x20 all32,
    rows "WDMA_DST_HI" 0x32020C 16 0x20 all32,
    rows "WDMA_LEN" 0x320210 16 0x20 0x7FFFF,
    rows "WDMA_CTRL" 0x320214 16 0x20 0 0x4 ]

/-- The block of the control area at `0x40nn_0000` (R518). -/
def controlInfo (blk off : Nat) : RegInfo :=
  match blk with
  | 0 => tableFind powerTable off
  | 1 => tableFind platTable off
  | 2 => tableFind otpTable off
  | 3 => tableFind lcTable off
  | 4 => tableFind chamberTable off
  | 6 => tableFind fwTable off
  | 7 => tableFind fsTable off
  | 8 => tableFind ptTable off
  | 9 => if off < 0x2000 then tableFind chainPortTable (off % 0x1000) else tableFind chainTable off
  | 10 => tableFind dripTable off
  | 11 => tableFind i3cTable off
  | 16 => portInfo 0 off
  | 17 => portInfo 1 off
  | 18 => portInfo 2 off
  | 19 => portInfo 3 off
  | 32 => tableFind hostTable off
  | _ => {}

/-- What a register at a device physical address is. -/
def regInfo (a : Nat) : RegInfo :=
  if 0x40000000 ≤ a && a < 0x40210000 then controlInfo ((a - 0x40000000) / 0x10000) (a % 0x10000)
  else if 0x200000000 ≤ a && a < 0x220000000 then tableFind wheelTable (a % 0x1000000)
  else if 0x500000000 ≤ a && a < 0x500200000 then qctxInfo (a - 0x500000000)
  else if 0x502000000 ≤ a && a < 0x502000100 then tableFind qfTable (a - 0x502000000)
  else if 0x502000100 ≤ a && a < 0x502000900 then
    (if a % 8 = 0 then { rw := 0x1 } else { rw := 0x0FFF0FFF })
  else {}

/-- A register's value after its reset. -/
def regReset (a : Nat) : W32 := (regInfo a).reset

/-! ### Addresses of registers -/

def aPwr (off : Nat) : Nat := 0x40000000 + off
def aPlat (p off : Nat) : Nat := 0x40010000 + 0x40 * p + off
def aPctlCfg (n : Nat) : Nat := 0x40010100 + 4 * n
def aOtp (off : Nat) : Nat := 0x40020000 + off
def aLc (off : Nat) : Nat := 0x40030000 + off
def aCh (off : Nat) : Nat := 0x40040000 + off
def aFw (off : Nat) : Nat := 0x40060000 + off
def aFs (off : Nat) : Nat := 0x40070000 + off
def aPt (off : Nat) : Nat := 0x40080000 + off
def aChain (x off : Nat) : Nat := 0x40090000 + 0x1000 * x + off
def aDrip (off : Nat) : Nat := 0x400A0000 + off
def aI3c (off : Nat) : Nat := 0x400B0000 + off
def aPort (p off : Nat) : Nat := 0x40100000 + 0x10000 * p + off
def aHost (off : Nat) : Nat := 0x40200000 + off
def aWheel (w off : Nat) : Nat := 0x200000000 + 0x1000000 * w + off
def aQctx (q word : Nat) : Nat := 0x500000000 + 64 * q + 4 * word
def aQf (off : Nat) : Nat := 0x502000000 + off
def aFunc (f : Nat) : Nat := 0x502000100 + 8 * f

end Sys2Proof.Machine
end

