-- ==== Sys2Proof/Machine/Ops.lean ====
section
/-! DEFINITION. The shared operations: maps with a default, bit fields, bytes, memory, registers, cores, interrupts,
Flowstone records, violations, tokens and outputs. -/

namespace Sys2Proof.Machine

/-! ### Maps with a default -/

/-- The entry at `k`, or the default `d`. -/
def smGet {β : Type} : SMap β → Nat → β → β
  | [], _, d => d
  | (j, v) :: m, k, d => if k = j then v else smGet m k d

/-- Remove the entry at `k`. -/
def smDel {β : Type} (m : SMap β) (k : Nat) : SMap β := m.filter fun e => e.1 != k

/-- Put an entry at `k`, keeping the keys rising. -/
def smIns {β : Type} : SMap β → Nat → β → SMap β
  | [], k, v => [(k, v)]
  | (j, w) :: m, k, v =>
    if k < j then (k, v) :: (j, w) :: m
    else if k = j then (k, v) :: m
    else (j, w) :: smIns m k v

/-- Write `v` at `k`; an entry equal to the default `d` is not kept. -/
def smSet {β : Type} [DecidableEq β] (m : SMap β) (k : Nat) (d v : β) : SMap β :=
  if v = d then smDel m k else smIns m k v

/-- Remove the entries of `[lo, hi)`. -/
def smDrop {β : Type} (m : SMap β) (lo hi : Nat) : SMap β := m.filter fun e => e.1 < lo || hi ≤ e.1

/-- The canonical form: keys strictly rising, no entry at its default. -/
def smWf {β : Type} [DecidableEq β] (d : Nat → β) : SMap β → Bool
  | [] => true
  | (k, v) :: m => (m.all fun e => k < e.1) && (v != d k) && smWf d m

/-! ### Bit fields and bytes -/

/-- `len` bits from bit `lo`, as a number. -/
def fld (w : W32) (lo len : Nat) : Nat := (w.toNat >>> lo) % 2 ^ len

/-- `w` with `len` bits from bit `lo` replaced by `v`. -/
def setFld (w : W32) (lo len v : Nat) : W32 :=
  (w &&& ~~~(BitVec.ofNat 32 ((2 ^ len - 1) <<< lo))) ||| BitVec.ofNat 32 ((v % 2 ^ len) <<< lo)

/-- Bit `i` of a word. -/
def bitOf (w : W32) (i : Nat) : Bool := w.getLsbD i

/-- A bit as a number. -/
def b2n (b : Bool) : Nat := if b then 1 else 0

/-- A bit as a 64-bit word. -/
def b2w (b : Bool) : W64 := if b then 1 else 0

/-- A natural as a 32-bit word. -/
def w32 (n : Nat) : W32 := BitVec.ofNat 32 n

/-- `n` bytes of `v`, least significant first. -/
def leBytes : Nat → Nat → List Byte
  | 0, _ => []
  | n + 1, v => BitVec.ofNat 8 v :: leBytes n (v / 256)

/-- The number that little-endian bytes spell. -/
def leNat : List Byte → Nat
  | [] => 0
  | b :: bs => b.toNat + 256 * leNat bs

/-- `n` bytes of `v`, most significant first. -/
def beBytes (n v : Nat) : List Byte := (leBytes n v).reverse

/-- `n` zero bytes. -/
def zeros (n : Nat) : List Byte := List.replicate n 0

/-- Bytes cut or filled with zeros to `n`. -/
def fitBytes (n : Nat) (bs : List Byte) : List Byte := bs.take n ++ zeros (n - bs.length)

/-- Bytes `[off, off + n)` of a list, zeros beyond its end. -/
def slice (bs : List Byte) (off n : Nat) : List Byte := fitBytes n (bs.drop off)

/-- The little-endian number at `[off, off + n)`. -/
def field (bs : List Byte) (off n : Nat) : Nat := leNat (slice bs off n)

/-- Bytes as little-endian 32-bit words, the last one filled with zeros. -/
def toWords (bs : List Byte) : List W32 :=
  (List.range ((bs.length + 3) / 4)).map fun i => w32 (field bs (4 * i) 4)

/-- A 64-bit value as two words, low word first (R452). -/
def words64 (v : Nat) : List W32 := [w32 v, w32 (v / 2 ^ 32)]

/-- The 64-bit value of a `_LO` and `_HI` pair (R7). -/
def pair64 (lo hi : W32) : Nat := lo.toNat + 2 ^ 32 * hi.toNat

/-! ### Memory (R96: an unlisted byte reads zero) -/

/-- The canonical form of a memory: addresses strictly rising, no listed byte zero. -/
def Memory.wf (m : List Host.Cell) : Bool := smWf (fun _ => 0) m

/-- A byte of device memory. -/
def rdByte (s : State) (a : Nat) : Byte := smGet s.mem a 0

/-- Write a byte of device memory. -/
def wrByte (s : State) (a : Nat) (v : Byte) : State := { s with mem := smSet s.mem a 0 v }

/-- `n` bytes of memory from `a`. -/
def rdBytes (s : State) (a : Nat) : Nat → List Byte
  | 0 => []
  | n + 1 => rdByte s a :: rdBytes s (a + 1) n

/-- Write bytes to memory from `a`. -/
def wrBytes (s : State) : Nat → List Byte → State
  | _, [] => s
  | a, b :: bs => wrBytes (wrByte s a b) (a + 1) bs

/-- An `n`-byte little-endian value of memory. -/
def rdMem (s : State) (a n : Nat) : Nat := leNat (rdBytes s a n)

/-- Write an `n`-byte little-endian value to memory. -/
def wrMem (s : State) (a n v : Nat) : State := wrBytes s a (leBytes n v)

/-- Zero the memory of `[lo, hi)`: a wipe (R96, R102, R347). -/
def wipeMem (s : State) (lo hi : Nat) : State := { s with mem := smDrop s.mem lo hi }

/-! ### Registers -/

/-- A register's value, by device physical address. -/
def reg (s : State) (a : Nat) : W32 := smGet s.regs a (regReset a)

/-- Set a register, as hardware does. -/
def setReg (s : State) (a : Nat) (v : W32) : State := { s with regs := smSet s.regs a (regReset a) v }

/-- A field of a register. -/
def regF (s : State) (a lo len : Nat) : Nat := fld (reg s a) lo len

/-- A bit of a register. -/
def regB (s : State) (a i : Nat) : Bool := bitOf (reg s a) i

/-- Set a field of a register. -/
def setRegF (s : State) (a lo len v : Nat) : State := setReg s a (setFld (reg s a) lo len v)

/-- Set or clear a bit of a register. -/
def setRegB (s : State) (a i : Nat) (v : Bool) : State := setRegF s a i 1 (b2n v)

/-- Set a 64-bit pair. -/
def setPair (s : State) (a v : Nat) : State := setReg (setReg s a (w32 v)) (a + 4) (w32 (v / 2 ^ 32))

/-- A 64-bit pair. -/
def regPair (s : State) (a : Nat) : Nat := pair64 (reg s a) (reg s (a + 4))

/-- Give the registers of `[lo, hi)` their reset values. -/
def resetRegs (s : State) (lo hi : Nat) : State := { s with regs := smDrop s.regs lo hi }

/-- What a software write leaves in a register by its access codes (R8): plain bits take the written value, W1C bits
clear where 1 is written, all other bits stay. -/
def accessWrite (i : RegInfo) (old v : W32) : W32 :=
  (old &&& ~~~i.rw &&& ~~~(i.w1c &&& v)) ||| (v &&& i.rw)

/-- A software write to a register without behaviour of its own (R6, R8). -/
def plainWrite (s : State) (a : Nat) (v : W32) : State := setReg s a (accessWrite (regInfo a) (reg s a) v)

/-! ### Outputs and free values -/

/-- Append to the trace of outputs. -/
def emitOut (s : State) (o : Out) : State := { s with out := s.out ++ [o] }

/-- Draw a free word. -/
def drawWord (s : State) : W32 × State := (Config.freeWord s.draws, { s with draws := s.draws + 1 })

/-- Draw `n` free words. -/
def drawWords : Nat → State → List W32 × State
  | 0, s => ([], s)
  | n + 1, s =>
    let (w, s) := drawWord s
    let (ws, s) := drawWords n s
    (w :: ws, s)

/-- A free choice between two outcomes that the spec leaves open (R10: either may win). -/
def drawBit (s : State) : Bool × State := (bitOf (drawWord s).1 0, (drawWord s).2)

/-- Words as little-endian bytes. -/
def wordBytes (ws : List W32) : List Byte := ws.flatMap fun w => leBytes 4 w.toNat

/-! ### Master IDs (R444) and cores -/

def hubA : Nat := 0x200
def hubB : Nat := 0x202
def gkId (p : Nat) : Nat := 0x210 + p
def isSpoke (m : Nat) : Bool := m < 0x200
def isGk (m : Nat) : Bool := 0x210 ≤ m && m < 0x214
def isHub (m : Nat) : Bool := m = hubA || m = hubB
def isCore (m : Nat) : Bool := isSpoke m || isGk m || isHub m
def isFunc (m : Nat) : Bool := 0x300 ≤ m && m < 0x400
def lantern : Nat := 0x420
/-- The master IDs of R444, the checker cores' included. -/
def isMaster (m : Nat) : Bool :=
  isSpoke m || isGk m || (0x200 ≤ m && m < 0x204) || (0x280 ≤ m && m < 0x2A0) || isFunc m || m = 0x400 || m = 0x410 ||
    m = 0x411 || m = lantern
def qfDma : Nat := 0x400

/-- A core in reset: the spill registers of a Hub core differ (R37, R63). -/
def coreReset (c : Nat) : Core :=
  if c = hubA then { spillBase := 0x3FE000, spillLimit := 0x3FF000 }
  else if c = hubB then { spillBase := 0x3FF000, spillLimit := 0x400000 }
  else {}

def core (s : State) (c : Nat) : Core := smGet s.cores c (coreReset c)
def setCore (s : State) (c : Nat) (k : Core) : State := { s with cores := smSet s.cores c (coreReset c) k }
def modCore (s : State) (c : Nat) (f : Core → Core) : State := setCore s c (f (core s c))

/-- Set an interrupt's bit in a core's `INT_PENDING`; `v` is its value in R53 or R62. -/
def raiseInt (s : State) (c v : Nat) : State :=
  modCore s c fun k => { k with intPending := k.intPending ||| BitVec.ofNat 32 (2 ^ (v - 0x10)) }

/-- An interrupt of a Hub core that no register of R53 names. -/
def hubInt (s : State) (name : String) (arg : Nat := 0) : State := emitOut s (.hubInt name arg)

/-! ### Domains (R17, R19) -/

def domState (s : State) (d : Nat) : DomState := smGet s.pwr.domains d .off
def setDom (s : State) (d : Nat) (v : DomState) : State :=
  { s with pwr := { s.pwr with domains := smSet s.pwr.domains d .off v } }

/-- `WHEEL_DISABLE`, the critical word that names the variant (R2, R199). -/
def wheelDisable (s : State) : W32 := reg s 0x40020124

/-- Wheel w is fused off (R2, R3). -/
def wheelAbsent (s : State) (w : Nat) : Bool := 32 ≤ w || bitOf (wheelDisable s) w

/-- The Z128 (R2). -/
def isZ128 (s : State) : Bool := wheelDisable s = 0xFFFFFF00

/-- The domain's islands run (R19); an absent domain is permanently off (R3). -/
def domOn (s : State) (d : Nat) : Bool := domState s d = .on && !(d < 16 && wheelAbsent s (2 * d))

/-- The Hub runs: PD_30 is on and not in retention. -/
def hubOn (s : State) : Bool := domOn s 30 && !s.pwr.hubRetention

/-- Wheel w is powered and present. -/
def wheelOn (s : State) (w : Nat) : Bool := w < 32 && !wheelAbsent s w && domOn s (w / 2)

/-- Queue q exists on this variant (R3). -/
def queueExists (s : State) (q : Nat) : Bool := q < (if isZ128 s then 8192 else 32768)

/-! ### Peloton time (R397) -/

/-- Peloton time in ns. -/
def nowNs (s : State) : Nat := s.time.now / 65536 % 2 ^ 64

/-- Peloton time in µs modulo 2^32, as records carry it (R452). -/
def nowUs32 (s : State) : Nat := nowNs s / 1000 % 2 ^ 32

/-! ### MSI-X messages and the PF0 diagnostic ring (R329, R352) -/

def func (s : State) (f : Nat) : Func := smGet s.fabric.funcs f {}
def setFunc (s : State) (f : Nat) (k : Func) : State :=
  { s with fabric := { s.fabric with funcs := smSet s.fabric.funcs f {} k } }
def vector (s : State) (i : Nat) : Vector32 := smGet s.fabric.vectors i {}
def setVector (s : State) (i : Nat) (v : Vector32) : State :=
  { s with fabric := { s.fabric with vectors := smSet s.fabric.vectors i {} v } }

/-- A posted write of function f to the host; it waits while the function may not master the bus (R343). -/
def hostOut (s : State) (f : Nat) (o : Out) : State :=
  if (func s f).busMaster then emitOut s o
  else { s with fabric := { s.fabric with deferred := s.fabric.deferred ++ [(f, o)] } }

/-- Function f signals entry `v` of its MSI-X table: a message, or a pending bit while masked (R329); a frozen function
sends none (R447). -/
def sendMsix (s : State) (f v : Nat) : State :=
  let fv := reg s (aFunc f + 4)
  let k := func s f
  let i := fld fv 0 12 + v
  if fld fv 16 12 ≤ v || k.frozen || !k.msixEnabled then s
  else if k.msixMasked || (vector s i).masked then setVector s i { vector s i with pending := true }
  else hostOut s f (.msix f i)

/-- Add 1 to a saturating 32-bit counter. -/
def bump (s : State) (a : Nat) : State := setReg s a (if reg s a = all32 then all32 else reg s a + 1)

/-- Write an entry to the PF0 diagnostic ring, or drop it (R352). -/
def diagEntry (s : State) (rtype : Nat) (f : Option Nat) (q cid : Nat) (code : W32) (detail : List Byte) (tag : Nat) :
    State :=
  let cfg := reg s (aHost 0x048)
  let n := 2 ^ fld cfg 16 4
  let prod := (reg s (aHost 0x04C)).toNat
  if !bitOf cfg 31 || fld cfg 16 4 < 6 || 12 < fld cfg 16 4 || !domOn s 16 then s
  else if (prod + 1) % n = (reg s (aHost 0x050)).toNat then bump s (aHost 0x054)
  else
    let bytes := leBytes 2 rtype ++ leBytes 2 (match f with
        | some f => 0x8000 + f
        | none => 0) ++ leBytes 2 q ++ leBytes 2 cid ++ leBytes 4 code.toNat ++ leBytes 4 (nowUs32 s) ++
      fitBytes 14 detail ++ leBytes 2 tag
    let s := hostOut s 0 (.hostWrite 0 (regPair s (aHost 0x040) + 32 * prod) bytes)
    sendMsix (setReg s (aHost 0x04C) (w32 ((prod + 1) % n))) 0 (fld cfg 0 12)

/-- Record types that PF0 sees in its ring (R322, R409, R437, R451, R483). -/
def diagTypes : List Nat :=
  [0x080, 0x082, 0x084, 0x085, 0x0B1, 0x0B2, 0x0B3, 0x0B4, 0x0B5, 0x0D2, 0x0D4, 0x0D5, 0x0D7, 0x0E2, 0x0E3, 0x0E4,
   0x0E5, 0x0E6, 0x0E7, 0x0E8, 0x0E9, 0x0F1, 0x0F2, 0x0F3]

/-- The ring entry of a Flowstone record: its first payload word as the code, the rest as detail. -/
def diagRecord (s : State) (source rtype : Nat) (payload : List W32) : State :=
  if diagTypes.contains rtype then
    diagEntry s rtype (if isFunc source then some (source - 0x300) else none) 0 0 (payload.headD 0)
      (wordBytes (payload.drop 1)) 0
  else s

/-! ### Flowstone records (R452 to R455) -/

/-- Records of an island that wait for the recorder. -/
def recordsWaiting (s : State) (island : Nat) : Nat :=
  (s.fs.raised.filter fun e => e.1 = island).length + (s.fs.arrived.filter fun e => e.1 = island).length

/-- `FS_STATUS.FREEZE_HOLD` (R465). -/
def fsHold (s : State) : Nat := regF s (aFs 0x000) 26 2

/-- Count a dropped record (R457): into `FS_HOLD_DROPPED` while frozen, else into `FS_DROPPED`, saturating. -/
def countDrop (s : State) : State := bump s (aFs (if fsHold s ≠ 0 then 0x02C else 0x00C))

/-- An island raises a record; its fifth waiting record is dropped (R455). -/
def raiseRecord (s : State) (island source rtype : Nat) (payload : List W32) : State :=
  if recordsWaiting s island < 4 then
    { s with fs := { s.fs with raised := s.fs.raised ++ [(island, { source, rtype, payload })] } }
  else if fsHold s ≠ 0 then { countDrop s with fs := { (countDrop s).fs with holdLost := true } }
  else { countDrop s with fs := { (countDrop s).fs with lostPending := true } }

/-- A record and, where its type is directed to PF0, its diagnostic entry. -/
def emit (s : State) (island source rtype : Nat) (payload : List W32) : State :=
  raiseRecord (diagRecord s source rtype payload) island source rtype payload

/-- Islands of R467, the senders of records. -/
def islHub : Nat := 32
def islQf : Nat := 33
def islPcie : Nat := 34
def islPort (p : Nat) : Nat := 35 + p
def islChain (x : Nat) : Nat := 39 + x
def islBank : Nat := 41
def islChamber : Nat := 42
def islOtp : Nat := 43
def islDrip : Nat := 44
def islLantern : Nat := 45
def islAon : Nat := 46

/-- The island of a core. -/
def coreIsland (c : Nat) : Nat := if isSpoke c then c / 16 else if isGk c then islPort (c - 0x210) else islHub

/-! ### Violations (R24, R446, R449) -/

def vBank : Nat := 1
def vWindow : Nat := 2
def vSArea : Nat := 3
def vChamber : Nat := 4
def vHandover : Nat := 5
def vLantern : Nat := 6
def vHub : Nat := 7

/-- The reset count that a master's accesses carry (R449); Lantern's count of freezes, since its freeze ends with the
session and leaves nothing frozen (R447). -/
def resetCountOf (s : State) (m : Nat) : Nat :=
  if isCore m then (core s m).resetCount
  else if isFunc m then (func s (m - 0x300)).resetCount
  else if m = 0x410 || m = 0x411 then (smGet s.chain.ports (m - 0x410) {}).resetCount
  else if m = lantern then s.lc.freezes
  else 0

/-- A refused access: the violation sets out for the firewall with the master's reset count. -/
def violate (s : State) (m kind addr : Nat) : State :=
  { s with fw := { s.fw with pending := s.fw.pending ++
      [{ master := m, kind, addr, resetCount := resetCountOf s m }] } }

/-! ### Accesses to islands that are off (R19) -/

/-- The island that an access of a master leaves from. -/
def masterIsland (m : Nat) : Nat :=
  if isCore m then coreIsland m
  else if 0x280 ≤ m && m < 0x2A0 then m - 0x280
  else if isFunc m then islPcie
  else if m = 0x410 || m = 0x411 then islChain (m - 0x410)
  else if m = lantern then islLantern
  else islQf

/-- An access to an island that is off is discarded, or reads zero, and is logged. -/
def offAccess (s : State) (m addr : Nat) : State := emit s (masterIsland m) m 0x012 (w32 m :: words64 addr)

/-- Do `f` if the access's island runs. -/
def guarded (s : State) (m addr : Nat) (on : Bool) (f : State → State) : State := if on then f s else offAccess s m addr

/-- Do `f` on Wheel w's window: an absent Wheel discards the access and logs nothing (R3, R118; log 21), one that is off
discards it with a record (R19). -/
def onWheel (s : State) (m w addr : Nat) (f : State → State) : State :=
  if wheelAbsent s w then s else guarded s m addr (wheelOn s w) f

/-- Do `f` if the access is granted; any other is a violation of kind `WINDOW_PERMISSION` (R445). -/
def granted (s : State) (m addr : Nat) (ok : Bool) (f : State → State) : State :=
  if ok then f s else violate s m vWindow addr

/-- Hub-A writes a register of the AON island; no other master may (R257, R312, R482). -/
def byHubA (s : State) (m addr : Nat) (f : State → State) : State := granted s m addr (m = hubA) f

/-- A Hub core writes a register of the AON island (R465). -/
def byHub (s : State) (m addr : Nat) (f : State → State) : State := granted s m addr (isHub m) f

/-! ### Tokens (R22, R474, R475) -/

/-- A unit asks the governor for tokens. -/
def askTokens (s : State) (work : Work) (tokens : Nat) (class0 : Bool) : State :=
  { s with gov := { s.gov with raised := s.gov.raised ++ [{ work, tokens, class0, raisedAt := s.ticks }] } }

/-- Tokens go back to the account that granted them. -/
def giveBack (s : State) (tokens : Nat) (class0 : Bool) : State :=
  if class0 then { s with gov := { s.gov with reserve := s.gov.reserve - tokens } }
  else { s with gov := { s.gov with general := s.gov.general - tokens } }

/-- Drop every request of a unit of work that has not been granted. -/
def dropRequests (s : State) (work : Work) : State :=
  { s with gov := { s.gov with
      raised := s.gov.raised.filter fun r => r.work ≠ work,
      waiting := s.gov.waiting.filter fun r => r.work ≠ work } }

/-- A grant on its way to a unit that no longer wants it returns its tokens. -/
def dropGrants (s : State) (work : Work) : State :=
  let s' := (s.gov.granted.filter fun r => r.work = work).foldl (fun s r => giveBack s r.tokens r.class0) s
  { s' with gov := { s'.gov with granted := s'.gov.granted.filter fun r => r.work ≠ work } }

/-- Withdraw all requests and grants of a unit of work. -/
def withdraw (s : State) (work : Work) : State := dropGrants (dropRequests s work) work

end Sys2Proof.Machine
end

