-- ==== Sys2Proof/Machine/Flowstone.lean ====
section
/-! DEFINITION. Flowstone, the event recorder (18_recorder.md): arrival, storage, freeze, merge, release and commit.
The array's bytes lie in device memory at the Flowstone window (R461). -/

namespace Sys2Proof.Machine

/-- Bytes of the array (R452). -/
def fsSize : Nat := 0x80000
/-- Device address of the array (R461). -/
def fsWindow : Nat := 0x20000000

def fsWr (s : State) : Nat := (reg s (aFs 0x004)).toNat
def fsRd (s : State) : Nat := (reg s (aFs 0x008)).toNat

/-- Bytes from the read pointer to an offset, in ring order (R456). -/
def fsDist (s : State) (v : Nat) : Nat := (v + fsSize - fsRd s) % fsSize

/-- `LEN` of a record in words (R452). -/
def Record.len (r : Record) : Nat := 2 + r.payload.length

/-- Bytes that a record occupies (R452). -/
def Record.space (r : Record) : Nat := (r.len * 4 + 7) / 8 * 8

/-- The words of a record (R452); the recorder adds `LOST_BEFORE`. -/
def Record.words (r : Record) (lost : Bool) : List W32 :=
  w32 (b2n lost <<< 31 ||| b2n r.merged <<< 30 ||| (r.source % 2048) <<< 19 ||| (r.len % 128) <<< 12 ||| r.rtype % 4096)
    :: w32 r.time :: r.payload

/-- Write a record's bytes, its rounding bytes zero. -/
def fsWriteRecord (s : State) (off : Nat) (r : Record) (lost : Bool) : State :=
  wrBytes s (fsWindow + off) (fitBytes r.space (wordBytes (r.words lost)))

/-- The record that fills a gap of `n` bytes at the end of the array (R456). -/
def padRecord (s : State) (n : Nat) : Record :=
  { source := 0x43F, rtype := 0, payload := List.replicate (n / 4 - 2) 0, time := nowUs32 s }

/-- `FULL` of `FS_STATUS`. -/
def fsFull (s : State) : Bool := regB s (aFs 0x000) 31

/-- Store a record in the array, after a `PAD` where it does not fit before the end; without room it is dropped and
counted (R456, R457). -/
def storeRecord (s : State) (r : Record) : State :=
  let wr := fsWr s
  let gap := fsSize - wr
  let pad := if r.space > gap then gap else 0
  if fsDist s wr + pad + r.space + 8 ≤ fsSize then
    let lost := r.lost || fsFull s || s.fs.lostPending
    let s := if pad = 0 then s else fsWriteRecord s wr (padRecord s pad) false
    let wr := if pad = 0 then wr else 0
    let s := fsWriteRecord s wr r lost
    let s := setReg s (aFs 0x004) (w32 ((wr + r.space) % fsSize))
    let s := setRegB s (aFs 0x000) 31 false
    { s with fs := { s.fs with lostPending := false } }
  else setRegB (countDrop s) (aFs 0x000) 31 true

/-- The recorder is frozen (R458). -/
def fsFrozen (s : State) : Bool := fsHold s ≠ 0

/-- Bytes in the holding FIFO. -/
def fifoLevel (s : State) : Nat := (s.fs.fifo.map Record.space).sum

/-- A record reaches the frozen recorder: into the 4 KiB FIFO, or dropped and counted (R458). -/
def holdRecord (s : State) (r : Record) : State :=
  let r := { r with merged := true, lost := r.lost || s.fs.holdLost }
  if fifoLevel s + r.space ≤ 4096 then
    { s with fs := { s.fs with fifo := s.fs.fifo ++ [r], holdLost := false } }
  else { countDrop s with fs := { (countDrop s).fs with holdLost := true } }

/-- A record reaches the AON island and takes its `TIME` (R452): it waits, or goes to the FIFO while frozen (R458). -/
def arriveRecord (s : State) (island : Nat) (r : Record) : State :=
  let r := { r with time := nowUs32 s }
  if fsFrozen s then holdRecord s r
  else
    let r := { r with lost := r.lost || s.fs.holdLost }
    { s with fs := { s.fs with arrived := s.fs.arrived ++ [(island, r)], holdLost := false } }

/-- The first raised record of an island. -/
def takeRaised (island : Nat) : List (Nat × Record) → Option (Record × List (Nat × Record))
  | [] => none
  | (i, r) :: rest =>
    if i = island then some (r, rest)
    else (takeRaised island rest).map fun (x, l) => (x, (i, r) :: l)

/-- RECORD_ARRIVAL (R455). -/
def recordArrivalOp (s : State) (island : Nat) : State :=
  match takeRaised island s.fs.raised with
  | none => s
  | some (r, rest) => arriveRecord { s with fs := { s.fs with raised := rest } } island r

/-- RECORD_STORE: the FIFO first while it merges (with `MERGED`), then arrivals in order (R455, R456, R458). -/
def recordStoreOp (s : State) : State :=
  if fsFrozen s then s
  else match s.fs.merging, s.fs.fifo, s.fs.arrived with
  | true, r :: rest, _ => storeRecord { s with fs := { s.fs with fifo := rest } } r
  | _, _, (_, r) :: rest => storeRecord { s with fs := { s.fs with arrived := rest } } r
  | _, _, [] => s

/-- Move the records that wait in the AON island into the FIFO (R458). -/
def holdArrived (s : State) : State :=
  s.fs.arrived.foldl (fun s e => holdRecord s e.2) { s with fs := { s.fs with arrived := [] } }

/-- The bit of a Hub core in `FREEZE_HOLD`. -/
def holdBit (m : Nat) : Nat := if m = hubA then 26 else 27

/-- `FS_CMD.FREEZE` (R458): sets the writer's hold; a merge under way stops. -/
def fsFreezeOp (s : State) (m : Nat) : State :=
  let s := setRegB s (aFs 0x000) (holdBit m) true
  holdArrived { s with fs := { s.fs with merging := false } }

/-- The last hold cleared: the count of the freeze joins `FS_DROPPED`, saturating, and the merge begins (R458). -/
def thawStart (s : State) : State :=
  let sum := (reg s (aFs 0x00C)).toNat + (reg s (aFs 0x02C)).toNat
  let s := setReg s (aFs 0x00C) (if sum < 2 ^ 32 then w32 sum else all32)
  let s := setReg s (aFs 0x02C) 0
  { s with fs := { s.fs with merging := s.fs.fifo ≠ [] } }

/-- `FS_CMD.THAW` (R458). -/
def fsThawOp (s : State) (m : Nat) : State :=
  if fsFrozen s then
    let s := setRegB s (aFs 0x000) (holdBit m) false
    if fsFrozen s then s else thawStart s
  else s

/-- MERGE_END (R458). -/
def mergeEndOp (s : State) : State :=
  if s.fs.merging && s.fs.fifo = [] then { s with fs := { s.fs with merging := false } } else s

/-- Clear both holds and thaw (R459). -/
def fsThawAll (s : State) : State :=
  if fsFrozen s then thawStart (setRegF s (aFs 0x000) 26 2 0) else s

/-- FREEZE_TIMEOUT (R459). -/
def freezeTimeoutOp (s : State) : State :=
  if fsFrozen s then setRegB (fsThawAll s) (aFs 0x000) 25 true else s

/-- Store the result of a command or release. -/
def fsResult (s : State) (code : Nat) : State := setReg s (aFs 0x018) (w32 code)

def commitActive (s : State) : Bool := regB s (aFs 0x000) 28

/-- FS_RELEASE (R462). -/
def fsReleaseOp (s : State) (v : W32) : State :=
  if v.toNat % 8 ≠ 0 || fsSize ≤ v.toNat || fsDist s (fsWr s) < fsDist s v.toNat then fsResult s 1
  else if commitActive s then fsResult s 2
  else fsResult (setReg s (aFs 0x008) v) 0

/-- `FS_CMD.COMMIT` (R464). -/
def commitOp (s : State) : State :=
  if commitActive s then fsResult s 2
  else
    let s := setReg s (aFs 0x020) (reg s (aFs 0x008))
    let s := setReg s (aFs 0x024) (reg s (aFs 0x004))
    hubInt (fsResult (setRegB s (aFs 0x000) 28 true) 0) "INT_FS_COMMIT"

/-- `FS_CMD.COMMIT_DONE` with its `COMMIT_RELEASE` (R464). -/
def commitDoneOp (s : State) (release : Bool) : State :=
  if commitActive s then
    let s := setRegB s (aFs 0x000) 28 false
    fsResult (if release then setReg s (aFs 0x008) (reg s (aFs 0x024)) else s) 0
  else s

/-- `FS_CMD.DROPPED_CLR` (R465). -/
def droppedClrOp (s : State) : State := setReg s (aFs 0x00C) 0

/-- A write of `FS_CMD`, its bits from the lowest up (R465). -/
def fsCmdOp (s : State) (m : Nat) (v : W32) : State :=
  let s := if bitOf v 0 then fsFreezeOp s m else s
  let s := if bitOf v 1 then fsThawOp s m else s
  let s := if bitOf v 2 then commitOp s else s
  let s := if bitOf v 3 then commitDoneOp s (bitOf v 5) else s
  if bitOf v 4 then droppedClrOp s else s

/-- FS_SW_GO: the record a Hub core wrote; `LEN` outside 2 to 66 sends nothing (R454, R465). -/
def fsSwGoOp (s : State) (m : Nat) : State :=
  let h := smGet s.fs.swHeader m 0
  let len := fld h 12 7
  if 2 ≤ len && len ≤ 66 then
    emit s islHub m (fld h 0 12) ((List.range (len - 2)).map fun i => smGet s.fs.swData (m * 64 + i) 0)
  else s

/-- `FS_STATUS` as it reads (R465). -/
def fsStatus (s : State) : W32 :=
  let v := reg s (aFs 0x000)
  setFld (setFld (setFld v 30 1 (b2n (fsFrozen s))) 29 1 (b2n s.fs.merging)) 0 13 (fifoLevel s)

/-- The AON island's own record `RESET_MARK` (R460). -/
def resetMark (s : State) (cause : Nat) : State :=
  arriveRecord s islAon { source := 0x43F, rtype := 0x001, payload := [w32 cause] }

/-- What a device reset does to the recorder (R459): holds and commit end, a freeze thaws. -/
def fsDeviceReset (s : State) : State := setRegB (fsThawAll s) (aFs 0x000) 28 false

/-- VDD_AON rises from below retention: pointers zero, contents and block lost (R460, R465). -/
def fsPowerUp (s : State) : State :=
  let s := wipeMem (resetRegs s (aFs 0) (aFs 0x10000)) fsWindow (fsWindow + fsSize)
  { s with fs := {} }

/-- A software write to the Flowstone block (R465). -/
def fsWrite (s : State) (m off : Nat) (v : W32) : State :=
  if off = 0x010 then fsCmdOp s m v
  else if off = 0x014 then fsReleaseOp s v
  else if off = 0x028 then (if v &&& 0xFFFF = 0 then s else plainWrite s (aFs off) v)
  else if off = 0x100 then { s with fs := { s.fs with swHeader := smSet s.fs.swHeader m 0 (v &&& 0x0007FFFF) } }
  else if off = 0x104 then (if bitOf v 0 then fsSwGoOp s m else s)
  else if 0x200 ≤ off && off < 0x300 then
    { s with fs := { s.fs with swData := smSet s.fs.swData (m * 64 + (off - 0x200) / 4) 0 v } }
  else plainWrite s (aFs off) v

/-- A read of the Flowstone block (R465). -/
def fsRead (s : State) (m off : Nat) : W32 :=
  if off = 0x000 then fsStatus s
  else if off = 0x100 then smGet s.fs.swHeader m 0
  else if 0x200 ≤ off && off < 0x300 then smGet s.fs.swData (m * 64 + (off - 0x200) / 4) 0
  else reg s (aFs off)

/-- A read of the Flowstone window (R461). -/
def fsWindowRead (s : State) (off : Nat) : W32 :=
  if off < fsSize then
    (if fsDist s off < fsDist s (fsWr s) then w32 (rdMem s (fsWindow + off) 4) else 0)
  else if off = 0x80000 then fsStatus s
  else if off = 0x80004 then reg s (aFs 0x004)
  else if off = 0x80008 then reg s (aFs 0x008)
  else if off = 0x8000C then reg s (aFs 0x00C)
  else 0

/-! ### The commands -/

def execRecordArrival (island : Nat) (s : State) : Host.Outcome State Fault Refusal :=
  .next (recordArrivalOp s island)
def execRecordStore (s : State) : Host.Outcome State Fault Refusal := .next (recordStoreOp s)
def execFsFreeze (m : Nat) (s : State) : Host.Outcome State Fault Refusal :=
  .next (byHub s m (aFs 0x010) fun s => fsFreezeOp s m)
def execFsThaw (m : Nat) (s : State) : Host.Outcome State Fault Refusal :=
  .next (byHub s m (aFs 0x010) fun s => fsThawOp s m)
def execMergeEnd (s : State) : Host.Outcome State Fault Refusal := .next (mergeEndOp s)
def execFreezeTimeout (s : State) : Host.Outcome State Fault Refusal := .next (freezeTimeoutOp s)
def execFsRelease (m : Nat) (v : W32) (s : State) : Host.Outcome State Fault Refusal :=
  .next (byHub s m (aFs 0x014) fun s => fsReleaseOp s v)
def execCommit (m : Nat) (s : State) : Host.Outcome State Fault Refusal := .next (byHub s m (aFs 0x010) commitOp)
def execCommitDone (m : Nat) (release : Bool) (s : State) : Host.Outcome State Fault Refusal :=
  .next (byHub s m (aFs 0x010) fun s => commitDoneOp s release)
def execDroppedClr (m : Nat) (s : State) : Host.Outcome State Fault Refusal :=
  .next (byHub s m (aFs 0x010) droppedClrOp)
def execFsSwGo (m : Nat) (s : State) : Host.Outcome State Fault Refusal :=
  .next (byHub s m (aFs 0x104) fun s => fsSwGoOp s m)

end Sys2Proof.Machine
end

