-- ==== Sys2Proof/Machine/Governor.lean ====
section
/-! DEFINITION. The Cadence governor and the Wheel clocks (R22, R25, R469, R473 to R479). -/

namespace Sys2Proof.Machine

/-! ### Wheel clocks -/

/-- The Wheel's oscillator is stopped, or the Wheel is unpowered (R473). -/
def parked (s : State) (w : Nat) : Bool := smGet s.pwr.parked w true

def setParked (s : State) (w : Nat) (v : Bool) : State :=
  { s with pwr := { s.pwr with parked := smSet s.pwr.parked w true v } }

/-- The account that pays the Wheel's base cost. -/
def base (s : State) (w : Nat) : Base := smGet s.gov.bases w .none

def setBase (s : State) (w : Nat) (b : Base) : State :=
  { s with gov := { s.gov with bases := smSet s.gov.bases w .none b } }

/-- Set or clear an island's bit of `ISLAND_LOCK` (R467, R482). -/
def setLock (s : State) (island : Nat) (v : Bool) : State := setRegB s (aPwr (0x060 + 4 * (island / 32))) (island % 32) v

def warm (s : State) (w : Nat) : Bool := regB s (aPwr 0x040) w

/-- The step of a Wheel in `WHEEL_FREQ` (R469). -/
def wheelStep (s : State) (w : Nat) : Nat := regF s (aPwr (0x048 + 4 * (w / 8))) (4 * (w % 8)) 3

/-! ### What a Wheel holds -/

def crank (s : State) (w : Nat) : Crank := smGet s.cranks w {}
def setCrank (s : State) (w : Nat) (k : Crank) : State := { s with cranks := smSet s.cranks w {} k }
/-- Context A (0) or B (1). -/
def ctx (s : State) (w x : Nat) : Ctx := if x = 0 then (crank s w).a else (crank s w).b
def setCtx (s : State) (w x : Nat) (c : Ctx) : State :=
  setCrank s w (if x = 0 then { crank s w with a := c } else { crank s w with b := c })
def lane (s : State) (l : Nat) : Lane := smGet s.lanes l {}
def setLane (s : State) (l : Nat) (k : Lane) : State := { s with lanes := smSet s.lanes l {} k }

/-- The Spokes of a Wheel. -/
def spokesOf (w : Nat) : List Nat := (List.range 16).map fun i => 16 * w + i

/-- Tokens beyond the base cost that a Wheel holds: of the class 0 reserve, or of the general pool. -/
def holdsWork (s : State) (w : Nat) (class0 : Bool) : Bool :=
  (spokesOf w).any (fun c => (core s c).holds && (core s c).tokenC0 == class0) ||
  [0, 1].any (fun x => 0 < (ctx s w x).tokens && ((ctx s w x).cls == 0) == class0) ||
  [0, 1].any (fun i => (lane s (2 * w + i)).admitted && ((lane s (2 * w + i)).cls == 0) == class0)

/-- The Wheel of a unit of work. -/
def Work.wheel : Work → Option Nat
  | .spoke c => some (c / 16)
  | .ctx w _ => some w
  | .ctxGrow w _ => some w
  | .lane l => if l < 64 then some (l / 2) else none
  | .wheelBase w => some w
  | _ => none

/-- A base cost for the Wheel is asked for or held. -/
def baseAsked (s : State) (w : Nat) : Bool :=
  base s w ≠ .none || (s.gov.raised ++ s.gov.waiting ++ s.gov.granted).any fun r => r.work = .wheelBase w

/-- A request of a Wheel's unit; a parked Wheel first asks for its base cost (R473, R476). -/
def askAdmission (s : State) (work : Work) (tokens : Nat) (class0 : Bool) : State :=
  match work.wheel with
  | some w =>
    let s := if parked s w && !baseAsked s w then askTokens s (.wheelBase w) 2 class0 else s
    askTokens s work tokens class0
  | none => askTokens s work tokens class0

/-- Wake a parked Wheel for an access or an interrupt (R473). -/
def wakeWheel (s : State) (w : Nat) (class0 : Bool) : State :=
  if wheelOn s w && parked s w && !baseAsked s w then askTokens s (.wheelBase w) 2 class0 else s

/-! ### The accounts -/

/-- The ceiling as written (R479). -/
def ceiling (s : State) : Nat := (reg s (aPwr 0x100)).toNat

/-- Tokens in use exceed the ceiling (R479). -/
def ceilOver (s : State) : Bool := ceiling s < 96 + s.gov.general + s.gov.reserve

/-- The general pool: ceiling less the always-reserved 96 and the reserve's 24 (R25, R474). -/
def generalPool (s : State) : Nat := s.gov.appliedCeiling - 120

/-- Start a recompute window, or join the next one (R477). -/
def recompute (s : State) : State :=
  if s.gov.recompute then { s with gov := { s.gov with recomputeJoined := true } }
  else { s with gov := { s.gov with recompute := true } }

/-- GOVERNOR_REQUEST (R22, R478): the oldest raised request reaches the governor. -/
def governorRequestOp (s : State) : State :=
  match s.gov.raised with
  | [] => s
  | r :: rest => { s with gov := { s.gov with raised := rest, waiting := s.gov.waiting ++ [{ r with raisedAt := s.ticks }] } }

/-- Grant a request that is no longer in the waiting list. -/
def grantRequest (s : State) (r : Request) : State :=
  let g := s.gov
  let g := if r.class0 then { g with reserve := g.reserve + r.tokens } else { g with general := g.general + r.tokens }
  match r.work with
  | .preGrant => { s with gov := g, fabric := { s.fabric with preGrant := true } }
  | .wheelBase w => setBase { s with gov := { g with granted := g.granted ++ [r] } } w (if r.class0 then .reserve else .general)
  | _ => { s with gov := { g with granted := g.granted ++ [r] } }

/-- Step 1 of a decision: every waiting class 0 request that fits the reserve of 24 (R475, R477). -/
def grantClass0 : List Request → State → State
  | [], s => s
  | r :: rest, s =>
    if r.class0 && s.gov.reserve + r.tokens ≤ 24 then grantClass0 rest (grantRequest s r)
    else grantClass0 rest { s with gov := { s.gov with waiting := s.gov.waiting ++ [r] } }

/-- Move the base costs of Wheels whose class 0 job ended to the general pool, ahead of every general request (R476). -/
def moveBases : List Nat → State → State
  | [], s => s
  | w :: rest, s =>
    if base s w ≠ .reserve then moveBases rest s
    else if s.gov.general + 2 ≤ generalPool s && !ceilOver s then
      let s := setBase s w .general
      let g := s.gov
      let waiting := g.waiting.filter fun r => r.work ≠ .wheelBase w
      moveBases rest { s with gov := { g with general := g.general + 2, reserve := g.reserve - 2, waiting } }
    else { s with gov := { s.gov with moving := w :: rest } }

/-- The wait of a general request in µs; a wait beyond `GOV_WARN_US` leaves a record (R477, R482). -/
def noteWait (s : State) (r : Request) : State :=
  let us := (s.ticks - r.raisedAt) / 25
  let m := regF s (aPwr 0x118) 0 16
  let s := if m < us then setReg s (aPwr 0x118) (w32 (min us 0xFFFF)) else s
  if regF s (aPwr 0x114) 0 16 < us then emit s islAon 0x430 0x083 [w32 us, w32 r.tokens] else s

/-- Step 2: up to `n` general requests in arrival order; one that does not fit stops those behind it (R477, R479). -/
def grantGeneral : Nat → List Request → State → State
  | 0, rs, s => { s with gov := { s.gov with waiting := s.gov.waiting ++ rs } }
  | _ + 1, [], s => s
  | n + 1, r :: rest, s =>
    if r.class0 then grantGeneral (n + 1) rest { s with gov := { s.gov with waiting := s.gov.waiting ++ [r] } }
    else if r.work.wheel.any (s.gov.moving.contains ·) || ceilOver s || generalPool s < s.gov.general + r.tokens then
      { s with gov := { s.gov with waiting := s.gov.waiting ++ r :: rest } }
    else grantGeneral n rest (grantRequest (noteWait s r) r)
  termination_by structural _ rs => rs

/-- GOVERNOR_DECISION (R477): nothing inside a recompute window; class 0, then moves of bases, then general grants. -/
def governorDecisionOp (s : State) : State :=
  if s.gov.recompute then s
  else
    let s := grantClass0 s.gov.waiting { s with gov := { s.gov with waiting := [] } }
    let s := moveBases s.gov.moving { s with gov := { s.gov with moving := [] } }
    grantGeneral 8 s.gov.waiting { s with gov := { s.gov with waiting := [] } }

/-- RECOMPUTE_END (R477, R479): a lowered ceiling now applies; a joined event starts the next window. -/
def recomputeEndOp (s : State) : State :=
  if s.gov.recompute then
    let appliedCeiling := ceiling s
    { s with gov := { s.gov with recompute := s.gov.recomputeJoined, recomputeJoined := false, appliedCeiling } }
  else s

/-- A grant reaches its unit, which starts its work (R22). -/
def startWork (s : State) (r : Request) : State :=
  match r.work with
  | .spoke c =>
    modCore s c fun k =>
      { k with holds := true, tokenC0 := r.class0,
               run := match k.run with
                 | .admitting => .running
                 | .readmitting => .granted
                 | x => x }
  | .ctx w x => setCtx s w x { ctx s w x with admitted := true, tokens := r.tokens }
  | .ctxGrow w x =>
    setCtx s w x { ctx s w x with laneMode := true, growing := false, tokens := (ctx s w x).tokens + r.tokens }
  | .lane l => setLane s l { lane s l with admitted := true }
  | .ramp d => recompute (setDom { s with pwr := { s.pwr with ramping := some d } } d .starting)
  | .wheelBase _ => s
  | .preGrant => s

/-- The first grant whose unit can start: a parked Wheel must run first (R473). -/
def takeGrant (s : State) : List Request → Option (Request × List Request)
  | [] => none
  | r :: rest =>
    if r.work.wheel.all fun w => !parked s w || r.work = .wheelBase w then some (r, rest)
    else (takeGrant s rest).map fun (x, l) => (x, r :: l)

/-- ADMISSION_GRANT (R22, R478). -/
def admissionGrantOp (s : State) : State :=
  match takeGrant s s.gov.granted with
  | none => s
  | some (r, rest) => startWork { s with gov := { s.gov with granted := rest } } r

/-- CURRENT_CEILING (R479): a write above the current value or below 160 is ignored. -/
def ceilingWriteOp (s : State) (v : W32) : State :=
  let n := fld v 0 11
  if ceiling s < n || n < 160 then s
  else
    let s := emit s islAon 0x430 0x082 [w32 (ceiling s), w32 n]
    recompute (setReg s (aPwr 0x100) (w32 n))

/-- WHEEL_PARK (R473): a running Wheel that is not warm and holds only its base cost. -/
def wheelParkOp (s : State) (w : Nat) : State :=
  if wheelOn s w && !parked s w && !warm s w && !holdsWork s w true && !holdsWork s w false &&
      !(s.gov.raised ++ s.gov.waiting ++ s.gov.granted).any (fun r => r.work.wheel = some w) then
    let s := giveBack s (if base s w = .none then 0 else 2) (base s w = .reserve)
    let s := setLock (setParked (setBase s w .none) w true) w false
    recompute { s with gov := { s.gov with moving := s.gov.moving.filter (· ≠ w) } }
  else s

/-- WHEEL_UNPARK (R473): the base cost is in hand and the oscillator locks. -/
def wheelUnparkOp (s : State) (w : Nat) : State :=
  if wheelOn s w && parked s w && base s w ≠ .none then setLock (setParked s w false) w true else s

/-- WHEEL_WARM (R473): a parked Wheel of a powered domain that becomes warm asks for its base cost. -/
def wheelWarmOp (s : State) (v : W32) : State :=
  (List.range 32).foldl (fun s w => if bitOf v w && wheelOn s w then wakeWheel s w false else s)
    (setReg s (aPwr 0x040) v)

/-- A step of 0 to 4 for Wheel w; the Wheel stops while it relocks (R469, R482). -/
def setStep (s : State) (w v : Nat) : State :=
  if v ≤ 4 && v ≠ wheelStep s w then
    let s := setRegF s (aPwr (0x048 + 4 * (w / 8))) (4 * (w % 8)) 3 v
    if wheelOn s w && !parked s w then
      setLock { s with pwr := { s.pwr with relocking := if s.pwr.relocking.contains w then s.pwr.relocking
                                                        else s.pwr.relocking ++ [w] } } w false
    else s
  else s

/-- WHEEL_FREQ_j (R469, R482). -/
def wheelFreqOp (s : State) (j : Nat) (v : W32) : State :=
  (List.range 8).foldl (fun s i => setStep s (8 * j + i) (fld v (4 * i) 3)) s

/-- RELOCK_DONE (R469). -/
def relockDoneOp (s : State) (w : Nat) : State :=
  if s.pwr.relocking.contains w then
    setLock { s with pwr := { s.pwr with relocking := s.pwr.relocking.filter (· ≠ w) } } w true
  else s

/-- The Wheel's clock runs: powered, not parked, not relocking (R469, R473). -/
def wheelRuns (s : State) (w : Nat) : Bool := wheelOn s w && !parked s w && !s.pwr.relocking.contains w

/-- A class 0 job of a Wheel ended: its reserve base moves if the Wheel holds general-pool work (R476). -/
def reserveMoveOp (s : State) (w : Nat) : State :=
  if base s w = .reserve && holdsWork s w false && !s.gov.moving.contains w then
    { s with gov := { s.gov with moving := s.gov.moving ++ [w] } }
  else s

/-- The token granted in advance becomes the Spoke's; a replacement is granted at once if the reserve allows (R350, R475). -/
def takePreGrant (s : State) : State :=
  if s.gov.reserve + 1 ≤ 24 then { s with gov := { s.gov with reserve := s.gov.reserve + 1 } }
  else
    { s with fabric := { s.fabric with preGrant := false },
             gov := { s.gov with waiting := s.gov.waiting ++ [{ work := .preGrant, tokens := 1, class0 := true,
                                                                raisedAt := s.ticks }] } }

/-- A Spoke gives its token back (R474) and withdraws what it asked for. -/
def dropSpokeToken (s : State) (c : Nat) : State :=
  let s := withdraw s (.spoke c)
  if (core s c).holds then
    modCore (giveBack s 1 (core s c).tokenC0) c fun k => { k with holds := false, tokenC0 := false }
  else s

/-- CLOCK_FAULT (R468). -/
def clockFaultOp (s : State) (island : Nat) : State :=
  if regB s (aPwr (0x060 + 4 * (island / 32))) (island % 32) then
    emit (setLock s island false) islAon 0x430 0x084 [w32 island]
  else s

/-! ### The commands -/

def execWheelFreqWrite (m j : Nat) (v : W32) (s : State) : Host.Outcome State Fault Refusal :=
  .next (byHubA s m (aPwr (0x048 + 4 * j)) fun s => if j < 4 then wheelFreqOp s j v else s)
def execRelockDone (w : Nat) (s : State) : Host.Outcome State Fault Refusal := .next (relockDoneOp s w)
def execClockFault (island : Nat) (s : State) : Host.Outcome State Fault Refusal := .next (clockFaultOp s island)
def execWheelPark (w : Nat) (s : State) : Host.Outcome State Fault Refusal := .next (wheelParkOp s w)
def execWheelUnpark (w : Nat) (s : State) : Host.Outcome State Fault Refusal := .next (wheelUnparkOp s w)
def execWheelWarmWrite (m : Nat) (v : W32) (s : State) : Host.Outcome State Fault Refusal :=
  .next (byHubA s m (aPwr 0x040) fun s => wheelWarmOp s v)
def execGovernorRequest (s : State) : Host.Outcome State Fault Refusal := .next (governorRequestOp s)
def execGovernorDecision (s : State) : Host.Outcome State Fault Refusal := .next (governorDecisionOp s)
def execAdmissionGrant (s : State) : Host.Outcome State Fault Refusal := .next (admissionGrantOp s)
def execRecomputeEnd (s : State) : Host.Outcome State Fault Refusal := .next (recomputeEndOp s)
def execCurrentCeilingWrite (m : Nat) (v : W32) (s : State) : Host.Outcome State Fault Refusal :=
  .next (byHubA s m (aPwr 0x100) fun s => ceilingWriteOp s v)

end Sys2Proof.Machine
end

