-- ==== Sys2Proof/Machine/Drip.lean ====
section
/-! DEFINITION. Drip, the entropy source (R520). Its words are free values. -/

namespace Sys2Proof.Machine

def dripEn (s : State) : Bool := regB s (aDrip 0x000) 0
def healthFailed (s : State) : Bool := regB s (aDrip 0x004) 31

/-- Put up to 64 words into the pool, `n` fresh ones. -/
def dripFill : Nat → State → State
  | 0, s => s
  | n + 1, s =>
    if s.drip.pool.length < 64 then
      let (w, s) := drawWord s
      dripFill n { s with drip := { s.drip with pool := s.drip.pool ++ [w] } }
    else s

/-- The pool is refilled: powered, enabled, healthy, no self-test (R520). -/
def dripRefills (s : State) : Bool := domOn s 28 && dripEn s && !healthFailed s && !s.drip.testing

/-- A consumer takes `n` words: those of the pool, and while it refills the ones it waits for; `none` while a hardware
consumer must go on waiting (R520). -/
def dripTake (s : State) (n : Nat) : Option (List W32 × State) :=
  if !domOn s 28 || healthFailed s then none
  else if n ≤ s.drip.pool.length then
    some (s.drip.pool.take n, { s with drip := { s.drip with pool := s.drip.pool.drop n } })
  else if dripRefills s then
    let old := s.drip.pool
    let (ws, s) := drawWords (n - old.length) { s with drip := { s.drip with pool := [] } }
    some (old ++ ws, s)
  else none

/-- SELFTEST: the test starts and clears `SELFTEST_PASS`. -/
def selftestOp (s : State) : State :=
  setRegB { s with drip := { s.drip with testing := true } } (aDrip 0x004) 8 false

/-- SELFTEST_END: a pass sets `SELFTEST_PASS` and clears `HEALTH_FAIL`; a failure counts. -/
def selftestEndOp (s : State) (pass : Bool) : State :=
  if s.drip.testing then
    let s := { s with drip := { s.drip with testing := false } }
    if pass then setRegB (setRegB s (aDrip 0x004) 8 true) (aDrip 0x004) 31 false
    else bump s (aDrip 0x00C)
  else s

/-- HEALTH_FAIL: a continuous test fails; the pool empties. -/
def healthFailOp (s : State) : State :=
  if domOn s 28 then
    let s := { s with drip := { s.drip with pool := [] } }
    let s := bump s (aDrip 0x00C)
    setRegB s (aDrip 0x004) 31 true
  else s

/-- A read of DRIP_DATA: the next word, or zero with `READ_EMPTY`. -/
def dripDataOp (s : State) : W32 × State :=
  match dripTake s 1 with
  | some (w :: _, s) => (w, s)
  | _ => (0, setRegB s (aDrip 0x004) 9 true)

/-- A write to the Drip block. -/
def dripWrite (s : State) (off : Nat) (v : W32) : State :=
  if off = 0x000 then
    let s := plainWrite s (aDrip 0x000) v
    if bitOf v 1 then selftestOp s else s
  else plainWrite s (aDrip off) v

/-- A read of the Drip block. -/
def dripRead (s : State) (off : Nat) : W32 × State :=
  if off = 0x000 then (setFld (reg s (aDrip 0x000)) 1 1 (b2n s.drip.testing), s)
  else if off = 0x004 then (setFld (reg s (aDrip 0x004)) 0 7 s.drip.pool.length, s)
  else if off = 0x008 then dripDataOp s
  else (reg s (aDrip off), s)

/-! ### The commands: Hub-A writes `DRIP_CTRL`, both Hub cores read (R520) -/

def execSelftest (m : Nat) (s : State) : Host.Outcome State Fault Refusal :=
  .next (guarded s m (aDrip 0x000) (domOn s 28) fun s => byHubA s m (aDrip 0x000) selftestOp)
def execSelftestEnd (pass : Bool) (s : State) : Host.Outcome State Fault Refusal := .next (selftestEndOp s pass)
def execHealthFail (s : State) : Host.Outcome State Fault Refusal := .next (healthFailOp s)

/-- The word that a read of `DRIP_DATA` answers; zero from an island that is off or without a grant (R19, R24). -/
def dripDataRead (s : State) (m : Nat) : State :=
  let zero := fun s : State => emitOut s (.readData m 0)
  if !domOn s 28 then zero (offAccess s m (aDrip 0x008))
  else if !isHub m then zero (violate s m vWindow (aDrip 0x008))
  else emitOut (dripDataOp s).2 (.readData m ((dripDataOp s).1.setWidth 64))

def execDripData (m : Nat) (s : State) : Host.Outcome State Fault Refusal := .next (dripDataRead s m)

end Sys2Proof.Machine
end

