-- ==== Sys2Proof/Machine/Otp.lean ====
section
/-! DEFINITION. The one-time-programmable array (07_otp.md): margin reads, the SEC-DED code, spare rows, seals,
commands and sensing of the critical words. -/

namespace Sys2Proof.Machine

/-! ### The code of R521 -/

/-- The three-element subsets of {0, …, 6} in lexicographic order, as check-bit masks. -/
def subsets3 : List Nat :=
  (List.range 7).flatMap fun i => (List.range 7).flatMap fun j => (List.range 7).filterMap fun k =>
    if i < j && j < k then some (2 ^ i + 2 ^ j + 2 ^ k) else none

/-- The check-bit mask of data bit i. -/
def dataSubset (i : Nat) : Nat := subsets3.getD i 0

/-- The 7 check bits of 32 data bits. -/
def checkBits (d : Nat) : Nat :=
  (List.range 32).foldl (fun acc i => if d.testBit i then acc ^^^ dataSubset i else acc) 0

/-- The 39-bit ECC word of data. -/
def eccWord (d : W32) : BitVec 39 := BitVec.ofNat 39 (d.toNat + 2 ^ 32 * checkBits d.toNat)

/-- Stored check bits XOR recomputed ones. -/
def syndrome (w : Nat) : Nat := (w / 2 ^ 32) ^^^ checkBits (w % 2 ^ 32)

/-- `READ_RESULT` values (R206). -/
def rClean : Nat := 0
def rCorrected : Nat := 1
def rErasure : Nat := 2
def rUncorrectable : Nat := 3
def rRaw : Nat := 4

/-- SEC-DED decoding of a word without marginal bits (R186, R521). -/
def secDed (w : Nat) : W32 × Nat :=
  let syn := syndrome w
  if syn = 0 then (w32 w, rClean)
  else if (List.range 7).any fun j => syn = 2 ^ j then (w32 w, rCorrected)
  else match (List.range 32).find? fun i => dataSubset i = syn with
    | some i => (w32 (w ^^^ 2 ^ i), rCorrected)
    | none => (0, rUncorrectable)

/-- The bit numbers set in a mask. -/
def bitsSet (n w : Nat) : List Nat := (List.range n).filter w.testBit

/-- All values of a word whose listed bits are free. -/
def assignments (w : Nat) : List Nat → List Nat
  | [] => [w]
  | b :: bs => assignments w bs ++ assignments (w + 2 ^ b) bs

/-- Erasure decoding: exactly one assignment of the marginal bits gives a zero syndrome (R186). -/
def erasure (solid : Nat) (marg : List Nat) : W32 × Nat :=
  match (assignments solid marg).filter fun v => syndrome v = 0 with
  | [v] => (w32 v, rErasure)
  | _ => (0, rUncorrectable)

/-- An ECC word of solid ones and marginal bits. -/
def eccDecode (solid marg : Nat) : W32 × Nat :=
  let ms := bitsSet 39 marg
  if ms.length = 0 then secDed solid else if ms.length ≤ 3 then erasure solid ms else (0, rUncorrectable)

/-! ### The array -/

/-- Raw words (R184): G_0, the critical words and the seal words. -/
def isRaw (a : Nat) : Bool := a < 32 || a = 40 || (512 ≤ a && a ≤ 514) || a % 32 = 31

/-- The cell word behind a word address: a spare row where a valid entry names its row (R188). -/
def otpCell (s : State) (a : Nat) : Nat :=
  match (List.range 16).find? fun i => smGet s.otp.redirect i none = some (a / 8) with
  | some i => 1024 + 8 * i + a % 8
  | none => a

def cellOnes (s : State) (c : Nat) : Nat := (smGet s.otp.cells c 0 &&& ~~~(smGet s.otp.marginal c 0)).toNat
def cellMarg (s : State) (c : Nat) : Nat := (smGet s.otp.marginal c 0).toNat

/-- Resolution of a critical word's marginal bits to the more restrictive value (R199); `i` as in `OTP_CRIT_i`. -/
def resolveCrit (i ones marg : Nat) : W32 :=
  let ones := ones % 2 ^ 32
  let marg := marg % 2 ^ 32
  if 3 ≤ i && i ≤ 6 then w32 ones
  else if i = 11 then
    (List.range 12).foldl (fun v n => if fld (w32 marg) (2 * n) 2 ≠ 0 then setFld v (2 * n) 2 0 else v) (w32 ones)
  else if i = 12 then
    let v := w32 ones ||| (w32 marg &&& 0xFFFFFFFC)
    if marg % 4 ≠ 0 then v &&& 0xFFFFFFFC else v
  else w32 ones ||| w32 marg

/-- Word addresses of the critical words in the order of R199. -/
def critAddrs : List Nat := [0, 1, 2, 4, 5, 6, 7, 8, 9, 40, 512, 513, 514]
def critAddr (i : Nat) : Nat := critAddrs.getD i 0

/-- A word as a read decodes it: value, `READ_RESULT`, marginal mask (R185 to R187). -/
def otpReadWord (s : State) (a : Nat) : W32 × Nat × Nat :=
  let c := otpCell s a
  let ones := cellOnes s c
  let marg := cellMarg s c
  if isRaw a then
    match critAddrs.idxOf? a with
    | some i => (resolveCrit i ones marg, rRaw, marg)
    | none => (w32 ones ||| w32 marg, rRaw, marg)
  else
    let (v, r) := eccDecode ones marg
    (v, r, marg)

/-- `OWNER_OFF`: owner groups read as zero (R194). -/
def ownerOff (s : State) : Bool := regB s (aOtp 0x120) 2

/-- Data bits of a word as commands and consumers see the current contents. -/
def otpData (s : State) (a : Nat) : W32 := if 512 ≤ a && a < 1024 && ownerOff s then 0 else (otpReadWord s a).1

/-- The records of a read (R186, R187). -/
def otpLog (s : State) (source a r marg : Nat) : State :=
  let s := if marg ≠ 0 then emit s islOtp source 0x040 (w32 a :: words64 marg) else s
  if r = rUncorrectable then emit s islOtp source 0x041 [w32 a] else s

/-- The records of reading words in order. -/
def otpLogWords (s : State) (source : Nat) (as : List Nat) : State :=
  as.foldl (fun s a => otpLog s source a (otpReadWord s a).2.1 (otpReadWord s a).2.2) s

/-- The word addresses of the first `n` words of a group. -/
def groupWords (g n : Nat) : List Nat := (List.range n).map (32 * g + ·)

/-- `LIFE CYCLE` state of R208 as `LC_STATE` shows it. -/
def lcState (s : State) : Nat := regF s (aLc 0x000) 0 3

/-- Resolved critical word i (R199, R206). -/
def crit (s : State) (i : Nat) : W32 := reg s (aOtp (0x100 + 4 * i))

/-- A group is locked: at least two of its three LOCK bits read 1 (R190). -/
def groupLocked (s : State) (g : Nat) : Bool :=
  let v := otpData s (32 * g + 31)
  2 ≤ b2n (bitOf v 29) + b2n (bitOf v 30) + b2n (bitOf v 31)

/-- CRC-16 of R190: polynomial 0x1021, initial 0xFFFF, no reflection. -/
def crc16Byte (c : Nat) (b : Byte) : Nat :=
  (List.range 8).foldl (fun c _ => if 0x8000 ≤ c then (c * 2 ^^^ 0x1021) % 65536 else c * 2) (c ^^^ b.toNat * 256)

def crc16 (bs : List Byte) : Nat := bs.foldl crc16Byte 0xFFFF

/-- The seal of a group's current contents (R190, R191). -/
def groupCrc (s : State) (g : Nat) : Nat := crc16 (wordBytes ((List.range 31).map fun i => otpData s (32 * g + i)))

/-- Groups open to `PROGRAM` and `LOCK` in a life-cycle state (R202). -/
def groupOpen (st g : Nat) : Bool :=
  let vendor := g = 1 || (10 ≤ g && g ≤ 15)
  match st with
  | 0 => vendor || g = 6
  | 1 => vendor || g = 6 || (2 ≤ g && g ≤ 5) || (7 ≤ g && g ≤ 9)
  | 2 => 16 ≤ g && g ≤ 31
  | _ => false

/-- A word that `DATA_DISABLE` hides from `READ` (R194). -/
def otpHidden (s : State) (a : Nat) : Bool :=
  let g := a / 32
  let d := crit s 8
  (bitOf d 1 && (g = 1 || g = 6 || (10 ≤ g && g ≤ 15)) && !(32 ≤ a && a ≤ 36)) || (bitOf d 2 && 16 ≤ g)

/-! ### Commands -/

/-- Codes of R207. -/
def setOtpCode (s : State) (code : Nat) : State := setRegF s (aOtp 0x010) 0 8 code
def otpBusy (s : State) : Bool := regB s (aOtp 0x010) 31
/-- `BUSY` while a command or the slot 0 load runs (R205). -/
def showOtpBusy (s : State) : State := setRegB s (aOtp 0x010) 31 (s.otp.command.isSome || s.otp.slot0Waiting)
/-- The charge pump runs (R204). -/
def pumpStart (s : State) : State := setRegB { s with otp := { s.otp with pumpOn := true } } (aOtp 0x010) 29 true

/-- Operations of `OTP_CMD`. -/
def isProgramming (op : Nat) : Bool := op = 2 || op = 3 || op = 5 || op = 6

/-- The bits a word must have after programming data into it: raw words OR, ECC words with their check bits (R203). -/
def otpTarget (a : Nat) (d : W32) : BitVec 39 := if isRaw a then BitVec.ofNat 39 d.toNat else eccWord d

/-- A group's words and check bits are all solid zero (R196). -/
def groupBlank (s : State) (g : Nat) : Bool :=
  (groupWords g 32).all fun a => smGet s.otp.cells (otpCell s a) 0 = 0 && smGet s.otp.marginal (otpCell s a) 0 = 0

/-- The lowest entry that is blank in all three copies and not in use (R188). -/
def freeSpare (s : State) : Option Nat :=
  (List.range 16).find? fun i =>
    smGet s.otp.redirect i none = none &&
    [0, 1, 2].all fun k => fld (w32 (smGet s.otp.cells (1152 + 4 * k + i / 4) 0).toNat) (8 * (i % 4)) 8 = 0

/-- The refusal of a command, in the order of R522; 0 where it is accepted. -/
def otpRefusal (s : State) (op a : Nat) (d : W32) : Nat :=
  let g := a / 32
  let st := lcState s
  if op = 3 && g = 0 then 6
  else if (op = 1 || op = 2) && g = 6 then 7
  else if op = 1 && otpHidden s a then 8
  else if op = 2 && !groupOpen st g then 1
  else if op = 3 && (!groupOpen st g || g = 6) then 1
  else if (op = 5 || op = 6) && 2 ≤ st then 1
  else if op = 2 && groupLocked s g then 2
  else if op = 6 && freeSpare s = none then 0xA
  else if op = 2 && !isRaw a &&
      (smGet s.otp.cells (otpCell s a) 0 ||| smGet s.otp.marginal (otpCell s a) 0) &&& ~~~(eccWord d) ≠ 0 then 3
  else if op = 5 && (!groupBlank s 6 || groupLocked s 6) then 3
  else if op = 3 && groupCrc s g ≠ fld (otpData s (32 * g + 31)) 0 16 then 5
  else 0

/-- The words that the checks of a command read before its answer `code` (R191, R193, R196, R203): none where a rule of
R522 ahead of the array's contents refuses it. -/
def otpChecked (op a code : Nat) : List Nat :=
  if [1, 6, 7, 8].contains code then []
  else match op with
  | 2 => if code = 2 || isRaw a then [32 * (a / 32) + 31] else [32 * (a / 32) + 31, a]
  | 3 => groupWords (a / 32) 32
  | 5 => groupWords 6 32
  | _ => []

/-- A command of `OTP_CMD` (R205, R522): refused while one runs, refused by its checks, or started. -/
def otpStart (s : State) (op a : Nat) (d : W32) : State :=
  if otpBusy s then setRegB s (aOtp 0x010) 30 true
  else
    let code := otpRefusal s op a d
    let s := otpLogWords s hubA (otpChecked op a code)
    if code = 0 then
      let s := showOtpBusy { s with otp := { s.otp with command := some { op, addr := a, data := d } } }
      if isProgramming op then pumpStart s else s
    else
      let s := setOtpCode s code
      if op = 1 then setReg s (aOtp 0x00C) 0 else s

/-- A free 39-bit word. -/
def drawCell (s : State) : BitVec 39 × State :=
  let r := drawWords 2 s
  (BitVec.ofNat 39 (pair64 (r.1.getD 0 0) (r.1.getD 1 0)), r.2)

/-- Bits of a cell word become solid 1, others marginal. -/
def setCell (s : State) (c : Nat) (solid marg : BitVec 39) : State :=
  let cells := smSet s.otp.cells c 0 (smGet s.otp.cells c 0 ||| solid)
  let marginal := smSet s.otp.marginal c 0 ((smGet s.otp.marginal c 0 ||| marg) &&& ~~~solid)
  { s with otp := { s.otp with cells, marginal } }

/-- Pulse the target bits of a cell word that are not solid; a bit of `weak` is still 0 or marginal after four pulses
(R204), which of the two is a free value (log 81). -/
def pulseCell (s : State) (c : Nat) (target weak : BitVec 39) : State × Bool :=
  let need := target &&& ~~~(BitVec.ofNat 39 (cellOnes s c))
  if need &&& weak = 0 then (setCell s c need 0, true)
  else
    let r := drawCell s
    (setCell r.2 c (need &&& ~~~weak) (need &&& weak &&& r.1), false)

/-- Program cell words in order; the first that fails ends the command (R204). -/
def pulseAll (weak : BitVec 39) : List (Nat × BitVec 39) → State → State × Bool
  | [], s => (s, true)
  | (c, t) :: rest, s =>
    match pulseCell s c t weak with
    | (s, true) => pulseAll weak rest s
    | (s, false) => (s, false)

/-- LOCK bits 29, 30 and 31 of a seal word, in that order (R191). -/
def lockPulses (c : Nat) : List (Nat × BitVec 39) := [(c, 2 ^ 29), (c, 2 ^ 30), (c, 2 ^ 31)]

/-- A group's seal word after its words (R190). -/
def sealOf (words : List W32) : Nat := crc16 (wordBytes (fitWords 31 words))
where
  /-- Words filled with zeros to `n`. -/
  fitWords (n : Nat) (ws : List W32) : List W32 := ws.take n ++ List.replicate (n - ws.length) 0

/-- The end of a command that programmed: its code, or `PROGRAM_FAIL` with its record (R204). -/
def otpEnd (a : Nat) : State × Bool → State
  | (s, true) => setOtpCode s 0
  | (s, false) => setOtpCode (emit s islOtp hubA 0x043 [w32 a]) 4

/-- `OTP_REDIRECT_USED` from the resolved table. -/
def showRedirect (s : State) : State :=
  setReg s (aOtp 0x01C) (w32 ((List.range 16).foldl (fun v i =>
    if (smGet s.otp.redirect i none).isSome then v + 2 ^ i else v) 0))

/-- The cell words of `GEN_UDS`: the secret, its seal, the lock bits (R196). -/
def udsPulses (s : State) (ws : List W32) : List (Nat × BitVec 39) :=
  let c := otpCell s 223
  ((ws.zipIdx).map fun (w, i) => (otpCell s (192 + i), eccWord w)) ++ (c, BitVec.ofNat 39 (sealOf ws)) :: lockPulses c

/-- The effect of a finished command (R186, R191, R196, R203, R204, R188). -/
def otpFinish (s : State) (cmd : OtpCmd) (weak : BitVec 39) : State :=
  let g := cmd.addr / 32
  match cmd.op with
  | 1 =>
    let (v, r, m) := otpReadWord s cmd.addr
    let s := otpLog s hubA cmd.addr r m
    let s := setReg (setReg (setReg s (aOtp 0x00C) v) (aOtp 0x014) (w32 m)) (aOtp 0x018) (w32 (m / 2 ^ 32))
    setOtpCode (setRegF s (aOtp 0x010) 8 4 r) (if r = rUncorrectable then 9 else 0)
  | 2 => otpEnd cmd.addr (pulseAll weak [(otpCell s cmd.addr, otpTarget cmd.addr cmd.data)] s)
  | 3 => otpEnd (32 * g + 31) (pulseAll weak (lockPulses (otpCell s (32 * g + 31))) s)
  | 4 => setOtpCode (setReg (otpLogWords s hubA (groupWords g 31)) (aOtp 0x00C) (w32 (groupCrc s g))) 0
  | 5 =>
    match dripTake s 8 with
    | none => s
    | some (ws, s) => otpEnd 192 (pulseAll weak (udsPulses s ws) s)
  | 6 =>
    match freeSpare s with
    | none => setOtpCode s 0xA
    | some i =>
      let row := cmd.addr / 8
      let bits : BitVec 39 := BitVec.ofNat 39 ((128 + row) <<< (8 * (i % 4)))
      match pulseAll weak ([0, 1, 2].map fun k => (1152 + 4 * k + i / 4, bits)) s with
      | (s, true) =>
        let s := { s with otp := { s.otp with redirect := smSet s.otp.redirect i none (some row) } }
        setOtpCode (showRedirect s) 0
      | (s, false) => otpEnd cmd.addr (s, false)
  | _ => s

/-- A `GEN_UDS` whose words Drip cannot deliver yet goes on waiting (R520). -/
def otpWaits (s : State) (cmd : OtpCmd) : Bool := cmd.op = 5 && (dripTake s 8).isNone

/-- OTP_COMMAND_DONE (R204). -/
def otpDoneOp (s : State) (weak : BitVec 39) : State :=
  match s.otp.command with
  | none => s
  | some cmd =>
    if otpWaits s cmd then s
    else
      let s := otpFinish s cmd weak
      showOtpBusy { s with otp := { s.otp with command := none } }

/-- The cell words that a programming command pulses, in order, but for what must not be reached by one that does not
complete: an abandoned `GEN_UDS` leaves G_6 unlocked (R196); its secret then is a free value. -/
def abandonPulses (s : State) (cmd : OtpCmd) : List (Nat × BitVec 39) × State :=
  match cmd.op with
  | 2 => ([(otpCell s cmd.addr, otpTarget cmd.addr cmd.data)], s)
  | 3 => (lockPulses (otpCell s (32 * (cmd.addr / 32) + 31)), s)
  | 5 =>
    let r := drawWords 8 s
    ((udsPulses r.2 r.1).take 10, r.2)
  | 6 =>
    match freeSpare s with
    | some i =>
      let bits : BitVec 39 := BitVec.ofNat 39 ((128 + cmd.addr / 8) <<< (8 * (i % 4)))
      ([0, 1, 2].map fun k => (1152 + 4 * k + i / 4, bits), s)
    | none => ([], s)
  | _ => ([], s)

/-- Pulsing stops (R205): the first `k` cell words are programmed, and of the next one free bits are solid or marginal. -/
def stopPulses (s : State) (ps : List (Nat × BitVec 39)) (k : Nat) : State :=
  let s := (pulseAll 0 (ps.take k) s).1
  match ps.drop k with
  | (c, t) :: _ =>
    let a := drawCell s
    let b := drawCell a.2
    let need := t &&& ~~~(BitVec.ofNat 39 (cellOnes b.2 c))
    setCell b.2 c (need &&& a.1) (need &&& b.1)
  | [] => s

/-- Pulsing stops at a free place. -/
def stopAnywhere (s : State) (ps : List (Nat × BitVec 39)) : State :=
  let k := drawWord s
  stopPulses k.2 ps (k.1.toNat % (ps.length + 1))

/-- PORST_N or a device reset abandons a running command (R192, R196, R205): how far it came is a free value (log 81). An
abandoned `GEN_UDS` leaves G_6 not blank. -/
def abandonCommand (s : State) : State :=
  match s.otp.command with
  | none => s
  | some cmd =>
    let r := abandonPulses s cmd
    let s := stopAnywhere r.2 r.1
    let s := if cmd.op = 5 && groupBlank s 6 then
        let b := drawWord s
        setCell b.2 (otpCell s 192) 0 (BitVec.ofNat 39 (2 ^ (b.1.toNat % 39)))
      else s
    { s with otp := { s.otp with command := none } }

/-- PUMP_IDLE_OFF (R204). -/
def pumpIdleOp (s : State) : State :=
  if s.otp.command.any fun c => isProgramming c.op then s
  else setRegB { s with otp := { s.otp with pumpOn := false } } (aOtp 0x010) 29 false

/-- A write to the OTP block (R206). -/
def otpWrite (s : State) (off : Nat) (v : W32) : State :=
  if off = 0x000 then
    let op := fld v 0 4
    if 1 ≤ op && op ≤ 6 then otpStart s op (reg s (aOtp 0x004)).toNat (reg s (aOtp 0x008)) else s
  else plainWrite s (aOtp off) v

/-! ### The device secret (R196) -/

/-- `KEY_DISABLE` as sensed: any of its three bits. -/
def keyDisabled (s : State) : Bool := fld (crit s 7) 0 3 ≠ 0

/-- The words that the slot 0 load reads (R196). -/
def secretWords (s : State) : List Nat := if keyDisabled s then [] else groupWords 6 8

/-- The 32 bytes that the sequencer loads into slot 0. -/
def deviceSecret (s : State) : List Byte :=
  if keyDisabled s then zeros 32 else wordBytes ((List.range 8).map fun i => otpData s (192 + i))

/-! ### Sensing (R188, R199, R200) -/

/-- A redirection bit by majority of the copies; a marginal bit votes for neither value. -/
def redirectBit (s : State) (i b : Nat) : Option Bool :=
  let pos := 8 * (i % 4) + b
  let votes := [0, 1, 2].map fun k =>
    let c := 1152 + 4 * k + i / 4
    if (cellMarg s c).testBit pos then none else some ((cellOnes s c).testBit pos)
  if 2 ≤ votes.count (some true) then some true
  else if 2 ≤ votes.count (some false) then some false
  else none

/-- Entry i: unresolved, or its 8 bits. -/
def redirectEntry (s : State) (i : Nat) : Option Nat :=
  (List.range 8).foldr (fun b acc =>
    match redirectBit s i b, acc with
    | some v, some n => some (b2n v + 2 * n)
    | _, _ => none) (some 0)

/-- Resolve one redirection entry; an unresolved one is logged and not used. -/
def senseRedirect (s : State) (i : Nat) : State :=
  match redirectEntry s i with
  | some e =>
    let v := if 128 ≤ e then some (e - 128) else none
    { s with otp := { s.otp with redirect := smSet s.otp.redirect i none v } }
  | none =>
    let s := { s with otp := { s.otp with redirect := smSet s.otp.redirect i none none } }
    setRegB (emit s islOtp 0x431 0x042 [w32 i]) (aOtp 0x020) 1 true

/-- Sense critical word i: its margins, its record, its resolved value; `OWNER_OFF` blanks the owner wires (R194, R199). -/
def senseCrit (s : State) (i : Nat) : State :=
  let a := critAddr i
  let (v, r, m) := otpReadWord s a
  let s := otpLog s 0x431 a r m
  let s := setReg s (aOtp (0x140 + 4 * i)) (w32 m)
  let s := if m ≠ 0 then setRegB s (aOtp 0x020) 0 true else s
  setReg s (aOtp (0x100 + 4 * i)) (if 10 ≤ i && bitOf (crit s 8) 2 then 0 else v)

/-- Sensing of the redirection table and the critical words. -/
def senseArray (s : State) : State :=
  let s := (List.range 16).foldl senseRedirect s
  (List.range 13).foldl senseCrit (showRedirect s)

/-- Program bits of a word as the transition sequencer does: the pump starts (R204), and its pulses succeed (R202, R213;
log 82). -/
def seqProgram (s : State) (a : Nat) (d : W32) : State :=
  (pulseCell (pumpStart s) (otpCell s a) (otpTarget a d) 0).1

/-! ### The words of a life-cycle transition (R194, R208, R213) -/

/-- The copy word of a state (R208). -/
def lcCode (st : Nat) : W32 :=
  match st with
  | 0 => 0x00000000
  | 1 => 0x000000FF
  | 2 => 0x0000FFFF
  | 3 => 0x00FFFFFF
  | _ => 0xFFFFFFFF

/-- The word address of the progress mark of a target state (R194). -/
def markAddr (target : Nat) : Nat := 3 + target

/-- The words that step n programs before its mark: the disable words and the copies. -/
def stepWords (target n : Nat) : List (Nat × W32) :=
  match n with
  | 1 => [(8, 7)]
  | 4 => [(9, 7)]
  | 5 => [(0, lcCode target)]
  | 6 => [(1, lcCode target)]
  | 7 => [(2, lcCode target)]
  | _ => []

/-- `MARK_A`[n], then `MARK_B`[n]. -/
def markWords (target n : Nat) : List (Nat × W32) := [(markAddr target, w32 (2 ^ n)), (markAddr target, w32 (2 ^ (16 + n)))]

/-- Program words in order. -/
def seqWords (s : State) (ws : List (Nat × W32)) : State := ws.foldl (fun s e => seqProgram s e.1 e.2) s

/-- PORST_N or a device reset inside a transition's step: what it programs is left partly programmed, at a free place
(R214; log 81); the erase of step 3 has not reached its mark. -/
def abandonStep (s : State) : State :=
  match s.lc.transition with
  | none => s
  | some t =>
    if t.step = 3 then s
    else stopAnywhere s ((stepWords t.target t.step ++ markWords t.target t.step).map fun e =>
      (otpCell s e.1, otpTarget e.1 e.2))

/-- What the array keeps of work that PORST_N or a device reset interrupts. -/
def abandonOtp (s : State) : State := abandonStep (abandonCommand s)

/-! ### The commands: only Hub-A writes `OTP_CMD`, `OTP_ADDR` and `OTP_WDATA` (R206) -/

/-- Hub-A writes `OTP_ADDR`, and `OTP_WDATA` where the command takes data, then `OTP_CMD`. -/
def otpCommand (s : State) (m op : Nat) (addr : Option Nat) (data : Option W32) : State :=
  guarded s m (aOtp 0x000) (domOn s 27) fun s => byHubA s m (aOtp 0x000) fun s =>
    let s := match addr with
      | some a => setReg s (aOtp 0x004) (w32 a)
      | none => s
    let s := match data with
      | some v => setReg s (aOtp 0x008) v
      | none => s
    otpWrite s 0x000 (w32 op)

/-- A running command ends only in a controller that runs. -/
def otpDone (s : State) (weak : BitVec 39) : State := if domOn s 27 then otpDoneOp s weak else s

def execRead (m : Nat) (addr : BitVec 10) (s : State) : Host.Outcome State Fault Refusal :=
  .next (otpCommand s m 1 (some addr.toNat) none)
def execProgram (m : Nat) (addr : BitVec 10) (data : W32) (s : State) : Host.Outcome State Fault Refusal :=
  .next (otpCommand s m 2 (some addr.toNat) (some data))
def execLock (m : Nat) (g : BitVec 5) (s : State) : Host.Outcome State Fault Refusal :=
  .next (otpCommand s m 3 (some (32 * g.toNat)) none)
def execSealCalc (m : Nat) (g : BitVec 5) (s : State) : Host.Outcome State Fault Refusal :=
  .next (otpCommand s m 4 (some (32 * g.toNat)) none)
def execGenUds (m : Nat) (s : State) : Host.Outcome State Fault Refusal := .next (otpCommand s m 5 none none)
def execRepair (m : Nat) (row : BitVec 7) (s : State) : Host.Outcome State Fault Refusal :=
  .next (otpCommand s m 6 (some (8 * row.toNat)) none)
def execOtpCommandDone (weak : BitVec 39) (s : State) : Host.Outcome State Fault Refusal := .next (otpDone s weak)
def execPumpIdleOff (s : State) : Host.Outcome State Fault Refusal := .next (pumpIdleOp s)

end Sys2Proof.Machine
end

