-- ==== Sys2Proof/Machine/Platform.lean ====
section
/-! DEFINITION. Platforms in reset, their release and hold, recovery attempts, PCTL pins and LANTERN_AUX
(09_boot.md R248 to R257, 12_recovery.md R311 and R312, 21_pins_package.md R505 to R508). -/

namespace Sys2Proof.Machine

/-! ### Wake events (R481) -/

/-- The device power state that is current or being entered. -/
def powerTarget (s : State) : Nat := (s.pwr.seq.map PowerSeq.target).getD s.pwr.current

/-- A wake event in STANDBY or DEEP, or on the way there, waits for its exit (R480, R481); `cause` is its bit of
`PWR_WAKE_EN`; a platform hold (0) is one in STANDBY only. -/
def noteWake (s : State) (cause pin : Nat) : State :=
  if powerTarget s = 2 || (powerTarget s = 3 && cause ≠ 0) then
    { s with pwr := { s.pwr with wakes := s.pwr.wakes ++ [(cause, pin)] } }
  else s

/-! ### PCTL pins -/

def pctlFunc (s : State) (n : Nat) : Nat := regF s (aPctlCfg n) 0 4
def pctlPlatform (s : State) (n : Nat) : Nat := regF s (aPctlCfg n) 4 2
def pctlInvert (s : State) (n : Nat) : Bool := regB s (aPctlCfg n) 8
/-- Filtered level of a pin (R491, R506). -/
def pinLevel (s : State) (n : Nat) : Bool := smGet s.pins n false
def setPin (s : State) (n : Nat) (v : Bool) : State := { s with pins := smSet s.pins n false v }

/-- The power-good inputs of a platform (R505). -/
def pgPins (s : State) (p : Nat) : List Nat :=
  (List.range 12).filter fun n => pctlFunc s n = 3 && pctlPlatform s n = p

/-- A power-good input reads good: high, or low when inverted. -/
def pgGood (s : State) (n : Nat) : Bool := pinLevel s n ^^ pctlInvert s n

/-- What the block does to a PCTL pin. -/
inductive Drive where
  | low | high | highZ
  deriving DecidableEq, Repr

/-- The rights that Lantern holds (R219, R220): all at FACTORY, those of the session otherwise. -/
def rightsNow (s : State) : W32 := if lcState s < 2 then 0xFF else s.lc.session.getD 0

/-- `EXTEST` is in force (R217, R218). -/
def extestOn (s : State) : Bool := s.lc.ir = 3 && domOn s 29 && bitOf (rightsNow s) 6

/-- A pin's `PCTL_DEFAULT` state (R197): only 0b01 is high impedance. -/
def pctlDefault (s : State) (n : Nat) : Drive := if fld (reg s (aOtp 0x12C)) (2 * n) 2 = 1 then .highZ else .low

/-- What drives PCTL_n (R197, R200, R218, R229, R248, R488, R505): 0b00 until the wires are valid, `PCTL_DEFAULT` until
Hub-A configures it and under `EXTEST`; a reset output is low while its platform is held. -/
def pctlDrive (s : State) (n : Nat) : Drive :=
  if s.boot.phase ≠ .up then .low
  else if extestOn s then pctlDefault s n
  else match pctlFunc s n with
  | 0 => pctlDefault s n
  | 1 => if regB s (aPlat (pctlPlatform s n) 0x008) 8 then .highZ else .low
  | 2 => if regB s (aPctlCfg n) 12 != pctlInvert s n then .high else .low
  | _ => .highZ

/-- The level at PCTL_n: the block's own, or the one that the board gives an undriven pin. -/
def pctlLevel (s : State) (n : Nat) : Bool :=
  match pctlDrive s n with
  | .low => false
  | .high => true
  | .highZ => pinLevel s n

/-- What drives LANTERN_AUX (R508): a UART line rests high, ALERT_N is open-drain. -/
def auxDrive (s : State) : Drive :=
  match regF s (aPlat 0 0x144) 0 2 with
  | 1 => .high
  | 2 => if regB s (aPlat 0 0x144) 4 then .low else .highZ
  | _ => .highZ

/-! ### Conditions (R249) -/

def plat (s : State) (p : Nat) : Platform := smGet s.platforms p {}
def setPlat (s : State) (p : Nat) (k : Platform) : State := { s with platforms := smSet s.platforms p {} k }
def platStatus (s : State) (p i : Nat) : Bool := regB s (aPlat p 0x008) i
def setPlatStatus (s : State) (p i : Nat) (v : Bool) : State := setRegB s (aPlat p 0x008) i v
def released (s : State) (p : Nat) : Bool := platStatus s p 8
def epoch (s : State) (p : Nat) : Nat := regF s (aPlat p 0x008) 24 8

/-- The power-good condition; a platform without a power-good pin always meets it (R505). -/
def pgHolds (s : State) (p : Nat) : Bool := pgPins s p = [] || (plat s p).pgStable

/-- The named platform is released; a platform that names itself never meets it. -/
def afterHolds (s : State) (p : Nat) : Bool :=
  let a := fld (plat s p).seq 0 2
  a ≠ p && released s a

/-- Every condition of `PLAT_RELEASE_COND_p` but the delay. -/
def otherConds (s : State) (p : Nat) : Bool :=
  let c := reg s (aPlat p 0x004)
  (platStatus s p 0 || platStatus s p 1) && (!bitOf c 2 || pgHolds s p) && (!bitOf c 3 || afterHolds s p) &&
    (!bitOf c 4 || platStatus s p 4)

/-- Every condition set in `PLAT_RELEASE_COND_p` holds. -/
def releaseConds (s : State) (p : Nat) : Bool :=
  otherConds s p && (!regB s (aPlat p 0x004) 5 || (plat s p).delayDone)

/-- The delay of a held platform starts again when another condition no longer holds (R249). -/
def settleDelay (s : State) (p : Nat) : State :=
  if released s p || otherConds s p then s else setPlat s p { plat s p with delayDone := false }

/-- Settle every platform after a condition may have changed. -/
def settle (s : State) : State := [0, 1, 2, 3].foldl settleDelay s

/-- `PLAT_STATUS_p` as it reads (R257). -/
def platStatusRead (s : State) (p : Nat) : W32 :=
  let v := reg s (aPlat p 0x008)
  setFld (setFld (setFld v 5 1 (b2n (plat s p).delayDone)) 3 1 (b2n (afterHolds s p))) 2 1 (b2n (pgHolds s p))

/-! ### Holding (R250, R260, R262) -/

def port (s : State) (p : Nat) : Port := smGet s.ports p {}
def setPort (s : State) (p : Nat) (k : Port) : State := { s with ports := smSet s.ports p {} k }

/-- `HOST_MODE` at power-up: 1S, the address length of `ADDR4_AT_RESET`, no continuous read (R262). -/
def hostModeReset (s : State) (p : Nat) : State := setReg s (aPort p 0x00C) (w32 (2 * b2n (regB s (aPort p 0x014) 14)))

def hostMode (s : State) (p : Nat) : W32 := reg s (aPort p 0x00C)
def proto4 (s : State) (p : Nat) : Bool := bitOf (hostMode s p) 0

/-- A denied change, of class `WRITE`, `ERASE` or `REGWRITE`, is braked (R268, R290). -/
def isBraked (t : HostTxn) : Bool := t.denied && 1 ≤ fld t.entry 27 3 && fld t.entry 27 3 ≤ 3

/-- Bits of a full clock in a phase that the entry gives the width `w`; a DTR edge carries as many as a 4S clock (R284,
R286). -/
def phaseBits (s : State) (p w : Nat) : Nat := if w = 0 && !proto4 s p then 1 else 4

/-- The width field of the last phase that a transaction with `bytes` data bytes reached: data, address and mode, or
opcode. -/
def finalPhase (t : HostTxn) (bytes : Nat) : Nat :=
  if bytes ≠ 0 then fld t.entry 20 2 else if fld t.entry 24 2 ≠ 0 then fld t.entry 22 2 else 0

/-- The brake sets in: the injected cycle of R268, a pulse of 1 or 4 bits, or one edge after a DTR phase, which adds a
nibble. FCS_A_N stays low until it is over. -/
def brakeOp (s : State) (p bytes : Nat) (t : HostTxn) : State :=
  let s := emitOut s (.flashBrake p (phaseBits s p (finalPhase t bytes)) (finalPhase t bytes = 2))
  bump (setPort s p { port s p with brake := true, brakeAddr := t.addr }) (aPort p 0x0C4)

/-- A command that may change the flash on chip select k of port p went onto its bus (the model's own count, log 89). -/
def flashTouched (s : State) (p k : Nat) : State :=
  { s with flashGen := smSet s.flashGen (p + 4 * k) 0 (smGet s.flashGen (p + 4 * k) 0 + 1) }

/-- FCS_A_N follows the end of a transaction: at once, or after the brake (R268, R269). What is no read and is not braked
may change the flash. -/
def releaseBus (s : State) (p bytes : Nat) (t : HostTxn) : State :=
  if isBraked t then brakeOp s p bytes t
  else
    let s := emitOut s (.flashSelect p false)
    if t.decided && fld t.entry 27 3 = 0 then s else flashTouched s p 0

/-- A hold cuts the host transaction. DESIGN CHOICE (log 86): the flash sees it end there, braked if it is a denied
change. -/
def cutTxn (s : State) (p : Nat) : State :=
  match (port s p).txn with
  | some t =>
    let s := setPort s p { port s p with txn := none }
    if t.kind = 0 then releaseBus s p 0 t else s
  | none => s

/-- What a hold does at the port: the host side ignores the bus (R260), its mode returns to power-up (R262), the
shipped gatekeeper program leaves lockdown, and an open update window stays (R304). -/
def portHold (s : State) (p : Nat) : State :=
  let s := cutTxn s p
  let k := port s p
  setPort (hostModeReset s p) p { k with resetArmed := false, gk := { k.gk with lockdown := false } }

/-- Hold platform p (R250, R442): verification and delay are lost, the epoch advances, a wake event in STANDBY. -/
def holdOp (s : State) (p : Nat) : State :=
  let v := reg s (aPlat p 0x008)
  let v := setFld (setFld (setFld v 0 2 0) 8 1 0) 24 8 (epoch s p + 1)
  let s := setReg s (aPlat p 0x008) v
  let s := setPlat s p { plat s p with delayDone := false, seq := reg s (aPlat p 0x010) }
  noteWake (settle (portHold s p)) 0 0

/-- Hold every platform. -/
def holdAll (s : State) : State := [0, 1, 2, 3].foldl holdOp s

/-- Arm the boot fetch audit at a release (R254, R278); `PORT_STATUS` mirrors the bit. -/
def armAudit (s : State) (p : Nat) (v : Bool) : State := setPlatStatus s p 9 v

/-- The port's domain is on. -/
def portOn (s : State) (p : Nat) : Bool := p < 4 && domOn s (18 + p)

/-- The static table applies now. -/
def staticNow (s : State) (p : Nat) : Bool :=
  regB s (aPort p 0x3004) 4 || regB s (aPort p 0x3000) 9 ||
    ((core s (gkId p)).run = .reset && !regB s (aPort p 0x3000) 8)

/-- FWP_N of port p is high (R272, R297, R503): its domain is on, `WP_ASSERT` is clear and the static table does not apply. -/
def fwpHigh (s : State) (p : Nat) : Bool := portOn s p && !regB s (aPort p 0x004) 0 && !staticNow s p

/-- A life-cycle transition past its intent step keeps every platform in reset (R212). -/
def transitionHolds (s : State) : Bool := s.lc.transition.any fun t => t.step ≠ 0

/-- PLATFORM_RELEASE (R249): present, every condition true, its port powered (R260), no monitor, PORST_N or transition
holding. -/
def platformReleaseOp (s : State) (p : Nat) : State :=
  if p < 4 && regB s (aPlat p 0x000) 0 && !released s p && releaseConds s p && portOn s p && s.boot.phase = .up &&
      !transitionHolds s then
    let s := setRegB (setPlatStatus s p 8 true) (aPort p 0x0B0) 0 false
    settle (armAudit s p true)
  else s

/-- DELAY_DONE (R249). -/
def delayDoneOp (s : State) (p : Nat) : State :=
  if otherConds s p then setPlat s p { plat s p with delayDone := true } else s

/-- POWER_GOOD_RISE (R249): the input reads good; the count runs once every input of the platform does. -/
def powerGoodRiseOp (s : State) (n : Nat) : State :=
  let s := setPin s n (!pctlInvert s n)
  if pctlFunc s n = 3 then
    let p := pctlPlatform s n
    if (pgPins s p).all (pgGood s) && !(plat s p).pgStable then setPlat s p { plat s p with pgCounting := true } else s
  else s

/-- POWER_GOOD_STABLE (R249). -/
def powerGoodStableOp (s : State) (p : Nat) : State :=
  if (plat s p).pgCounting then setPlat s p { plat s p with pgCounting := false, pgStable := true } else s

/-- POWER_GOOD_FALL (R250). -/
def powerGoodFallOp (s : State) (n : Nat) : State :=
  let s := setPin s n (pctlInvert s n)
  if pctlFunc s n = 3 then
    let p := pctlPlatform s n
    let s := setPlat s p { plat s p with pgCounting := false, pgStable := false }
    if released s p then holdOp s p else settle s
  else s

/-! ### Verification and recovery attempts (R251, R311) -/

def quarantined (s : State) (p : Nat) : Bool := regB s (aPlat p 0x018) 15

/-- One action bit of `PLAT_VERIFY_p` under its epoch (R251, R311): 0 SET_IMAGES, 1 SET_RECOVERY, 2 CLEAR_GO, 3 SET_GO. -/
def verifyAct (s : State) (p : Nat) (ep : Nat) (act : Nat) : State :=
  if ep ≠ epoch s p then setPlatStatus s p 11 true
  else match act with
  | 0 => if quarantined s p then s else setRegF (setPlatStatus s p 0 true) (aPlat p 0x018) 4 4 0
  | 1 => if quarantined s p then s else setPlatStatus s p 1 true
  | 2 => settle (setPlatStatus s p 4 false)
  | _ => setPlatStatus s p 4 true

/-- A write of `PLAT_VERIFY_p` (R251): stale under another epoch, whatever it asks; else its bits from the lowest up. -/
def verifyWrite (s : State) (p : Nat) (v : W32) : State :=
  if fld v 8 8 ≠ epoch s p then setPlatStatus s p 11 true
  else [0, 1, 2, 3].foldl (fun s a => if bitOf v a then verifyAct s p (fld v 8 8) a else s) s

/-- `START` (R311): the attempt is counted, or refused at the limit with quarantine. -/
def startOp (s : State) (p : Nat) : State :=
  let r := reg s (aPlat p 0x018)
  let count := fld r 4 4
  if count = fld r 0 4 then emit (setRegB s (aPlat p 0x018) 15 true) islAon 0x430 0x0B4 [w32 p]
  else
    let s := setRegF s (aPlat p 0x018) 4 4 (count + 1)
    emit s islAon 0x430 0x0B1 [w32 p, w32 (fld r 8 3), w32 (count + 1)]

/-- Writing 1 to `QUARANTINED` clears it and `COUNT` (R311, R312). -/
def quarantineClearOp (s : State) (p : Nat) : State := setRegF (setRegB s (aPlat p 0x018) 15 false) (aPlat p 0x018) 4 4 0

/-! ### Pins and LANTERN_AUX -/

/-- PCTL_ALERT_FALL (R505). -/
def alertFallOp (s : State) (n : Nat) : State :=
  let s := setPin s n false
  if pctlFunc s n = 5 then
    let s := hubInt (setRegB s (aPlat 0 0x140) n true) "INT_PCTL" n
    if regB s (aPwr 0x008) (16 + n) then noteWake s (16 + n) n else s
  else s

/-- PCTL_CFG_WRITE (R505 to R507). -/
def pctlCfgOp (s : State) (n : Nat) (v : W32) : State :=
  let old := reg s (aPctlCfg n)
  let new := v &&& 0x1000 ||| (v &&& 0x13F)
  if 5 < fld v 0 4 then s
  else if old &&& 0x13F = new &&& 0x13F then setReg s (aPctlCfg n) new
  else if released s (fld old 4 2) || released s (fld new 4 2) then setRegB s (aPlat 0 0x140) 16 true
  else
    let s := setReg s (aPctlCfg n) new
    let restart := fun (s : State) (p : Nat) =>
      setPlat s p { plat s p with pgStable := false, pgCounting := pgPins s p ≠ [] && (pgPins s p).all (pgGood s) }
    settle (restart (restart s (fld old 4 2)) (fld new 4 2))

/-- AUX_TXDATA (R508): discarded while busy. -/
def auxTxOp (s : State) (v : W32) : State :=
  if regB s (aPlat 0 0x148) 8 then s
  else
    let s := setRegB s (aPlat 0 0x148) 8 true
    if regF s (aPlat 0 0x144) 0 2 = 1 then emitOut s (.uart (BitVec.ofNat 8 (fld v 0 8))) else s

/-- AUX_TX_DONE (R508). -/
def auxDoneOp (s : State) : State := setRegB s (aPlat 0 0x148) 8 false

/-- A write of `PLAT_SEQ_p` (R249): while the platform is released it waits for the next hold. -/
def seqWrite (s : State) (p : Nat) (v : W32) : State :=
  let s := plainWrite s (aPlat p 0x010) v
  if released s p then s else settle (setPlat s p { plat s p with seq := reg s (aPlat p 0x010) })

/-- A write to the platform control block (R257, R312, R506, R508). -/
def platWrite (s : State) (off : Nat) (v : W32) : State :=
  if off < 0x100 then
    let p := off / 0x40
    match off % 0x40 with
    | 0x00 =>
      let s := plainWrite s (aPlat p 0x000) v
      if bitOf v 1 then holdOp s p else s
    | 0x0C => verifyWrite s p v
    | 0x18 =>
      let s := plainWrite s (aPlat p 0x018) v
      let s := if bitOf v 15 then quarantineClearOp s p else s
      if bitOf v 16 then startOp s p else s
    | 0x10 => seqWrite s p v
    | o => if o = 0x04 && !released s p then settle (plainWrite s (aPlat p o) v) else plainWrite s (aPlat p o) v
  else if off < 0x130 then (if off % 4 = 0 then pctlCfgOp s ((off - 0x100) / 4) v else s)
  else if off = 0x144 then (if fld v 0 2 = 3 then s else plainWrite s (aPlat 0 off) v)
  else if off = 0x148 then auxTxOp s v
  else plainWrite s (aPlat 0 off) v

/-- A read of the platform control block. -/
def platRead (s : State) (off : Nat) : W32 :=
  if off < 0x100 && off % 0x40 = 0x08 then platStatusRead s (off / 0x40)
  else if 0x100 ≤ off && off < 0x130 && off % 4 = 0 then
    setFld (reg s (aPlat 0 off)) 17 1 (b2n (pctlLevel s ((off - 0x100) / 4)))
  else reg s (aPlat 0 off)

/-! ### The commands: only Hub-A writes the block (R257, R312) -/

/-- Hub-A writes one action bit of `PLAT_VERIFY_p` with an epoch. -/
def verifyBy (s : State) (m p : Nat) (ep : BitVec 8) (act : Nat) : State :=
  byHubA s m (aPlat p 0x00C) fun s => if p < 4 then verifyAct s p ep.toNat act else s

/-- Hub-A acts on one of the four platforms. -/
def platBy (s : State) (m p off : Nat) (f : State → State) : State :=
  byHubA s m (aPlat p off) fun s => if p < 4 then f s else s

def execSetImages (m p : Nat) (epoch : BitVec 8) (s : State) : Host.Outcome State Fault Refusal :=
  .next (verifyBy s m p epoch 0)
def execSetRecovery (m p : Nat) (epoch : BitVec 8) (s : State) : Host.Outcome State Fault Refusal :=
  .next (verifyBy s m p epoch 1)
def execClearGo (m p : Nat) (epoch : BitVec 8) (s : State) : Host.Outcome State Fault Refusal :=
  .next (verifyBy s m p epoch 2)
def execSetGo (m p : Nat) (epoch : BitVec 8) (s : State) : Host.Outcome State Fault Refusal :=
  .next (verifyBy s m p epoch 3)
def execHold (m p : Nat) (s : State) : Host.Outcome State Fault Refusal :=
  .next (platBy s m p 0x000 fun s => holdOp s p)
def execDelayDone (p : Nat) (s : State) : Host.Outcome State Fault Refusal :=
  .next (if p < 4 then delayDoneOp s p else s)
def execPowerGoodRise (n : Nat) (s : State) : Host.Outcome State Fault Refusal :=
  .next (if n < 12 then powerGoodRiseOp s n else s)
def execPowerGoodStable (p : Nat) (s : State) : Host.Outcome State Fault Refusal := .next (powerGoodStableOp s p)
def execPowerGoodFall (n : Nat) (s : State) : Host.Outcome State Fault Refusal :=
  .next (if n < 12 then powerGoodFallOp s n else s)
def execPctlAlertFall (n : Nat) (s : State) : Host.Outcome State Fault Refusal :=
  .next (if n < 12 then alertFallOp s n else s)
def execPctlCfgWrite (m n : Nat) (v : W32) (s : State) : Host.Outcome State Fault Refusal :=
  .next (byHubA s m (aPctlCfg n) fun s => if n < 12 then pctlCfgOp s n v else s)
def execAuxTxdata (m : Nat) (v : W32) (s : State) : Host.Outcome State Fault Refusal :=
  .next (byHubA s m (aPlat 0 0x148) fun s => auxTxOp s v)
def execAuxTxDone (s : State) : Host.Outcome State Fault Refusal := .next (auxDoneOp s)
def execStart (m p : Nat) (s : State) : Host.Outcome State Fault Refusal :=
  .next (platBy s m p 0x018 fun s => startOp s p)
def execQuarantinedClear (m p : Nat) (s : State) : Host.Outcome State Fault Refusal :=
  .next (platBy s m p 0x018 fun s => quarantineClearOp s p)

end Sys2Proof.Machine
end

