-- ==== Sys2Proof/Machine/Operands.lean ====
section
/-! DEFINITION. Core registers and windows, interrupts and readmission (R30 to R32, R42, R55, R85, R86). -/

namespace Sys2Proof.Machine

/-! ### Registers (R30, R32, R42) -/

/-- Registers of the physical window file: 256, or 128 on a gatekeeper (R32, R62). -/
def fileSize (c : Nat) : Nat := if isGk c then 128 else 256

/-- The physical register of window register i. -/
def physReg (c : Nat) (k : Core) (i : Nat) : Nat := (k.wp + i) % fileSize c

/-- A register by its 5-bit code: k0 to k7, then w0 to w23; k0 reads zero (R30, R42). -/
def getR (c : Nat) (k : Core) (r : Nat) : W64 :=
  if r = 0 then 0
  else if r < 8 then smGet k.kregs r 0
  else smGet k.window (physReg c k (r - 8)) 0

/-- Write a register by its code; a write to k0 is discarded. -/
def setR (c : Nat) (k : Core) (r : Nat) (v : W64) : Core :=
  if r = 0 then k
  else if r < 8 then { k with kregs := smSet k.kregs r 0 v }
  else { k with window := smSet k.window (physReg c k (r - 8)) 0 v }

/-- A register of core c. -/
def rd (s : State) (c r : Nat) : W64 := getR c (core s c) r

/-- Write a register of core c. -/
def wr (s : State) (c r : Nat) (v : W64) : State := modCore s c fun k => setR c k r v

/-! ### The job of a core -/

/-- The job that the fabric keeps for a Spoke until its completion (R345, R347). -/
def jobRec (s : State) (c : Nat) : Option Job := smGet s.fabric.jobs c none

/-- The job that a Spoke runs: dispatched and not ended. -/
def jobOf (s : State) (c : Nat) : Option Job := (jobRec s c).filter fun j => j.ended.isNone

def setJob (s : State) (c : Nat) (j : Option Job) : State :=
  { s with fabric := { s.fabric with jobs := smSet s.fabric.jobs c none j } }

/-- Class of a master's claims and tokens: its job's; 7 for a Spoke without one, 0 for a Hub core (R121, R155). -/
def classOf (s : State) (m : Nat) : Nat := if isHub m then 0 else ((jobOf s m).map Job.cls).getD 7

/-- Release kind of a master's claims (R121, R142). -/
def signOf (s : State) (m : Nat) : Bool := !isHub m && ((jobOf s m).map Job.sign).getD false

/-! ### Interrupts and readmission (R55, R85, R86, R302) -/

/-- An enabled interrupt is pending. -/
def intReady (k : Core) : Bool := k.intPending &&& k.intEnable ≠ 0

/-- A waiting core asks for its token again; gatekeepers and Hub cores need none (R85, R302). -/
def readmit (s : State) (c : Nat) : State :=
  if isSpoke c then
    askAdmission (modCore s c fun k => { k with run := .readmitting }) (.spoke c) 1 (classOf s c == 0 && (jobOf s c).isSome)
  else modCore s c fun k => { k with run := .granted }

/-- End the wait of a core that has an enabled interrupt pending; a `WAIT.JOB` then answers 0 (R85, R86). -/
def wakeCore (s : State) (c : Nat) : State :=
  let k := core s c
  if intReady k && !k.frozen then
    match k.run with
    | .wait => readmit s c
    | .waitJob d => readmit (wr s c d 0) c
    | _ => s
  else s

/-- Raise an interrupt of value `v` (R53, R62) to a core. -/
def interrupt (s : State) (c v : Nat) : State := wakeCore (raiseInt s c v) c

/-- `INT_CRANK_DONE`, `INT_LANE_DONE_L`, `INT_WDMA_DONE`, `INT_TIMER`, `INT_HUB_SIGNAL`, `INT_TLOG_READY`,
`INT_TABLE_SWAPPED` (R53, R62). -/
def intCrankDone : Nat := 0x10
def intLaneDone (l : Nat) : Nat := 0x11 + l % 2
def intWdmaDone : Nat := 0x13
def intTimer : Nat := 0x14
def intHubSignal : Nat := 0x15
def intTlogReady : Nat := 0x18
def intTableSwapped : Nat := 0x19

end Sys2Proof.Machine
end

