-- ==== Sys2Proof/Machine/Wheels.lean ====
section
/-! DEFINITION. Banks, owners and handover, Wheel DMA and the Wheel control block (04_wheels_memory.md). A bank is
numbered 0 to 63 for shared bank b, 64 + 4 w + k for pool bank k of Wheel w. -/

namespace Sys2Proof.Machine

/-! ### Banks -/

def isShared (b : Nat) : Bool := b < 64
/-- Wheel and index of a pool bank. -/
def poolWheel (b : Nat) : Nat := (b - 64) / 4
def poolIdx (b : Nat) : Nat := (b - 64) % 4

def ownerAddr (b : Nat) : Nat :=
  if isShared b then aFw (0x1000 + 0x10 * b) else aWheel (poolWheel b) (0x320020 + 4 * poolIdx b)
def shareAddr (b : Nat) : Nat := aFw (0x1004 + 0x10 * b)
def statusAddr (b : Nat) : Nat :=
  if isShared b then aFw (0x1008 + 0x10 * b) else aWheel (poolWheel b) (0x320030 + 4 * poolIdx b)

/-- First address and size of a bank's memory (R93, R514). -/
def bankBase (b : Nat) : Nat :=
  if isShared b then 0x100000000 + 0x40000 * b else aWheel (poolWheel b) (0x100000 + 0x20000 * poolIdx b)
def bankSize (b : Nat) : Nat := if isShared b then 0x40000 else 0x20000

/-- The domain of a bank's memory runs (R17, R101). -/
def bankOn (s : State) (b : Nat) : Bool :=
  if b < 8 then domOn s 25
  else if b < 36 then domOn s 25 && domOn s 23
  else if b < 64 then domOn s 25 && domOn s 24
  else wheelOn s (poolWheel b)

/-- The island that holds a bank's registers runs: the shared-bank fabric or the Wheel (R98). -/
def bankRegOn (s : State) (b : Nat) : Bool := if isShared b then domOn s 25 else wheelOn s (poolWheel b)

/-- The bank that a device address reaches, through which view (0 plain, 1 set alias, 2 clear alias) and at which plain
address (R93, R111, R514). -/
def bankAt (a : Nat) : Option (Nat × Nat × Nat) :=
  if 0x100000000 ≤ a && a < 0x101000000 then some ((a - 0x100000000) / 0x40000, 0, a)
  else if 0x110000000 ≤ a && a < 0x111000000 then some ((a - 0x110000000) / 0x40000, 1, a - 0x10000000)
  else if 0x120000000 ≤ a && a < 0x121000000 then some ((a - 0x120000000) / 0x40000, 2, a - 0x20000000)
  else if 0x200000000 ≤ a && a < 0x220000000 then
    let o := a % 0x1000000
    if 0x100000 ≤ o && o < 0x280000 then
      let view := (o - 0x100000) / 0x80000
      some (64 + 4 * ((a - 0x200000000) / 0x1000000) + (o - 0x100000) % 0x80000 / 0x20000, view, a - 0x80000 * view)
    else none
  else none

/-- The bank that holds a device address. -/
def bankOf (a : Nat) : Option Nat := (bankAt a).map (·.1)

def bankOwner (s : State) (b : Nat) : Nat := regF s (ownerAddr b) 0 11
def bankIsland (b : Nat) : Nat := if isShared b then islBank else poolWheel b
def wiping (s : State) (b : Nat) : Bool := regB s (statusAddr b) 17

/-- Rights of a master on a bank (R99); `viaAlias` for a write through a set or clear alias. -/
def bankGrants (s : State) (m b : Nat) (write viaAlias : Bool) : Bool :=
  let o := reg s (ownerAddr b)
  fld o 0 11 = m || m = hubA || (m = qfDma && bitOf o 14) ||
  (isShared b && isSpoke m && bitOf (reg s (shareAddr b)) (m / 16) && (!write || (viaAlias && b < 8))) ||
  (!isShared b && isSpoke m && m / 16 = poolWheel b && bitOf o (16 + m % 16) && !write)

/-- A processor's request is served: the rotation goes on behind it (R108). -/
def coreServed (s : State) (m b : Nat) : State :=
  if isCore m then { s with bankNext := smSet s.bankNext b 0 (m + 1) } else s

/-- BANK_WIPE_DONE (R102): the last word is written. -/
def bankWipeDoneOp (s : State) (b : Nat) : State :=
  if wiping s b then setRegB (wipeMem s (bankBase b) (bankBase b + bankSize b)) (statusAddr b) 17 false else s

/-- An access waits for a running wipe (R104): the wipe ends first. -/
def settleBank (s : State) (b : Nat) : State := bankWipeDoneOp s b

/-- A valid owner of a bank (R100). -/
def validOwner (s : State) (b o : Nat) : Bool :=
  if isShared b then
    (isSpoke o && !wheelAbsent s (o / 16)) || isHub o || isGk o || o = qfDma || o = 0x410 || o = 0x411
  else (isSpoke o && o / 16 = poolWheel b) || isHub o

/-- Record the result of an owner write (R105). -/
def bankResult (s : State) (b m code : Nat) : State :=
  setRegF (setRegF s (statusAddr b) 29 3 code) (statusAddr b) 18 11 m

/-- Bits of an owner register that software writes (R101). -/
def ownerBits (b : Nat) : W32 := if isShared b then 0x67FF else 0xFFFF67FF

/-- HANDOVER_WRITE (R100 to R104). DESIGN CHOICE (log 76): an owner write refused as a violation leaves `LAST_RESULT` and
`LAST_WRITER` as they are, since R105 has no code for it. -/
def handoverOp (s : State) (m b : Nat) (v : W32) : State :=
  let owner := bankOwner s b
  let new := fld v 0 11
  if m ≠ owner && m ≠ hubA then
    if m = regF s (statusAddr b) 0 11 then
      emit (bankResult s b m 2) (bankIsland b) m 0x015 [w32 (if isShared b then b else poolIdx b), v]
    else violate s m vHandover (ownerAddr b)
  else if wiping s b then bankResult s b m 3
  else if !validOwner s b new then
    emit (bankResult s b m 4) (bankIsland b) m 0x016 [w32 (if isShared b then b else poolIdx b), v]
  else
    let s := setReg s (ownerAddr b) (v &&& ownerBits b)
    let s := bankResult s b m 1
    if new = owner then s
    else
      let s := if isShared b then setReg s (shareAddr b) 0 else s
      let s := setRegF s (statusAddr b) 0 11 owner
      if bitOf v 13 then setRegB s (statusAddr b) 17 true else s

/-- A freeze reverts a bank to Hub-A with a wipe (R525). -/
def revertBank (s : State) (b : Nat) : State :=
  let owner := bankOwner s b
  let s := setReg s (ownerAddr b) 0x2200
  let s := if isShared b then setReg s (shareAddr b) 0 else s
  setRegB (setRegF s (statusAddr b) 0 11 owner) (statusAddr b) 17 true

/-- Revert every bank that a master owns. -/
def revertBanks (s : State) (m : Nat) : State :=
  (List.range 192).foldl (fun s b => if bankOwner s b = m && bankOn s b then revertBank s b else s) s

/-- A write of a status register: a Hub core clears `DMA_STARVED` (R101, R105). -/
def bankStatusWrite (s : State) (b : Nat) (v : W32) : State := plainWrite s (statusAddr b) v

/-- DMA_STARVED (R107): once until the request is served; mailbox banks never (R110). -/
def dmaStarvedOp (s : State) (b dma : Nat) : State :=
  if b < 8 || !bankOn s b || s.starved.contains b then s
  else
    let s := emit s (bankIsland b) dma 0x014 [w32 (if isShared b then b else poolIdx b), w32 dma]
    setRegB { s with starved := s.starved ++ [b] } (statusAddr b) 16 true

/-- A DMA request of the bank is served; its count restarts (R107). -/
def dmaServed (s : State) (b : Nat) : State := { s with starved := s.starved.filter (· ≠ b) }

/-! ### Wheel DMA (R112, R113) -/

/-- Address of a register of the Wheel DMA slot of Spoke c; `off` from `WDMA_SRC_LO`. -/
def wdmaAddr (c off : Nat) : Nat := aWheel (c / 16) (0x320200 + 0x20 * (c % 16) + off)
def wdmaBusy (s : State) (c : Nat) : Bool := regB s (wdmaAddr c 0x14) 1
def wdmaLen (s : State) (c : Nat) : Nat := regF s (wdmaAddr c 0x10) 0 19

/-- Scratch of Spoke c in the Wheel window (R93). -/
def scratchBase (c : Nat) : Nat := aWheel (c / 16) (0x10000 * (c % 16))

/-- An endpoint lies in Spoke c's scratch, its Wheel's pool or the shared banks, plain or through one alias (R111, R112). -/
def wdmaRange (c a n : Nat) : Bool :=
  let inside := fun lo size => lo ≤ a && a + n ≤ lo + size
  inside (scratchBase c) 0x10000 || inside (aWheel (c / 16) 0x100000) 0x80000 ||
    inside (aWheel (c / 16) 0x180000) 0x80000 || inside (aWheel (c / 16) 0x200000) 0x80000 ||
    inside 0x100000000 0x1000000 || inside 0x110000000 0x1000000 || inside 0x120000000 0x1000000

/-- The parameters meet R112. -/
def wdmaValid (s : State) (c : Nat) : Bool :=
  let src := regPair s (wdmaAddr c 0)
  let dst := regPair s (wdmaAddr c 8)
  let n := wdmaLen s c
  src % 8 = 0 && dst % 8 = 0 && n % 8 = 0 && n ≤ 0x40000 && wdmaRange c src n && wdmaRange c dst n

/-- The transfer ends: `BUSY` clears and the Spoke is told. -/
def wdmaFinish (s : State) (c : Nat) : State :=
  interrupt (setRegB s (wdmaAddr c 0x14) 1 false) c intWdmaDone

/-- `GO` of Spoke c's slot, written by master m (R113). -/
def wdmaGoOp (s : State) (m c : Nat) : State :=
  if wdmaBusy s c then s
  else if !wdmaValid s c then
    setRegF (setRegB s (wdmaAddr c 0x14) 2 true) (wdmaAddr c 0x14) 4 2 1
  else
    let s := { s with wdma := smSet s.wdma c {} { moved := 0, starter := m } }
    if wdmaLen s c = 0 then wdmaFinish s c else setRegB s (wdmaAddr c 0x14) 1 true

/-- Stop a slot: `ERR` with `ERR_CAUSE` 2 after a refusal. -/
def wdmaStop (s : State) (c : Nat) (err : Bool) : State :=
  let s := setRegB s (wdmaAddr c 0x14) 1 false
  if err then setRegF (setRegB s (wdmaAddr c 0x14) 2 true) (wdmaAddr c 0x14) 4 2 2 else s

/-- A DMA endpoint as Spoke c may use it: its own scratch, or a bank that grants the access (R99, R112). -/
def wdmaGrants (s : State) (c a : Nat) (write : Bool) : Bool :=
  match bankAt a with
  | some (b, view, _) => bankGrants s c b write (view ≠ 0)
  | none => scratchBase c ≤ a && a < scratchBase c + 0x10000

/-- An endpoint's island runs. -/
def endpointOn (s : State) (c a : Nat) : Bool :=
  match bankOf a with
  | some b => bankOn s b
  | none => wheelOn s (c / 16)

/-- A bank that the DMA reaches ends its wipe and serves it. -/
def dmaTouch (s : State) (a : Nat) : State :=
  match bankOf a with
  | some b => dmaServed (settleBank s b) b
  | none => s

/-- A Spoke is in reset, halted or frozen (R95). -/
def spokeStopped (s : State) (c : Nat) : Bool :=
  (core s c).run = .reset || (core s c).run = .halted || (core s c).frozen

/-- A Hub core reaches the scratch of a Spoke that runs: logged, no violation (R95). -/
def scratchBusy (s : State) (m c : Nat) : State := emit s (c / 16) m 0x013 [w32 c]

/-- A transfer that a Hub core commanded meets the scratch of a Spoke that runs (R95: Wheel DMA reaches it for the Spoke's
own transfers). -/
def wdmaScratchBusy (s : State) (c a : Nat) : Bool :=
  (bankAt a).isNone && (smGet s.wdma c {}).starter ≠ c && !spokeStopped s c

/-- The number that a write through a view leaves (R111). -/
def viewValue (view old v : Nat) (bits : Nat) : Nat :=
  match view with
  | 0 => v
  | 1 => old ||| v
  | _ => old &&& (2 ^ bits - 1 - v)

/-- Read `n` bytes for a beat: aliases read the plain contents (R111). -/
def dmaFetch (s : State) (a n : Nat) : List Byte :=
  match bankAt a with
  | some (_, _, p) => rdBytes s p n
  | none => rdBytes s a n

/-- Write a beat; each 8-byte word through an alias is an atomic operation of its own (R111). -/
def dmaPut (s : State) (a : Nat) (data : List Byte) : State :=
  match bankAt a with
  | some (_, 0, p) => wrBytes s p data
  | some (_, view, p) =>
    (List.range (data.length / 8)).foldl (fun s i =>
      wrMem s (p + 8 * i) 8 (viewValue view (rdMem s (p + 8 * i) 8) (field data (8 * i) 8) 64)) s
  | none => wrBytes s a data

/-- A beat's read: an island that is off reads zero (R19), so does the scratch of a running Spoke that a Hub core asks for
(R95). -/
def wdmaRead (s : State) (c src n : Nat) : List Byte × State :=
  if !endpointOn s c src then (zeros n, offAccess s (0x280 + c / 16) src)
  else if wdmaScratchBusy s c src then (zeros n, scratchBusy s (smGet s.wdma c {}).starter c)
  else (dmaFetch (dmaTouch s src) src n, dmaTouch s src)

/-- A beat's write, discarded where its read would read zero. -/
def wdmaWrite (s : State) (c dst : Nat) (data : List Byte) : State :=
  if !endpointOn s c dst then offAccess s (0x280 + c / 16) dst
  else if wdmaScratchBusy s c dst then scratchBusy s (smGet s.wdma c {}).starter c
  else dmaPut (dmaTouch s dst) dst data

/-- The firewall refuses Spoke c's slot an endpoint; an island that is off checks nothing (R19, R112). -/
def wdmaRefused (s : State) (c a : Nat) (write : Bool) : Bool := endpointOn s c a && !wdmaGrants s c a write

/-- One beat of Spoke c's slot: 64 bytes where alignment allows, else 8 (R112). DESIGN CHOICE (log 76): source, destination
and length are read from their registers at every beat, so a write of one while `BUSY` is 1 redirects or shortens what is
left. -/
def wdmaBeatSlot (s : State) (c : Nat) : State :=
  let k := smGet s.wdma c {}
  let src := regPair s (wdmaAddr c 0) + k.moved
  let dst := regPair s (wdmaAddr c 8) + k.moved
  let n := if src % 64 = 0 && dst % 64 = 0 && k.moved + 64 ≤ wdmaLen s c then 64 else 8
  if wdmaRefused s c src false then violate (wdmaStop s c true) c vBank src
  else if wdmaRefused s c dst true then violate (wdmaStop s c true) c vBank dst
  else
    let r := wdmaRead s c src n
    let s := wdmaWrite r.2 c dst r.1
    { s with wdma := smSet s.wdma c {} { k with moved := k.moved + n } }

/-- The slot has beats to move. -/
def wdmaActive (s : State) (c : Nat) : Bool := wdmaBusy s c && (smGet s.wdma c {}).moved < wdmaLen s c

/-- WDMA_BEAT (R112): the next active slot at or above the rotation pointer. -/
def wdmaBeatOp (s : State) (w : Nat) : State :=
  let p := smGet s.wdmaNext w 0
  match ((List.range 16).map fun i => 16 * w + (p + i) % 16).find? (wdmaActive s) with
  | some c => wdmaBeatSlot { s with wdmaNext := smSet s.wdmaNext w 0 ((c % 16 + 1) % 16) } c
  | none => s

/-- WDMA_DONE (R113). -/
def wdmaDoneOp (s : State) (c : Nat) : State :=
  if wdmaBusy s c && wdmaLen s c ≤ (smGet s.wdma c {}).moved then wdmaFinish s c else s

/-! ### DMA of the ports and of the queue fabric (R19, R24, R99, R104, R107, R111) -/

def inSram (a : Nat) : Bool := 0x10000000 ≤ a && a < 0x10400000

/-- A range cut into parts that each lie in one bank, with their lengths. -/
def dmaParts (a n : Nat) : List (Nat × Nat) :=
  (List.range (n / 0x20000 + 2)).filterMap fun i =>
    let lo := max a ((a / 0x20000 + i) * 0x20000)
    let hi := min (a + n) ((a / 0x20000 + i + 1) * 0x20000)
    if lo < hi then some (lo, hi - lo) else none

/-- The island that holds the memory runs. -/
def dmaOn (s : State) (a : Nat) : Bool :=
  match bankOf a with
  | some b => bankOn s b
  | none => !inSram a || hubOn s

/-- DMA of `unit` with the rights of m: the queue fabric reaches every bank, a flash port the shared banks and Hub SRAM, a
chain port the shared banks (the data paths of 01_architecture.md). -/
def dmaMay (s : State) (unit m a : Nat) (write : Bool) : Bool :=
  match bankAt a with
  | some (b, view, _) => (isShared b || unit = qfDma) && bankGrants s m b write (view ≠ 0)
  | none => isGk unit && inSram a

/-- The firewall refuses an access; an island that is off checks nothing (R19). -/
def dmaRefuses (s : State) (unit m a : Nat) (write : Bool) : Bool := dmaOn s a && !dmaMay s unit m a write

/-- The parts of a range up to the first that is refused, and that one's address. -/
def dmaGranted (s : State) (unit m a n : Nat) (write : Bool) : List (Nat × Nat) × Option Nat :=
  let parts := dmaParts a n
  (parts.takeWhile (fun e => !dmaRefuses s unit m e.1 write),
   (parts.find? fun e => dmaRefuses s unit m e.1 write).map (·.1))

/-- Read one part: zeros from an island that is off. -/
def dmaReadPart (s : State) (unit a n : Nat) : List Byte × State :=
  if dmaOn s a then (dmaFetch (dmaTouch s a) a n, dmaTouch s a) else (zeros n, offAccess s unit a)

/-- Write one part; it is discarded where a read would give zeros. -/
def dmaWritePart (s : State) (unit a : Nat) (data : List Byte) : State :=
  if dmaOn s a then dmaPut (dmaTouch s a) a data else offAccess s unit a

/-- Read a range by DMA: the bytes, the state, and the address of the access that was refused, whose violation has set
out (R24). -/
def dmaRead (s : State) (unit m a n : Nat) : List Byte × State × Option Nat :=
  let g := dmaGranted s unit m a n false
  let r := g.1.foldl (fun (r : List Byte × State) e =>
    let q := dmaReadPart r.2 unit e.1 e.2
    (r.1 ++ q.1, q.2)) ([], s)
  (r.1, (match g.2 with
    | some x => violate r.2 unit vBank x
    | none => r.2), g.2)

/-- Write a range by DMA. -/
def dmaWrite (s : State) (unit m a : Nat) (data : List Byte) : State × Option Nat :=
  let g := dmaGranted s unit m a data.length true
  let s := g.1.foldl (fun s e => dmaWritePart s unit e.1 ((data.drop (e.1 - a)).take e.2)) s
  (match g.2 with
    | some x => violate s unit vBank x
    | none => s, g.2)

/-! ### Wheel control block (R60, R61, R116, R117) -/

/-- Registers of a core's release: vector, condition, status (R116, R306). -/
def vectorAddr (c : Nat) : Nat :=
  if isGk c then aPort (c - 0x210) 0x3200 else aWheel (c / 16) (0x320100 + 0x10 * (c % 16))
def condAddr (c : Nat) : Nat := vectorAddr c + 4
def relStatusAddr (c : Nat) : Nat := vectorAddr c + 8
/-- `RELEASE_TIME` of a core (R60, R301). -/
def relTimeAddr (c : Nat) : Nat := if isGk c then aPort (c - 0x210) 0x3214 else aWheel (c / 16) 0x320010

/-- The island of a core runs. -/
def coreOn (s : State) (c : Nat) : Bool :=
  if isSpoke c then wheelOn s (c / 16) else if isGk c then portOn s (c - 0x210) else hubOn s

/-- PELOTON_TIME_REACHED (R60). -/
def pelotonReachedOp (s : State) (c : Nat) : State :=
  if (isSpoke c || isGk c) && coreOn s c && regPair s (relTimeAddr c) ≤ nowNs s then
    setRegB s (relStatusAddr c) 3 true
  else s

/-- A write of a `RELEASE_STATUS` by Hub-A (R60): bits 2:0 are W1S and W1C at once, so by R8 a written 0 leaves its bit and a
written 1 sets a clear bit and clears a set one. DEDUCED (log 22). -/
def relStatusWrite (s : State) (a : Nat) (v : W32) : State := setReg s a (reg s a ^^^ (v &&& 7))

/-- `WHEEL_STATUS` (R116, R117). -/
def wheelStatus (s : State) (w : Nat) : W32 :=
  w32 ((spokesOf w).foldl (fun v c =>
    v + (if (core s c).run = .reset then 2 ^ (c % 16) else 0) + (if (core s c).run = .halted then 2 ^ (16 + c % 16) else 0)) 0)

/-- A read of the Wheel control block. -/
def wheelCtrlRead (s : State) (w off : Nat) : W32 :=
  if off = 0x320000 then w32 w
  else if off = 0x320008 then wheelStatus s w
  else reg s (aWheel w off)

/-! ### The commands -/

/-- A bank of the map. -/
def bankExists (s : State) (b : Nat) : Bool := b < 64 || (b < 192 && !wheelAbsent s (poolWheel b))

/-- A write of Spoke c's DMA slot: that Spoke itself or a Hub core (R116). -/
def wdmaGoBy (s : State) (m c : Nat) : State :=
  onWheel s m (c / 16) (wdmaAddr c 0x14) fun s =>
    granted s m (wdmaAddr c 0x14) (m = c || isHub m) fun s => wdmaGoOp (wakeWheel s (c / 16) false) m c

/-- An owner write reaches the shared-bank fabric, or its Wheel's control block. -/
def handoverBy (s : State) (m b : Nat) (v : W32) : State :=
  if isShared b then guarded s m (ownerAddr b) (bankRegOn s b) fun s => handoverOp s m b v
  else onWheel s m (poolWheel b) (ownerAddr b) fun s => handoverOp (wakeWheel s (poolWheel b) false) m b v

def execHandoverWrite (m bank : Nat) (v : W32) (s : State) : Host.Outcome State Fault Refusal :=
  .next (handoverBy s m bank v)
def execBankWipeDone (bank : Nat) (s : State) : Host.Outcome State Fault Refusal := .next (bankWipeDoneOp s bank)
def execDmaStarved (bank dma : Nat) (s : State) : Host.Outcome State Fault Refusal := .next (dmaStarvedOp s bank dma)
def execWdmaGo (m spoke : Nat) (s : State) : Host.Outcome State Fault Refusal := .next (wdmaGoBy s m spoke)
def execWdmaBeat (w : Nat) (s : State) : Host.Outcome State Fault Refusal := .next (wdmaBeatOp s w)
def execWdmaDone (spoke : Nat) (s : State) : Host.Outcome State Fault Refusal := .next (wdmaDoneOp s spoke)
def execPelotonTimeReached (c : Nat) (s : State) : Host.Outcome State Fault Refusal := .next (pelotonReachedOp s c)

end Sys2Proof.Machine
end

