-- ==== Sys2Proof/Machine/Crank.lean ====
section
/-! DEFINITION. The Crank (05_crank.md): claims and grants, the command FIFO, every command of R133 with its checks
(R134), taint (R135, R136), the paired verify phase (R142 to R145), wipes (R139 to R141) and its registers (R151). -/

namespace Sys2Proof.Machine

/-! ### Commands and operands -/

/-- The fields of a command (R132). -/
structure CrankCmd where
  op : Nat
  flags : Nat
  dst : Nat
  xa : Nat
  ya : Nat
  n : Nat
  deriving DecidableEq, Repr

/-- A field of a 64-bit word. -/
def fld64 (w : W64) (lo len : Nat) : Nat := (w.toNat >>> lo) % 2 ^ len

/-- The fields of a 64-bit command word. -/
def crankCmd (w : W64) : CrankCmd :=
  { op := fld64 w 58 6, flags := fld64 w 52 6, dst := fld64 w 40 12, xa := fld64 w 28 12, ya := fld64 w 16 12,
    n := fld64 w 0 16 }

/-- An operand address lies in S. -/
def inS (a : Nat) : Bool := 2048 ≤ a

/-- `n` doublewords from `a` stay in its area (R134). -/
def areaFits (a n : Nat) : Bool := a % 2048 + n ≤ 2048

/-- Sixteen 32-bit elements `2^st` words apart from `a` stay in its area. -/
def elemsFit (a st : Nat) : Bool := 8 * (a % 2048) + 60 * 2 ^ st + 4 ≤ 16384

/-- A doubleword of a context's areas. -/
def areaDw (c : Ctx) (a : Nat) : W64 := smGet c.area a 0
def setAreaDw (c : Ctx) (a : Nat) (v : W64) : Ctx := { c with area := smSet c.area a 0 v }

/-- Doublewords `[a, a + n)`. -/
def areaDws (c : Ctx) (a n : Nat) : List W64 := (List.range n).map fun i => areaDw c (a + i)

/-- Write doublewords from `a`. -/
def setAreaDws (c : Ctx) : Nat → List W64 → Ctx
  | _, [] => c
  | a, v :: vs => setAreaDws (setAreaDw c a v) (a + 1) vs

/-- The 32-bit element i at `a` with a stride (R133). -/
def areaElem (c : Ctx) (a st i : Nat) : W32 :=
  let k := i * 2 ^ st
  (areaDw c (a + k / 2)).extractLsb' (32 * (k % 2)) 32

def setAreaElem (c : Ctx) (a st i : Nat) (v : W32) : Ctx :=
  let k := i * 2 ^ st
  let old := (areaDw c (a + k / 2)).toNat
  let new := if k % 2 = 0 then old / 2 ^ 32 * 2 ^ 32 + v.toNat else old % 2 ^ 32 + 2 ^ 32 * v.toNat
  setAreaDw c (a + k / 2) (BitVec.ofNat 64 new)

/-- 256 bits at `a`. -/
def area256 (c : Ctx) (a : Nat) : Nat :=
  (areaDws c a 4).foldr (fun d acc => d.toNat + 2 ^ 64 * acc) 0

def laneAcc (c : Ctx) (i : Nat) : BitVec 80 := smGet c.laneAcc i 0
def setLaneAcc (c : Ctx) (i : Nat) (v : BitVec 80) : Ctx := { c with laneAcc := smSet c.laneAcc i 0 v }
def temp (c : Ctx) (i : Nat) : W32 := smGet c.temps i 0
def setTemp (c : Ctx) (i : Nat) (v : W32) : Ctx := { c with temps := smSet c.temps i 0 v }

/-- Apply a change for each lane 0 to 15. -/
def eachLane (c : Ctx) (f : Ctx → Nat → Ctx) : Ctx := (List.range 16).foldl f c

/-! ### Refusals (R133, R134) -/

/-- A command of R133. -/
def crankOps : List Nat := [0x01, 0x02, 0x03, 0x04, 0x05, 0x06, 0x08, 0x09, 0x0A, 0x0B, 0x10, 0x11, 0x12, 0x13, 0x18,
  0x19, 0x1A, 0x1B, 0x1C]

/-- Fields that a command does not use are zero, counts are within their limits and ranges within their areas. -/
def crankFieldsOk (k : CrankCmd) : Bool :=
  let st := k.flags % 8
  match k.op with
  | 0x01 | 0x02 | 0x05 => k.flags = 0 && k.dst = 0 && k.xa = 0 && k.ya = 0 && k.n = 0
  | 0x03 => k.flags ≤ 1 && k.dst = 0 && k.xa = 0 && k.ya = 0 && k.n = 0
  | 0x04 => k.flags = 0 && k.dst = 0 && k.xa = 0 && k.ya = 0
  | 0x06 => k.flags = 0 && k.dst = 0 && k.ya = 0 && k.n = 0
  | 0x08 => k.flags % 8 = 0 && k.dst = 0 && k.n = 0 && k.xa % 4 = 0
  | 0x09 => k.flags = 0 && k.dst = 0 && k.ya = 0 && k.n = 0 && k.xa % 4 = 0
  | 0x0A => k.flags = 0 && k.xa = 0 && k.ya = 0 && k.n ≤ 9 && areaFits k.dst (k.n + 1)
  | 0x0B => k.flags = 0 && k.xa = 0 && k.ya = 0 && k.n ≤ 639
  | 0x10 =>
    let xsrc := k.flags.testBit 4
    let ysrc := k.flags.testBit 3
    k.dst = 0 && k.n = 0 && (if xsrc then k.xa = 0 && (!ysrc || st = 0) else elemsFit k.xa st) &&
      (ysrc || elemsFit k.ya st)
  | 0x11 => k.flags = 0 && k.dst = 0 && k.xa = 0 && k.n = 0
  | 0x12 => k.flags / 8 % 4 = 0 && k.dst = 0 && k.ya = 0 && k.n = 0 && elemsFit k.xa st
  | 0x13 => k.flags / 8 % 2 = 0 && k.flags / 32 = 0 && k.xa = 0 && k.ya = 0 && k.n = 0 && elemsFit k.dst st
  | 0x18 => k.flags = 0 && k.ya = 0 && 1 ≤ k.n && k.n ≤ 2048 && areaFits k.xa k.n && areaFits k.dst k.n
  | 0x19 =>
    let n := k.n / 64
    k.flags = 0 && 1 ≤ n && inS k.dst && areaFits k.dst n && areaFits k.xa n && areaFits k.ya n
  | 0x1A => k.flags = 0 && k.ya = 0 && inS k.xa && !inS k.dst && areaFits k.xa k.n && areaFits k.dst k.n
  | 0x1B => k.flags = 0 && k.dst = 0 && k.ya = 0 && 1 ≤ k.n && k.n ≤ 512 && inS k.xa && areaFits k.xa k.n
  | 0x1C => k.flags = 0 && k.dst = 0 && 1 ≤ k.n && k.n ≤ 512 && areaFits k.xa k.n && areaFits k.ya k.n
  | _ => false

/-- The context's state refuses the command: the wrong mode, the verify phase (R144), anything but `NOTIFY` after
`DECLASSIFY`. -/
def crankStateOk (c : Ctx) (op : Nat) : Bool :=
  (!([0x08, 0x09, 0x0A, 0x0B].contains op) || !c.laneMode) &&
  (!([0x10, 0x11, 0x12, 0x13].contains op) || c.laneMode) &&
  (op ≠ 0x1B || (c.sign && !c.verifyPhase)) &&
  (op ≠ 0x1C || (c.verifyPhase && c.verdict = 0)) &&
  (!c.declassified || op = 0x01)

/-- How a command ends. -/
inductive CrankEnd where
  | done
  | invalid
  | refused
  | taint
  deriving DecidableEq, Repr

/-- `CTX_ERR.CODE` of an end (R152). -/
def CrankEnd.code : CrankEnd → Nat
  | .done => 0
  | .invalid => 1
  | .refused => 2
  | .taint => 3

/-! ### The operation of each command on its context -/

/-- `ACCCLR` (R133, R135). -/
def crankAccclr (c : Ctx) (_ : CrankCmd) : Ctx × CrankEnd :=
  (if c.laneMode then { c with laneAcc := [], temps := [], taintLane := false } else { c with acc := 0, taintAcc := false },
   .done)

/-- `SETSEL`. -/
def crankSetsel (c : Ctx) (k : CrankCmd) : Ctx × CrankEnd :=
  ({ c with sel := areaDw c k.xa, taintSel := c.taintSel || inS k.xa }, .done)

/-- The accumulator before the add of `MACW`, shifted by `SH`. -/
def macShift (acc : BitVec 640) (sh : Nat) : BitVec 640 :=
  match sh with
  | 0 => acc
  | 1 => acc >>> 64
  | 2 => acc >>> 256
  | _ => acc <<< 64

/-- `MACW`. -/
def crankMacw (c : Ctx) (k : CrankCmd) : Ctx × CrankEnd :=
  let prod : BitVec 640 := BitVec.ofNat 640 (area256 c k.xa * (areaDw c k.ya).toNat)
  let acc := macShift c.acc (k.flags / 8 % 4)
  ({ c with acc := if k.flags.testBit 5 then acc - prod else acc + prod,
            taintAcc := c.taintAcc || inS k.xa || inS k.ya, macAge := 0 }, .done)

/-- `ACCLDW`. -/
def crankAccldw (c : Ctx) (k : CrankCmd) : Ctx × CrankEnd :=
  ({ c with acc := BitVec.ofNat 640 (area256 c k.xa), taintAcc := c.taintAcc || inS k.xa }, .done)

/-- `ACCSTW`. -/
def crankAccstw (c : Ctx) (k : CrankCmd) : Ctx × CrankEnd :=
  if c.taintAcc && !inS k.dst then (c, .taint)
  else (setAreaDws c k.dst ((List.range (k.n + 1)).map fun i => c.acc.extractLsb' (64 * i) 64), .done)

/-- `CARRY`. -/
def crankCarry (c : Ctx) (k : CrankCmd) : Ctx × CrankEnd :=
  if c.taintAcc && !inS k.dst then (c, .taint)
  else (setAreaDw c k.dst (b2w (c.acc.getLsbD k.n)), .done)

/-- `MACL`. -/
def crankMacl (c : Ctx) (k : CrankCmd) : Ctx × CrankEnd :=
  let st := k.flags % 8
  let xsrc := k.flags.testBit 4
  let ysrc := k.flags.testBit 3
  let x := fun i => if xsrc then temp c i else areaElem c k.xa st i
  let y := fun i => if ysrc then areaElem c k.ya 0 0 else areaElem c k.ya st i
  let c' := eachLane c fun d i =>
    let prod : BitVec 80 := BitVec.ofNat 80 ((x i).toNat * (y i).toNat)
    setLaneAcc d i (if k.flags.testBit 5 then laneAcc d i - prod else laneAcc d i + prod)
  ({ c' with taintLane := c.taintLane || (!xsrc && inS k.xa) || inS k.ya, macAge := 0 }, .done)

/-- `LQ`. -/
def crankLq (c : Ctx) (k : CrankCmd) : Ctx × CrankEnd :=
  let y := areaElem c k.ya 0 0
  let c' := eachLane c fun d i => setTemp d i ((laneAcc c i).extractLsb' 0 32 * y)
  ({ c' with taintLane := c.taintLane || inS k.ya }, .done)

/-- `LLD`. -/
def crankLld (c : Ctx) (k : CrankCmd) : Ctx × CrankEnd :=
  let c' := eachLane c fun d i =>
    let e := areaElem c k.xa (k.flags % 8) i
    setLaneAcc d i (if k.flags.testBit 5 then e.signExtend 80 else e.zeroExtend 80)
  ({ c' with taintLane := c.taintLane || inS k.xa }, .done)

/-- `LST`. -/
def crankLst (c : Ctx) (k : CrankCmd) : Ctx × CrankEnd :=
  if c.taintLane && !inS k.dst then (c, .taint)
  else
    let lo := if k.flags.testBit 4 then 32 else 0
    (eachLane c fun d i => setAreaElem d k.dst (k.flags % 8) i ((laneAcc c i).extractLsb' lo 32), .done)

/-- `MOVB`, as if through a buffer. -/
def crankMovb (c : Ctx) (k : CrankCmd) : Ctx × CrankEnd :=
  if inS k.xa && !inS k.dst then (c, .taint) else (setAreaDws c k.dst (areaDws c k.xa k.n), .done)

/-- `SELB`. -/
def crankSelb (c : Ctx) (k : CrankCmd) : Ctx × CrankEnd :=
  (setAreaDws c k.dst (areaDws c (if c.sel.getLsbD (k.n % 64) then k.ya else k.xa) (k.n / 64)), .done)

/-- `DECLASSIFY` (R145). -/
def crankDeclassify (c : Ctx) (k : CrankCmd) : Ctx × CrankEnd :=
  if c.sign && c.verifyPhase && c.verdict = 1 && c.range = some (k.xa, k.n) then
    ({ setAreaDws c k.dst (areaDws c k.xa k.n) with declassified := true }, .done)
  else (c, .refused)

/-- `PAIRV` (R144). -/
def crankPairv (c : Ctx) (k : CrankCmd) : Ctx × CrankEnd :=
  ({ c with acc := 0, laneAcc := [], temps := [], sel := 0, taintAcc := false, taintLane := false, taintSel := false,
            area := c.area.filter fun e => e.1 < 2048 || (k.xa ≤ e.1 && e.1 < k.xa + k.n),
            range := some (k.xa, k.n), verifyPhase := true }, .done)

/-- `VERDICT` (R144). -/
def crankVerdict (c : Ctx) (k : CrankCmd) : Ctx × CrankEnd :=
  ({ c with verdict := if areaDws c k.xa k.n = areaDws c k.ya k.n then 1 else 2 }, .done)

/-- `SYNCS` once its count is reached, and commands whose effect lies outside the context. -/
def crankIdle (c : Ctx) (_ : CrankCmd) : Ctx × CrankEnd := (c, .done)

/-- `MODE` sets the mode (R128). -/
def crankMode (c : Ctx) (k : CrankCmd) : Ctx × CrankEnd := ({ c with laneMode := k.flags = 1 }, .done)

/-! ### Cycles (R120, R133) -/

/-- Crank cycles of a command that is not refused as invalid. -/
def crankCycles (c : Ctx) (k : CrankCmd) : Nat :=
  let after := if c.macAge < 3 then 3 else 0
  match k.op with
  | 0x03 => 25
  | 0x0A => 1 + (k.n + 4) / 4 + after
  | 0x0B | 0x11 | 0x13 => 1 + after
  | 0x18 | 0x1A | 0x1C => 1 + (k.n + 3) / 4
  | 0x19 => 1 + (k.n / 64 + 3) / 4
  | 0x1B => 520
  | _ => 1

/-- Add cycles to the count of R126 and to the age of the last multiply-accumulate. -/
def addCycles (s : State) (w x n : Nat) (mac : Bool) : State :=
  let c := ctx s w x
  let s := setCtx s w x { c with macAge := if mac then 0 else min 4 (c.macAge + n) }
  setCrank s w { crank s w with sinceYield := (crank s w).sinceYield + n }

/-! ### Switching (R124, R125) -/

def running (s : State) (w x : Nat) : Bool := (ctx s w x).state = .running
def crankIdleNow (s : State) (w : Nat) : Bool := !running s w 0 && !running s w 1
def other (x : Nat) : Nat := 1 - x

/-- Context x starts to run; the count of R126 begins again, and an earlier multiply-accumulate lies more than 3 cycles back:
a switch takes 24. -/
def startCtx (s : State) (w x : Nat) : State :=
  let s := setCtx s w x { ctx s w x with state := .running, macAge := 4 }
  setCrank s w { crank s w with sinceYield := 0, overrunLogged := false }

/-- The running context has ended or failed: the other runs if it is `YIELDED` or admitted `WAITING`. -/
def switchOn (s : State) (w x : Nat) : State :=
  let o := ctx s w (other x)
  if crankIdleNow s w && (o.state = .yielded || (o.state = .waiting && o.admitted)) then startCtx s w (other x) else s

/-- `PREEMPT_UPTO` and `YIELD_WARN`. -/
def preemptUpto (s : State) (w : Nat) : Nat := regF s (aWheel w 0x30C004) 0 3
def yieldWarn (s : State) (w : Nat) : Nat := regF s (aWheel w 0x30C004) 16 12

/-- The other context may preempt the running one at a yield point. -/
def canPreempt (s : State) (w x : Nat) : Bool :=
  let o := ctx s w (other x)
  o.state = .waiting && o.admitted && o.cls < (ctx s w x).cls && o.cls ≤ preemptUpto s w

/-- A yield point: the count restarts, and a preemptor is switched in. -/
def yieldPoint (s : State) (w x : Nat) : State :=
  let s := setCrank s w { crank s w with sinceYield := 0, overrunLogged := false }
  if canPreempt s w x then startCtx (setCtx s w x { ctx s w x with state := .yielded }) w (other x) else s

/-! ### The FIFO (R128, R132) -/

/-- Put a command into the FIFO; the first asks for admission: 14 tokens if it is `MODE` to lane, else 10. -/
def pushCmd (s : State) (w x : Nat) (v : W64) : State :=
  let c := ctx s w x
  let s := setCtx s w x { c with fifo := c.fifo ++ [v], requested := true }
  if c.requested then s
  else askAdmission s (.ctx w x) (if fld64 v 58 6 = 3 && fld64 v 52 1 = 1 then 14 else 10) (c.cls = 0)

/-- A store that waits for a full FIFO enters it when an entry frees, and its master goes on. -/
def refillFifo (s : State) (w x : Nat) : State :=
  let c := ctx s w x
  match c.overflow with
  | v :: rest =>
    if c.fifo.length < 64 then
      modCore (pushCmd (setCtx s w x { c with overflow := rest }) w x v) c.holder fun k => { k with stalled := false }
    else s
  | [] => s

/-- Discard what waits in and before the FIFO. -/
def dropFifo (s : State) (w x : Nat) : State :=
  let c := ctx s w x
  let s := if c.overflow = [] then s else modCore s c.holder fun k => { k with stalled := false }
  setCtx s w x { ctx s w x with fifo := [], overflow := [] }

/-! ### Running a command -/

/-- The context may issue its next command (R124, R128): admitted, not waiting for tokens, and running or able to start
an idle Crank. -/
def ctxReady (s : State) (w x : Nat) : Bool :=
  let c := ctx s w x
  x < 2 && wheelRuns s w && c.admitted && !c.growing &&
    (c.state = .running || (c.state = .waiting && crankIdleNow s w && (ctx s w (other x)).state ≠ .yielded))

/-- `ERROR` (R134, R136, R145): code and index recorded, the FIFO discarded, the Crank switches. DESIGN CHOICE (log 79): R136
names no address for the violation of a tainted result aimed at P; it carries the base of the S window, +`0x30_8000`. -/
def ctxError (s : State) (w x : Nat) (e : CrankEnd) : State :=
  let s := dropFifo s w x
  let c := ctx s w x
  let s := setCtx s w x { c with state := .error, errCode := e.code, errIndex := c.completed % 65536 }
  let s := match e with
    | .invalid => interrupt s c.holder intCrankDone
    | .refused => interrupt (emit s w c.holder 0x022 []) c.holder intCrankDone
    | .taint => violate s c.holder vSArea (aWheel w 0x308000)
    | .done => s
  switchOn s w x

/-- A command that ends well is counted. -/
def ctxDone (s : State) (w x : Nat) : State :=
  setCtx s w x { ctx s w x with completed := (ctx s w x).completed + 1 }

/-- Tell the job that its output was released (R146). -/
def noteDeclassified (s : State) (w x : Nat) : State :=
  let m := (ctx s w x).holder
  match jobRec s m with
  | some j => if (ctx s w x).job = some j.number then setJob s m (some { j with declassified := true }) else s
  | none => s

/-- Run a checked command with its operation on the context. -/
def crankApply (s : State) (w x : Nat) (k : CrankCmd) (f : Ctx → CrankCmd → Ctx × CrankEnd) : State :=
  let c := ctx s w x
  if !crankFieldsOk k || !crankStateOk c k.op then ctxError (addCycles s w x 1 false) w x .invalid
  else
    let r := f c k
    let s := addCycles (setCtx s w x r.1) w x (crankCycles c k) (k.op = 0x08 || k.op = 0x10)
    if r.2 = .done then ctxDone s w x else ctxError s w x r.2

/-- A legal `SYNCS` whose count is not reached: it stays at the head of the FIFO and its context waits in it (R133). -/
def syncsWaits (c : Ctx) (k : CrankCmd) : Bool :=
  k.op = 0x04 && crankFieldsOk k && crankStateOk c 0x04 && c.sXferCount < k.n

/-- A context that runs, started if the Crank was idle (R124). -/
def runCtx (s : State) (w x : Nat) : State := if running s w x then s else startCtx s w x

/-- Take the head of the FIFO if it is the row's command (or, in place of it, a reserved one, which the Crank refuses). -/
def crankRow (s : State) (w x op : Nat) (f : Ctx → CrankCmd → Ctx × CrankEnd) (after : State → CrankCmd → State) :
    State :=
  match (ctx s w x).fifo with
  | [] => s
  | v :: rest =>
    let k := crankCmd v
    let reserved := !crankOps.contains k.op
    if ctxReady s w x && (k.op = op || reserved) then
      let s := runCtx s w x
      if syncsWaits (ctx s w x) k then s
      else
        let s := refillFifo (setCtx s w x { ctx s w x with fifo := rest }) w x
        let s := crankApply s w x k f
        if running s w x then after s k else s
    else s

/-- `n` Crank cycles pass for a context that waits in `SYNCS`: R133 counts the wait as the command's own cycles, so they count
toward R126 and age the last multiply-accumulate. -/
def syncsTick (s : State) (w n : Nat) : State :=
  match [0, 1].find? (running s w) with
  | some x =>
    match (ctx s w x).fifo with
    | v :: _ => if wheelRuns s w && syncsWaits (ctx s w x) (crankCmd v) then addCycles s w x n false else s
    | [] => s
  | none => s

/-- Nothing follows the command. -/
def noAfter (s : State) (_ : CrankCmd) : State := s

/-- `NOTIFY` interrupts the holder. -/
def afterNotify (w x : Nat) (s : State) (_ : CrankCmd) : State := interrupt s (ctx s w x).holder intCrankDone

/-- A yield point follows `YIELDPT`. -/
def afterYield (w x : Nat) (s : State) (_ : CrankCmd) : State := yieldPoint s w x

/-- `MODE` adjusts the holding by 4 tokens unless it was the first command, then is a yield point (R128). -/
def afterMode (w x : Nat) (s : State) (k : CrankCmd) : State :=
  let c := ctx s w x
  let s :=
    if k.flags = 1 && c.tokens < 14 then
      askAdmission (setCtx s w x { c with growing := true }) (.ctxGrow w x) 4 (c.cls = 0)
    else if k.flags = 0 && 10 < c.tokens then
      giveBack (setCtx s w x { c with tokens := 10 }) 4 (c.cls = 0)
    else s
  yieldPoint s w x

/-- A completed `DECLASSIFY` is reported (R146). -/
def afterDeclassify (w x : Nat) (s : State) (_ : CrankCmd) : State := noteDeclassified s w x

/-! ### Claims, grants, release and wipe -/

/-- A context is held in this state. -/
def CtxState.held : CtxState → Bool
  | .waiting | .running | .yielded | .error => true
  | _ => false

/-- The context that a master holds. -/
def heldCtx (s : State) (m w : Nat) : Option Nat :=
  [0, 1].find? fun x => (ctx s w x).state.held && (ctx s w x).holder = m

/-- A core may use the Crank's registers: Spokes of the Wheel and Hub cores (R121, R151). -/
def crankUser (m w : Nat) : Bool := (isSpoke m && m / 16 = w) || isHub m

/-- The job number of a master. -/
def jobNumber (s : State) (m : Nat) : Option Nat := (jobOf s m).map Job.number

/-- CTX_CLAIM (R121, R122). -/
def ctxClaimOp (s : State) (m w : Nat) : State :=
  if !crankUser m w then violate s m vWindow (aWheel w 0x30C010)
  else if (heldCtx s m w).isSome || (crank s w).claims.any (fun c => c.master = m) then s
  else
    let k := crank s w
    setCrank s w { k with claims := k.claims ++ [{ master := m, cls := classOf s m, sign := signOf s m }] }

/-- The claim that one island puts first: highest class, then rotating priority (R108, R122). -/
def bestClaim (cs : List Claim) (rotate : Nat) : Option Claim :=
  let dist := fun (c : Claim) => (c.master + 1024 - rotate % 1024) % 1024
  cs.foldl (fun b c => match b with
    | none => some c
    | some d => if c.cls < d.cls || (c.cls = d.cls && dist c < dist d) then some c else some d) none

/-- The claim that is granted (R10, R122, R155): the highest class; a Spoke's and a Hub core's of equal class come from
different islands, so either may win, by a free choice. -/
def pickClaim (s : State) (cs : List Claim) (rotate : Nat) : Option Claim × State :=
  match bestClaim (cs.filter fun c => !isHub c.master) rotate, bestClaim (cs.filter fun c => isHub c.master) rotate with
  | some c, some h =>
    if c.cls < h.cls then (some c, s)
    else if h.cls < c.cls then (some h, s)
    else (some (if (drawBit s).1 then h else c), (drawBit s).2)
  | some c, none => (some c, s)
  | none, h => (h, s)

/-- Context x goes to a claim, which leaves the ones that wait. -/
def grantCtx (s : State) (w x : Nat) (c : Claim) : State :=
  let k := crank s w
  let s := setCrank s w { k with claims := k.claims.filter (fun d => d.master ≠ c.master), rotate := c.master + 1 }
  let new : Ctx := { state := .waiting, holder := c.master, job := jobNumber s c.master, cls := c.cls, sign := c.sign }
  interrupt (setCtx s w x new) c.master intCrankDone

/-- CRANK_GRANT (R122): a free context, A before B. -/
def crankGrantOp (s : State) (w : Nat) : State :=
  match wheelOn s w, [0, 1].find? (fun x => (ctx s w x).state = .free) with
  | true, some x =>
    match pickClaim s (crank s w).claims (crank s w).rotate with
    | (some c, s) => grantCtx s w x c
    | (none, _) => s
  | _, _ => s

/-- A hold ends (R139): everything of the context is zeroed but its tokens, which return when the wipe completes. -/
def endCtx (s : State) (w x : Nat) : State :=
  let s := withdraw (withdraw (dropFifo s w x) (.ctx w x)) (.ctxGrow w x)
  let c := ctx s w x
  let wiped : Ctx := { state := .wiping, holder := c.holder, job := c.job, cls := c.cls, sign := c.sign, tokens := c.tokens,
                       admitted := c.admitted, completed := c.completed, errCode := c.errCode, errIndex := c.errIndex,
                       sXferCount := c.sXferCount }
  switchOn (setCtx s w x wiped) w x

/-- CTX_RELEASE (R139, R151). -/
def ctxReleaseOp (s : State) (m w : Nat) : State :=
  match heldCtx s m w with
  | some x => endCtx s w x
  | none => violate s m vWindow (aWheel w 0x30C018)

/-- End every hold and claim of a master on a Crank. DESIGN CHOICE (log 79): R139 ends holds only; a claim that still waits is
withdrawn with them, so that no context is granted to a job that is over. -/
def dropCrank (s : State) (m w : Nat) : State :=
  let k := crank s w
  let s := if k.claims.any (fun c => c.master = m) then
      setCrank s w { k with claims := k.claims.filter fun c => c.master ≠ m } else s
  match heldCtx s m w with
  | some x => endCtx s w x
  | none => s

/-- The Cranks that a master can hold contexts of. -/
def wheelsOf (m : Nat) : List Nat := if isSpoke m then [m / 16] else List.range 32

/-- CRANK_WIPE_DONE (R139 to R141): tokens return; the context is `FREE`, or `FAILED` if the read-back found a bit set. -/
def crankWipeDoneOp (s : State) (w x : Nat) (zero : Bool) : State :=
  let c := ctx s w x
  if x < 2 && c.state = .wiping then
    let s := giveBack s c.tokens (c.cls = 0)
    if zero then
      setCtx s w x { ({} : Ctx) with completed := c.completed, errCode := c.errCode, errIndex := c.errIndex,
                                     sXferCount := c.sXferCount }
    else
      let s := setCtx s w x { ({} : Ctx) with state := .failed, errCode := 4, errIndex := c.errIndex }
      let s := emit s w (0x440 + w) 0x021 []
      match jobRec s c.holder with
      | some j => if c.job = some j.number then setJob s c.holder (some { j with wipeFault := true }) else s
      | none => s
  else s

/-- CMD_LO (R132): only the holder. -/
def cmdLoOp (s : State) (m w x : Nat) (v : W32) : State :=
  if heldCtx s m w = some x then setCtx s w x { ctx s w x with cmdLo := v }
  else violate s m vWindow (aWheel w (0x30C100 + 0x40 * x))

/-- CMD_HI (R132): pushes the command; a full FIFO makes the store wait; discarded in `ERROR`. -/
def cmdHiOp (s : State) (m w x : Nat) (v : W32) : State :=
  if heldCtx s m w = some x then
    let c := ctx s w x
    let cmd : W64 := v ++ c.cmdLo
    if c.state = .error then s
    else if 64 ≤ c.fifo.length then
      modCore (setCtx s w x { c with overflow := c.overflow ++ [cmd] }) m fun k => { k with stalled := true }
    else pushCmd s w x cmd
  else violate s m vWindow (aWheel w (0x30C104 + 0x40 * x))

/-- YIELD_OVERRUN (R126). -/
def yieldOverrunOp (s : State) (w : Nat) : State :=
  match [0, 1].find? (running s w) with
  | some x =>
    let k := crank s w
    if canPreempt s w x && yieldWarn s w < k.sinceYield && !k.overrunLogged then
      let h := (ctx s w x).holder
      emit (setCrank s w { k with overrunLogged := true }) w h 0x020 [w32 h]
    else s
  | none => s

/-- A Chamber transfer is accepted (R131): the context is held by the job that asked for it. -/
def xferAccepted (s : State) (t : Xfer) : Bool :=
  let c := ctx s t.wheel t.ctx
  wheelOn s t.wheel && c.state.held && c.holder = t.master && c.job = t.job

/-- The transfer is written into S and counted. -/
def xferWrite (s : State) (t : Xfer) : State :=
  let c := ctx s t.wheel t.ctx
  let dws := (List.range ((t.key.length + 7) / 8)).map fun i => BitVec.ofNat 64 (field t.key (8 * i) 8)
  setCtx s t.wheel t.ctx { setAreaDws c (2048 + t.index) dws with sXferCount := c.sXferCount + 1 }

/-! ### Registers and windows (R129, R130, R151) -/

def CtxState.num : CtxState → Nat
  | .free => 0
  | .waiting => 1
  | .running => 2
  | .yielded => 3
  | .wiping => 4
  | .failed => 5
  | .error => 6

/-- `CTX_STATE_x`. -/
def ctxStateWord (c : Ctx) : W32 :=
  w32 (c.state.num + (if c.state.held then c.holder else 0) <<< 8 + b2n c.admitted <<< 19 + c.cls <<< 20 +
    b2n c.verifyPhase <<< 23 + b2n c.sign <<< 24 + b2n c.laneMode <<< 25)

/-- `CRANK_STATUS`. -/
def crankStatus (s : State) (w : Nat) : W32 :=
  let failed := (ctx s w 0).state = .failed || (ctx s w 1).state = .failed
  w32 (b2n (running s w 1) + 2 * b2n (running s w 0 || running s w 1) + 4 * b2n failed)

/-- `CTX_GRANT` for a reading master. -/
def ctxGrantWord (s : State) (m w : Nat) : W32 :=
  match heldCtx s m w with
  | some x => w32 (4 * x + 2)
  | none => if (crank s w).claims.any (fun c => c.master = m) then 1 else 0

/-- A read of the Crank registers, by offset from +`0x30_C000`. -/
def crankRegRead (s : State) (m w off : Nat) : W32 :=
  if off = 0x000 then w32 w
  else if off = 0x004 then reg s (aWheel w 0x30C004)
  else if off = 0x008 then crankStatus s w
  else if off = 0x014 then ctxGrantWord s m w
  else if 0x100 ≤ off && off < 0x180 then
    let c := ctx s w ((off - 0x100) / 0x40)
    match off % 0x40 with
    | 0x08 => ctxStateWord c
    | 0x0C => w32 (c.fifo.length <<< 16 + c.completed % 65536)
    | 0x10 => w32 (c.errIndex <<< 16 + c.errCode)
    | 0x14 => w32 c.sXferCount
    | 0x18 => w32 c.verdict
    | _ => 0
  else 0

/-- A write of the Crank registers; a write that R151 does not grant is a violation. -/
def crankRegWrite (s : State) (m w off : Nat) (v : W32) : State :=
  if off = 0x004 && m = hubA then plainWrite s (aWheel w 0x30C004) v
  else if off = 0x010 then (if bitOf v 0 then ctxClaimOp s m w else if crankUser m w then s
                            else violate s m vWindow (aWheel w 0x30C010))
  else if off = 0x018 && (heldCtx s m w).isSome then (if bitOf v 0 then ctxReleaseOp s m w else s)
  else if 0x100 ≤ off && off < 0x180 && off % 0x40 = 0 then cmdLoOp s m w ((off - 0x100) / 0x40) v
  else if 0x100 ≤ off && off < 0x180 && off % 0x40 = 4 then cmdHiOp s m w ((off - 0x100) / 0x40) v
  else if [0x000, 0x004, 0x008, 0x014, 0x018, 0x108, 0x10C, 0x110, 0x114, 0x118, 0x148, 0x14C, 0x150, 0x154,
           0x158].contains off then violate s m vWindow (aWheel w (0x30C000 + off))
  else s

/-- A read of `size` bytes of a P area (its offset from +`0x30_0000`). -/
def areaRead (s : State) (w off size : Nat) : Nat :=
  let d := (areaDw (ctx s w (off / 0x4000)) (off % 0x4000 / 8)).toNat
  d / 2 ^ (8 * (off % 8)) % 2 ^ (8 * size)

/-- A write of `size` bytes to a P area. -/
def areaWrite (s : State) (w off size v : Nat) : State :=
  let x := off / 0x4000
  let a := off % 0x4000 / 8
  let sh := 8 * (off % 8)
  let mask := (2 ^ (8 * size) - 1) * 2 ^ sh
  let old := (areaDw (ctx s w x) a).toNat
  let new := (old &&& (2 ^ 64 - 1 - mask)) + v % 2 ^ (8 * size) * 2 ^ sh
  setCtx s w x (setAreaDw (ctx s w x) a (BitVec.ofNat 64 new))

/-! ### The commands -/

def execCtxClaim (m w : Nat) (s : State) : Host.Outcome State Fault Refusal :=
  .next (onWheel s m w (aWheel w 0x30C010) fun s => ctxClaimOp (wakeWheel s w false) m w)
def execCrankGrant (w : Nat) (s : State) : Host.Outcome State Fault Refusal := .next (crankGrantOp s w)
def execCtxRelease (m w : Nat) (s : State) : Host.Outcome State Fault Refusal :=
  .next (onWheel s m w (aWheel w 0x30C018) fun s => ctxReleaseOp (wakeWheel s w false) m w)
def execCmdHi (m w x : Nat) (v : W32) (s : State) : Host.Outcome State Fault Refusal :=
  .next (onWheel s m w (aWheel w (0x30C104 + 0x40 * x)) fun s =>
    if x < 2 then cmdHiOp (wakeWheel s w false) m w x v else s)
def execNotify (w x : Nat) (s : State) : Host.Outcome State Fault Refusal :=
  .next (crankRow s w x 0x01 crankIdle (afterNotify w x))
def execYieldpt (w x : Nat) (s : State) : Host.Outcome State Fault Refusal :=
  .next (crankRow s w x 0x02 crankIdle (afterYield w x))
def execMode (w x : Nat) (s : State) : Host.Outcome State Fault Refusal :=
  .next (crankRow s w x 0x03 crankMode (afterMode w x))
def execSyncs (w x : Nat) (s : State) : Host.Outcome State Fault Refusal := .next (crankRow s w x 0x04 crankIdle noAfter)
def execAccclr (w x : Nat) (s : State) : Host.Outcome State Fault Refusal :=
  .next (crankRow s w x 0x05 crankAccclr noAfter)
def execSetsel (w x : Nat) (s : State) : Host.Outcome State Fault Refusal :=
  .next (crankRow s w x 0x06 crankSetsel noAfter)
def execMacw (w x : Nat) (s : State) : Host.Outcome State Fault Refusal := .next (crankRow s w x 0x08 crankMacw noAfter)
def execAccldw (w x : Nat) (s : State) : Host.Outcome State Fault Refusal :=
  .next (crankRow s w x 0x09 crankAccldw noAfter)
def execAccstw (w x : Nat) (s : State) : Host.Outcome State Fault Refusal :=
  .next (crankRow s w x 0x0A crankAccstw noAfter)
def execCarry (w x : Nat) (s : State) : Host.Outcome State Fault Refusal := .next (crankRow s w x 0x0B crankCarry noAfter)
def execMacl (w x : Nat) (s : State) : Host.Outcome State Fault Refusal := .next (crankRow s w x 0x10 crankMacl noAfter)
def execLq (w x : Nat) (s : State) : Host.Outcome State Fault Refusal := .next (crankRow s w x 0x11 crankLq noAfter)
def execLld (w x : Nat) (s : State) : Host.Outcome State Fault Refusal := .next (crankRow s w x 0x12 crankLld noAfter)
def execLst (w x : Nat) (s : State) : Host.Outcome State Fault Refusal := .next (crankRow s w x 0x13 crankLst noAfter)
def execMovb (w x : Nat) (s : State) : Host.Outcome State Fault Refusal := .next (crankRow s w x 0x18 crankMovb noAfter)
def execSelb (w x : Nat) (s : State) : Host.Outcome State Fault Refusal := .next (crankRow s w x 0x19 crankSelb noAfter)
def execDeclassify (w x : Nat) (s : State) : Host.Outcome State Fault Refusal :=
  .next (crankRow s w x 0x1A crankDeclassify (afterDeclassify w x))
def execPairv (w x : Nat) (s : State) : Host.Outcome State Fault Refusal := .next (crankRow s w x 0x1B crankPairv noAfter)
def execVerdict (w x : Nat) (s : State) : Host.Outcome State Fault Refusal :=
  .next (crankRow s w x 0x1C crankVerdict noAfter)
def execYieldOverrun (w : Nat) (s : State) : Host.Outcome State Fault Refusal := .next (yieldOverrunOp s w)
def execCrankWipeDone (w x : Nat) (zero : Bool) (s : State) : Host.Outcome State Fault Refusal :=
  .next (crankWipeDoneOp s w x zero)

end Sys2Proof.Machine
end

