-- ==== Sys2Proof/Machine/Crypto.lean ====
section
/-! DEFINITION. The algorithms that the spec names by their standards (R154 SHA-2, SHA-3 and SHAKE; R163 HMAC; R169
AES-256-GCM; R176 AES key wrap with padding; HKDF). PRESUMED: their definitions are those of the standards (FIPS 180-4,
FIPS 202, FIPS 197, RFC 2104, RFC 5869, SP 800-38D, SP 800-38F), which the spec names and does not repeat. -/

namespace Sys2Proof.Machine

/-! ### SHA-2 -/

/-- The 80 round constants of SHA-512, the first in the low 64 bits; SHA-256 uses the upper halves of the first 64. -/
def shaK : Nat :=
  [ 0x59f111f1b605d0193956c25bf348b538e9b5dba58189dbbcb5c0fbcfec4d3b2f7137449123ef65cd428a2f98d728ae22,
    0x550c7dc3d5ffb4e2243185be4ee4b28c12835b0145706fbed807aa98a3030242ab1c5ed5da6d8118923f82a4af194f9b,
    0xefbe4786384f25e3e49b69c19ef14ad2c19bf174cf6926949bdc06a725c7123580deb1fe3b1696b172be5d74f27b896f,
    0x76f988da831153b55cb0a9dcbd41fbd44a7484aa6ea6e4832de92c6f592b0275240ca1cc77ac9c650fc19dc68b8cd5b5,
    0xd5a79147930aa725c6e00bf33da88fc2bf597fc7beef0ee4b00327c898fb213fa831c66d2db43210983e5152ee66dfab,
    0x53380d139d95b3df4d2c6dfc5ac42aed2e1b21385c26c92627b70a8546d22ffc142929670a0e6e7006ca6351e003826f,
    0xa81a664bbc423001a2bfe8a14cf1036492722c851482353b81c2c92e47edaee6766a0abb3c77b2a8650a73548baf63de,
    0x106aa07032bbd1b8f40e35855771202ad69906245565a910d192e819d6ef5218c76c51a30654be30c24b8b70d0f89791,
    0x4ed8aa4ae3418acb391c0cb3c5c95a6334b0bcb5e19b48a82748774cdf8eeb991e376c085141ab5319a4c116b8d2d0c8,
    0x8cc702081a6439ec84c87814a1f0ab7278a5636f43172f60748f82ee5defb2fc682e6ff3d6b2b8a35b9cca4f7763e373,
    0xd186b8c721c0c207ca273eceea26619cc67178f2e372532bbef9a3f7b2c67915a4506cebde82bde990befffa23631e28,
    0x1b710b35131c471b113f9804bef90dae0a637dc5a2c898a606f067aa72176fbaf57d4f7fee6ed178eada7dd6cde0eb1e,
    0x597f299cfc657e2a4cc5d4becb3e42b6431d67c49c100d4c3c9ebe0a15c9bebc32caab7b40c7249328db77f523047d84,
    0x6c44198c4a4758175fcb6fab3ad6faec ].foldr (fun p acc => p + 2 ^ 384 * acc) 0

/-- The initial values of SHA-512 (0 to 7) and SHA-384 (8 to 15), 64 bits each. -/
def shaIv : Nat :=
  [ 0x9b05688c2b3e6c1f510e527fade682d1a54ff53a5f1d36f13c6ef372fe94f82bbb67ae8584caa73b6a09e667f3bcc908,
    0x152fecd8f70e59399159015a3070dd17629a292a367cd507cbbb9d5dc1059ed85be0cd19137e21791f83d9abfb41bd6b,
    0x47b5481dbefa4fa4db0c2e0d64f98fa78eb44a876858151167332667ffc00b31 ].foldr (fun p acc => p + 2 ^ 384 * acc) 0

/-- Word i of a packed table of `w`-bit words. -/
def tableWord (t w i : Nat) : Nat := (t >>> (w * i)) % 2 ^ w

/-- Rotate right within `w` bits. -/
def rotrN (w x n : Nat) : Nat := ((x >>> n) ||| (x <<< (w - n))) % 2 ^ w

/-- A SHA-2 variant: word width, rounds, and its rotations. -/
structure Sha2 where
  w : Nat
  rounds : Nat
  /-- The six rotations of the two large sigmas. -/
  big : Nat × Nat × Nat × Nat × Nat × Nat
  /-- Rotation, rotation and shift of the two small sigmas. -/
  small : Nat × Nat × Nat × Nat × Nat × Nat
  deriving DecidableEq, Repr

def sha256P : Sha2 := { w := 32, rounds := 64, big := (2, 13, 22, 6, 11, 25), small := (7, 18, 3, 17, 19, 10) }
def sha512P : Sha2 := { w := 64, rounds := 80, big := (28, 34, 39, 14, 18, 41), small := (1, 8, 7, 19, 61, 6) }

/-- The round constant of round i. -/
def sha2K (p : Sha2) (i : Nat) : Nat := tableWord shaK 64 i >>> (64 - p.w)

/-- One round on the eight working words and the window of the last 16 schedule words. -/
def sha2Round (p : Sha2) (st : List Nat × List Nat) (i : Nat) : List Nat × List Nat :=
  let h := fun j => st.1.getD j 0
  let x := fun j => st.2.getD j 0
  let m := 2 ^ p.w
  let (a1, a2, a3, e1, e2, e3) := p.big
  let (s1, s2, s3, t1, t2, t3) := p.small
  let bigE := rotrN p.w (h 4) e1 ^^^ rotrN p.w (h 4) e2 ^^^ rotrN p.w (h 4) e3
  let bigA := rotrN p.w (h 0) a1 ^^^ rotrN p.w (h 0) a2 ^^^ rotrN p.w (h 0) a3
  let ch := (h 4 &&& h 5) ^^^ ((m - 1 - h 4) &&& h 6)
  let maj := (h 0 &&& h 1) ^^^ (h 0 &&& h 2) ^^^ (h 1 &&& h 2)
  let tmp := (h 7 + bigE + ch + sha2K p i + x 0) % m
  let sm0 := rotrN p.w (x 1) s1 ^^^ rotrN p.w (x 1) s2 ^^^ (x 1 >>> s3)
  let sm1 := rotrN p.w (x 14) t1 ^^^ rotrN p.w (x 14) t2 ^^^ (x 14 >>> t3)
  let new := (sm1 + x 9 + sm0 + x 0) % m
  ([(tmp + bigA + maj) % m, h 0, h 1, h 2, (h 3 + tmp) % m, h 4, h 5, h 6], st.2.drop 1 ++ [new])

/-- Big-endian words of `n` bytes. -/
def beWords (n : Nat) (bs : List Byte) (count : Nat) : List Nat :=
  (List.range count).map fun i => leNat (slice bs (n * i) n).reverse

/-- The compression function: state and block as bytes. -/
def sha2Block (p : Sha2) (mid block : List Byte) : List Byte :=
  let n := p.w / 8
  let h := beWords n mid 8
  let r := (List.range p.rounds).foldl (sha2Round p) (h, beWords n block 16)
  (h.zip r.1).flatMap fun (a, b) => beBytes n ((a + b) % 2 ^ p.w)

/-! ### Keccak -/

/-- The 24 round constants, 64 bits each. -/
def keccakRc : Nat :=
  [ 0x80000001000000000000808b8000000080008000800000000000808a00000000000080820000000000000001,
    0x8000000a00000000800080090000000000000088000000000000008a80000000000080098000000080008081,
    0x8000000000000080800000000000800280000000000080038000000000008089800000000000008b000000008000808b,
    0x8000000080008008000000008000000180000000000080808000000080008081800000008000000a000000000000800a ].foldr (fun p acc => p + 2 ^ 384 * acc) 0

/-- The rotation of lane x + 5 y, 8 bits each. -/
def keccakRho : Nat :=
  [ 0xe383d021208150f2d2927192b0a031437062c241b1c3e0100 ].foldr (fun p acc => p + 2 ^ 384 * acc) 0

/-- Rotate left within 64 bits. -/
def rotl64 (x n : Nat) : Nat := ((x <<< n) ||| (x >>> (64 - n))) % 2 ^ 64

/-- One round on the 25 lanes. -/
def keccakRound (a : List Nat) (i : Nat) : List Nat :=
  let at' := fun x y => a.getD (x % 5 + 5 * (y % 5)) 0
  let c := (List.range 5).map fun x => at' x 0 ^^^ at' x 1 ^^^ at' x 2 ^^^ at' x 3 ^^^ at' x 4
  let d := (List.range 5).map fun x => c.getD ((x + 4) % 5) 0 ^^^ rotl64 (c.getD ((x + 1) % 5) 0) 1
  -- lane (x, y) of the permuted state comes from lane (x + 3 y, x)
  let b := (List.range 25).map fun j =>
    let x := (j % 5 + 3 * (j / 5)) % 5
    let y := j % 5
    rotl64 (at' x y ^^^ d.getD x 0) (tableWord keccakRho 8 (x + 5 * y))
  (List.range 25).map fun j =>
    let bx := fun k => b.getD ((j % 5 + k) % 5 + 5 * (j / 5)) 0
    let v := bx 0 ^^^ ((2 ^ 64 - 1 - bx 1) &&& bx 2)
    if j = 0 then v ^^^ tableWord keccakRc 64 i else v

/-- Absorb a block and permute: the state as 200 bytes. -/
def keccakBlock (mid block : List Byte) : List Byte :=
  let x := List.zipWith (· ^^^ ·) (fitBytes 200 mid) (fitBytes 200 block)
  let lanes := (List.range 25).map fun j => field x (8 * j) 8
  ((List.range 24).foldl keccakRound lanes).flatMap (leBytes 8)

/-! ### The lane algorithms (R154) -/

/-- A code of R154. -/
def algValid (alg : Nat) : Bool := 1 ≤ alg && alg ≤ 8

/-- Block length in bytes. -/
def algBlock (alg : Nat) : Nat := [64, 64, 128, 128, 136, 104, 72, 168, 136].getD alg 64

/-- Digest length in bytes; for SHAKE the length that R163 takes for a long key. -/
def algDigest (alg : Nat) : Nat := [32, 32, 48, 64, 32, 48, 64, 32, 64].getD alg 32

/-- SHAKE128 or SHAKE256. -/
def algShake (alg : Nat) : Bool := 7 ≤ alg

/-- The state before the first block. -/
def algInit (alg : Nat) : List Byte :=
  if alg = 1 then (List.range 8).flatMap fun i => beBytes 4 (tableWord shaIv 64 i >>> 32)
  else if alg = 2 then (List.range 8).flatMap fun i => beBytes 8 (tableWord shaIv 64 (8 + i))
  else if alg = 3 then (List.range 8).flatMap fun i => beBytes 8 (tableWord shaIv 64 i)
  else zeros 200

/-- The state after one more block. -/
def algStep (alg : Nat) (mid block : List Byte) : List Byte :=
  if alg = 1 then sha2Block sha256P mid block
  else if alg ≤ 3 then sha2Block sha512P mid block
  else keccakBlock mid block

/-- Absorb whole blocks: the new state and the bytes that are left. -/
def algBlocks (alg : Nat) : Nat → List Byte → List Byte → List Byte × List Byte
  | 0, mid, bs => (mid, bs)
  | n + 1, mid, bs =>
    if bs.length < algBlock alg then (mid, bs)
    else algBlocks alg n (algStep alg mid (bs.take (algBlock alg))) (bs.drop (algBlock alg))

/-- Absorb all whole blocks of a byte string. -/
def algAbsorb (alg : Nat) (mid bs : List Byte) : List Byte × List Byte := algBlocks alg (bs.length / algBlock alg) mid bs

/-- The padding after `rest` of a message of `total` bytes. -/
def algPad (alg : Nat) (rest : List Byte) (total : Nat) : List Byte :=
  let b := algBlock alg
  if alg ≤ 3 then
    let n := b / 8
    let k := (2 * b - 1 - n - rest.length % b) % b
    rest ++ [0x80] ++ zeros k ++ beBytes n (8 * total)
  else
    let first : Byte := if algShake alg then 0x1F else 0x06
    let k := b - rest.length % b
    if k = 1 then rest ++ [first ||| 0x80] else rest ++ [first] ++ zeros (k - 2) ++ [0x80]

/-- The digest of a message: state, unabsorbed bytes, total length; `n` bytes of it (all of a SHA digest for 0). -/
def algFinal (alg : Nat) (mid rest : List Byte) (total n : Nat) : List Byte :=
  let d := (algAbsorb alg mid (algPad alg rest total)).1
  (d.take (if algShake alg then n else algDigest alg)).take (if n = 0 then algDigest alg else n)

/-- The digest of a byte string. -/
def hash (alg : Nat) (msg : List Byte) : List Byte :=
  let (mid, rest) := algAbsorb alg (algInit alg) msg
  algFinal alg mid rest msg.length (algDigest alg)

def sha256 (msg : List Byte) : List Byte := hash 1 msg
def sha384 (msg : List Byte) : List Byte := hash 2 msg

/-- XOR a byte into every byte. -/
def xorPad (p : Byte) (bs : List Byte) : List Byte := bs.map (· ^^^ p)

/-- HMAC (RFC 2104). -/
def hmac (alg : Nat) (key msg : List Byte) : List Byte :=
  let k := fitBytes (algBlock alg) (if algBlock alg < key.length then hash alg key else key)
  hash alg (xorPad 0x5C k ++ hash alg (xorPad 0x36 k ++ msg))

/-- The blocks of HKDF-Expand (RFC 5869) from counter `i` on. -/
def hkdfBlocks (alg : Nat) (prk info : List Byte) : Nat → Nat → List Byte → List Byte
  | 0, _, _ => []
  | n + 1, i, t =>
    let t := hmac alg prk (t ++ info ++ [BitVec.ofNat 8 i])
    t ++ hkdfBlocks alg prk info n (i + 1) t

/-- HKDF-Expand to `n` bytes. -/
def hkdfExpand (alg : Nat) (prk info : List Byte) (n : Nat) : List Byte :=
  (hkdfBlocks alg prk info ((n + algDigest alg - 1) / algDigest alg) 1 []).take n

/-- HKDF: extract with a salt, then expand. -/
def hkdf (alg : Nat) (salt ikm info : List Byte) (n : Nat) : List Byte := hkdfExpand alg (hmac alg salt ikm) info n

/-! ### AES-256 -/

/-- The S-box, 8 bits an entry. -/
def aesSbox : Nat :=
  [ 0x1531d871f1e5a534ccf73f362693fdb7c072a49cafa2d4adf04759fa7dc982ca76abd7fe2b670130c56f6bf27b777c63,
    0xcf584c4a39becb6a5bb1fc20ed00d153842fe329b3d63b52a05a6e1b1a2c830975b227ebe28012079a059618c323c704,
    0x73195d643d7ea7c41744975fec130ccdd2f3ff1021dab6bcf5389d928f40a351a89f3c507f02f94585334d43fbaaefd0,
    0x8ae7a65eaf4566ca94ed58d6d37c8e779e4959162acd3c25c2406490a3a32e0db0b5ede14b8ee4688902a22dc4f8160,
    0xdf2855cee9871e9b948ed9691198f8e19e1dc186b95735610ef6034866b53e708a8bbd4b1f74dde8c6b4a61c2e2578ba,
    0x16bb54b00f2d99416842e6bf0d89a18c ].foldr (fun p acc => p + 2 ^ 384 * acc) 0

/-- The inverse S-box. -/
def aesInvSbox : Nat :=
  [ 0x4ec3fa420b954cee3d23c2a632947b54cbe9dec444438e3487ff2f9b8239e37cfbd7f3819ea340bf38a53630d56a0952,
    0x849d8da75746155edab9edfd5048706c92b6655dcc5ca4d41698688664f6f87225d18b6d49a25b76b224d92866a12e08,
    0x73e6b4f0cecff297eadc674f4111913a6b8a130103bdafc1020f3fca8f1e2cd00645b3b80558e4f70ad3bc8c00abd890,
    0xf45acd78fec0db9a2079d2c64b3e56fc1bbe18aa0e62b76f89c5291d711af1476edf751ce837f9e28535ade72274ac96,
    0x619953833cbbebc8b0f52aae4d3be0a0ef9cc9939f7ae52d0d4ab519a97f51605fec8027591012b131c7078833a8dd1f,
    0x7d0c2155631469e126d677ba7e042b17 ].foldr (fun p acc => p + 2 ^ 384 * acc) 0

def subByte (b : Byte) : Byte := BitVec.ofNat 8 (tableWord aesSbox 8 b.toNat)
def invSubByte (b : Byte) : Byte := BitVec.ofNat 8 (tableWord aesInvSbox 8 b.toNat)

/-- Multiply by x in GF(2^8). -/
def xtime (b : Byte) : Byte := if b.msb then (b <<< 1) ^^^ 0x1B else b <<< 1

/-- Multiply by a constant of up to 4 bits in GF(2^8). -/
def gmul (k : Nat) (b : Byte) : Byte :=
  let b2 := xtime b
  let b4 := xtime b2
  let b8 := xtime b4
  (if k.testBit 0 then b else 0) ^^^ (if k.testBit 1 then b2 else 0) ^^^ (if k.testBit 2 then b4 else 0) ^^^
    (if k.testBit 3 then b8 else 0)

/-- The next words of the key schedule; the list holds the words so far, newest first. -/
def aesKeyStep (ws : List (List Byte)) (i : Nat) : List (List Byte) :=
  let prev := ws.headD []
  let old := ws.getD 7 []
  let t :=
    if i % 8 = 0 then
      let r := (prev.drop 1 ++ prev.take 1).map subByte
      List.zipWith (· ^^^ ·) r [BitVec.ofNat 8 (2 ^ (i / 8 - 1)), 0, 0, 0]
    else if i % 8 = 4 then prev.map subByte
    else prev
  List.zipWith (· ^^^ ·) t old :: ws

/-- The 15 round keys of AES-256, 16 bytes each. -/
def aesKeys (key : List Byte) : List (List Byte) :=
  let first := ((List.range 8).map fun i => slice key (4 * i) 4).reverse
  let ws := (((List.range 52).map (· + 8)).foldl aesKeyStep first).reverse
  (List.range 15).map fun r => ((ws.drop (4 * r)).take 4).flatten

def xorBytes (a b : List Byte) : List Byte := List.zipWith (· ^^^ ·) a b

/-- Row r moves left by r columns (its inverse moves right). -/
def shiftRows (inv : Bool) (s : List Byte) : List Byte :=
  (List.range 16).map fun i =>
    let r := i % 4
    let c := i / 4
    s.getD (r + 4 * ((if inv then c + 4 - r else c + r) % 4)) 0

/-- Multiply each column by a circulant matrix. -/
def mixColumns (m : List Nat) (s : List Byte) : List Byte :=
  (List.range 16).map fun i =>
    (List.range 4).foldl (fun acc j => acc ^^^ gmul (m.getD ((j + 4 - i % 4) % 4) 0) (s.getD (4 * (i / 4) + j) 0)) 0

/-- Encrypt a block. -/
def aesEnc (key block : List Byte) : List Byte :=
  let ks := aesKeys key
  let k := fun r => ks.getD r []
  let s := (List.range 13).foldl (fun s r =>
    xorBytes (mixColumns [2, 3, 1, 1] (shiftRows false (s.map subByte))) (k (r + 1))) (xorBytes (fitBytes 16 block) (k 0))
  xorBytes (shiftRows false (s.map subByte)) (k 14)

/-- Decrypt a block. -/
def aesDec (key block : List Byte) : List Byte :=
  let ks := aesKeys key
  let k := fun r => ks.getD r []
  let s := xorBytes (fitBytes 16 block) (k 14)
  let s := (List.range 13).foldl (fun s r =>
    mixColumns [14, 11, 13, 9] (xorBytes ((shiftRows true s).map invSubByte) (k (13 - r)))) s
  xorBytes ((shiftRows true s).map invSubByte) (k 0)

/-! ### AES-256-GCM (R169) -/

/-- Product in the field of GHASH. -/
def ghashMul (x y : Nat) : Nat :=
  ((List.range 128).foldl (fun (st : Nat × Nat) i =>
    let z := if x.testBit (127 - i) then st.1 ^^^ st.2 else st.1
    (z, if st.2 % 2 = 1 then (st.2 / 2) ^^^ (0xE1 <<< 120) else st.2 / 2)) (0, y)).1

def beNat (bs : List Byte) : Nat := leNat bs.reverse

/-- Fill to a multiple of 16 bytes. -/
def pad16 (bs : List Byte) : List Byte := bs ++ zeros ((16 - bs.length % 16) % 16)

def ghash (h : Nat) (bs : List Byte) : Nat :=
  (List.range (bs.length / 16)).foldl (fun y i => ghashMul (y ^^^ beNat (slice bs (16 * i) 16)) h) 0

/-- The counter block i of a 96-bit IV. -/
def gcmCtr (iv : List Byte) (i : Nat) : List Byte := fitBytes 12 iv ++ beBytes 4 i

/-- Counter mode from counter 2 on. -/
def gcmCrypt (key iv text : List Byte) : List Byte :=
  (List.range ((text.length + 15) / 16)).flatMap fun i =>
    xorBytes ((text.drop (16 * i)).take 16) (aesEnc key (gcmCtr iv (i + 2)))

/-- The tag of a ciphertext. -/
def gcmTag (key iv aad ct : List Byte) : List Byte :=
  let h := beNat (aesEnc key (zeros 16))
  let y := ghash h (pad16 aad ++ pad16 ct ++ beBytes 8 (8 * aad.length) ++ beBytes 8 (8 * ct.length))
  xorBytes (beBytes 16 y) (aesEnc key (gcmCtr iv 1))

/-! ### AES key wrap with padding (R176) -/

/-- The steps of the unwrap function: register A and the semiblocks, `t` counting down. -/
def kwSteps (key : List Byte) (n : Nat) : Nat → List Byte × List (List Byte) → List Byte × List (List Byte)
  | 0, st => st
  | t + 1, (a, r) =>
    let i := t % n
    let b := aesDec key (xorBytes a (beBytes 8 (t + 1)) ++ r.getD i [])
    kwSteps key n t (b.take 8, r.set i (b.drop 8))

/-- Unwrap: the plaintext by its length indicator, or none if the integrity check fails. -/
def kwpUnwrap (key ct : List Byte) : Option (List Byte) :=
  let n := ct.length / 8 - 1
  let (a, p) :=
    if n = 1 then
      let b := aesDec key ct
      (b.take 8, b.drop 8)
    else
      let (a, r) := kwSteps key n (6 * n) (ct.take 8, (List.range n).map fun i => slice ct (8 * (i + 1)) 8)
      (a, r.flatten)
  let mli := beNat (a.drop 4)
  if 1 ≤ n && beNat (a.take 4) = 0xA65959A6 && 8 * (n - 1) < mli && mli ≤ 8 * n && (p.drop mli).all (· = 0) then
    some (p.take mli)
  else none

/-! ### Input checks of ECDSA (R147, R361); PRESUMED: the curves and encodings are those of the named standards -/

/-- Reasons of a failing input check (R361). -/
def inModulus : Nat := 1
def inRange : Nat := 2
def inZero : Nat := 3
def inPoint : Nat := 4

/-- Prime, coefficient b and order of P-256 and P-384. -/
def curveP (alg : Nat) : Nat :=
  if alg = 1 then 2 ^ 256 - 2 ^ 224 + 2 ^ 192 + 2 ^ 96 - 1 else 2 ^ 384 - 2 ^ 128 - 2 ^ 96 + 2 ^ 32 - 1
def curveB (alg : Nat) : Nat :=
  if alg = 1 then 0x5ac635d8aa3a93e7b3ebbd55769886bc651d06b0cc53b0f63bce3c3e27d2604b
  else 0xb3312fa7e23ee7e4988e056be3f82d19181d9c6efe8141120314088f5013875ac656398d8a2ed19d2a85c8edd3ec2aef
def curveN (alg : Nat) : Nat :=
  if alg = 1 then 0xffffffff00000000ffffffffffffffffbce6faada7179e84f3b9cac2fc632551
  else 0xffffffffffffffffffffffffffffffffffffffffffffffffc7634d81f4372ddf581a0db248b0a77aecec196accc52973

/-- The reason of the first failing check, 0 if all pass. -/
def firstReason : List (Bool × Nat) → Nat
  | [] => 0
  | (ok, r) :: cs => if ok then firstReason cs else r

/-- ECDSA. -/
def checkEcdsa (alg : Nat) (key sig : List Byte) : Nat :=
  let n := key.length / 2
  let p := curveP alg
  let x := beNat (key.take n)
  let y := beNat (key.drop n)
  let r := beNat (sig.take n)
  let t := beNat (sig.drop n)
  firstReason [(x < p && y < p, inRange), (y * y % p = (x * x * x + (p - 3) * x + curveB alg) % p, inPoint),
    (r ≠ 0 && t ≠ 0, inZero), (r < curveN alg && t < curveN alg, inRange)]

/-- An ECDSA P-384 signature is accepted (R147, R221): its numbers are in range, its point is on the curve, it verifies. -/
def ecdsa384Ok (key digest sig : List Byte) : Bool := checkEcdsa 2 key sig = 0 && Config.ecdsaP384 key digest sig

end Sys2Proof.Machine
end

