-- ==== Sys2Proof/Machine/Chamber.lean ====
section
/-! DEFINITION. The Chamber (06_digest_keys.md R170 to R179, R526): slots and extents, use rights, its commands, the
unwrap buffers, transfers to the Cranks, lifetimes and the derivation context. -/

namespace Sys2Proof.Machine

/-! ### Codes (R182) -/

def cOk : Nat := 0x00
def cSlotEmpty : Nat := 0x10
def cNoFreeSlot : Nat := 0x11
def cBadParam : Nat := 0x12
def cBusy : Nat := 0x13
def cUnwrapFail : Nat := 0x14
def cXferRefused : Nat := 0x15
def cUseViolation : Nat := 0x16

/-! ### Attribute words and slots (R170, R171) -/

def attrLen (a : W32) : Nat := 8 * fld a 22 10
def attrOwner (a : W32) : Nat := fld a 11 11
def attrGroup (a : W32) : Bool := bitOf a 10
def attrLifetime (a : W32) : Nat := fld a 8 2
def attrType (a : W32) : Nat := fld a 0 4
def useDerive : Nat := 8
def useWrap : Nat := 4
def useDigest : Nat := 2
def useCrank : Nat := 1
/-- The usage field [7:4]. -/
def attrUsage (a : W32) : Nat := fld a 4 4

/-- An attribute word from its fields. -/
def mkAttr (len8 owner lifetime usage type : Nat) : W32 := w32 (len8 <<< 22 + owner <<< 11 + lifetime <<< 8 + usage <<< 4 + type)

/-- Slots of an extent. -/
def attrSlots (a : W32) : Nat := max 1 ((attrLen a + 63) / 64)

/-- Slots at a PD_26 power-up or an R178 wipe: 1 to 3 wait for their device keys (R170), all others are empty. -/
def slotReset (i : Nat) : Slot :=
  if i = 1 then { state := .reserved, attr := mkAttr 6 hubA 2 useDerive 10, head := 1 }
  else if i = 2 then { state := .reserved, attr := mkAttr 4 hubA 2 useWrap 11, head := 2 }
  else if i = 3 then { state := .reserved, attr := mkAttr 6 hubA 2 useDerive 1, head := 3 }
  else {}

def slot (s : State) (i : Nat) : Slot := smGet s.chamber.slots i (slotReset i)
def setSlot (s : State) (i : Nat) (v : Slot) : State :=
  { s with chamber := { s.chamber with slots := smSet s.chamber.slots i (slotReset i) v } }

/-- Slot i is the first of its extent, or empty. -/
def isHead (s : State) (i : Nat) : Bool := (slot s i).state = .empty || (slot s i).head = i

/-- Lay an extent from slot `i`. -/
def putExtent (s : State) (i : Nat) (v : Slot) : State :=
  (List.range (attrSlots v.attr)).foldl (fun s k =>
    setSlot s (i + k) (if k = 0 then { v with head := i } else { state := v.state, head := i })) s

/-- Wipe the extent at `i`: its slots are empty (R173, R174). -/
def wipeExtent (s : State) (i : Nat) : State :=
  (List.range (attrSlots (slot s i).attr)).foldl (fun s k => setSlot s (i + k) {}) s

/-- `CH_FREE_SLOTS`: empty slots from 16 on (R181). -/
def freeSlots (s : State) : Nat :=
  65520 - (s.chamber.slots.filter fun e => 16 ≤ e.1 && e.2.state ≠ .empty).length

/-- `n` slots from `i` are empty and within the array. -/
def emptyRun (s : State) (i n : Nat) : Bool :=
  i + n ≤ 65536 && (s.chamber.slots.all fun e => e.1 < i || i + n ≤ e.1 || e.2.state = .empty)

/-- The lowest place for an extent: 16, or right after a slot in use. -/
def findRun (s : State) (n : Nat) : Option Nat :=
  ((16 :: (s.chamber.slots.filter fun e => 16 ≤ e.1).map fun e => e.1 + 1).filter fun i => emptyRun s i n).foldl
    (fun b i => match b with
      | none => some i
      | some j => some (min i j)) none

/-! ### Command banks (R174) -/

def chBank (s : State) (m : Nat) : ChBank := smGet s.chamber.banks m {}
def setChBank (s : State) (m : Nat) (b : ChBank) : State :=
  { s with chamber := { s.chamber with banks := smSet s.chamber.banks m {} b } }

/-- The result of a command; a refusal that is no violation leaves a record (R182). -/
def chResult (s : State) (m code : Nat) (result resultHi : W32) : State :=
  let s := if code = cOk || code = cUseViolation then s else emit s islChamber m 0x031 [w32 code]
  setChBank s m { chBank s m with code, result, resultHi }

/-- The result of a command without a result value. -/
def chCode (s : State) (m code : Nat) : State := chResult s m code (chBank s m).result (chBank s m).resultHi

/-- A violation of illegal Chamber use (R172, R177). -/
def chViolation (s : State) (m : Nat) : State := violate (chCode s m cUseViolation) m vChamber (aCh 0)

/-! ### Rights (R172, R177) -/

/-- The master's ID or its current job's queue group is the owner. -/
def owns (s : State) (m : Nat) (a : W32) : Bool :=
  if attrGroup a then (jobOf s m).any fun j => j.group = attrOwner a % 256 else attrOwner a = m

/-- Hub-A fetches from Hub ROM (R177, R225). -/
def inRom (s : State) : Bool := (core s hubA).pc.toNat < 0x40000

/-- Hub-A writes while it fetches from Hub ROM (R177). -/
def romWrite (s : State) (m : Nat) : Bool := m = hubA && inRom s

/-- May m use slot i but for its usage bit: the owner, Hub-A, and for slot 0 only a source that Hub-A wrote from ROM. -/
def mayUse (s : State) (m i : Nat) (romUse : Bool) : Bool :=
  if i = 0 then romUse else m = hubA || owns s m (slot s i).attr

/-- The check of a use (R170, R172): 0, or the code of its refusal; `usage` names the bits of which one is needed. -/
def useCheck (s : State) (m i usage : Nat) (romUse : Bool) : Nat :=
  if !isHead s i then cBadParam
  else if (slot s i).state ≠ .loaded then cSlotEmpty
  else if !mayUse s m i romUse then cUseViolation
  else if attrUsage (slot s i).attr &&& usage = 0 then cUseViolation
  else cOk

/-- The owners that a master may name (R172, R444): itself or its job's queue group; a Hub core any master or group. -/
def mayName (s : State) (m : Nat) (a : W32) : Bool :=
  if isHub m then attrGroup a || isMaster (attrOwner a) else owns s m a

/-- An attribute word that `SLOT_ALLOC` and `UNWRAP_BEGIN` accept from m (R171, R172). -/
def attrOk (s : State) (m : Nat) (a : W32) : Bool :=
  8 ≤ attrLen a && attrLen a ≤ 4096 && attrLifetime a ≠ 3 && 1 ≤ attrType a && attrType a ≤ 11 && mayName s m a

/-- A command starts: `BUSY` until CHAMBER_CMD_DONE; ignored while `BUSY` (R174). -/
def chStart (s : State) (m : Nat) (f : State → State) : State :=
  if (chBank s m).busy then s else f (setChBank s m { chBank s m with busy := true })

/-! ### The commands -/

/-- SLOT_ALLOC. -/
def slotAllocOp (s : State) (m : Nat) (a : W32) : State :=
  if !attrOk s m a then chCode s m cBadParam
  else match findRun s (attrSlots a) with
    | none => chCode s m cNoFreeSlot
    | some i =>
      let s := putExtent s i { state := .reserved, attr := a, allocBy := m, allocJob := jobNumber s m }
      chResult s m cOk (w32 i) 0

/-- SLOT_FREE: ownership, no usage bit; slot 0 by nobody. -/
def slotFreeOp (s : State) (m : Nat) (arg0 : W32) : State :=
  let i := fld arg0 0 16
  if !isHead s i then chCode s m cBadParam
  else if (slot s i).state = .empty then chCode s m cSlotEmpty
  else if !mayUse s m i false then chViolation s m
  else chCode (wipeExtent s i) m cOk

def SlotState.num : SlotState → Nat
  | .empty => 0
  | .reserved => 1
  | .loaded => 2

/-- SLOT_INFO. -/
def slotInfoOp (s : State) (m : Nat) (arg0 : W32) : State :=
  let i := fld arg0 0 16
  if !isHead s i then chCode s m cBadParam
  else chResult s m cOk (slot s i).attr (w32 (slot s i).state.num)

/-- XFER: the key sets out for the Crank; its refusal or acceptance comes back (R131, R174, R175). -/
def xferOp (s : State) (m : Nat) (arg0 arg1 : W32) : State :=
  let i := fld arg0 0 16
  let index := fld arg1 0 11
  if isSpoke m && fld arg1 16 5 ≠ 0 then chCode s m cBadParam
  else if isGk m then chCode s m cXferRefused
  else
    match useCheck s m i useCrank (romWrite s m) with
    | 0 =>
      if i = 2 then chCode s m cXferRefused
      else if 16384 < 8 * index + (slot s i).key.length then chCode s m cBadParam
      else
        let t : Xfer := { master := m, wheel := if isSpoke m then m / 16 else fld arg1 16 5, ctx := b2n (bitOf arg1 11),
                          index, key := (slot s i).key, job := jobNumber s m }
        { s with chamber := { s.chamber with xfers := s.chamber.xfers ++ [t] } }
    | code => if code = cUseViolation then chViolation s m else chCode s m code

/-- The first transfer to a Wheel. -/
def takeXfer (w : Nat) : List Xfer → Option (Xfer × List Xfer)
  | [] => none
  | t :: rest => if t.wheel = w then some (t, rest) else (takeXfer w rest).map fun (x, l) => (x, t :: l)

/-- S_AREA_TRANSFER (R131): accepted or refused by the Crank. -/
def sAreaTransferOp (s : State) (w : Nat) : State :=
  match takeXfer w s.chamber.xfers with
  | none => s
  | some (t, rest) =>
    let s := { s with chamber := { s.chamber with xfers := rest } }
    if xferAccepted s t then chCode (xferWrite s t) t.master cOk else chCode s t.master cXferRefused

/-- UNWRAP_BEGIN (R176): a key-encryption key with `WRAP`, one of four buffers. -/
def unwrapBeginOp (s : State) (m : Nat) (arg0 arg1 arg2 : W32) : State :=
  let n := arg2.toNat
  if !attrOk s m arg1 || n < 16 || 4104 < n || n % 8 ≠ 0 then chCode s m cBadParam
  else
    match useCheck s m (fld arg0 0 16) useWrap (romWrite s m) with
    | 0 =>
      if 4 ≤ s.chamber.unwraps.length || s.chamber.unwraps.any (fun u => u.master = m) then chCode s m cBusy
      else
        let u : UnwrapBuf := { master := m, kek := fld arg0 0 16, attr := arg1, length := n, fed := [],
                               job := jobNumber s m }
        chCode { s with chamber := { s.chamber with unwraps := s.chamber.unwraps ++ [u] } } m cOk
    | code => if code = cUseViolation then chViolation s m else chCode s m code

/-- CH_FEED (R174): words in order, up to the buffer's size. -/
def chFeedOp (s : State) (m : Nat) (v : W32) : State :=
  let unwraps := s.chamber.unwraps.map fun u =>
    if u.master = m && u.fed.length + 4 ≤ 4104 then { u with fed := u.fed ++ leBytes 4 v.toNat } else u
  { s with chamber := { s.chamber with unwraps } }

/-- Give a master's unwrap buffer back, wiped (R176). -/
def dropUnwrap (s : State) (m : Nat) : State :=
  { s with chamber := { s.chamber with unwraps := s.chamber.unwraps.filter fun u => u.master ≠ m } }

/-- UNWRAP_END (R176); without a buffer there is no wrapped key and it fails; a key-encryption key that was wiped in the
meantime is an empty slot. -/
def unwrapEndOp (s : State) (m : Nat) : State :=
  match s.chamber.unwraps.find? fun u => u.master = m with
  | none => chCode s m cUnwrapFail
  | some u =>
    let key := fitBytes 32 (slot s u.kek).key
    let gone := (slot s u.kek).state ≠ .loaded
    let s := dropUnwrap s m
    if gone then chCode s m cSlotEmpty
    else match if u.fed.length = u.length then kwpUnwrap key u.fed else none with
    | none => chCode s m cUnwrapFail
    | some p =>
      if p.length ≠ attrLen u.attr then chCode s m cUnwrapFail
      else match findRun s (attrSlots u.attr) with
        | none => chCode s m cNoFreeSlot
        | some i =>
          chResult (putExtent s i { state := .loaded, attr := u.attr, key := p, allocBy := m, allocJob := jobNumber s m }) m
            cOk (w32 i) 0

/-- CHAMBER_CMD_DONE (R175): not while a transfer of the command is under way. -/
def chamberDoneOp (s : State) (m : Nat) : State :=
  if s.chamber.xfers.any fun t => t.master = m then s else setChBank s m { chBank s m with busy := false }

/-- SLOT0_LOAD (R186, R196, R205): after any running OTP command, with the records of its reads. -/
def slot0LoadOp (s : State) : State :=
  if domOn s 26 && s.otp.slot0Waiting && s.otp.command = none then
    let s := showOtpBusy { s with otp := { s.otp with slot0Waiting := false } }
    let s := otpLogWords s 0x431 (secretWords s)
    setSlot s 0 { state := .loaded, attr := mkAttr 4 hubA 2 useDerive 1, head := 0, key := deviceSecret s }
  else s

/-- A command by the code written to `CH_CMD` (R174). -/
def chCmdOp (s : State) (m op : Nat) : State :=
  let b := chBank s m
  match op with
  | 1 => chStart s m fun s => slotAllocOp s m b.arg0
  | 2 => chStart s m fun s => slotFreeOp s m b.arg0
  | 3 => chStart s m fun s => slotInfoOp s m b.arg0
  | 4 => chStart s m fun s => xferOp s m b.arg0 b.arg1
  | 5 => chStart s m fun s => unwrapBeginOp s m b.arg0 b.arg1 b.arg2
  | 6 => chStart s m fun s => unwrapEndOp s m
  | _ => if b.busy then s else chCode s m cBadParam

/-! ### Lifetimes and the derivation context (R173, R178, R526) -/

/-- Wipe every extent from slot 16 on that a condition selects. -/
def wipeSlots (s : State) (p : Slot → Bool) : State :=
  (s.chamber.slots.filter fun e => 16 ≤ e.1 && e.2.head = e.1 && e.2.state ≠ .empty && p e.2).foldl
    (fun s e => wipeExtent s e.1) s

/-- The job of a master that was current at their allocation has ended (R526). -/
def endJobSlots (s : State) (m : Nat) : State :=
  wipeSlots s fun v => attrLifetime v.attr = 0 && v.allocBy = m && v.allocJob.isSome

/-- A master halts, is frozen or reset: its `JOB` slots go, allocated in a job or not (R526). -/
def stopSlots (s : State) (m : Nat) : State := wipeSlots s fun v => attrLifetime v.attr = 0 && v.allocBy = m

/-- A queue group is destroyed (R171, R335). -/
def endGroupSlots (s : State) (g : Nat) : State :=
  wipeSlots s fun v => attrLifetime v.attr = 1 && attrGroup v.attr && attrOwner v.attr % 256 = g

/-- R178: wipe all slots but 0 and 1, set the derivation context, tell Hub-A. -/
def reseed (s : State) (ctx : Byte) : State :=
  let slots := s.chamber.slots.filter fun e => e.1 < 2
  let s := { s with chamber := { s.chamber with slots, deriveCtx := ctx } }
  hubInt (setRegB s (aCh 0x104) 0 true) "CH_RESEED"

/-- PD_26 powers off: every slot, buffer and bank is lost (R173). -/
def chamberOff (s : State) : State := { resetRegs s (aCh 0) (aCh 0x10000) with chamber := {} }

/-! ### Registers (R181) -/

/-- A read of a master's bank or the shared registers. -/
def chRead (s : State) (m off : Nat) : W32 :=
  let b := chBank s m
  if off = 0x004 then b.arg0
  else if off = 0x008 then b.arg1
  else if off = 0x00C then b.arg2
  else if off = 0x010 then w32 (b2n b.busy <<< 31 + b.code)
  else if off = 0x014 then b.result
  else if off = 0x018 then b.resultHi
  else if off = 0x100 then w32 s.chamber.deriveCtx.toNat
  else if off = 0x108 then w32 (freeSlots s)
  else if off < 0x20 then 0
  else reg s (aCh off)

/-- A write to a master's bank or the shared registers. -/
def chWrite (s : State) (m off : Nat) (v : W32) : State :=
  let b := chBank s m
  if off = 0x000 then chCmdOp s m (fld v 0 4)
  else if off = 0x004 then setChBank s m { b with arg0 := v }
  else if off = 0x008 then setChBank s m { b with arg1 := v }
  else if off = 0x00C then setChBank s m { b with arg2 := v }
  else if off = 0x01C then chFeedOp s m v
  else if off < 0x20 then s
  else plainWrite s (aCh off) v

/-! ### The commands' meanings: the arguments as the master's bank holds them when `CH_CMD` is written -/

/-- Masters with a bank (R174, R445): Spokes, gatekeepers and Hub cores; PD_26 must be on (R19). -/
def chAccess (s : State) (m : Nat) (f : State → State) : State :=
  guarded s m (aCh 0) (domOn s 26) fun s => if isCore m then f s else violate s m vWindow (aCh 0)

def execSlotAlloc (m : Nat) (attr : W32) (s : State) : Host.Outcome State Fault Refusal :=
  .next (chAccess s m fun s => chStart (setChBank s m { chBank s m with arg0 := attr }) m fun s => slotAllocOp s m attr)
def execSlotFree (m : Nat) (arg0 : W32) (s : State) : Host.Outcome State Fault Refusal :=
  .next (chAccess s m fun s => chStart (setChBank s m { chBank s m with arg0 }) m fun s => slotFreeOp s m arg0)
def execSlotInfo (m : Nat) (arg0 : W32) (s : State) : Host.Outcome State Fault Refusal :=
  .next (chAccess s m fun s => chStart (setChBank s m { chBank s m with arg0 }) m fun s => slotInfoOp s m arg0)
def execXfer (m : Nat) (arg0 arg1 : W32) (s : State) : Host.Outcome State Fault Refusal :=
  .next (chAccess s m fun s => chStart (setChBank s m { chBank s m with arg0, arg1 }) m fun s => xferOp s m arg0 arg1)
def execUnwrapBegin (m : Nat) (arg0 arg1 arg2 : W32) (s : State) : Host.Outcome State Fault Refusal :=
  .next (chAccess s m fun s => chStart (setChBank s m { chBank s m with arg0, arg1, arg2 }) m fun s =>
    unwrapBeginOp s m arg0 arg1 arg2)
def execUnwrapEnd (m : Nat) (s : State) : Host.Outcome State Fault Refusal :=
  .next (chAccess s m fun s => chStart s m fun s => unwrapEndOp s m)
def execChFeed (m : Nat) (v : W32) (s : State) : Host.Outcome State Fault Refusal :=
  .next (chAccess s m fun s => chFeedOp s m v)
def execChamberCmdDone (m : Nat) (s : State) : Host.Outcome State Fault Refusal := .next (chamberDoneOp s m)
def execSlot0Load (s : State) : Host.Outcome State Fault Refusal := .next (slot0LoadOp s)
def execSAreaTransfer (w : Nat) (s : State) : Host.Outcome State Fault Refusal := .next (sAreaTransferOp s w)

end Sys2Proof.Machine
end

