-- ==== Sys2Proof/Machine/Lane.lean ====
section
/-! DEFINITION. The Cassette digest lanes (06_digest_keys.md R153 to R169, R180): claims, the input queue, hashing, taint,
delivery, context images and wrapped images. Lane l is 2 w + L for Wheel lanes, 64 + L for Hub lanes. -/

namespace Sys2Proof.Machine

/-! ### Codes (R182) -/

def lInvalid : Nat := 0x01
def lOverrun : Nat := 0x02
def lUnderrun : Nat := 0x03
def lNotAligned : Nat := 0x04
def lRestoreInvalid : Nat := 0x05
def lRestoreRefused : Nat := 0x06
def lDeriveRefused : Nat := 0x07
def lTaint : Nat := 0x08

def isHubLane (l : Nat) : Bool := 64 ≤ l
/-- Address of a lane's register block (R153). -/
def laneAddr (l off : Nat) : Nat :=
  if isHubLane l then 0x40050000 + 0x1000 * (l - 64) + off else aWheel (l / 2) (0x310000 + 0x1000 * (l % 2) + off)
/-- The lane's island runs. -/
def laneOn (s : State) (l : Nat) : Bool := if isHubLane l then l < 68 && hubOn s else wheelOn s (l / 2)
def laneIsland (l : Nat) : Nat := if isHubLane l then islHub else l / 2

/-- The lane may work: a Hub lane always, a Wheel lane once admitted and clocked (R156). -/
def laneGo (s : State) (l : Nat) : Bool := if isHubLane l then hubOn s else (lane s l).admitted && wheelRuns s (l / 2)

/-- `INT_LANE_DONE_L` for a master. -/
def laneInt (s : State) (l m : Nat) : State :=
  if isHubLane l then hubInt s "INT_LANE_DONE" (l - 64) else interrupt s m (intLaneDone l)

/-- The lane is held. -/
def LaneState.held : LaneState → Bool
  | .ready | .busy | .finished | .error => true
  | _ => false

def holdsLane (s : State) (m l : Nat) : Bool := (lane s l).state.held && (lane s l).holder = m

/-! ### Errors (R162) -/

/-- A command error; Chamber codes carry the Chamber's record. -/
def laneError (s : State) (l code : Nat) : State :=
  let k := lane s l
  let s := setLane s l { k with state := .error, err := code }
  let s :=
    if code = lTaint && k.finishing.isSome || code = cUseViolation then s
    else if code < 0x10 then emit s (laneIsland l) k.holder 0x030 [w32 code]
    else emit s islChamber k.holder 0x031 [w32 code]
  laneInt s l k.holder

/-! ### Absorbing (R159, R161) -/

/-- Absorb bytes into a lane's context. -/
def laneFeed (k : Lane) (bs : List Byte) : Lane :=
  let (midstate, buffer) := algAbsorb k.alg k.midstate (k.buffer ++ bs)
  { k with midstate, buffer, absorbed := k.absorbed + bs.length }

/-- Absorb bytes under the declared length; a byte beyond it poisons the context. -/
def laneAbsorb (s : State) (l : Nat) (bs : List Byte) : State :=
  let k := lane s l
  let room := k.declared.toNat - k.absorbed
  if k.declared ≠ 0 && room < bs.length then laneError (setLane s l (laneFeed k (bs.take room))) l lOverrun
  else setLane s l (laneFeed k bs)

/-- The context stands at a block boundary. -/
def laneAligned (k : Lane) : Bool := k.buffer = []

/-! ### The commands as the lane takes them (R158) -/

/-- A new message with `alg`: context, taint, match flags, error and lengths cleared. -/
def laneNew (k : Lane) (alg : Nat) : Lane :=
  { k with state := .ready, alg, started := true, midstate := algInit alg, buffer := [], absorbed := 0, declared := 0,
           taint := false, deriveOk := true, matchP := false, matchN := false, err := 0 }

/-- `INIT`; an `ALG` that R154 does not list gives `CMD_INVALID` (log 80). -/
def laneInit (s : State) (l : Nat) (w : W32) : State :=
  if algValid (fld w 24 4) then setLane s l (laneNew (lane s l) (fld w 24 4)) else laneError s l lInvalid

/-- Key material as the Chamber sends it (R178). -/
def slotBytes (s : State) (i : Nat) : List Byte :=
  let k := (slot s i).key
  if attrType (slot s i).attr = 10 && k ≠ [] then k.dropLast ++ [k.getLastD 0 ^^^ s.chamber.deriveCtx] else k

/-- The bytes that `ABSORB_SLOT` absorbs (R163). -/
def slotPadded (alg : Nat) (key : List Byte) (pad : Byte) (block : Bool) : List Byte :=
  if block then
    let k := if algBlock alg < key.length then hash alg key else key
    xorPad pad (fitBytes (algBlock alg) k)
  else xorPad pad key

/-- `ABSORB_SLOT`; `rom`: written by Hub-A while it fetches from Hub ROM (R177). -/
def laneAbsorbSlot (s : State) (l : Nat) (w : W32) (rom : Bool) : State :=
  let k := lane s l
  if bitOf w 2 && !laneAligned k then laneError s l lNotAligned
  else
    match if domOn s 26 then useCheck s k.holder k.slot (useDigest + useDerive) (isHubLane l && rom) else cSlotEmpty with
    | 0 =>
      let derive := attrUsage (slot s k.slot).attr &&& useDerive ≠ 0
      let bytes := slotPadded k.alg (slotBytes s k.slot) (BitVec.ofNat 8 (fld w 16 8)) (bitOf w 2)
      laneAbsorb (setLane s l { k with taint := true, deriveOk := k.deriveOk && derive }) l bytes
    | code =>
      let s := if code = cUseViolation then violate s k.holder vChamber (aCh 0) else s
      laneError s l code

/-- `ABSORB_HOLD` (R164, R165): as many bytes as the last delivery put into the holding register, none before one (log 80). -/
def laneAbsorbHold (s : State) (l : Nat) : State :=
  let k := lane s l
  laneAbsorb (setLane s l { k with taint := k.taint || k.holdTaint, deriveOk := k.deriveOk && k.holdDerive }) l k.hold

/-- `FINISH` begins: its final blocks run until LANE_OP_DONE. -/
def laneFinish (s : State) (l : Nat) (w : W32) : State :=
  let k := lane s l
  let n := fld w 8 8
  if 64 < n || (n = 0 && algShake k.alg) then laneError s l lInvalid
  else setLane s l { k with state := .busy, finishing := some w }

/-! ### Context images (R168, R169) -/

/-- An image of 256 bytes. -/
def laneImage (k : Lane) : List Byte :=
  fitBytes 256 (leBytes 2 1 ++ [BitVec.ofNat 8 k.alg, 0] ++ zeros 4 ++ leBytes 8 k.declared.toNat ++ leBytes 16 k.absorbed ++
    fitBytes 200 k.midstate)

/-- Store a byte list as a map from its offsets. -/
def imageMap (bs : List Byte) : SMap Byte := (bs.zipIdx).foldl (fun m e => smSet m e.2 0 e.1) []
/-- The bytes of a map. -/
def imageBytes (m : SMap Byte) (n : Nat) : List Byte := (List.range n).map fun i => smGet m i 0

/-- `SAVE`. -/
def laneSave (s : State) (l : Nat) : State :=
  let k := lane s l
  if !laneAligned k then laneError s l lNotAligned
  else if k.taint then laneError s l lTaint
  else setLane s l { k with ctxImage := imageMap (laneImage k) }

/-- Length of the hash state of an algorithm. -/
def algStateLen (alg : Nat) : Nat := if alg = 1 then 32 else if alg ≤ 3 then 64 else 200

/-- An image is well formed: format, algorithm, reserved bytes, whole blocks. -/
def imageOk (im : List Byte) : Bool :=
  let alg := field im 2 1
  field im 0 2 = 1 && algValid alg && field im 3 5 = 0 && (slice im (32 + algStateLen alg) (224 - algStateLen alg)).all (· = 0) &&
    field im 16 16 % algBlock alg = 0

/-- Load a context from an image with the given taint and eligibility; a tainted context stays tainted (R164). -/
def laneLoad (k : Lane) (im : List Byte) (taint deriveOk : Bool) : Lane :=
  let alg := field im 2 1
  { laneNew k alg with declared := BitVec.ofNat 64 (field im 8 8), absorbed := field im 16 16,
                       midstate := slice im 32 (algStateLen alg), taint := k.taint || taint, deriveOk }

/-- `RESTORE`. -/
def laneRestore (s : State) (l : Nat) : State :=
  let k := lane s l
  let im := imageBytes k.ctxImage 256
  if imageOk im then setLane s l (laneLoad k im false true) else laneError s l lRestoreInvalid

/-- `OWNER` of a wrapped image: the job's queue group, or the master. -/
def wrapOwner (s : State) (m : Nat) : Nat :=
  match if isHub m then none else jobOf s m with
  | some j => 2 ^ 31 + j.group
  | none => m

/-- The first 16 bytes of a wrapped image, which are authenticated as they are. -/
def wrapHead (s : State) (l alg : Nat) : List Byte :=
  leBytes 2 0x0101 ++ [if isHubLane l then 2 else 1, BitVec.ofNat 8 alg] ++ leBytes 4 (wrapOwner s (lane s l).holder) ++ zeros 8

/-- The device context key in slot 2, as the lane fetches it. -/
def contextKey (s : State) : Option (List Byte) :=
  if domOn s 26 && (slot s 2).state = .loaded && attrUsage (slot s 2).attr &&& useWrap ≠ 0 then
    some (fitBytes 32 (slotBytes s 2))
  else none

/-- `EXPORT_WRAPPED` with its IV. -/
def laneExportIv (s : State) (l : Nat) (key iv : List Byte) : State :=
  let k := lane s l
  let head := wrapHead s l k.alg
  let im := laneImage k
  let flags : Byte := BitVec.ofNat 8 (b2n k.taint + 2 * b2n k.deriveOk)
  let plain := im.take 3 ++ [flags] ++ slice head 4 4 ++ im.drop 8
  let ct := gcmCrypt key iv plain
  setLane s l { k with wrapImage := imageMap (head ++ iv ++ zeros 4 ++ ct ++ gcmTag key iv head ct) }

/-- `EXPORT_WRAPPED`: waits while Drip cannot deliver its IV (R520). -/
def laneExport (s : State) (l : Nat) : State :=
  if !laneAligned (lane s l) then laneError s l lNotAligned
  else match contextKey s with
    | none => laneError s l cSlotEmpty
    | some key =>
      match dripTake s 3 with
      | none => s
      | some (ws, s) => laneExportIv s l key (wordBytes ws)

/-- The command is an export that waits for Drip. -/
def exportWaits (s : State) (l : Nat) (w : W32) : Bool :=
  fld w 28 4 = 7 && (lane s l).started && (lane s l).state ≠ .error && laneAligned (lane s l) && (contextKey s).isSome &&
    (dripTake s 3).isNone

/-- `IMPORT_WRAPPED`. -/
def laneImport (s : State) (l : Nat) : State :=
  let k := lane s l
  let im := imageBytes k.wrapImage 304
  match contextKey s with
  | none => laneError s l cSlotEmpty
  | some key =>
    let head := im.take 16
    let iv := slice im 16 12
    let ct := slice im 32 256
    let plain := gcmCrypt key iv ct
    if gcmTag key iv head ct ≠ slice im 288 16 || head ≠ wrapHead s l (field plain 2 1) then laneError s l lRestoreRefused
    else
      let flags := field plain 3 1
      setLane s l (laneLoad k plain (flags.testBit 0) (flags.testBit 1))

/-- A command word as the lane takes it (R158 to R160, R162); an unlisted `OP` and nonzero reserved bits [7:3] give
`CMD_INVALID` (log 80). -/
def laneCmd (s : State) (l : Nat) (w : W32) (rom : Bool) : State :=
  let k := lane s l
  let op := fld w 28 4
  let fresh := op = 1 || op = 6 || op = 8
  if k.state = .error && !fresh then s
  else if op = 0 || 8 < op || fld w 3 5 ≠ 0 then laneError s l lInvalid
  else if !fresh && !k.started then laneError s l lInvalid
  else match op with
    | 1 => laneInit s l w
    | 2 => laneAbsorbSlot s l w rom
    | 3 => laneAbsorbHold s l
    | 4 => laneFinish s l w
    | 5 => laneSave s l
    | 6 => laneRestore s l
    | 7 => laneExport s l
    | _ => laneImport s l

/-- Bytes for a map from offset `off`. -/
def mapWrite (m : SMap Byte) (off : Nat) (bs : List Byte) : SMap Byte :=
  (bs.zipIdx).foldl (fun m e => smSet m (off + e.2) 0 e.1) m

/-- A register write in its turn: lengths, slot, `EXPECTED` and the images (R161, R180). -/
def laneWriteReg (s : State) (l off size : Nat) (v : W64) : State :=
  let k := lane s l
  let bs := leBytes size v.toNat
  if off = 0x014 || off = 0x018 then
    (if k.absorbed ≠ 0 then s
     else
       let d := k.declared.toNat
       let lo := if off = 0x014 then (v.toNat % 2 ^ 32) else d % 2 ^ 32
       let hi := if off = 0x018 then (v.toNat % 2 ^ 32) else if size = 8 then v.toNat / 2 ^ 32 else d / 2 ^ 32
       setLane s l { k with declared := BitVec.ofNat 64 (lo + 2 ^ 32 * hi) })
  else if off = 0x024 then setLane s l { k with slot := v.toNat % 65536 }
  else if 0x140 ≤ off && off < 0x180 then setLane s l { k with expected := mapWrite k.expected (off - 0x140) bs }
  else if 0x200 ≤ off && off < 0x300 then setLane s l { k with ctxImage := mapWrite k.ctxImage (off - 0x200) bs }
  else if 0x400 ≤ off && off < 0x530 then setLane s l { k with wrapImage := mapWrite k.wrapImage (off - 0x400) bs }
  else s

/-- Take one item. -/
def laneItem (s : State) (l : Nat) : LaneItem → State
  | .cmd w rom => laneCmd s l w rom
  | .data bs =>
    let k := lane s l
    if k.state = .error then s
    else if !k.started then laneError s l lInvalid
    else laneAbsorb s l bs
  | .write off size v => laneWriteReg s l off size v

/-- An item may be taken now: register writes always, the rest when the lane works. -/
def laneCanTake (s : State) (l : Nat) : LaneItem → Bool
  | .write .. => true
  | .cmd w _ => laneGo s l && !exportWaits s l w
  | .data _ => laneGo s l

/-- Bytes that wait in the 512-byte input FIFO. -/
def laneQueued (k : Lane) : Nat :=
  (k.queue.map fun i => match i with
    | .data bs => bs.length
    | _ => 0).sum

/-- Take waiting items in order until none is left, a `FINISH` runs, or the lane may not work. -/
def laneDrain : Nat → State → Nat → State
  | 0, s, _ => s
  | n + 1, s, l =>
    let k := lane s l
    match k.queue with
    | [] => s
    | i :: rest =>
      if k.state.held && k.state ≠ .busy && laneCanTake s l i then laneDrain n (laneItem (setLane s l { k with queue := rest }) l i) l
      else s

/-- Drain a lane; a store that waited for space has entered (R159). -/
def laneRun (s : State) (l : Nat) : State :=
  let s := laneDrain (lane s l).queue.length s l
  if laneQueued (lane s l) ≤ 512 && (core s (lane s l).holder).stalled && (lane s l).state.held then
    modCore s (lane s l).holder fun k => { k with stalled := false }
  else s

/-- An item arrives: the first command or datum asks for 2 tokens (R156); data beyond 512 bytes make the store wait. -/
def laneArrive (s : State) (l : Nat) (i : LaneItem) : State :=
  let k := lane s l
  let work := match i with
    | .write .. => false
    | _ => true
  let ask := work && !k.requested && !isHubLane l
  let s := setLane s l { k with queue := k.queue ++ [i], requested := k.requested || ask }
  let s := if ask then askAdmission s (.lane l) 2 (k.cls = 0) else s
  let s := laneDrain (lane s l).queue.length s l
  if 512 < laneQueued (lane s l) then modCore s k.holder fun c => { c with stalled := true } else s

/-! ### Delivery (R160, R165, R166) -/

/-- The delivered bytes: the digest, free bytes beyond its end. -/
def laneOutput (k : Lane) (n : Nat) : List Byte :=
  let d := algFinal k.alg k.midstate k.buffer k.absorbed n
  let n := if n = 0 then algDigest k.alg else n
  d ++ (List.range (n - d.length)).map fun i => Config.digestTail k.alg d i

/-- `DEST` = `SLOT` is accepted (R165). -/
def deriveOkFor (s : State) (l n : Nat) : Bool :=
  let k := lane s l
  k.deriveOk && domOn s 26 && isHead s k.slot && (slot s k.slot).state = .reserved && k.slot ≠ 0 &&
    (k.holder = hubA || owns s k.holder (slot s k.slot).attr) && n ≤ attrLen (slot s k.slot).attr

/-- Put a derived key into its slot, filled with zeros (R165). -/
def deriveInto (s : State) (i : Nat) (bs : List Byte) : State :=
  let v := slot s i
  putExtent s i { v with state := .loaded, key := fitBytes (attrLen v.attr) bs }

/-- The match flags of `COMPARE` (R166). -/
def laneCompare (k : Lane) (hub : Bool) (out : List Byte) : Lane :=
  let e := imageBytes k.expected out.length
  { k with matchP := out = e, matchN := hub && out = xorPad 0xFF e }

/-- Into the holding register, whose contents it replaces. -/
def laneHold (k : Lane) (out : List Byte) : Lane :=
  { k with hold := out, holdTaint := k.taint, holdDerive := k.deriveOk }

/-- Into `RESULT`; its bytes beyond a shorter delivery keep their values (log 80). -/
def laneResult (k : Lane) (out : List Byte) : Lane := { k with result := out ++ k.result.drop out.length }

/-- Deliver a finished digest. -/
def laneDeliver (s : State) (l : Nat) (w : W32) : State :=
  let k := lane s l
  let out := laneOutput k (fld w 8 8)
  let done := fun (s : State) (k : Lane) =>
    laneInt (setLane s l { k with state := .finished, started := false, finishing := none }) l k.holder
  let fail := fun (s : State) (code : Nat) =>
    let s := laneError (setLane s l { lane s l with started := false }) l code
    setLane s l { lane s l with finishing := none }
  if k.declared ≠ 0 && k.absorbed < k.declared.toNat then fail s lUnderrun
  else match fld w 0 2 with
    | 0 =>
      if k.taint then fail (violate s k.holder vSArea (laneAddr l 0x100)) lTaint else done s (laneResult k out)
    | 1 => done s (laneHold k out)
    | 2 => if deriveOkFor s l out.length then done (deriveInto s k.slot out) (laneHold k out) else fail s lDeriveRefused
    | _ =>
      let k := laneCompare k (isHubLane l) out
      done s (if k.taint then k else laneResult k out)

/-- LANE_OP_DONE (R160): the final blocks are done; waiting items follow. -/
def laneOpDoneOp (s : State) (l : Nat) : State :=
  match (lane s l).finishing with
  | some w => if laneGo s l then laneRun (laneDeliver s l w) l else s
  | none => if (lane s l).state.held then laneRun s l else s

/-! ### Claims, grants, release and wipe (R155 to R157, R167) -/

/-- Masters that may claim a lane: Spokes of its Wheel and Hub cores; Hub cores only for a Hub lane. -/
def laneUser (m l : Nat) : Bool := isHub m || (!isHubLane l && isSpoke m && m / 16 = l / 2)

/-- The lanes of which a master holds at most one. -/
def laneGroup (l : Nat) : List Nat := if isHubLane l then [l] else [l / 2 * 2, l / 2 * 2 + 1]

/-- A claim of a lower class waits: the holder is asked to yield, once (R167). -/
def yieldCheck (s : State) (l : Nat) : State :=
  let k := lane s l
  if k.state.held && !k.yieldReq && k.claims.any (fun c => c.cls < k.cls) then
    laneInt (setLane s l { k with yieldReq := true }) l k.holder
  else s

/-- LANE_CLAIM; a master that holds or awaits a lane of the Wheel is ignored, of either lane (log 80). -/
def laneClaimOp (s : State) (m l : Nat) : State :=
  if !laneUser m l then violate s m vWindow (laneAddr l 0)
  else if (laneGroup l).any fun j => holdsLane s m j || (lane s j).claims.any fun c => c.master = m then s
  else
    let k := lane s l
    yieldCheck (setLane s l { k with claims := k.claims ++ [{ master := m, cls := classOf s m, sign := signOf s m }] }) l

/-- What a lane's wipe leaves (R157, log 80): the claims, and the registers it does not list. -/
def laneKept (k : Lane) : Lane :=
  { claims := k.claims, rotate := k.rotate, slot := k.slot, err := k.err, ctxImage := k.ctxImage, wrapImage := k.wrapImage }

/-- A lane goes to a claim, which leaves the ones that wait. -/
def grantLane (s : State) (l : Nat) (c : Claim) : State :=
  let k := lane s l
  let new : Lane := { laneKept k with state := .ready, holder := c.master, cls := c.cls, sign := c.sign, rotate := c.master + 1,
                                      claims := k.claims.filter fun d => d.master ≠ c.master }
  laneInt (setLane s l new) l c.master

/-- LANE_GRANT (R155): as a Crank's. -/
def laneGrantOp (s : State) (l : Nat) : State :=
  if (lane s l).state = .free && laneOn s l then
    match pickClaim s (lane s l).claims (lane s l).rotate with
    | (some c, s) => grantLane s l c
    | (none, _) => s
  else s

/-- A hold ends (R157): the lane begins its wipe, and its tokens return when that is done. -/
def endLane (s : State) (l : Nat) : State :=
  let s := withdraw s (.lane l)
  let k := lane s l
  let s := if k.queue = [] then s else modCore s k.holder fun c => { c with stalled := false }
  setLane s l { laneKept k with state := .wiping, holder := k.holder, cls := k.cls, sign := k.sign, admitted := k.admitted }

/-- LANE_RELEASE. -/
def laneReleaseOp (s : State) (m l : Nat) : State :=
  if holdsLane s m l then endLane s l else violate s m vWindow (laneAddr l 0x008)

/-- LANE_WIPE_DONE: tokens return. -/
def laneWipeDoneOp (s : State) (l : Nat) : State :=
  let k := lane s l
  if k.state = .wiping then
    let s := if k.admitted then giveBack s 2 (k.cls = 0) else s
    setLane s l (laneKept k)
  else s

/-- End every hold and claim of a master on a lane; a claim that waits is withdrawn (log 79). -/
def dropLane (s : State) (m l : Nat) : State :=
  let k := lane s l
  let s := if k.claims.any (fun c => c.master = m) then
      setLane s l { k with claims := k.claims.filter fun c => c.master ≠ m } else s
  if holdsLane s m l then endLane s l else s

/-- The lanes that a master can hold. -/
def lanesOf (m : Nat) : List Nat := if isSpoke m then [m / 16 * 2, m / 16 * 2 + 1] else List.range 68

/-! ### Registers (R158, R180) -/

/-- `LANE_STATUS`. -/
def laneStatus (s : State) (l : Nat) : W32 :=
  let k := lane s l
  let held := k.state.held
  let st := match k.state with
    | .free => 0
    | .ready => if k.queue = [] then 1 else 2
    | .busy => 2
    | .finished => if k.queue = [] then 3 else 2
    | .error => 4
    | .wiping => 5
  w32 (st + b2n k.admitted <<< 3 + k.alg <<< 4 + b2n k.matchN <<< 8 + b2n k.matchP <<< 9 + b2n k.taint <<< 10 +
    b2n k.holdTaint <<< 11 + b2n k.deriveOk <<< 12 + b2n k.yieldReq <<< 13 + (if held then k.cls else 0) <<< 18 +
    (if held then k.holder else 0) <<< 21)

/-- `LANE_GRANT` for a reading master. -/
def laneGrantWord (s : State) (m l : Nat) : W32 :=
  if holdsLane s m l then 2 else if (lane s l).claims.any (fun c => c.master = m) then 1 else 0

/-- A read of `size` bytes of a lane's block. -/
def laneRead (s : State) (m l off size : Nat) : Nat :=
  let k := lane s l
  let bytes := fun (f : Nat → Byte) (lo : Nat) => leNat ((List.range size).map fun i => f (off - lo + i))
  if off = 0x004 then (laneGrantWord s m l).toNat
  else if off = 0x010 then (laneStatus s l).toNat
  else if off = 0x014 then k.declared.toNat % 2 ^ (8 * size)
  else if off = 0x018 then k.declared.toNat / 2 ^ 32
  else if off = 0x01C then k.absorbed % 2 ^ (8 * size)
  else if off = 0x020 then k.absorbed / 2 ^ 32 % 2 ^ 32
  else if off = 0x024 then k.slot
  else if off = 0x028 then k.err
  else if 0x100 ≤ off && off < 0x140 then bytes (fun i => k.result.getD i 0) 0x100
  else if 0x140 ≤ off && off < 0x180 then bytes (fun i => smGet k.expected i 0) 0x140
  else if 0x200 ≤ off && off < 0x300 then bytes (fun i => smGet k.ctxImage i 0) 0x200
  else if 0x400 ≤ off && off < 0x530 then bytes (fun i => smGet k.wrapImage i 0) 0x400
  else 0

/-- `RESULT`, `CTX_IMAGE` and `WRAP_IMAGE`, which only the holder and Hub cores read (R160, R180). -/
def laneSecretOff (off : Nat) : Bool :=
  (0x100 ≤ off && off < 0x140) || (0x200 ≤ off && off < 0x300) || (0x400 ≤ off && off < 0x530)

/-- May m read this offset (R160, R180)? -/
def laneReadOk (s : State) (m l off : Nat) : Bool :=
  laneUser m l && (!laneSecretOff off || isHub m || holdsLane s m l)

/-- Offsets that only the holder writes (R158); `WRAP_IMAGE` and `LANE_RELEASE` by the model's choice (log 80). -/
def laneHolderOff (off : Nat) : Bool :=
  off = 0x008 || off = 0x00C || off = 0x014 || off = 0x018 || off = 0x024 || (0x140 ≤ off && off < 0x180) ||
    (0x200 ≤ off && off < 0x300) || (0x400 ≤ off && off < 0x530) || 0x800 ≤ off

/-- A write of `size` bytes to a lane's block; R177 is judged as a command is written. -/
def laneWrite (s : State) (m l off size : Nat) (v : W64) : State :=
  if !laneUser m l then violate s m vWindow (laneAddr l off)
  else if off = 0x000 then (if v.getLsbD 0 then laneClaimOp s m l else s)
  else if off = 0x008 then
    (if !holdsLane s m l then violate s m vWindow (laneAddr l off) else if v.getLsbD 0 then endLane s l else s)
  else if laneHolderOff off then
    (if !holdsLane s m l then violate s m vWindow (laneAddr l off)
     else if off = 0x00C then laneArrive s l (.cmd (v.setWidth 32) (romWrite s m))
     else if 0x800 ≤ off then laneArrive s l (.data (leBytes size v.toNat))
     else laneArrive s l (.write off size v))
  else s

/-! ### The commands -/

/-- A lane command word (R158). -/
def laneWord (op alg pad outLen block dest : Nat) : W32 :=
  w32 (op <<< 28 + alg <<< 24 + pad <<< 16 + outLen <<< 8 + block <<< 2 + dest)

/-- Do `f` on a lane's block: a Wheel lane's is part of its Wheel's window. -/
def onLane (s : State) (m l off : Nat) (f : State → State) : State :=
  if isHubLane l then guarded s m (laneAddr l off) (laneOn s l) f else onWheel s m (l / 2) (laneAddr l off) f

/-- A master writes a register of a lane; an access wakes a parked Wheel (R473). -/
def laneAccess (s : State) (m l off size : Nat) (v : W64) : State :=
  onLane s m l off fun s => laneWrite (if isHubLane l then s else wakeWheel s (l / 2) false) m l off size v

/-- A master writes `LANE_CMD`. -/
def laneCmdWrite (s : State) (m l : Nat) (w : W32) : State := laneAccess s m l 0x00C 4 (w.setWidth 64)

def execLaneClaim (m l : Nat) (s : State) : Host.Outcome State Fault Refusal := .next (laneAccess s m l 0x000 4 1)
def execLaneGrant (l : Nat) (s : State) : Host.Outcome State Fault Refusal := .next (laneGrantOp s l)
def execLaneRelease (m l : Nat) (s : State) : Host.Outcome State Fault Refusal := .next (laneAccess s m l 0x008 4 1)
def execLaneWipeDone (l : Nat) (s : State) : Host.Outcome State Fault Refusal := .next (laneWipeDoneOp s l)
def execInit (m l : Nat) (alg : BitVec 4) (s : State) : Host.Outcome State Fault Refusal :=
  .next (laneCmdWrite s m l (laneWord 1 alg.toNat 0 0 0 0))
def execAbsorbSlot (m l : Nat) (pad : BitVec 8) (block : Bool) (s : State) : Host.Outcome State Fault Refusal :=
  .next (laneCmdWrite s m l (laneWord 2 0 pad.toNat 0 (b2n block) 0))
def execAbsorbHold (m l : Nat) (s : State) : Host.Outcome State Fault Refusal :=
  .next (laneCmdWrite s m l (laneWord 3 0 0 0 0 0))
def execFinish (m l : Nat) (outLen : BitVec 8) (dest : BitVec 2) (s : State) : Host.Outcome State Fault Refusal :=
  .next (laneCmdWrite s m l (laneWord 4 0 0 outLen.toNat 0 dest.toNat))
def execSave (m l : Nat) (s : State) : Host.Outcome State Fault Refusal := .next (laneCmdWrite s m l (laneWord 5 0 0 0 0 0))
def execRestore (m l : Nat) (s : State) : Host.Outcome State Fault Refusal :=
  .next (laneCmdWrite s m l (laneWord 6 0 0 0 0 0))
def execExportWrapped (m l : Nat) (s : State) : Host.Outcome State Fault Refusal :=
  .next (laneCmdWrite s m l (laneWord 7 0 0 0 0 0))
def execImportWrapped (m l : Nat) (s : State) : Host.Outcome State Fault Refusal :=
  .next (laneCmdWrite s m l (laneWord 8 0 0 0 0 0))
def execLaneData (m l size : Nat) (v : W64) (s : State) : Host.Outcome State Fault Refusal :=
  .next (laneAccess s m l 0x800 size v)
def execDeclaredLengthWrite (m l : Nat) (v : W64) (s : State) : Host.Outcome State Fault Refusal :=
  .next (laneAccess s m l 0x014 8 v)
def execLaneOpDone (l : Nat) (s : State) : Host.Outcome State Fault Refusal := .next (laneOpDoneOp s l)

end Sys2Proof.Machine
end

