-- ==== Sys2Proof/Machine/Endings.lean ====
section
/-! DEFINITION. The end of a job and of a master's holds: by `WAIT.JOB`, abort, halt, freeze or reset (R58, R86, R117, R139,
R155, R176, R347, R526). -/

namespace Sys2Proof.Machine

/-- End every hold of a master: Crank contexts, lanes, waiting claims, its unwrap buffer (R139, R155, R176). -/
def endHolds (s : State) (m : Nat) : State :=
  let s := (wheelsOf m).foldl (fun s w => dropCrank s m w) s
  let s := (lanesOf m).foldl (fun s l => dropLane s m l) s
  dropUnwrap s m

/-- The job of a Spoke ends, 0 by `WAIT.JOB`, 1 aborted: its holds end, its `JOB` slots are wiped (R526), and a class 0
job's base cost may move (R476). -/
def endJob (s : State) (c how : Nat) : State :=
  match jobOf s c with
  | none => endHolds s c
  | some j =>
    let s := endHolds (endJobSlots s c) c
    let s := setJob s c (some { j with ended := some how })
    if j.cls = 0 then reserveMoveOp s (c / 16) else s

/-- A core halts, is frozen or reset: its job is aborted, its slots are wiped, its token returns. -/
def stopMaster (s : State) (m : Nat) : State := dropSpokeToken (stopSlots (endJob s m 1) m) m

/-- A core's own reset (R31, R60, R117, R306): the state of R31, `HUB_GO` cleared, the reset count advanced (R449). -/
def resetCore (s : State) (c : Nat) : State :=
  let s := stopMaster s c
  let s := modCore s c fun k =>
    { coreReset c with frozen := k.frozen, resetSinceFreeze := k.frozen, resetCount := (k.resetCount + 1) % 4 }
  setRegB s (relStatusAddr c) 2 false

/-- A write of `SPOKE_RESET` (R117): Hub-A only. -/
def spokeResetWrite (s : State) (m w : Nat) (v : W32) : State :=
  if m = hubA then (List.range 16).foldl (fun s i => if bitOf v i then resetCore s (16 * w + i) else s) s
  else violate s m vWindow (aWheel w 0x32000C)

/-- SPOKE_RESET of one Spoke. -/
def execSpokeReset (m w i : Nat) (s : State) : Host.Outcome State Fault Refusal :=
  .next (onWheel s m w (aWheel w 0x32000C) fun s => spokeResetWrite (wakeWheel s w false) m w (w32 (2 ^ i)))

end Sys2Proof.Machine
end

