-- ==== Sys2Proof/Machine/Fabric.lean ====
section
/-! DEFINITION. The queue fabric (13_host_queues.md R329 to R355): functions, queues, rings, doorbells, fetching, the
scheduler, jobs on Spokes, completions and the admin queue. -/

namespace Sys2Proof.Machine

/-! ### Queue contexts (R331) -/

def qw (s : State) (q i : Nat) : W32 := reg s (aQctx q i)
def setQw (s : State) (q i : Nat) (v : W32) : State := setReg s (aQctx q i) v
def setQf (s : State) (q i lo len v : Nat) : State := setRegF s (aQctx q i) lo len v

/-- Queue and function states of R333. -/
def stOff : Nat := 0
def stOn : Nat := 1
def stStopping : Nat := 2
def stPending : Nat := 3

def qState (s : State) (q : Nat) : Nat := fld (qw s q 11) 0 2
def setQState (s : State) (q v : Nat) : State := setQf s q 11 0 2 v
def qInflight (s : State) (q : Nat) : Nat := fld (qw s q 11) 16 8
def setQErr (s : State) (q v : Nat) : State := setQf s q 11 24 8 v
/-- Queue 0 takes its rings and vector from the `ADMIN_` registers and is of class 0 (R353). -/
def adminCfg (s : State) : W32 := reg s (aHost 0x020)
def qFunc (s : State) (q : Nat) : Nat := if q = 0 then 0 else fld (qw s q 5) 0 8
def qTag (s : State) (q : Nat) : Nat := fld (qw s q 5) 16 16
def qService (s : State) (q : Nat) : Nat := fld (qw s q 6) 16 16
def qDbIndex (s : State) (q : Nat) : Nat := fld (qw s q 6) 0 16
def qClass (s : State) (q : Nat) : Nat := if q = 0 then 0 else fld (qw s q 4) 16 3
def qInternal (s : State) (q : Nat) : Bool := q ≠ 0 && bitOf (qw s q 4) 30
def qSign (s : State) (q : Nat) : Bool := bitOf (qw s q 4) 29
def qSqLog (s : State) (q : Nat) : Nat := fld (if q = 0 then adminCfg s else qw s q 4) 24 4
def qCqLog (s : State) (q : Nat) : Nat := fld (if q = 0 then adminCfg s else qw s q 4) 20 4
def qVector (s : State) (q : Nat) : Nat := fld (if q = 0 then adminCfg s else qw s q 4) 0 12
def qIrqEn (s : State) (q : Nat) : Bool := q = 0 || bitOf (qw s q 4) 28
def qCqBase (s : State) (q : Nat) : Nat := if q = 0 then regPair s (aHost 0x018) else regPair s (aQctx q 2)
def qSqTail (s : State) (q : Nat) : Nat := fld (qw s q 9) 16 12
def qSqHead (s : State) (q : Nat) : Nat := fld (qw s q 9) 0 12
def qPhase (s : State) (q : Nat) : Nat := fld (qw s q 10) 31 1
def qCqHead (s : State) (q : Nat) : Nat := fld (qw s q 10) 16 12
def qCqTail (s : State) (q : Nat) : Nat := fld (qw s q 10) 0 12

/-- Queues that are not `OFF`. -/
def liveQueues (s : State) : List Nat :=
  s.regs.filterMap fun e =>
    if 0x500000000 ≤ e.1 && e.1 < 0x500200000 && e.1 % 64 = 44 && fld e.2 0 2 ≠ 0 then some ((e.1 - 0x500000000) / 64)
    else none

/-- Entries of a queue that were fetched and not dispatched. -/
def fetched (s : State) (q : Nat) : List Entry := smGet s.fabric.fetched q []
def setFetched (s : State) (q : Nat) (es : List Entry) : State :=
  { s with fabric := { s.fabric with fetched := smSet s.fabric.fetched q [] es } }

/-! ### Functions -/

def fState (s : State) (f : Nat) : Nat := regF s (aFunc f) 4 2
def setFState (s : State) (f v : Nat) : State := setRegF s (aFunc f) 4 2 v
def vecCount (s : State) (f : Nat) : Nat := regF s (aFunc f + 4) 16 12
def vecBase (s : State) (f : Nat) : Nat := regF s (aFunc f + 4) 0 12
/-- Results, completions and messages of the function are discarded (R334, R447). -/
def fMuted (s : State) (f : Nat) : Bool := (func s f).flr || (func s f).frozen

/-- The fabric's registers run: PD_16. -/
def qfOn (s : State) : Bool := domOn s 16

/-! ### Completions (R342, R343) -/

/-- The bytes of a completion entry. -/
def completionEntry (s : State) (q cid resultLen status svc info : Nat) : List Byte :=
  leBytes 2 cid ++ leBytes 2 (qSqHead s q) ++ leBytes 4 resultLen ++ leBytes 1 status ++ leBytes 1 svc ++
    leBytes 1 (qPhase s q) ++ [0] ++ leBytes 4 info

/-- A write of the fabric to host memory, or to device memory for the ring of an `INTERNAL` queue. -/
def ringWrite (s : State) (q a : Nat) (bs : List Byte) : State :=
  if qInternal s q then (dmaWrite s qfDma qfDma a bs).1 else hostOut s (qFunc s q) (.hostWrite (qFunc s q) a bs)

/-- Result, entry, message, in that order; the next completion slot, its phase, `JOBS_DONE`. -/
def postCompletion (s : State) (q : Nat) (e : Entry) (status svc info : Nat) (result : List Byte) : State :=
  let s := if result = [] then s else hostOut s (qFunc s q) (.hostWrite (qFunc s q) e.resultAddr result)
  let tail := qCqTail s q
  let s := ringWrite s q (qCqBase s q + 16 * tail) (completionEntry s q e.cid result.length status svc info)
  let wrap := tail + 1 = 2 ^ qCqLog s q
  let s := setQf s q 10 0 12 (if wrap then 0 else tail + 1)
  let s := if wrap then setQf s q 10 31 1 (1 - qPhase s q) else s
  let s := setQw s q 13 (qw s q 13 + 1)
  if qIrqEn s q && e.irq then sendMsix s (qFunc s q) (qVector s q) else s

/-- Codes of R351 that also go to the diagnostic ring, with the record type that names their event. -/
def diagOf (status : Nat) : Option Nat :=
  match status with
  | 0x02 => some 0
  | 0x06 => some 0x072
  | 0x07 => some 0x022
  | 0x08 => some 0x021
  | 0x0B => some 0
  | _ => none

/-- An entry in the diagnostic ring about a queue's job. -/
def queueDiag (s : State) (rtype q cid code : Nat) : State :=
  diagEntry s rtype (some (qFunc s q)) q cid (w32 code) [] (qTag s q)

/-- End an entry's life in its queue: the completion, discarded for a muted function, and `INFLIGHT`. -/
def completeEntry (s : State) (q : Nat) (e : Entry) (status svc info : Nat) (result : List Byte) : State :=
  let s := match diagOf status with
    | some t => queueDiag s t q e.cid status
    | none => s
  let s := if fMuted s (qFunc s q) then s else postCompletion s q e status svc info result
  setQf s q 11 16 8 (qInflight s q - 1)

/-! ### Queue states (R332 to R335) -/

/-- The checks of R332. -/
def enableOk (s : State) (q : Nat) : Bool :=
  let f := qFunc s q
  let mask := qw s q 8 &&& reg s (aQf 0x010)
  4 ≤ qSqLog s q && qSqLog s q ≤ 12 && 4 ≤ qCqLog s q && qCqLog s q ≤ 12 && fState s f = stOn &&
    qVector s q < vecCount s f &&
    (liveQueues s).all (fun o => o = q || qFunc s o ≠ f || qDbIndex s o ≠ qDbIndex s q) &&
    (qClass s q ≠ 0 || f = 0 || qInternal s q) &&
    (q = 0 || (List.range 32).any fun w => bitOf mask w && !wheelAbsent s w)

/-- An enable of a queue that is `OFF`. -/
def queueTurnOn (s : State) (q : Nat) : State :=
  if enableOk s q then
    let s := setQw (setQw (setQw s q 9 0) q 10 0x80000000) q 12 0
    setQState (setQErr (setQf s q 4 31 1 1) q 0) q stOn
  else setQErr (setQf s q 4 31 1 0) q 0x20

/-- A function that is stopping and has no live queue becomes `OFF`; its FLR is complete, and a latched enable follows. -/
def settleFunc (s : State) (f : Nat) : State :=
  let st := fState s f
  if (st = stStopping || st = stPending) && (liveQueues s).all (fun q => qFunc s q ≠ f) then
    let k := func s f
    let s := setFunc s f { k with flr := false, resetSinceFreeze := k.frozen, resetCount := (k.resetCount + 1) % 4 }
    setFState s f (if st = stPending then stOn else stOff)
  else s

/-- A disable of a queue that is `ON`: fetched entries complete with `QUEUE_STOPPED` (R334). -/
def queueStop (s : State) (q : Nat) : State :=
  let es := fetched s q
  let s := setFetched (setQState s q stStopping) q []
  es.foldl (fun s e => completeEntry s q e 0x05 0 0 []) s

/-- `EN` = 1 (R333). -/
def queueOnOp (s : State) (q : Nat) : State :=
  let s := setQf s q 4 31 1 1
  if qState s q = stOff then queueTurnOn s q
  else if qState s q = stStopping then setQState s q stPending
  else s

/-- `EN` = 0 (R333). -/
def queueOffReq (s : State) (q : Nat) : State :=
  let s := setQf s q 4 31 1 0
  if qState s q = stOn then queueStop s q
  else if qState s q = stPending then setQState s q stStopping
  else s

/-- The services' state of a group that is destroyed: its appraisal records in banks 24 to 55, its policy, its ticket
keys, which go with their slots (R335, R368, R371). -/
def endGroupState (s : State) (g : Nat) : State :=
  let a := 0x100600000 + 0x8000 * g
  let s := wipeMem s a (a + 0x8000)
  { s with svc := { s.svc with policies := smSet s.svc.policies g [] [],
                               ticketKeys := smSet s.svc.ticketKeys g none none } }

/-- QUEUE_OFF (R334, R335): no job in flight; the group's last queue ends the group; a latched enable follows. -/
def queueOffOp (s : State) (q : Nat) : State :=
  let st := qState s q
  if (st = stStopping || st = stPending) && qInflight s q = 0 then
    let f := qFunc s q
    let s := [9, 10, 11, 12, 13].foldl (fun s i => setQw s q i 0) s
    let s := if (liveQueues s).all (fun o => o / 128 ≠ q / 128) then endGroupState (endGroupSlots s (q / 128)) (q / 128) else s
    let s := if st = stPending then queueTurnOn s q else s
    settleFunc s f
  else s

/-- A function that leaves `ON` stops its queues and cancels latched enables (R334). -/
def stopQueues (s : State) (f : Nat) : State :=
  (liveQueues s).foldl (fun s q => if qFunc s q = f then queueOffReq s q else s) s

/-- `FUNC_CTRL_f.EN` (R333). -/
def funcEnableOp (s : State) (f : Nat) (en : Bool) : State :=
  let s := setRegB s (aFunc f) 0 en
  let st := fState s f
  if en then
    (if st = stOff then setFState s f stOn else if st = stStopping then setFState s f stPending else s)
  else if st = stOn then settleFunc (stopQueues (setFState s f stStopping) f) f
  else if st = stPending then setFState s f stStopping
  else
    let k := func s f
    if st = stOff then setFunc s f { k with resetSinceFreeze := k.frozen, resetCount := (k.resetCount + 1) % 4 } else s

/-- The function's Bus Master Enable: what waited for it leaves in order (R343). -/
def setBusMaster (s : State) (f : Nat) (en : Bool) : State :=
  let s := setFunc s f { func s f with busMaster := en }
  if en then
    let s := (s.fabric.deferred.filter fun e => e.1 = f).foldl (fun s e => emitOut s e.2) s
    { s with fabric := { s.fabric with deferred := s.fabric.deferred.filter fun e => e.1 ≠ f } }
  else s

/-- FLR of a function (R334): acts as a disable; its PCI state resets, its MSI-X table with it (R329). -/
def flrOp (s : State) (f : Nat) : State :=
  let k := func s f
  let s := { s with fabric := { s.fabric with deferred := s.fabric.deferred.filter fun e => e.1 ≠ f } }
  let fv := reg s (aFunc f + 4)
  let s := { s with fabric := { s.fabric with vectors := smDrop s.fabric.vectors (fld fv 0 12) (fld fv 0 12 + fld fv 16 12) } }
  let s := setFunc s f { ({} : Func) with flr := fState s f ≠ stOff, frozen := k.frozen,
                                          resetSinceFreeze := k.resetSinceFreeze, resetCount := k.resetCount }
  funcEnableOp s f false

/-- PERST_N, hot reset or link-down (R326): FLR of every function, then the controller's logic resets. -/
def perstOp (s : State) : State :=
  let s := (List.range 256).foldl (fun s f => if fState s f ≠ stOff || func s f ≠ {} then flrOp s f else s) s
  let s := [0x010, 0x014, 0x018, 0x01C, 0x020, 0x040, 0x044, 0x048, 0x04C, 0x050, 0x054].foldl
    (fun s o => setReg s (aHost o) 0) s
  { s with fabric := { s.fabric with vectors := [], spdm := false, ideKeys := [], ideGo := [] } }

/-- A master's write to word i of a queue context (R331): "RW, off" fields only while the queue is `OFF`. -/
def ctxWriteOp (s : State) (m q i : Nat) (v : W32) : State :=
  if !queueExists s q then s
  else
    let mask := (qctxInfo (4 * i)).rw &&& 0x7FFFFFFF
    let old := qw s q i
    let off := i ≤ 6
    let s :=
      if off && qState s q ≠ stOff then
        (if (old ^^^ v) &&& mask ≠ 0 then emit s islQf m 0x070 [w32 q, w32 i] else s)
      else if i = 7 && v &&& 0xFF = 0 then s
      else setQw s q i (accessWrite { rw := if off then (qctxInfo (4 * i)).rw &&& (if i = 4 then 0x7FFFFFFF else all32)
                                             else (qctxInfo (4 * i)).rw } old v)
    if i = 4 then (if bitOf v 31 then queueOnOp s q else queueOffReq s q) else s

/-- The queue groups that a Hub core's `QGROUP_MASK` selects and that exist (R336). -/
def maskedGroups (s : State) (mask : BitVec 256) : List Nat :=
  (List.range 256).filter fun g => mask.getLsbD g && queueExists s (128 * g)

def hub (s : State) (m : Nat) : HubRegs := smGet s.hubs m {}
def setHub (s : State) (m : Nat) (h : HubRegs) : State := { s with hubs := smSet s.hubs m {} h }

/-- A write of the group alias with a mask (R336). -/
def groupWrite (s : State) (m : Nat) (mask : BitVec 256) (off : Nat) (v : W32) : State :=
  (maskedGroups s mask).foldl (fun s g => ctxWriteOp s m (128 * g + off / 64) (off % 64 / 4) v) s

/-- QGROUP_ALIAS_WRITE (R336): Hub cores only; the broadcast is outstanding until it is acknowledged. -/
def aliasWriteOp (s : State) (m off : Nat) (v : W32) : State :=
  if !isHub m then violate s m vWindow (0x501000000 + off)
  else if 0x2000 ≤ off then s
  else
    let s := setHub s m { hub s m with queueBcast := (hub s m).queueBcast + 1 }
    groupWrite (modCore s m fun k => { k with unacked := k.unacked + 1 }) m (hub s m).queueGroupMask off v

/-! ### Doorbells (R338) -/

/-- A doorbell value for queue q. -/
def ringDoorbell (s : State) (q : Nat) (v : W32) : State :=
  let n := 2 ^ qSqLog s q
  let m := 2 ^ qCqLog s q
  let tail := fld v 0 12
  let head := fld v 16 12
  let passes := (qCqTail s q + m - qCqHead s q) % m < (head + m - qCqHead s q) % m
  if v &&& 0x70007000 ≠ 0 || (bitOf v 15 && n ≤ tail) || (bitOf v 31 && (m ≤ head || passes)) then
    queueDiag (setQErr s q 0x21) 0 q 0 0x21
  else
    let s := if bitOf v 15 then setQf s q 9 16 12 tail else s
    if bitOf v 31 then setQf s q 10 16 12 head else s

/-- A doorbell of function f: to the live queue that uses the index, or counted as dropped. -/
def doorbellOp (s : State) (f index : Nat) (v : W32) : State :=
  if (func s f).frozen then s
  else
    match (liveQueues s).find? fun q => qFunc s q = f && qDbIndex s q = index && !qInternal s q with
    | some q => ringDoorbell s q v
    | none => setRegF s (aFunc f) 16 16 (min 0xFFFF (regF s (aFunc f) 16 16 + 1))

/-! ### Fetching (R339 to R341) -/

/-- Completion slots that are free. -/
def freeSlotsCq (s : State) (q : Nat) : Nat :=
  let m := 2 ^ qCqLog s q
  m - 1 - (qCqTail s q + m - qCqHead s q) % m

/-- The fabric may fetch the queue's next entry. -/
def mayFetch (s : State) (q : Nat) : Bool :=
  qfOn s && qState s q = stOn && !fMuted s (qFunc s q) && qSqHead s q ≠ qSqTail s q && (fetched s q).length < 8 &&
    qInflight s q < min 255 (freeSlotsCq s q)

/-- A submission entry from its bytes. -/
def entryOf (b : List Byte) : Entry :=
  { cid := field b 0 2, irq := (field b 2 1).testBit 0, ordered := (field b 2 1).testBit 1, op := field b 4 2,
    payloadAddr := field b 8 8, payloadLen := field b 16 4, resultCap := field b 20 4, resultAddr := field b 24 8,
    raw := fitBytes 64 b, payload := if field b 16 4 = 0 then some [] else none }

/-- Reserved fields, alignment and lengths of R339. -/
def entryOk (b : List Byte) : Bool :=
  let e := entryOf b
  field b 2 1 < 4 && field b 3 1 = 0 && field b 6 2 = 0 && e.payloadAddr % 8 = 0 && e.resultAddr % 8 = 0 &&
    (e.payloadLen = 0 || (8 ≤ e.payloadLen && e.payloadLen ≤ 16256)) && (e.payloadLen ≠ 0 || e.payloadAddr = 0) &&
    e.resultCap ≤ 16256

/-- ENTRY_FETCH (R340). -/
def entryFetchOp (s : State) (q : Nat) (b : List Byte) : State :=
  if mayFetch s q then
    let s := setQf s q 9 0 12 ((qSqHead s q + 1) % 2 ^ qSqLog s q)
    let s := setQf s q 11 16 8 (qInflight s q + 1)
    if entryOk b then setFetched s q (fetched s q ++ [entryOf b]) else completeEntry s q (entryOf b) 0x01 0 0 []
  else s

/-- Split a list at the first entry that waits for its payload. -/
def splitWaiting : List Entry → Option (List Entry × Entry × List Entry)
  | [] => none
  | e :: rest =>
    if e.payload.isNone then some ([], e, rest)
    else (splitWaiting rest).map fun (a, x, b) => (e :: a, x, b)

/-- PAYLOAD_FETCH (R341). -/
def payloadFetchOp (s : State) (q : Nat) (ok : Bool) (data : List Byte) : State :=
  match splitWaiting (fetched s q) with
  | none => s
  | some (before, e, after) =>
    let drop := setFetched s q (before ++ after)
    if !ok || data.length < e.payloadLen then completeEntry drop q e 0x02 0 0 []
    else
      let p := data.take e.payloadLen
      if field p 0 4 ≠ e.payloadLen || field p 6 2 ≠ 0 then completeEntry drop q e 0x03 0 0 []
      else setFetched s q (before ++ { e with payload := some p } :: after)

/-! ### Dispatch (R94, R344, R345, R349) -/

/-- Job buffer of a Spoke (R344). -/
def jobBuffer (c : Nat) : Nat := aWheel (c / 16) (0x140000 + 0x4000 * (c % 16))

/-- A core waits in `WAIT.JOB`. -/
def waitsForJob (s : State) (c : Nat) : Bool :=
  match (core s c).run with
  | .waitJob _ => !(core s c).frozen
  | _ => false

/-- A Spoke is eligible for dispatch (R345, R347). -/
def eligible (s : State) (q c : Nat) : Bool :=
  let w := c / 16
  isSpoke c && wheelOn s w && bitOf (qw s q 8) w && regB s (aQf 0x010) w && waitsForJob s c && (jobRec s c).isNone &&
    !s.fabric.wiping.contains c

/-- Some eligible Spoke satisfies a condition. -/
def anyEligible (s : State) (q : Nat) (p : Nat → Bool) : Bool := (List.range 512).any fun c => p c && eligible s q c

/-- The Spokes that a job of the queue's class may use now: Spoke 15 first for class 0, last for class 1, only under
`SPOKE15_OPEN` for others (R94, R345). -/
def spokeAllowed (s : State) (q c : Nat) : Bool :=
  let last := c % 16 = 15
  let cls := qClass s q
  eligible s q c &&
    (if cls = 0 then last || !anyEligible s q (fun d => d % 16 = 15)
     else !last || ((cls = 1 || regB s (aWheel (c / 16) 0x320004) 0) && !anyEligible s q (fun d => d % 16 ≠ 15)))

/-- The next job of a queue may be dispatched: its payload is there, and an `ORDERED` one has no earlier job running. -/
def jobReady (s : State) (q : Nat) : Bool :=
  qState s q = stOn && q ≠ 0 &&
    match fetched s q with
    | e :: _ => e.payload.isSome && (!e.ordered || qInflight s q = (fetched s q).length)
    | [] => false

/-- A job of a lower class number is ready and can use an eligible Spoke (R349). -/
def outranked (s : State) (q : Nat) : Bool :=
  (liveQueues s).any fun o => qClass s o < qClass s q && jobReady s o && anyEligible s o (fun c => spokeAllowed s o c)

/-- Cost of a job in deficit units (R349). -/
def jobCost (e : Entry) : Nat := (64 + e.payloadLen + 1023) / 1024

/-- The queue fabric writes Spoke c's job buffer as master `0x400`; a bank that does not grant it is a violation of the
queue-fabric DMA (R99, R345, R346). -/
def bufferWrite (s : State) (c off : Nat) (bs : List Byte) : State × Bool :=
  let r := dmaWrite s qfDma qfDma (jobBuffer c + off) bs
  (r.1, r.2.isNone)

/-- Fill the job buffer: entry, zero trailer, payload. -/
def fillBuffer (s : State) (c : Nat) (e : Entry) : State :=
  let r := bufferWrite s c 0 (e.raw ++ zeros 16)
  if r.2 then (bufferWrite r.1 c 128 (e.payload.getD [])).1 else r.1

/-- The Spoke's token at dispatch: class 0 takes the one granted in advance (R350, R475). -/
def dispatchToken (s : State) (c cls : Nat) : State :=
  if cls = 0 && s.fabric.preGrant then
    let s := if parked s (c / 16) && !baseAsked s (c / 16) then askTokens s (.wheelBase (c / 16)) 2 true else s
    takePreGrant (modCore s c fun k => { k with run := .granted, holds := true, tokenC0 := true })
  else askAdmission (modCore s c fun k => { k with run := .readmitting }) (.spoke c) 1 (cls == 0)

/-- The register of `WAIT.JOB d`. -/
def waitReg (s : State) (c : Nat) : Nat :=
  match (core s c).run with
  | .waitJob d => d
  | _ => 0

/-- Place a job on a Spoke (R345): its buffer, its record, the buffer's address in d, its token. -/
def placeJob (s : State) (q c : Nat) (e : Entry) : State :=
  let s := fillBuffer s c e
  let number := s.fabric.jobCount + 1
  let job : Job := { number, queue := q, group := q / 128, func := qFunc s q, cls := qClass s q, sign := qSign s q,
                     service := qService s q, entry := e, highWater := 128 + (e.payload.getD []).length }
  let s := setJob { s with fabric := { s.fabric with jobCount := number } } c (some job)
  dispatchToken (wr s c (waitReg s c) (BitVec.ofNat 64 (jobBuffer c))) c job.cls

/-- JOB_DISPATCH (R345, R349): a visit of the deficit round-robin. -/
def jobDispatchOp (s : State) (q c : Nat) : State :=
  match fetched s q with
  | [] => s
  | e :: rest =>
    if qfOn s && jobReady s q && !outranked s q && spokeAllowed s q c then
      let cost := jobCost e
      let d := (qw s q 12).toNat
      let d := if d < cost then d + fld (qw s q 7) 0 8 else d
      if d < cost then setQw s q 12 (w32 d)
      else
        let empty := rest = [] && qSqHead s q = qSqTail s q
        let s := setQw (setFetched s q rest) q 12 (if empty then 0 else w32 (d - cost))
        placeJob s q c e
    else s

/-! ### The job window (R346) -/

/-- JOB_WINDOW_STORE by a Spoke into its own window. -/
def jobWindowOp (s : State) (m off size : Nat) (v : W64) : State :=
  match jobOf s m with
  | some j =>
    if off < 64 then emit s islQf m 0x071 []
    else
      let r := bufferWrite s m off (leBytes size v.toNat)
      if r.2 then setJob r.1 m (some { j with highWater := max j.highWater (off + size) }) else r.1
  | none => emit s islQf m 0x071 []

/-! ### Job ends (R347, R348) -/

/-- A context or lane that the Spoke's job held is still being wiped (R140, R157). -/
def wipesPending (s : State) (c : Nat) : Bool :=
  [0, 1].any (fun x => (ctx s (c / 16) x).state = .wiping && (ctx s (c / 16) x).holder = c) ||
  [0, 1].any fun i => (lane s (2 * (c / 16) + i)).state = .wiping && (lane s (2 * (c / 16) + i)).holder = c

/-- Status codes that a service program may set (R351). -/
def spokeCodes : List Nat := [0x00, 0x03, 0x09, 0x0A, 0x10, 0x11, 0x12, 0x13, 0x14]

/-- What a job's end posts. -/
structure Posting where
  status : Nat
  svc : Nat := 0
  info : Nat := 0
  result : List Byte := []
  deriving DecidableEq, Repr

/-- The status of a job that the fabric ends without its trailer (R347). -/
def jobFailure (j : Job) : Option Nat :=
  if j.timedOut then some 0x06
  else if j.ended = some 1 then some 0x0B
  else if j.wipeFault then some 0x08
  else if j.sign && !j.declassified then some 0x07
  else none

/-- The queue fabric reads Spoke c's job buffer. -/
def bufferRead (s : State) (c off n : Nat) : List Byte × State :=
  let r := dmaRead s qfDma qfDma (jobBuffer c + off) n
  (r.1, r.2.1)

/-- What a job's end posts (R347 steps 1 and 2), by its trailer. -/
def jobOutcome (s : State) (c : Nat) (j : Job) : Posting × State :=
  match jobFailure j with
  | some status => ({ status }, s)
  | none =>
    let (t, s) := bufferRead s c 64 16
    let off := field t 0 4
    let len := field t 4 4
    if j.entry.resultCap < len || (len ≠ 0 && (off < 128 || 16384 < off + len)) then ({ status := 0x04 }, s)
    else
      let st := field t 8 1
      let status := if spokeCodes.contains st then st else 0x09
      let (result, s) := if status = 0 then bufferRead s c off len else ([], s)
      ({ status, svc := if status = 0x09 then field t 9 1 else 0, info := field t 12 4, result }, s)

/-- Step 3: the rejection's record and diagnostic entry (R149); the Z512 posts `INPUT_REJECTED`. -/
def rejection (s : State) (c q cid status : Nat) : State × Nat :=
  if 0x11 ≤ status && status ≤ 0x14 then
    let s := emit s islQf c 0x023 [w32 (status - 0x10)]
    let s := queueDiag s 0x023 q cid (status - 0x10)
    (s, if isZ128 s then status else 0x10)
  else (s, status)

/-- A write that failed at the controller stops the queue (R343). -/
def queueWriteFault (s : State) (q cid : Nat) : State :=
  let s := queueOffReq s q
  queueDiag (setQErr s q 0x22) 0 q cid 0x22

/-- JOB_COMPLETION (R343, R347): after the wipes. -/
def jobCompletionOp (s : State) (c : Nat) (writeOk : Bool) : State :=
  match jobRec s c with
  | some j =>
    if j.ended.isSome && !wipesPending s c && qfOn s && !s.fabric.wiping.contains c then
      let (o, s) := jobOutcome s c j
      let (s, status) := rejection s c j.queue j.entry.cid o.status
      let s := if writeOk then completeEntry s j.queue j.entry status o.svc o.info o.result
        else queueWriteFault (setQf s j.queue 11 16 8 (qInflight s j.queue - 1)) j.queue j.entry.cid
      { s with fabric := { s.fabric with wiping := s.fabric.wiping ++ [c] } }
    else s
  | none => s

/-- JOB_BUFFER_WIPE_DONE (R347 step 5): zeros up to the highest offset written. -/
def bufferWipeDoneOp (s : State) (c : Nat) : State :=
  match jobRec s c with
  | some j =>
    if s.fabric.wiping.contains c then
      let s := setJob (bufferWrite s c 0 (zeros j.highWater)).1 c none
      { s with fabric := { s.fabric with wiping := s.fabric.wiping.filter (· ≠ c) } }
    else s
  | none => s

/-- JOB_TIMEOUT (R348). -/
def jobTimeoutOp (s : State) (c : Nat) : State :=
  match jobOf s c with
  | some j =>
    if j.timedOut then s
    else
      let s := setJob (emit s islQf c 0x072 []) c (some { j with timedOut := true })
      hubInt (setRegB s (aQf 0x008) 1 true) "QF_TIMEOUT" c
  | none => s

/-! ### The admin queue (R353) -/

/-- The admin entry that Hub-B serves ends: `SERVICE_ERROR` with 1 invalid or 2 busy, or `SUCCESS`. -/
def adminEnd (s : State) (op svc : Nat) : State :=
  match fetched s 0 with
  | e :: rest =>
    if e.op = op then completeEntry (setFetched s 0 rest) 0 e (if svc = 0 then 0 else 0x09) svc 0 [] else s
  | [] => s

/-- QUEUE_CREATE: words 0 to 8 with `EN` = 1; invalid numbers and refused configurations answer 1, live queues 2. -/
def queueCreateOp (s : State) (q : Nat) (words : List W32) : State :=
  if q = 0 || !queueExists s q then adminEnd s 1 1
  else if qState s q ≠ stOff then adminEnd s 1 2
  else
    let s := [0, 1, 2, 3, 5, 6, 7, 8].foldl (fun s i => ctxWriteOp s hubB q i (words.getD i 0)) s
    let s := ctxWriteOp s hubB q 4 (words.getD 4 0 ||| 0x80000000)
    adminEnd s 1 (if qState s q = stOn then 0 else 1)

/-- QUEUE_DESTROY: `EN` = 0. -/
def queueDestroyOp (s : State) (q : Nat) : State :=
  if q = 0 || !queueExists s q then adminEnd s 2 1 else adminEnd (queueOffReq s q) 2 0

/-- QUEUE_SET through the group alias. -/
def queueSetOp (s : State) (groups : BitVec 256) (index : Nat) (quantum wheelMask : W32) : State :=
  if 128 ≤ index then adminEnd s 3 1
  else
    let s := groupWrite s hubB groups (64 * index + 0x1C) quantum
    adminEnd (groupWrite s hubB groups (64 * index + 0x20) wheelMask) 3 0

/-- A write of `FUNC_VEC_f` (R329). -/
def funcVecOp (s : State) (f : Nat) (v : W32) : State :=
  let base := fld v 0 12
  let n := fld v 16 12
  let clash := (List.range 256).any fun g =>
    g ≠ f && n ≠ 0 && vecCount s g ≠ 0 && base < vecBase s g + vecCount s g && vecBase s g < base + n
  if fState s f ≠ stOff then s
  else if 2048 < n || 4096 < base + n || clash then setRegB s (aQf 0x008) 0 true
  else setReg s (aFunc f + 4) (v &&& 0x0FFF0FFF)

/-- FUNC_SET: vectors while the function is off, then its enable. -/
def funcSetOp (s : State) (f : Nat) (en : Bool) (base count : Nat) : State :=
  if 256 ≤ f || 4096 < base + count || 2048 < count then adminEnd s 4 1
  else if en && fState s f ≠ stOff then adminEnd s 4 2
  else
    let s := if en then funcVecOp s f (w32 (count <<< 16 + base)) else s
    adminEnd (funcEnableOp s f en) 4 0

/-! ### Registers (R355) -/

/-- `WHEEL_IDLE`: no job, fill or wipe in the Wheel. -/
def wheelIdle (s : State) : W32 :=
  w32 ((List.range 32).foldl (fun v w =>
    if (spokesOf w).all fun c => (jobRec s c).isNone && !s.fabric.wiping.contains c then v + 2 ^ w else v) 0)

/-- `QF_CTRL.BOOT_DONE` (R247). -/
def bootDoneOp (s : State) : State := setRegB (setRegB s (aQf 0x004) 0 true) (aHost 0x000) 0 true
def bootDone (s : State) : Bool := regB s (aQf 0x004) 0

/-- A read of the queue fabric block. -/
def qfRead (s : State) (off : Nat) : W32 :=
  if off = 0x000 then (if isZ128 s then 8192 else 32768)
  else if off = 0x014 then wheelIdle s
  else reg s (aQf off)

/-- A Hub core's write to the queue fabric block. -/
def qfWrite (s : State) (off : Nat) (v : W32) : State :=
  if off = 0x004 then (if bitOf v 0 then bootDoneOp s else s)
  else if off = 0x018 then
    let q := fld v 16 16
    if (liveQueues s).contains q && qInternal s q then ringDoorbell s q (v &&& 0xFFFF) else s
  else if 0x100 ≤ off && off < 0x900 then
    let f := (off - 0x100) / 8
    if off % 8 = 0 then funcEnableOp s f (bitOf v 0) else if off % 8 = 4 then funcVecOp s f v else s
  else plainWrite s (aQf off) v

/-! ### The commands -/

/-- Hub cores write the fabric's registers and contexts (R331, R355). -/
def qfAccess (s : State) (m addr : Nat) (f : State → State) : State :=
  guarded s m addr (qfOn s) fun s => if isHub m then f s else violate s m vWindow addr

def execFlr (f : Nat) (s : State) : Host.Outcome State Fault Refusal := .next (flrOp s f)
def execPerstN (s : State) : Host.Outcome State Fault Refusal := .next (perstOp s)
def execFuncVecWrite (m f : Nat) (v : W32) (s : State) : Host.Outcome State Fault Refusal :=
  .next (qfAccess s m (aFunc f + 4) fun s => funcVecOp s f v)
def execFuncEnable (m f : Nat) (en : Bool) (s : State) : Host.Outcome State Fault Refusal :=
  .next (qfAccess s m (aFunc f) fun s => funcEnableOp s f en)
def execQueueEnable (m q : Nat) (s : State) : Host.Outcome State Fault Refusal :=
  .next (qfAccess s m (aQctx q 4) fun s => if queueExists s q then queueOnOp s q else s)
def execQueueDisable (m q : Nat) (s : State) : Host.Outcome State Fault Refusal :=
  .next (qfAccess s m (aQctx q 4) fun s => if queueExists s q then queueOffReq s q else s)
def execQueueOff (q : Nat) (s : State) : Host.Outcome State Fault Refusal := .next (queueOffOp s q)
def execQgroupAliasWrite (m off : Nat) (v : W32) (s : State) : Host.Outcome State Fault Refusal :=
  .next (guarded s m (0x501000000 + off) (qfOn s) fun s => aliasWriteOp s m off v)
def execDoorbell (f index : Nat) (v : W32) (s : State) : Host.Outcome State Fault Refusal :=
  .next (if domOn s 17 then guarded s (0x300 + f) (aFunc f) (qfOn s) fun s =>
    if bootDone s then doorbellOp s f index v else s
  else s)
def execEntryFetch (q : Nat) (entry : List Byte) (s : State) : Host.Outcome State Fault Refusal :=
  .next (entryFetchOp s q entry)
def execPayloadFetch (q : Nat) (ok : Bool) (data : List Byte) (s : State) : Host.Outcome State Fault Refusal :=
  .next (payloadFetchOp s q ok data)
def execJobDispatch (q c : Nat) (s : State) : Host.Outcome State Fault Refusal := .next (jobDispatchOp s q c)
def execJobWindowStore (m off size : Nat) (v : W64) (s : State) : Host.Outcome State Fault Refusal :=
  .next (guarded s m (0x504000000 + 0x4000 * m + off) (qfOn s) fun s => jobWindowOp s m off size v)
def execJobCompletion (c : Nat) (writeOk : Bool) (s : State) : Host.Outcome State Fault Refusal :=
  .next (jobCompletionOp s c writeOk)
def execJobBufferWipeDone (c : Nat) (s : State) : Host.Outcome State Fault Refusal := .next (bufferWipeDoneOp s c)
def execJobTimeout (c : Nat) (s : State) : Host.Outcome State Fault Refusal := .next (jobTimeoutOp s c)
def execQfBootDone (m : Nat) (s : State) : Host.Outcome State Fault Refusal :=
  .next (qfAccess s m (aQf 0x004) bootDoneOp)
end Sys2Proof.Machine
end

