-- ==== Sys2Proof/Machine/Chain.lean ====
section
/-! DEFINITION. Chain ports: links, frames, delivery, relay, transmit slots and tunnelled hops (15_peloton_links.md R382 to
R391, R407). -/

namespace Sys2Proof.Machine

/-! ### The member and its firmware -/

/-- The device UID: G_1 words 0 to 3, word 0 lowest (R384). -/
def uid (s : State) : BitVec 128 := BitVec.ofNat 128 (leNat (wordBytes ((List.range 4).map fun i => otpData s (32 + i))))

/-- The shipped Hub-B firmware runs: the Hub is on and Hub-B is out of reset and not halted. -/
def hubBUp (s : State) : Bool := hubOn s && (core s hubB).run ≠ .reset && (core s hubB).run ≠ .halted

/-- A record that Hub-B writes. -/
def hubBRecord (s : State) (rtype : Nat) (payload : List W32) : State := emit s islHub hubB rtype payload

/-! ### Frames (R384) -/

/-- One bit of CRC-32, reflected, IEEE 802.3 polynomial. -/
def crcBit (c : Nat) : Nat := if c % 2 = 1 then (c / 2) ^^^ 0xEDB88320 else c / 2

/-- CRC-32 of bytes. -/
def crc32 (bs : List Byte) : Nat :=
  bs.foldl (fun c b => (List.range 8).foldl (fun c _ => crcBit c) (c ^^^ b.toNat)) 0xFFFFFFFF ^^^ 0xFFFFFFFF

/-- Header and payload. -/
def frameBody (f : Frame) : List Byte :=
  [f.ftype, if f.dirUp then 1 else 0] ++ leBytes 2 f.payload.length ++ leBytes 2 f.hops ++ leBytes 2 f.seq.toNat ++
    leBytes 16 f.src.toNat ++ leBytes 16 f.dst.toNat ++ leBytes 8 f.pelotonId.toNat ++ f.payload

/-- A frame's bytes with its `FCS`. -/
def frameBytes (f : Frame) : List Byte := frameBody f ++ leBytes 4 (crc32 (frameBody f))

/-- A frame from its header and payload. -/
def frameOf (b : List Byte) : Frame :=
  { ftype := BitVec.ofNat 8 (field b 0 1), dirUp := (field b 1 1).testBit 0, hops := field b 4 2,
    seq := BitVec.ofNat 16 (field b 6 2), src := BitVec.ofNat 128 (field b 8 16), dst := BitVec.ofNat 128 (field b 24 16),
    pelotonId := BitVec.ofNat 64 (field b 40 8), payload := b.drop 48 }

/-- The broadcast address. -/
def broadcast : BitVec 128 := BitVec.allOnes 128

/-- Frame types of R385 that are defined. -/
def frameTypes : List Nat :=
  [0x01, 0x02, 0x03, 0x04, 0x10, 0x11, 0x12, 0x13, 0x14, 0x20, 0x21, 0x22, 0x23, 0x24, 0x25, 0x30, 0x31, 0x32]

/-! ### Ports -/

def cport (s : State) (x : Nat) : ChainPort := smGet s.chain.ports x {}
def setCport (s : State) (x : Nat) (k : ChainPort) : State :=
  { s with chain := { s.chain with ports := smSet s.chain.ports x {} k } }
def chainOn (s : State) : Bool := domOn s 22
/-- `LINK_MODE`: 0 off, 1 serial, 2 tunnel. -/
def linkMode (s : State) (x : Nat) : Nat := regF s (aChain x 0x000) 0 2
def blockLock (s : State) (x : Nat) : Bool := regB s (aChain x 0x004) 0
def linkIsUp (s : State) (x : Nat) : Bool := regB s (aChain x 0x004) 1
/-- `CHAIN_PELOTON_ID`. -/
def pelotonId (s : State) : BitVec 64 := BitVec.ofNat 64 (regPair s (aChain 0 0x2010))
/-- The port takes and sends frames: powered, on, not frozen. -/
def portRuns (s : State) (x : Nat) : Bool := x < 2 && chainOn s && linkMode s x ≠ 0 && !(cport s x).frozen

/-! ### Sending -/

/-- Place a frame in `TUN_TX` and tell PF0 (R390). -/
def tunPlace (s : State) (x : Nat) (f : Frame) : State :=
  let b := frameBytes f
  let s := setCport s x { cport s x with tunTx := b }
  let s := setRegB (setReg s (aChain x 0x204) (w32 b.length)) (aChain x 0x200) 0 true
  if regB s (aChain x 0x200) 31 then sendMsix s 0 (regF s (aChain x 0x200) 16 12) else s

/-- A frame leaves port x by its lane, or by the tunnel once its buffer is free. -/
def egress (s : State) (x : Nat) (f : Frame) : State :=
  if !portRuns s x then s
  else if linkMode s x = 1 then emitOut s (.frame x f)
  else if regB s (aChain x 0x200) 0 then setCport s x { cport s x with tunWait := (cport s x).tunWait ++ [f] }
  else tunPlace s x f

/-- What hardware fills in (R389). -/
def stamp (s : State) (x : Nat) (f : Frame) : Frame :=
  { f with src := uid s, dirUp := x = 0, pelotonId := pelotonId s }

/-- A frame of the member with its next sequence number. -/
def ownFrame (s : State) (ftype : Nat) (dst : BitVec 128) (payload : List Byte) : Frame × State :=
  ({ ftype := BitVec.ofNat 8 ftype, dirUp := false, hops := 0, seq := BitVec.ofNat 16 s.chain.seq, src := 0, dst,
     pelotonId := 0, payload },
   { s with chain := { s.chain with seq := (s.chain.seq + 1) % 65536 } })

/-- Send a frame of the member on one port, whatever its link state. -/
def sendRaw (s : State) (x ftype : Nat) (payload : List Byte) : State :=
  let (f, s) := ownFrame s ftype 0 payload
  egress s x (stamp s x f)

/-- Send a frame on the ports whose links are up. -/
def sendOn (s : State) (xs : List Nat) (ftype : Nat) (dst : BitVec 128) (payload : List Byte) : State :=
  let (f, s) := ownFrame s ftype dst payload
  xs.foldl (fun s x => if linkIsUp s x then egress s x (stamp s x f) else s) s

/-- A broadcast goes out on both ports (R389). -/
def sendAll (s : State) (ftype : Nat) (payload : List Byte) : State := sendOn s [0, 1] ftype broadcast payload

/-- The side that the roster gives as fewer hops away, if its link is up; else both (R389). -/
def sideTo (s : State) (dst : BitVec 128) : List Nat :=
  match s.chain.roster.findIdx? (· = uid s), s.chain.roster.findIdx? (· = dst) with
  | some i, some j =>
    let n := s.chain.roster.length
    let down := (j + n - i) % n
    let x := if s.chain.ring then (if down ≤ n - down then 1 else 0) else if i < j then 1 else 0
    if linkIsUp s x then [x] else [0, 1]
  | _, _ => [0, 1]

/-- An addressed frame of Hub-B. -/
def sendTo (s : State) (ftype : Nat) (dst : BitVec 128) (payload : List Byte) : State :=
  sendOn s (sideTo s dst) ftype dst payload

/-! ### Link state (R383, R392) -/

/-- Link flags of R393. -/
def linkFlags (s : State) : Nat :=
  b2n (linkIsUp s 0) + 2 * b2n (linkIsUp s 1) + 4 * b2n (linkMode s 0 = 2) + 8 * b2n (linkMode s 1 = 2)

/-- A change of link state: event, `INT_CHAIN`, record; Hub-B tells the peloton (R392). -/
def setLink (s : State) (x : Nat) (up : Bool) : State :=
  if linkIsUp s x = up then s
  else
    let s := setRegB (setRegB s (aChain x 0x004) 1 up) (aChain x 0x008) (b2n up) true
    let s := hubInt (emit s (islChain x) (0x410 + x) (if up then 0x0D1 else 0x0D2) []) "INT_CHAIN" x
    let s := if up then s
      else setCport (setRegB s (aChain x 0x004) 2 false) x
        { cport s x with delays := 0, reqSent := none, bound := none, tunWait := [] }
    if hubBUp s then sendAll s 0x14 (leBytes 2 (linkFlags s)) else s

/-- LINK_UP (R383). -/
def linkUpOp (s : State) (x : Nat) : State :=
  if portRuns s x && (linkMode s x = 2 || blockLock s x) && regB s (aChain x 0x004) 2 && pelotonId s ≠ 0 &&
      3 ≤ (cport s x).delays then setLink s x true
  else s

/-- BLOCK_LOCK_ACQUIRED. -/
def blockLockOp (s : State) (x : Nat) : State :=
  if portRuns s x && linkMode s x = 1 then setRegB s (aChain x 0x004) 0 true else s

/-- BLOCK_LOCK_LOSS: a serial link goes down. -/
def blockLossOp (s : State) (x : Nat) : State :=
  if portRuns s x && linkMode s x = 1 then setLink (setRegB s (aChain x 0x004) 0 false) x false else s

/-- HELLO_TIMEOUT. -/
def helloTimeoutOp (s : State) (x : Nat) : State :=
  if portRuns s x then setLink (setRegB s (aChain x 0x004) 2 false) x false else s

/-- HELLO_INTERVAL: the port's HELLO carries `WHEEL_DISABLE`. -/
def helloIntervalOp (s : State) (x : Nat) : State :=
  if portRuns s x then sendRaw s x 0x01 (leBytes 4 (wheelDisable s).toNat) else s

/-- A HELLO from the neighbour. -/
def helloOp (s : State) (x : Nat) (f : Frame) : State :=
  if !portRuns s x then s
  else if f.pelotonId ≠ pelotonId s then setLink (setRegB s (aChain x 0x004) 3 true) x false
  else if f.src = uid s then s
  else if linkIsUp s x && (cport s x).neighbour ≠ some f.src then setLink s x false
  else
    let s := setRegB (setRegB s (aChain x 0x004) 3 false) (aChain x 0x004) 2 true
    let s := setCport s x { cport s x with neighbour := some f.src }
    (List.range 4).foldl (fun s i => setReg s (aChain x (0x010 + 4 * i)) (f.src.extractLsb' (32 * i) 32)) s

/-- LINK_MODE (R383, R448): only Hub-A writes `DMA_AS_HUB_B`; a change takes the link down; a frozen port stays off, and
a write of 0 is the port's reset, which its accesses count (R449). -/
def linkModeOp (s : State) (m x : Nat) (v : W32) : State :=
  let old := linkMode s x
  let frozen := (cport s x).frozen
  let mode := if frozen then 0 else if fld v 0 2 = 3 then old else fld v 0 2
  let s := if m = hubA then setRegB s (aChain x 0x000) 8 (bitOf v 8) else s
  let s := if mode = old then s
    else setRegF (setRegB (setLink s x false) (aChain x 0x004) 0 false) (aChain x 0x000) 0 2 mode
  if fld v 0 2 = 0 then
    setCport s x { cport s x with resetSinceFreeze := frozen, resetCount := ((cport s x).resetCount + 1) % 4 }
  else s

/-! ### Receiving (R387, R388) -/

/-- The master whose rights port x's DMA takes (R407). -/
def chainDma (s : State) (x : Nat) : Nat := if regB s (aChain x 0x000) 8 then hubB else 0x410 + x

/-- The firewall grants port x `n` bytes of the shared banks (R99, R407). -/
def chainGrants (s : State) (x a n : Nat) (write : Bool) : Bool :=
  (dmaGranted s (0x410 + x) (chainDma s x) a n write).2.isNone

/-- A frame is taken at all: of this peloton, not the member's own. -/
def frameTaken (s : State) (x : Nat) (f : Frame) : Bool :=
  portRuns s x && f.pelotonId = pelotonId s && f.src ≠ uid s

/-- The key of a broadcast or addressed frame is in the duplicate table. -/
def isDuplicate (s : State) (f : Frame) : Bool := f.dst ≠ 0 && s.chain.seen.contains (f.src, f.seq, f.ftype)

/-- Enter the key in the duplicate table: the 64 most recent, newest first. -/
def noteSeen (s : State) (f : Frame) : State :=
  if f.dst = 0 then s
  else { s with chain := { s.chain with seen := ((f.src, f.seq, f.ftype) :: s.chain.seen).take 64 } }

/-- Write a frame into the receive ring; whether it was delivered: the ring has room, no part is refused, and its bank runs
(R19). -/
def deliver (s : State) (x : Nat) (f : Frame) : State × Bool :=
  let slots := regF s (aChain x 0x038) 0 6
  let head := regF s (aChain x 0x03C) 0 6
  let next := if slots ≤ head + 1 then 0 else head + 1
  let a := regPair s (aChain x 0x030) + 8192 * head
  let b := frameBytes f
  if slots = 0 || 32 < slots || next = regF s (aChain x 0x040) 0 6 then (bump s (aChain x 0x044), false)
  else
    let r := dmaWrite s (0x410 + x) (chainDma s x) a b
    if r.2.isSome then (r.1, false) else (setRegF r.1 (aChain x 0x03C) 0 6 next, dmaOn s a)

/-- Relay a frame out of the other port; one that has travelled 4,095 hops stays (R388). -/
def relay (s : State) (x : Nat) (f : Frame) : State :=
  if 4095 ≤ f.hops || !linkIsUp s (1 - x) then s else egress s (1 - x) { f with hops := f.hops + 1 }

/-- Frame types that port hardware relays (R385). -/
def hwRelayed (f : Frame) : Bool := 0x10 ≤ f.ftype.toNat && f.ftype.toNat ≤ 0x14

/-- A frame arrives on an up link: drop, deliver, relay; the answer says that the member received it. -/
def receive (s : State) (x : Nat) (f : Frame) : State × Bool :=
  if !frameTaken s x f || !linkIsUp s x || isDuplicate s f then (s, false)
  else
    let s := noteSeen s f
    let mine := f.dst = uid s || f.dst = 0 || f.dst = broadcast
    let (s, got) := if mine then deliver s x f else (s, false)
    (if hwRelayed f && f.dst ≠ 0 && f.dst ≠ uid s then relay s x f else s, got)

/-- Hub-B reads everything in the receive ring of port x. -/
def consume (s : State) (x : Nat) : State := setReg s (aChain x 0x040) (w32 (regF s (aChain x 0x03C) 0 6))

/-- A frame of a given type arrives, and the shipped Hub-B acts on it. -/
def onFrame (s : State) (x ftype : Nat) (f : Frame) (act : State → State) : State :=
  if f.ftype.toNat ≠ ftype then s
  else
    let (s, got) := receive s x f
    if got && hubBUp s then act (consume s x) else s

/-- A frame that stays in the ring for software. -/
def onDelivery (s : State) (x ftype : Nat) (f : Frame) : State :=
  if f.ftype.toNat ≠ ftype then s else (receive s x f).1

/-- BAD_FRAME (R385, R387): a failing FCS or an undefined type, counted. -/
def badFrameOp (s : State) (x : Nat) (f : Frame) (fcsOk : Bool) : State :=
  if !portRuns s x then s
  else if !fcsOk then bump s (aChain x 0x048)
  else if frameTypes.contains f.ftype.toNat then s
  else bump s (aChain x 0x04C)

/-! ### Transmit slots (R389, R407) -/

/-- Register of transmit slot k. -/
def aTx (k off : Nat) : Nat := aChain 0 (off + 0x10 * k)

/-- End a transmission: `DONE`, or `ERR` with its cause. -/
def txEnd (s : State) (k cause : Nat) : State :=
  let v := setFld (reg s (aTx k 0x10C)) 0 1 0
  setReg s (aTx k 0x10C) (if cause = 0 then setFld v 1 1 1 else setFld (setFld v 2 1 1) 4 2 cause)

/-- A write of `CP_TX_CTRL_k`. -/
def txCtrlOp (s : State) (k : Nat) (v : W32) : State :=
  let busy := regB s (aTx k 0x10C) 0
  let s := plainWrite s (aTx k 0x10C) v
  if !bitOf v 31 || busy then s
  else
    let n := regF s (aTx k 0x108) 0 13
    if n < 48 || 4156 < n || fld v 8 2 = 0 then txEnd s k 1 else setRegB s (aTx k 0x10C) 0 true

/-- CP_TX_DONE: the frame is read and sent on the chosen ports whose links are up. -/
def txDoneOp (s : State) (k : Nat) : State :=
  if k < 4 && chainOn s && regB s (aTx k 0x10C) 0 then
    let a := regPair s (aTx k 0x100)
    let n := regF s (aTx k 0x108) 0 13
    let up := [0, 1].filter fun x => regB s (aTx k 0x10C) (8 + x) && linkIsUp s x
    match up.find? fun x => !chainGrants s x a n false with
    | some x => txEnd (dmaRead s (0x410 + x) (chainDma s x) a n).2.1 k 2
    | none =>
      match up with
      | [] => txEnd s k 3
      | x :: _ =>
        let r := dmaRead s (0x410 + x) (chainDma s x) a n
        let f := frameOf r.1
        txEnd (up.foldl (fun s x => egress s x (stamp s x f)) r.2.1) k 0
  else s

/-! ### Tunnelled hops (R390) -/

/-- TX_FULL_CLEAR: the next waiting frame takes the buffer. -/
def txFullClearOp (s : State) (x : Nat) : State :=
  let s := setRegB s (aChain x 0x200) 0 false
  match (cport s x).tunWait with
  | f :: rest => tunPlace (setCport s x { cport s x with tunWait := rest }) x f
  | [] => s

/-- The bytes that PF0 left in `TUN_RX`. -/
def tunBytes (s : State) (x : Nat) : List Byte :=
  (List.range (regF s (aChain x 0x208) 0 13)).map fun i => smGet (cport s x).tunRx i 0

/-- The frame in the bytes, if its FCS holds. -/
def tunFrame (b : List Byte) : Option Frame :=
  let body := b.take (b.length - 4)
  if 52 ≤ b.length && field b (b.length - 4) 4 = crc32 body && field b 2 2 + 52 = b.length then some (frameOf body) else none

/-- A word that PF0 writes into `TUN_RX`; discarded and counted while `RX_FULL` (R390). -/
def tunRxWrite (s : State) (x off : Nat) (v : W32) : State :=
  if regB s (aChain x 0x200) 1 then bump s (aChain x 0x04C)
  else
    let m := (List.range 4).foldl (fun m i => smSet m (off + i) 0 (BitVec.ofNat 8 (fld v (8 * i) 8))) (cport s x).tunRx
    setCport s x { cport s x with tunRx := m }

/-! ### The commands -/

/-- A write of the chain block by a Hub core (R407). -/
def chainBy (s : State) (m off : Nat) (ok : Bool) (f : State → State) : State :=
  guarded s m (aChain 0 off) (chainOn s) fun s => granted s m (aChain 0 off) ok f

def execLinkModeWrite (m x : Nat) (v : W32) (s : State) : Host.Outcome State Fault Refusal :=
  .next (chainBy s m (0x1000 * x) (isHub m) fun s => if x < 2 then linkModeOp s m x v else s)
def execBlockLockLoss (x : Nat) (s : State) : Host.Outcome State Fault Refusal := .next (blockLossOp s x)
def execBlockLockAcquired (x : Nat) (s : State) : Host.Outcome State Fault Refusal := .next (blockLockOp s x)
def execHelloTimeout (x : Nat) (s : State) : Host.Outcome State Fault Refusal := .next (helloTimeoutOp s x)
def execHelloInterval (x : Nat) (s : State) : Host.Outcome State Fault Refusal := .next (helloIntervalOp s x)
def execHello (x : Nat) (f : Frame) (s : State) : Host.Outcome State Fault Refusal :=
  .next (if f.ftype = 0x01 then helloOp s x f else s)
def execCpTxGo (m k : Nat) (v : W32) (s : State) : Host.Outcome State Fault Refusal :=
  .next (chainBy s m (0x10C + 0x10 * k) (isHub m) fun s => if k < 4 then txCtrlOp s k (v ||| 0x80000000) else s)
def execCpTxDone (k : Nat) (s : State) : Host.Outcome State Fault Refusal := .next (txDoneOp s k)
def execTxFullClear (m x : Nat) (s : State) : Host.Outcome State Fault Refusal :=
  .next (chainBy s m (0x1000 * x + 0x200) (m = 0x300) fun s => if x < 2 then txFullClearOp s x else s)
def execImageOffer (x : Nat) (f : Frame) (s : State) : Host.Outcome State Fault Refusal :=
  .next (onDelivery s x 0x32 f)
def execBadFrame (x : Nat) (f : Frame) (fcsOk : Bool) (s : State) : Host.Outcome State Fault Refusal :=
  .next (badFrameOp s x f fcsOk)

end Sys2Proof.Machine
end

