-- ==== Sys2Proof/Machine/Peloton.lean ====
section
/-! DEFINITION. Peloton time and membership: time sync, the arm compare, roll calls, rosters and the pacer
(15_peloton_links.md R392 to R408). Times are in 2^-16 ns, as frames capture them. -/

namespace Sys2Proof.Machine

/-! ### The timebase (R397, R405, R408) -/

def isPacer (s : State) : Bool := regB s (aPt 0x008) 0
def syncEn (s : State) : Bool := regB s (aPt 0x008) 1
/-- `PT_STATUS.STATE`: 0 FREE, 1 SYNCING, 2 LOCKED, 3 HOLDOVER, 4 PACER. -/
def ptState (s : State) : Nat := regF s (aPt 0x00C) 0 3
def setPtState (s : State) (v : Nat) : State := setRegF s (aPt 0x00C) 0 3 v
def ptFree : Nat := 0
def ptSyncing : Nat := 1
def ptLocked : Nat := 2
def ptHoldover : Nat := 3
def ptPacer : Nat := 4

/-- `PT_PACER_UID`. -/
def pacerUid (s : State) : BitVec 128 :=
  BitVec.ofNat 128 (regPair s (aPt 0x040) + 2 ^ 64 * regPair s (aPt 0x048))
def setPacerUid (s : State) (u : BitVec 128) : State :=
  setPair (setPair s (aPt 0x040) (u.toNat % 2 ^ 64)) (aPt 0x048) (u.toNat / 2 ^ 64)

/-- The arm compare (R405): `FIRED`, `PT_FIRE` to Hub-B, a wake event (R481). -/
def armFireOp (s : State) : State :=
  if regB s (aPt 0x038) 0 && regPair s (aPt 0x030) ≤ nowNs s then
    let s := hubInt (setRegB (setRegB s (aPt 0x038) 1 true) (aPt 0x038) 0 false) "PT_FIRE"
    if regB s (aPwr 0x008) 2 then noteWake s 2 0 else s
  else s

/-- PT_SET (R398): on the pacer, forward only; the write to `_HI` applies the value. -/
def ptSetOp (s : State) (hi : W32) : State :=
  let v := pair64 (reg s (aPt 0x020)) hi
  if isPacer s && nowNs s ≤ v then armFireOp { s with time := { s.time with now := v * 65536 } } else s

/-- `PT_CTRL`: a new pacer's own bound is 0; a former pacer runs free (R396, R403). -/
def ptCtrlOp (s : State) (v : W32) : State :=
  let was := isPacer s
  let s := plainWrite s (aPt 0x008) v
  if isPacer s && !was then setReg (setRegF (setPtState s ptPacer) (aPt 0x00C) 16 12 0) (aPt 0x010) 0
  else if !isPacer s && was then
    setReg (setPtState { s with time := { s.time with accepted := 0 } } ptFree) (aPt 0x010) all32
  else s

/-- `PT_ERR_BOUND`: in holdover it grows by 0.5 ns per ms (R403). -/
def errBound (s : State) : W32 :=
  let v := (reg s (aPt 0x010)).toNat
  if ptState s = ptHoldover then w32 (min 0xFFFFFFFF (v + ((s.time.now - s.time.heldAt) / 65536 + 1999999) / 2000000))
  else w32 v

/-! ### Link delay (R401) -/

/-- A capture time as frames carry it: whole ns, then the fraction (R402). -/
def timeBytes (t : Nat) : List Byte := leBytes 8 (t / 65536) ++ leBytes 2 (t % 65536)
/-- The capture time at an offset of a payload. -/
def timeField (b : List Byte) (off : Nat) : Nat := field b off 8 * 65536 + field b (off + 8) 2

/-- DELAY_REQ: the answer carries t2 and t3. -/
def delayReqOp (s : State) (x : Nat) (f : Frame) (t : Nat) : State :=
  if frameTaken s x f then sendRaw s x 0x03 (timeBytes t ++ timeBytes s.time.now) else s

/-- DELAY_RESP: round trip and delay. -/
def delayRespOp (s : State) (x : Nat) (f : Frame) (t4 : Nat) : State :=
  match (cport s x).reqSent with
  | some t1 =>
    if frameTaken s x f then
      let rtt := ((t4 : Int) - t1 - (timeField f.payload 10 - timeField f.payload 0)).toNat
      let s := setCport s x { cport s x with reqSent := none, delays := (cport s x).delays + 1 }
      setReg (setReg s (aChain x 0x024) (w32 (rtt / 65536))) (aChain x 0x020) (w32 (rtt * 1000 / 131072))
    else s
  | none => s

/-! ### Time sync (R400, R402 to R404) -/

/-- The hop bound of a side in ns, rounded up (R391, R400). -/
def hopBound (s : State) (x : Nat) : Nat :=
  let interval := regF s (aPt 0x018) 0 16
  if linkMode s x = 2 then ((reg s (aChain x 0x024)).toNat + 1) / 2 + 2
  else if interval ≤ 1000 then 2
  else (3000 + interval + 1999) / 2000

/-- The side with the smaller bound, then fewer `PACER_HOPS`, then UP (R403). -/
def sourceSide (s : State) : Nat :=
  match (cport s 0).bound, (cport s 1).bound with
  | some (b0, h0), some (b1, h1) => if b0 < b1 || (b0 = b1 && h0 ≤ h1) then 0 else 1
  | none, some _ => 1
  | _, none => 0

/-- The correction of R404, signed, in 2^-16 ns; a step of more than 1 µs is recorded. -/
def correct (s : State) (offset : Int) : State :=
  let s :=
    if 0 ≤ offset then { s with time := { s.time with now := s.time.now + offset.toNat, slow := 0 } }
    else if (-offset).toNat ≤ 1000000 * 65536 then { s with time := { s.time with slow := (-offset).toNat } }
    else setRegB { s with time := { s.time with now := s.time.now - (-offset).toNat, slow := 0 } } (aPt 0x00C) 8 true
  let s := if 1000 * 65536 < offset.natAbs then
      emit s islAon 0x430 0x0D6 (words64 ((offset / 65536) % 2 ^ 64).toNat)
    else s
  armFireOp s

/-- The payload of `TIME` (R402). -/
def timePayload (s : State) (hops bound : Nat) (pacer : BitVec 128) : List Byte :=
  timeBytes s.time.now ++ leBytes 2 hops ++ leBytes 4 bound ++ leBytes 16 pacer.toNat

/-- `TIME` is accepted (R402). -/
def timeAccepted (s : State) (x : Nat) (f : Frame) : Bool :=
  frameTaken s x f && linkIsUp s x && syncEn s && !isPacer s && f.payload.length = 32 &&
    (pacerUid s = 0 || field f.payload 16 16 = (pacerUid s).toNat)

/-- An accepted `TIME` counts towards `LOCKED`; the selection is made again (R403). -/
def timeSelect (s : State) : State :=
  let n := min 8 (s.time.accepted + 1)
  let src := sourceSide s
  let (bound, hops) := (cport s src).bound.getD (0, 0)
  let s := { s with time := { s.time with accepted := n, bound } }
  let s := setPtState s (if n < 8 then ptSyncing else ptLocked)
  let s := setRegF (setRegF s (aPt 0x00C) 4 1 src) (aPt 0x00C) 16 12 (hops + 1)
  setReg s (aPt 0x010) (if n < 8 then all32 else w32 bound)

/-- TIME (R402 to R404): the rate that follows from it is free, since no rule gives it. -/
def timeOp (s : State) (x : Nat) (f : Frame) (t : Nat) : State :=
  if !timeAccepted s x f then s
  else
    let hops := field f.payload 10 2
    let s := setCport s x { cport s x with bound := some (field f.payload 12 4 + hopBound s x, hops) }
    let s := timeSelect s
    if sourceSide s ≠ x then s
    else
      let delay := (reg s (aChain x 0x020)).toNat * 65536 / 1000
      let s := correct s ((timeField f.payload 0 : Int) + delay - t)
      let (rate, s) := drawWord s
      let s := setReg s (aPt 0x014) rate
      if linkIsUp s (1 - x) then
        sendRaw s (1 - x) 0x04 (timePayload s (hops + 1) s.time.bound (BitVec.ofNat 128 (field f.payload 16 16)))
      else s

/-- SYNC_INTERVAL_TICK (R401, R402). -/
def syncTickOp (s : State) : State :=
  [0, 1].foldl (fun s x =>
    if !portRuns s x then s
    else
      let s := sendRaw (setCport s x { cport s x with reqSent := some s.time.now }) x 0x02 []
      if isPacer s && syncEn s && linkIsUp s x then sendRaw s x 0x04 (timePayload s 0 0 (uid s)) else s) s

/-- HOLDOVER (R403). -/
def holdoverOp (s : State) : State :=
  if ptState s = ptSyncing || ptState s = ptLocked then
    emit (setPtState { s with time := { s.time with accepted := 0, heldAt := s.time.now } } ptHoldover) islAon 0x430 0x0D7 []
  else s

/-! ### Roll calls (R392 to R394) -/

/-- SHA-384 of the active manifest (R393). -/
def activeManifest (s : State) : List Byte := fitBytes 48 s.upd.active.manifestDigest

/-- The caller calls the roll. -/
def callRoll (s : State) : State :=
  let epoch := s.chain.epoch + 1
  sendAll { s with chain := { s.chain with epoch, collecting := true, answers := [] } } 0x10 (leBytes 8 epoch)

/-- A caller not heard within two intervals no longer counts (R393). -/
def ageCaller (s : State) : State :=
  { s with chain := { s.chain with heardAge := s.chain.heardAge + 1,
                                   heardCaller := if 2 ≤ s.chain.heardAge + 1 then none else s.chain.heardCaller } }

/-- ROLL_INTERVAL. -/
def rollIntervalOp (s : State) : State :=
  if !hubBUp s then s
  else
    let s := ageCaller s
    if s.chain.caller then callRoll s
    else if 1 ≤ s.chain.missed then
      callRoll { s with chain := { s.chain with caller := true, missed := 0, heardCaller := none } }
    else { s with chain := { s.chain with missed := s.chain.missed + 1 } }

/-- The answer to a call (R393). -/
def rollAnswerPayload (s : State) (f : Frame) : List Byte :=
  leBytes 8 (field f.payload 0 8) ++ leBytes 2 f.hops ++ leBytes 1 (b2n f.dirUp) ++ leBytes 1 (linkFlags s) ++
    leBytes 4 (wheelDisable s).toNat ++ activeManifest s

/-- ROLL_CALL: a lower UID ends the member's own calling; the lowest caller heard is answered once per epoch. -/
def rollCallOp (s : State) (f : Frame) : State :=
  let heard := match s.chain.heardCaller with
    | some u => if f.src.toNat ≤ u.toNat then f.src else u
    | none => f.src
  let lower := f.src.toNat < (uid s).toNat
  let epoch := field f.payload 0 8
  let due := heard = f.src && s.chain.answered ≠ some epoch
  let s := { s with chain := { s.chain with heardCaller := some heard,
                                             heardAge := if heard = f.src then 0 else s.chain.heardAge,
                                             caller := s.chain.caller && !lower,
                                             missed := if lower then 0 else s.chain.missed,
                                             answered := if due then some epoch else s.chain.answered } }
  if due then sendTo s 0x11 f.src (rollAnswerPayload s f) else s

/-- ROLL_ANSWER collected by the caller. -/
def rollAnswerOp (s : State) (f : Frame) : State :=
  if s.chain.collecting && f.dst = uid s && field f.payload 0 8 = s.chain.epoch && f.payload.length = 64 then
    { s with chain := { s.chain with answers := s.chain.answers.filter (fun a => a.1 ≠ f.src) ++ [(f.src, f.payload)] } }
  else s

/-- TOPO_CHANGE: the caller calls. -/
def topoChangeOp (s : State) : State := if s.chain.caller then callRoll s else s

/-! ### The roster (R394 to R396) -/

/-- Every answer and the caller's own flags show both links up. -/
def isRing (s : State) : Bool :=
  linkFlags s % 4 = 3 && s.chain.answers.all fun a => field a.2 11 1 % 4 = 3

/-- Places after the caller, offset so that it never goes below 0; in a ring of n, counted once round. -/
def placeOf (n : Nat) (ring : Bool) (p : List Byte) : Nat :=
  let h := field p 8 2 + 1
  let after := field p 10 1 = 0
  if ring then (if after then h % n else (n * h - h) % n) else if after then 8192 + h else 8192 - h

/-- Members in position order. -/
def positions (s : State) : List (BitVec 128) :=
  let n := s.chain.answers.length + 1
  let ring := isRing s
  let m := s.chain.answers.foldl (fun m a => smIns m (placeOf n ring a.2) a.1) (smIns [] (if ring then 0 else 8192) (uid s))
  m.map Prod.snd

/-- Position of a member. -/
def positionOf (us : List (BitVec 128)) (u : BitVec 128) : Nat := (us.findIdx? (· = u)).getD 0

/-- Position of the pacer: the caller where it is central enough, else the middle (R396). -/
def pacerPosition (us : List (BitVec 128)) (ring : Bool) (caller : Nat) : Nat :=
  let n := us.length
  if ring || max caller (n - 1 - caller) ≤ n / 2 then caller else (n - 1) / 2

/-- A chunk of the roster (R395). -/
def rosterPayload (us : List (BitVec 128)) (ring : Bool) (pacer epoch i : Nat) : List Byte :=
  leBytes 2 us.length ++ [if ring then 1 else 0, 0] ++ leBytes 2 i ++ leBytes 2 pacer ++
    leBytes 16 (us.getD pacer 0).toNat ++ leBytes 8 epoch ++ ((us.drop (254 * i)).take 254).flatMap fun u => leBytes 16 u.toNat

/-- The roster's pacer is noted: `PT_PACER_UID`, `PACER_CHANGE`, a former pacer steps down (R396). -/
def notePacer (s : State) (u : BitVec 128) : State :=
  if pacerUid s = u then s
  else
    let s := hubBRecord (setPacerUid s u) 0x0D5 []
    if isPacer s && u ≠ uid s then ptCtrlOp s (setFld (reg s (aPt 0x008)) 0 1 0) else s

/-- Hub-B takes the pacer role. -/
def becomePacer (s : State) : State := ptCtrlOp s (setFld (reg s (aPt 0x008)) 0 1 1)

/-- A complete roster takes effect (R395). -/
def takeRoster (s : State) (us : List (BitVec 128)) (ring : Bool) : State :=
  let me := uid s
  let joined := us.contains me && !s.chain.roster.contains me
  let s := { s with chain := { s.chain with roster := us, ring, rosterParts := [],
                                             caller := s.chain.caller || !us.contains me } }
  if joined then hubBRecord s 0x0D3 [] else s

/-- Members that were missing from two rosters in a row leave (R395). -/
def noteMissing (s : State) (us : List (BitVec 128)) : State :=
  let gone := s.chain.missing.filter fun u => !us.contains u
  let missing := s.chain.roster.filter fun u => !us.contains u
  gone.foldl (fun s _ => hubBRecord s 0x0D4 []) { s with chain := { s.chain with missing } }

/-- ROLL_WAIT (R394 to R396). -/
def rollWaitOp (s : State) : State :=
  if !hubBUp s || !s.chain.collecting then s
  else
    let ring := isRing s
    let us := positions s
    let pacer := pacerPosition us ring (positionOf us (uid s))
    let u := us.getD pacer 0
    let s := noteMissing { s with chain := { s.chain with collecting := false } } us
    let s := takeRoster s us ring
    let s := if u = uid s then becomePacer (notePacer s u) else sendTo (notePacer s u) 0x13 u (leBytes 8 s.chain.epoch)
    (List.range ((us.length + 253) / 254)).foldl
      (fun s i => sendAll s 0x12 (rosterPayload us ring pacer s.chain.epoch i)) s

/-- ROSTER: chunks of one epoch are collected, then take effect. -/
def rosterOp (s : State) (f : Frame) : State :=
  let p := f.payload
  let n := field p 0 2
  let us := (List.range ((p.length - 32) / 16)).map fun i => BitVec.ofNat 128 (field p (32 + 16 * i) 16)
  let parts := if field p 4 2 = 0 then [] else s.chain.rosterParts
  let parts := smIns (smDel parts (field p 4 2)) (field p 4 2) us
  let s := { s with chain := { s.chain with rosterParts := parts } }
  let all := parts.flatMap Prod.snd
  if all.length = n then notePacer (takeRoster s all (field p 2 1 = 1)) (BitVec.ofNat 128 (field p 8 16)) else s

/-- PACER_ASSIGN. -/
def pacerAssignOp (s : State) (f : Frame) : State := if f.dst = uid s then becomePacer s else s

/-! ### Registers (R408) -/

/-- A read of the timebase block. -/
def ptRead (s : State) (off : Nat) : W32 :=
  if off = 0x000 then w32 (nowNs s)
  else if off = 0x004 then w32 (nowNs s / 2 ^ 32)
  else if off = 0x010 then errBound s
  else if off = 0x020 || off = 0x024 then 0
  else reg s (aPt off)

/-- Hub-B's write to the timebase block. -/
def ptWrite (s : State) (off : Nat) (v : W32) : State :=
  if off = 0x008 then ptCtrlOp s v
  else if off = 0x018 then (if fld v 0 16 < 125 || 10000 < fld v 0 16 then s else plainWrite s (aPt off) v)
  else if off = 0x020 then setReg s (aPt off) v
  else if off = 0x024 then ptSetOp s v
  else plainWrite s (aPt off) v

/-! ### The commands -/

def execDelayReq (x : Nat) (f : Frame) (t : Nat) (s : State) : Host.Outcome State Fault Refusal :=
  .next (if f.ftype = 0x02 then delayReqOp s x f t else s)
def execDelayResp (x : Nat) (f : Frame) (t : Nat) (s : State) : Host.Outcome State Fault Refusal :=
  .next (if f.ftype = 0x03 then delayRespOp s x f t else s)
def execTime (x : Nat) (f : Frame) (t : Nat) (s : State) : Host.Outcome State Fault Refusal :=
  .next (if f.ftype = 0x04 then timeOp s x f t else s)
def execRollCall (x : Nat) (f : Frame) (s : State) : Host.Outcome State Fault Refusal :=
  .next (onFrame s x 0x10 f fun s => rollCallOp s f)
def execRoster (x : Nat) (f : Frame) (s : State) : Host.Outcome State Fault Refusal :=
  .next (onFrame s x 0x12 f fun s => rosterOp s f)
def execPacerAssign (x : Nat) (f : Frame) (s : State) : Host.Outcome State Fault Refusal :=
  .next (onFrame s x 0x13 f fun s => pacerAssignOp s f)
def execTopoChange (x : Nat) (f : Frame) (s : State) : Host.Outcome State Fault Refusal :=
  .next (onFrame s x 0x14 f topoChangeOp)
def execSyncIntervalTick (s : State) : Host.Outcome State Fault Refusal := .next (syncTickOp s)
def execHoldover (s : State) : Host.Outcome State Fault Refusal := .next (holdoverOp s)
def execRollInterval (s : State) : Host.Outcome State Fault Refusal := .next (rollIntervalOp s)
def execRollWait (s : State) : Host.Outcome State Fault Refusal := .next (rollWaitOp s)
def execPtSet (m : Nat) (hi : BitVec 32) (s : State) : Host.Outcome State Fault Refusal :=
  .next (granted s m (aPt 0x024) (m = hubB) fun s => ptSetOp s hi)
def execArmFire (s : State) : Host.Outcome State Fault Refusal := .next (armFireOp s)

end Sys2Proof.Machine
end

