-- ==== Sys2Proof/Machine/Power.lean ====
section
/-! DEFINITION. Power domains, resets, supplies and device power states (R17 to R19, R229, R440 to R443, R460, R466 to R483,
R487 to R489). -/

namespace Sys2Proof.Machine

/-! ### Debug sessions (R219, R226) -/

/-- A Hub right: `HUB_HALT` or `HUB_MEM_READ`. -/
def hubRight (r : W32) : Bool := r &&& 3 ≠ 0

/-- `LN_SESSION.LEVEL`. -/
def debugLevel (s : State) : Nat :=
  if lcState s < 2 then 3
  else match s.lc.session with
    | none => 0
    | some r => if hubRight r then 2 else 1

/-- Cores that a session halted go on. -/
def releaseHalted (s : State) : State :=
  s.cores.foldl (fun s e => modCore s e.1 fun k => { k with lnHalted := false }) s

/-- The session closes (R226): its rights clear, its halted cores go on, the Chamber acts under R178 if it held a Hub right. -/
def closeSession (s : State) : State :=
  match s.lc.session with
  | none => s
  | some r =>
    let s := releaseHalted { s with lc := { s.lc with session := none } }
    if hubRight r && domOn s 26 then reseed s 0 else s

/-- The outstanding challenge ends (R222). -/
def endChallenge (s : State) : State := { s with lc := { s.lc with challenge := none } }
/-- It ends, and so does a request that waits for Drip (R222, R520). -/
def dropChallenge (s : State) : State := { endChallenge s with lc := { (endChallenge s).lc with challengeAsked := false } }

/-! ### What a domain loses (R96, R101, R173, R518) -/

/-- Reset a core with everything that its domain loses: its job, its holds, its `JOB` slots and its unwrap buffer end (R173,
R176, R526); a freeze stays, and the core counts as reset since (R448). -/
def coreLost (s : State) (c : Nat) : State :=
  modCore (stopMaster s c) c fun k =>
    { coreReset c with frozen := k.frozen, resetSinceFreeze := k.frozen, resetCount := (k.resetCount + 1) % 4 }

/-- Wheel w loses its memories, registers, cores, Crank, lanes and DMA slots. -/
def wheelLost (s : State) (w : Nat) : State :=
  let s := wipeMem (resetRegs s (aWheel w 0) (aWheel (w + 1) 0)) (aWheel w 0) (aWheel (w + 1) 0)
  let s := (spokesOf w).foldl coreLost s
  { s with cranks := smDrop s.cranks w (w + 1), lanes := smDrop s.lanes (2 * w) (2 * w + 2),
           wdma := smDrop s.wdma (16 * w) (16 * w + 16), wdmaNext := smDrop s.wdmaNext w (w + 1),
           bankNext := smDrop s.bankNext (64 + 4 * w) (68 + 4 * w), starved := s.starved.filter fun b => b < 64 || poolWheel b ≠ w }

/-- Shared banks `[lo, hi)` lose their contents, owners, shares and what they keep of requests (R101, R107, R108). -/
def banksLost (s : State) (lo hi : Nat) : State :=
  let s := { s with bankNext := smDrop s.bankNext lo hi, starved := s.starved.filter fun b => b < lo || hi ≤ b }
  wipeMem (resetRegs s (aFw (0x1000 + 0x10 * lo)) (aFw (0x1000 + 0x10 * hi))) (bankBase lo) (bankBase lo + 0x40000 * (hi - lo))

/-- The queue fabric loses its contexts, functions, jobs and the MSI-X vector pool, which R12 places there (log 77). -/
def fabricLost (s : State) : State :=
  let s := setRegB (resetRegs s 0x500000000 0x502010000) (aHost 0x000) 0 false
  { s with fabric := { s.fabric with fetched := [], jobs := [], wiping := [], deferred := [], vectors := [] } }

/-- What a function keeps when the PCIe controller loses its power: a freeze (R448) and its reset count (R449). -/
def funcLost (k : Func) : Func :=
  { frozen := k.frozen, resetSinceFreeze := k.frozen, resetCount := (k.resetCount + 1) % 4 }

/-- The PCIe controller loses its registers and the functions' configuration, their MSI-X tables with it. -/
def pcieLost (s : State) : State :=
  let s := resetRegs s (aHost 0) (aHost 0x10000)
  { s with fabric := { s.fabric with funcs := s.fabric.funcs.foldl (fun m e => smSet m e.1 {} (funcLost e.2)) [],
                                     vectors := [], spdm := false, ideKeys := [], ideGo := [], rcvData := [],
                                     deferred := [] } }

/-- Flash port p loses its registers, tables, log and gatekeeper. -/
def portLost (s : State) (p : Nat) : State :=
  let s := resetRegs s (aPort p 0) (aPort p 0x10000)
  coreLost { s with ports := smDrop s.ports p (p + 1) } (gkId p)

/-- The chain ports lose their registers and buffers; a freeze stays (R448). -/
def chainLost (s : State) : State :=
  let s := resetRegs s (aChain 0 0) (aChain 0 0x10000)
  let keep := fun (x : Nat) =>
    let k := smGet s.chain.ports x {}
    ({ frozen := k.frozen, resetSinceFreeze := k.frozen, resetCount := (k.resetCount + 1) % 4 } : ChainPort)
  { s with chain := { s.chain with ports := smSet (smSet [] 0 {} (keep 0)) 1 {} (keep 1), seen := [] } }

/-- The shipped firmware of the Hub starts anew: what it kept in Hub SRAM is gone, what the device flash holds stays. -/
def firmwareLost (s : State) : State :=
  { s with svc := {}, rcv := {},
           chain := { s.chain with caller := true, heardCaller := none, heardAge := 0, missed := 0,
                                   answered := none, collecting := false, answers := [], roster := [], rosterParts := [],
                                   missing := [] },
           upd := { active := s.upd.active, activeSlot := s.upd.activeSlot, late := s.upd.late, images := s.upd.images,
                    platformParts := s.upd.platformParts } }

/-- The Hub loses its SRAM, cores, lanes and privileged registers. -/
def hubLost (s : State) : State :=
  let s := wipeMem s 0x10000000 0x10400000
  let s := coreLost (coreLost s hubA) hubB
  firmwareLost { s with hubs := [], lanes := smDrop s.lanes 64 68,
                        boot := { s.boot with rom := .off, fwMeasure := [], measureLock := false, bootInfo := 0, bootGen := 0,
                                              hubBVector := 0, hubBGo := false, fwDone := false } }

/-- What domain d holds is lost; PD_27's registers and the life-cycle block reset otherwise (R206, R227). -/
def domainLost (s : State) (d : Nat) : State :=
  if d < 16 then wheelLost (wheelLost s (2 * d)) (2 * d + 1)
  else match d with
  | 16 => fabricLost s
  | 17 => pcieLost s
  | 18 => portLost s 0
  | 19 => portLost s 1
  | 20 => portLost s 2
  | 21 => portLost s 3
  | 22 => chainLost s
  | 23 => banksLost s 8 36
  | 24 => banksLost s 36 64
  | 25 => banksLost s 0 8
  | 26 => showOtpBusy { chamberOff s with otp := { s.otp with slot0Waiting := false } }
  | 28 => { resetRegs s (aDrip 0) (aDrip 0x10000) with drip := {} }
  | 29 => { s with lc := { s.lc with ir := 1, selected := true } }
  | 30 => hubLost s
  | _ => s

/-! ### Switching domains (R18, R470 to R472) -/

/-- Islands of a domain beyond the Wheels (R17, R467). -/
def domIslands (d : Nat) : List Nat :=
  match d with
  | 16 => [33]
  | 17 => [34]
  | 18 => [35]
  | 19 => [36]
  | 20 => [37]
  | 21 => [38]
  | 22 => [39, 40]
  | 25 => [41]
  | 26 => [42]
  | 27 => [43]
  | 28 => [44]
  | 29 => [45]
  | 30 => [32]
  | _ => []

def setLocks (s : State) (d : Nat) (v : Bool) : State := (domIslands d).foldl (fun s i => setLock s i v) s

/-- A state of a domain, with its recompute window (R477). -/
def changeDom (s : State) (d : Nat) (v : DomState) : State := recompute (setDom s d v)

/-- `PD_REQ` bit d. -/
def wanted (s : State) (d : Nat) : Bool := regB s (aPwr 0x020) d

/-- A domain that this variant has (R3). -/
def domExists (s : State) (d : Nat) : Bool := d < 31 && !(d < 16 && wheelAbsent s (2 * d))

/-- A core that a Wheel shutdown need not wait for (R471). -/
def coreQuiet (k : Core) : Bool :=
  k.frozen || match k.run with
    | .reset | .halted | .wait | .waitJob _ => true
    | _ => false

/-- The Wheel holds no token beyond its base cost (R471). -/
def wheelQuiet (s : State) (w : Nat) : Bool :=
  (spokesOf w).all (fun c => coreQuiet (core s c) && !(core s c).holds) &&
  [0, 1].all (fun x => (ctx s w x).tokens = 0 && ((ctx s w x).state = .free || (ctx s w x).state = .failed)) &&
  [0, 1].all (fun i => (lane s (2 * w + i)).state = .free)

/-- Preconditions of a switch-on: R18, and the boot order of R200 and R229. -/
def canStart (s : State) (d : Nat) : Bool :=
  if d = 27 then s.boot.phase ≠ .held
  else s.boot.phase = .up && (if d = 23 || d = 24 then domOn s 25 else true)

/-- Preconditions of a switch-off: R18, R205, R334, R471; PD_30 goes last, and only into DEEP (R480). -/
def canStop (s : State) (d : Nat) : Bool :=
  if d < 16 then wheelQuiet s (2 * d) && wheelQuiet s (2 * d + 1)
  else if d = 16 then liveQueues s = []
  else if d = 25 then domState s 23 = .off && domState s 24 = .off
  else if d = 27 then !otpBusy s && s.lc.transition = none
  else if d = 30 then powerTarget s = 3 && (List.range 30).all fun e => domState s e = DomState.off
  else true

/-- The head of the waiting Wheel ramps asks for its in-rush tokens (R472). -/
def rampNext (s : State) : State :=
  match s.pwr.rampQueue, s.pwr.ramping with
  | d :: rest, none => askTokens { s with pwr := { s.pwr with rampQueue := rest, ramping := some d } } (.ramp d) 20 false
  | _, _ => s

/-- A Wheel domain joins the ramps that wait. -/
def queueRamp (s : State) (d : Nat) : State :=
  if s.pwr.ramping = some d || s.pwr.rampQueue.contains d then s
  else rampNext { s with pwr := { s.pwr with rampQueue := s.pwr.rampQueue ++ [d] } }

/-- A ramp that has not begun is taken back. -/
def cancelRamp (s : State) (d : Nat) : State :=
  let s := { s with pwr := { s.pwr with rampQueue := s.pwr.rampQueue.filter (· ≠ d) } }
  if s.pwr.ramping = some d then
    rampNext { withdraw s (.ramp d) with pwr := { (withdraw s (.ramp d)).pwr with ramping := none } }
  else s

/-- A Wheel goes off: its base cost returns and its requests are dropped (R474). -/
def wheelStop (s : State) (w : Nat) : State :=
  let gone := (s.gov.raised ++ s.gov.waiting ++ s.gov.granted).filter fun r =>
    r.work.wheel = some w && r.work ≠ .wheelBase w
  let s := gone.foldl (fun s r => withdraw s r.work) (dropRequests s (.wheelBase w))
  let s := { s with gov := { s.gov with granted := s.gov.granted.filter fun r => r.work ≠ .wheelBase w } }
  let s := setBase (giveBack s (if base s w = .none then 0 else 2) (base s w = .reserve)) w .none
  let s := setLock (setParked s w true) w false
  { s with gov := { s.gov with moving := s.gov.moving.filter (· ≠ w) },
           pwr := { s.pwr with relocking := s.pwr.relocking.filter (· ≠ w) } }

/-- What ends when a domain begins its shutdown: Wheels park, PCIe links drop (R326), a platform whose port goes off is
held (R260), Lantern's session closes. -/
def stopEffects (s : State) (d : Nat) : State :=
  if d < 16 then wheelStop (wheelStop s (2 * d)) (2 * d + 1)
  else if d = 17 then perstOp s
  else if 18 ≤ d && d < 22 then (if released s (d - 18) then holdOp s (d - 18) else s)
  else if d = 22 then setLink (setLink s 0 false) 1 false
  else if d = 27 then setRegB { s with otp := { s.otp with pumpOn := false } } (aOtp 0x010) 29 false
  else s

/-- A shutdown begins. -/
def beginStop (s : State) (d : Nat) : State := changeDom (setLocks (stopEffects s d) d false) d .stopping

/-- One domain follows its request as far as its state and the preconditions allow (R470). -/
def settleDomain (s : State) (d : Nat) : State :=
  if !domExists s d then s
  else match domState s d, wanted s d with
  | .off, true => if !canStart s d then s else if d < 16 then queueRamp s d else changeDom s d .starting
  | .off, false => if d < 16 then cancelRamp s d else s
  | .on, false => if canStop s d then beginStop s d else s
  | _, _ => s

/-- Every domain follows its request. -/
def settleDomains (s : State) : State := (List.range 31).foldl settleDomain s

/-! ### Device power states (R439 to R441, R480) -/

/-- Enter a power state, with its record. -/
def enterState (s : State) (new : Nat) : State :=
  let old := s.pwr.current
  let s := emit { s with pwr := { s.pwr with current := new, seq := none } } islAon 0x430 0x080 [w32 old, w32 new]
  setRegF s (aPwr 0x000) 16 2 new

/-- A Wheel domain that comes up in LOW returns the device to ACTIVE (R480). -/
def leaveLow (s : State) (d : Nat) : State := if d < 16 && s.pwr.current = 1 && s.pwr.seq = none then enterState s 0 else s

/-- The power-up of a domain wipes its banks and scratches and gives its bank registers their reset values (R96, R101):
nothing that reached them while the domain was off stays. -/
def powerUpWipe (s : State) (d : Nat) : State :=
  if d < 16 then
    [2 * d, 2 * d + 1].foldl (fun s w =>
      wipeMem (resetRegs s (aWheel w 0x320020) (aWheel w 0x320040)) (aWheel w 0) (aWheel (w + 1) 0)) s
  else match d with
  | 23 => banksLost s 8 36
  | 24 => banksLost s 36 64
  | 25 => banksLost s 0 8
  | 30 => wipeMem s 0x10000000 0x10400000
  | _ => s

/-- What a domain begins with when it is reported on: empty memories; a Wheel's in-rush tokens return and a warm Wheel asks
for its base (R472, R474); PD_26 has the OTP sequencer load slot 0 (R196), in the derivation context of the session that is
open (R178); PD_30 lets Hub-A start. -/
def startEffects (s : State) (d : Nat) : State :=
  let s := powerUpWipe s d
  if d < 16 then
    let s := giveBack s 20 false
    let s := rampNext { s with pwr := { s.pwr with ramping := none } }
    let s := [2 * d, 2 * d + 1].foldl (fun s w => if warm s w then wakeWheel s w false else s) s
    leaveLow s d
  else if d = 26 then
    let ctx : Byte := if hubRight (s.lc.session.getD 0) then 1 else 0
    showOtpBusy { s with otp := { s.otp with slot0Waiting := true }, chamber := { s.chamber with deriveCtx := ctx } }
  else if 18 ≤ d && d < 22 then hostModeReset s (d - 18)
  else s

/-- DOMAIN_OFF (R471): the shutdown ends. -/
def domainOffOp (s : State) (d : Nat) : State :=
  let s := settleDomains s
  if domState s d = .stopping then settleDomains (domainLost (changeDom s d .off) d) else s

/-- DOMAIN_FAULT (R483): the start-up failed. -/
def domainFaultOp (s : State) (d : Nat) : State :=
  if domState s d = .starting then
    let s := if d < 16 then rampNext { giveBack s 20 false with pwr := { s.pwr with ramping := none } } else s
    emit (changeDom s d .off) islAon 0x430 0x085 [w32 d]
  else s

/-- The bits of `PD_REQ` that a write can change: not those of absent domains, and PD_30 not off (R470). -/
def pdReqValue (s : State) (v : W32) : W32 :=
  (List.range 31).foldl (fun acc d => if bitOf v d && (domExists s d || bitOf (reg s (aPwr 0x020)) d) then acc ||| w32 (2 ^ d) else acc)
    0x40000000

/-- PD_REQ_WRITE (R470); latched while a power-state sequence runs (R480). -/
def pdReqOp (s : State) (v : W32) : State :=
  if s.pwr.seq.isSome then { s with pwr := { s.pwr with latchedReq := some v } }
  else settleDomains (setReg s (aPwr 0x020) (pdReqValue s v))

/-- Clear a set of request bits, as the sequencer of a power state does. -/
def clearReq (s : State) (ds : List Nat) : State := ds.foldl (fun s d => setRegB s (aPwr 0x020) d false) s

/-- A gatekeeper is held in reset with its scratch kept (R441). -/
def gkHold (s : State) (p : Nat) : State := if portOn s p then resetCore s (gkId p) else s

/-- A power-state sequence begins. -/
def beginSeq (s : State) (target : Nat) : State :=
  let s := { s with pwr := { s.pwr with seq := some { target } } }
  match target with
  | 1 => settleDomains (clearReq s (List.range 16))
  | 2 => settleDomains (clearReq ([0, 1, 2, 3].foldl gkHold s) (List.range 18 ++ [22, 23, 24, 25, 27, 28]))
  | _ =>
    let s := dropChallenge (closeSession (holdAll s))
    settleDomains (clearReq s (List.range 31))

/-- A refusal and its cause (R480). -/
def refusePower (s : State) (cause : Nat) : State :=
  emit (setRegF s (aPwr 0x000) 24 3 cause) islAon 0x430 0x0F4 [w32 cause]

/-- PWR_REQ (R480). -/
def powerReqOp (s : State) (target : Nat) : State :=
  if s.pwr.seq.isSome then refusePower s 3
  else if lcState s = 4 && target ≠ 0 then refusePower s 2
  else if target = 2 && debugLevel s = 2 then refusePower s 1
  else if s.lc.transition.isSome then { s with pwr := { s.pwr with deferred := some target } }
  else
    let s := setRegF s (aPwr 0x000) 16 2 target
    if target = 0 || target ≤ s.pwr.current then s else beginSeq s target

/-- A power-state request deferred by a life-cycle transition is made once the Hub runs again (R211). -/
def deferredPower (s : State) : State :=
  match s.pwr.deferred with
  | some target => powerReqOp { s with pwr := { s.pwr with deferred := none } } target
  | none => s

/-- DOMAIN_ON (R472): the start-up ends; the domain follows its request. -/
def domainOnOp (s : State) (d : Nat) : State :=
  if domState s d = .starting then
    let s := settleDomains (startEffects (setLocks (changeDom s d .on) d true) d)
    if d = 30 then deferredPower s else s
  else s

/-- Both Hub cores wait in `WAIT` (R480). -/
def hubWaits (s : State) : Bool :=
  [hubA, hubB].all fun c => match (core s c).run with
    | .wait => true
    | _ => false

/-- Every precondition of the end of a sequence. -/
def seqEnded (s : State) (target : Nat) : Bool :=
  match target with
  | 1 => (List.range 16).all fun d => domState s d = DomState.off
  | 2 => (List.range 18 ++ [22, 23, 24, 25, 27, 28]).all (fun d => domState s d = DomState.off) && hubWaits s
  | _ => (List.range 31).all fun d => domState s d = DomState.off

/-- POWER_SEQUENCE_DONE (R480): the state is reached; PD_30 enters retention in STANDBY; a latched domain request acts. -/
def seqDoneOp (s : State) : State :=
  match s.pwr.seq with
  | none => s
  | some q =>
    let s := settleDomains s
    if seqEnded s q.target then
      let s := enterState s q.target
      let s := if q.target = 2 then setLock { s with pwr := { s.pwr with hubRetention := true } } islHub false else s
      match s.pwr.latchedReq with
      | some v => pdReqOp { s with pwr := { s.pwr with latchedReq := none } } v
      | none => s
    else s

/-! ### Resets (R229, R442, R443, R460, R488, R489) -/

/-- Registers that a device reset returns to their reset values (R206, R450, R482, R506, R511). -/
def resetBlocks (s : State) : State :=
  let keep := reg s (aPwr 0x100)
  let warn := reg s (aPwr 0x114)
  let s := resetRegs s (aPwr 0) (aPwr 0x10000)
  let s := setReg (setReg s (aPwr 0x100) keep) (aPwr 0x114) warn
  let s := resetRegs s (aPlat 0 0x100) (aPlat 0 0x200)
  let s := resetRegs s (aOtp 0) (aOtp 0x100)
  let s := resetRegs s (aFw 0) (aFw 0x1000)
  resetRegs s (aI3c 0) (aI3c 0x10000)

/-- Every domain is off at once, with all that it holds; no master is frozen (R443). -/
def allOff (s : State) : State :=
  let s := (List.range 31).foldl domainLost s
  { s with cores := [], wdma := [], wdmaNext := [], bankNext := [], starved := [], i3c := {},
           fabric := { s.fabric with funcs := [], preGrant := true },
           chain := { s.chain with ports := [] },
           otp := { s.otp with command := none, slot0Waiting := false, pumpOn := false },
           lc := { s.lc with ir := 1, selected := true },
           fw := {}, pwr := { deferred := s.pwr.deferred } }

/-- The governor after a reset: the pre-grant only, the ceiling as it stands (R475, R479). -/
def govReset (s : State) : State := { s with gov := { appliedCeiling := ceiling s } }

/-- What a power-good count loses when the pin configuration resets (R506). -/
def pgReset (s : State) : State :=
  [0, 1, 2, 3].foldl (fun s p => setPlat s p { plat s p with pgCounting := false, pgStable := false }) s


/-- A device reset (R443): everything off, sensing again; the AON island keeps what R443 names. A Hub-core fault or
violation leaves its record after the mark (R447). -/
def deviceResetOp (s : State) (escalation : Option (Nat × Nat × Nat)) : State :=
  let s := holdAll (abandonOtp s)
  let s := dropChallenge { s with lc := { s.lc with session := none, transition := none, eraseFailed := [] } }
  let s := pgReset (govReset (resetBlocks (allOff s)))
  let s := resetMark (fsDeviceReset s) 2
  let s := match escalation with
    | some (m, kind, addr) =>
      let payload := w32 m :: w32 kind :: words64 addr
      arriveRecord (diagRecord s 0x43F 0x0F2 payload) islAon { source := 0x43F, rtype := 0x0F2, payload }
    | none => s
  settleDomains { s with boot := { s.boot with phase := .sensing } }

/-- The registers that PORST_N leaves: Flowstone's, and the critical wires until sensing drives them again. -/
def porstKeeps (a : Nat) : Bool := (aFs 0 ≤ a && a < aFs 0x10000) || (aOtp 0x100 ≤ a && a < aOtp 0x180)

/-- PORST_N low, or a monitor that acts as it (R442, R488): all but Flowstone, the fuse array and the pins is lost. -/
def porstLowOp (s : State) : State :=
  let s := { holdAll (abandonOtp s) with lc := {} }
  let s := allOff s
  let s := { s with regs := s.regs.filter (fun e => porstKeeps e.1), platforms := [], ports := [], time := {}, gov := {},
                    pwr := {}, shadows := [] }
  { s with boot := { s.boot with phase := .held } }

/-- Nothing holds the device any more: it starts (R229, R460, R488). -/
def startUp (s : State) : State :=
  if s.boot.phase = .held && !s.boot.porstLow && s.boot.railHolds = [] then
    let s := resetMark s (if s.boot.aonUp then 3 else 1)
    settleDomains { s with boot := { s.boot with phase := .sensing, aonUp := false } }
  else s

/-- PORST_N_RISE (R229, R232). -/
def porstRiseOp (s : State) (straps : BitVec 2) : State :=
  if s.boot.porstLow then startUp { s with boot := { s.boot with porstLow := false, straps } } else s

/-- PORST_N_ASSERT (R442). -/
def porstAssertOp (s : State) : State :=
  if s.boot.porstLow then s else porstLowOp { s with boot := { s.boot with porstLow := true } }

/-- SUPPLY_TRIP (R488). -/
def supplyTripOp (s : State) (rail : Nat) : State :=
  if 3 ≤ rail || s.boot.railHolds.contains rail then s
  else porstLowOp { s with boot := { s.boot with railHolds := s.boot.railHolds ++ [rail] } }

/-- SUPPLY_RELEASE (R488). -/
def supplyReleaseOp (s : State) (rail : Nat) : State :=
  startUp { s with boot := { s.boot with railHolds := s.boot.railHolds.filter (· ≠ rail) } }

/-- VDD_AON_LOW (R489). -/
def aonLowOp (s : State) : State :=
  if s.boot.railHolds.contains 3 then s
  else porstLowOp { s with boot := { s.boot with railHolds := s.boot.railHolds ++ [3] } }

/-- VDD_AON_POWER_UP (R460, R487): Flowstone is lost; the device stays held by PORST_N low. -/
def aonPowerUpOp (s : State) : State :=
  let s := fsPowerUp (porstLowOp s)
  { s with boot := { s.boot with phase := .held, porstLow := true, railHolds := [], aonUp := true, straps := 0 } }

/-- TAMPER_N (R442, R502): its record, then a device reset; ignored while PORST_N or a monitor holds the device. -/
def tamperOp (s : State) : State :=
  if s.boot.phase = .held then s else deviceResetOp (emit s islAon 0x430 0x0F3 []) none

/-- DEVICE_RESET (R443); a held device has none. -/
def deviceResetEvent (s : State) : State := if s.boot.phase = .held then s else deviceResetOp s none

/-- LOCKSTEP_MISMATCH (R65): the pair of Hub core c escalates. A mismatch has no address of its own, so the address that
R447 keeps is a free value (log 78). -/
def lockstepOp (s : State) (c : Nat) : State :=
  if isHub c && hubOn s && (core s c).run ≠ .reset then
    let r := drawWords 2 s
    deviceResetOp r.2 (some (c, vHub, pair64 (r.1.getD 0 0) (r.1.getD 1 0)))
  else s

/-! ### Wake events (R481) -/

/-- WAKE_TIME (R481). -/
def wakeTimeOp (s : State) : State :=
  if regB s (aPwr 0x008) 3 && regPair s (aPwr 0x010) ≤ nowNs s then noteWake s 3 0 else s

/-- A Hub core resumes after its `WAIT` (R480). -/
def hubResume (s : State) (c : Nat) : State :=
  match (core s c).run with
  | .wait => modCore s c fun k => { k with run := .granted }
  | _ => s

/-- PWR_WAKE (R480, R481): the first waiting wake event of this cause and pin, once the entry has finished. -/
def pwrWakeOp (s : State) (cause pin : Nat) : State :=
  if s.pwr.wakes.contains (cause, pin) && s.pwr.seq = none && 2 ≤ s.pwr.current then
    let s := emit s islAon 0x430 0x081 [w32 cause, w32 pin]
    let s := setReg s (aPwr 0x00C) (w32 (2 ^ cause))
    if s.pwr.current = 3 then deviceResetOp s none
    else
      let s := setLock { s with pwr := { s.pwr with hubRetention := false, wakes := [] } } islHub true
      hubInt (hubResume (hubResume (enterState s 0) hubA) hubB) "INT_PWR_WAKE"
  else s

/-! ### Registers (R482) -/

/-- Value of a domain in `PD_STATE`. -/
def domNum (s : State) (d : Nat) : Nat :=
  if !domExists s d then 0
  else match domState s d with
    | .off => 0
    | .starting => 1
    | .on => 2
    | .stopping => if wanted s d then 4 else 3

/-- `WHEEL_PARKED`. -/
def parkedWord (s : State) : W32 := w32 ((List.range 32).foldl (fun v w => if parked s w || !wheelOn s w then v + 2 ^ w else v) 0)

/-- `PWR_STATE`. -/
def pwrStateWord (s : State) : W32 :=
  let v := setFld (setFld (reg s (aPwr 0x000)) 31 1 (b2n s.pwr.seq.isSome)) 8 1 (b2n s.pwr.deferred.isSome)
  setFld v 0 2 s.pwr.current

/-- A read of the power block. -/
def pwrRead (s : State) (off : Nat) : W32 :=
  if off = 0x000 then pwrStateWord s
  else if 0x024 ≤ off && off < 0x034 && off % 4 = 0 then
    let j := (off - 0x024) / 4
    w32 ((List.range 8).foldl (fun v i => v + domNum s (8 * j + i) * 16 ^ i) 0)
  else if off = 0x044 then parkedWord s
  else if off = 0x064 then setFld (reg s (aPwr 0x064)) 14 1 (b2n (s.boot.phase ≠ .held))
  else if off = 0x104 then w32 s.gov.general
  else if off = 0x108 then w32 s.gov.reserve
  else if off = 0x10C then
    let c0 := (s.gov.waiting.filter fun r => r.class0).length
    w32 (c0 % 256 * 65536 + (s.gov.waiting.length - c0) % 65536)
  else if off = 0x110 then w32 (2 * b2n (ceilOver s) + b2n s.gov.recompute)
  else reg s (aPwr off)

/-- Hub-A's write to the power block. -/
def pwrWrite (s : State) (off : Nat) (v : W32) : State :=
  if off = 0x004 then powerReqOp s (fld v 0 2)
  else if off = 0x020 then pdReqOp s v
  else if off = 0x040 then wheelWarmOp s v
  else if 0x048 ≤ off && off < 0x058 && off % 4 = 0 then wheelFreqOp s ((off - 0x048) / 4) v
  else if off = 0x100 then ceilingWriteOp s v
  else if off = 0x118 then (if v &&& 0xFFFF = 0 then s else setReg s (aPwr 0x118) 0)
  else plainWrite s (aPwr off) v

/-! ### The commands -/

def execPdReqWrite (m : Nat) (v : W32) (s : State) : Host.Outcome State Fault Refusal :=
  .next (byHubA s m (aPwr 0x020) fun s => pdReqOp s v)
def execDomainOn (d : Nat) (s : State) : Host.Outcome State Fault Refusal := .next (domainOnOp s d)
def execDomainOff (d : Nat) (s : State) : Host.Outcome State Fault Refusal := .next (domainOffOp s d)
def execDomainFault (d : Nat) (s : State) : Host.Outcome State Fault Refusal := .next (domainFaultOp s d)
def execActive (m : Nat) (s : State) : Host.Outcome State Fault Refusal :=
  .next (byHubA s m (aPwr 0x004) fun s => powerReqOp s 0)
def execLow (m : Nat) (s : State) : Host.Outcome State Fault Refusal :=
  .next (byHubA s m (aPwr 0x004) fun s => powerReqOp s 1)
def execStandby (m : Nat) (s : State) : Host.Outcome State Fault Refusal :=
  .next (byHubA s m (aPwr 0x004) fun s => powerReqOp s 2)
def execDeep (m : Nat) (s : State) : Host.Outcome State Fault Refusal :=
  .next (byHubA s m (aPwr 0x004) fun s => powerReqOp s 3)
def execPowerSequenceDone (s : State) : Host.Outcome State Fault Refusal := .next (seqDoneOp s)
def execWakeTime (s : State) : Host.Outcome State Fault Refusal := .next (wakeTimeOp s)
def execPwrWake (cause pin : Nat) (s : State) : Host.Outcome State Fault Refusal := .next (pwrWakeOp s cause pin)
def execPorstNRise (straps : BitVec 2) (s : State) : Host.Outcome State Fault Refusal := .next (porstRiseOp s straps)
def execPorstNAssert (s : State) : Host.Outcome State Fault Refusal := .next (porstAssertOp s)
def execDeviceReset (s : State) : Host.Outcome State Fault Refusal := .next (deviceResetEvent s)
def execTamperN (s : State) : Host.Outcome State Fault Refusal := .next (tamperOp s)
def execSupplyTrip (rail : Nat) (s : State) : Host.Outcome State Fault Refusal := .next (supplyTripOp s rail)
def execSupplyRelease (rail : Nat) (s : State) : Host.Outcome State Fault Refusal := .next (supplyReleaseOp s rail)
def execVddAonLow (s : State) : Host.Outcome State Fault Refusal := .next (aonLowOp s)
def execVddAonPowerUp (s : State) : Host.Outcome State Fault Refusal := .next (aonPowerUpOp s)
def execLockstepMismatch (c : Nat) (s : State) : Host.Outcome State Fault Refusal := .next (lockstepOp s c)

end Sys2Proof.Machine
end

