-- ==== Sys2Proof/Machine/Lifecycle.lean ====
section
/-! DEFINITION. Life-cycle transitions, sensing, Lantern's port, certificates and sessions (07_otp.md R199, R200;
08_lifecycle_debug.md). -/

namespace Sys2Proof.Machine

/-! ### Transitions (R208 to R215) -/


/-- The state that a copy votes for; an invalid code votes for SCRAP (R209). -/
def lcDecode (w : W32) : Nat := ((List.range 5).find? fun st => lcCode st = w).getD 4

def lcInvalid (w : W32) : Bool := (List.range 5).all fun st => lcCode st ≠ w

/-- Majority of three votes, else the middle one (R209). -/
def lcVote (a b c : Nat) : Nat := max (min a b) (min (max a b) c)


/-- Step n counts as done: both mark bits read 1 (R194). -/
def stepDone (s : State) (target n : Nat) : Bool :=
  let v := otpData s (markAddr target)
  bitOf v n && bitOf v (16 + n)

/-- The steps of a transition in ascending order (R213). -/
def stepsOf (target : Nat) : List Nat :=
  if target = 3 then [0, 1, 2, 3, 5, 6, 7, 15] else if target = 4 then [0, 1, 2, 3, 4, 5, 6, 7, 15] else [0, 5, 6, 7, 15]

/-- A transition is in progress (R213). -/
def inProgress (s : State) (target : Nat) : Bool := stepDone s target 0 && !stepDone s target 15

/-- Program both mark bits of a step (R213). -/
def markStep (s : State) (target n : Nat) : State :=
  let s := seqWords s (markWords target n)
  setReg s (aLc 0x00C) (otpData s (markAddr target))

/-- A command of the sequencer on FP_0, chip select B, at 25 MHz: protocol 0 is 1S-1S-1S, 4 is 4S-4S-4S. -/
def eraseCmd (s : State) (proto opcode : Nat) (addr : Option Nat) (read : Nat) : State :=
  emitOut s (.flash { port := 0, cs := 1, opcode, addr, proto, read })

/-- Both resets, in each mode that the flash may be in (R215). -/
def eraseReset (s : State) : State :=
  eraseCmd (eraseCmd (eraseCmd (eraseCmd s 4 0x66 none 0) 4 0x99 none 0) 0 0x66 none 0) 0 0x99 none 0

/-- Step 3 (R215): both resets, then each of the 16 blocks erased and polled; the region reads as erased afterwards, but for
the blocks that failed. -/
def eraseRegion (s : State) : State :=
  (List.range 16).foldl (fun s b =>
    let a := 0x00F00000 + 0x10000 * b
    let s := eraseCmd (eraseCmd (eraseCmd s 0 0x06 none 0) 0 0xD8 (some a) 0) 0 0x05 none 1
    if s.lc.eraseFailed.contains a then s else { s with flash := smDrop s.flash a (a + 0x10000) }) (eraseReset s)

/-- Do `f` with PD_18 on, powered for it where it is off and switched off again (R214). -/
def withPort0 (s : State) (f : State → State) : State :=
  if domOn s 18 then f s
  else
    let s := f (startEffects (setLocks (changeDom s 18 .on) 18 true) 18)
    domainLost (changeDom (setLocks s 18 false) 18 .off) 18

/-- Clear every Chamber slot and buffer; nothing where PD_26 is off (R213, R214). -/
def clearChamber (s : State) : State :=
  if domOn s 26 then { s with chamber := { s.chamber with slots := [], unwraps := [], xfers := [] } } else s

/-- Perform one step (R212, R213). -/
def transitionAct (s : State) (target n : Nat) : State :=
  match n with
  | 0 => closeSession (holdAll s)
  | 2 => clearChamber s
  | 3 =>
    let s := withPort0 s eraseRegion
    if s.lc.eraseFailed = [] then s else markStep s target 14
  | _ => seqWords s (stepWords target n)

/-- A transition begins: its intent is the first step. -/
def startTransition (s : State) (target : Nat) : State :=
  { s with lc := { s.lc with transition := some { target, step := 0 }, eraseFailed := [] } }

/-- The step after n. -/
def nextStep (target n : Nat) : Nat := ((stepsOf target).find? (n < ·)).getD 15

/-- TRANSITION_STEP (R213): the step, its mark, then the next one; the done step starts a device reset. -/
def transitionStepOp (s : State) : State :=
  match s.lc.transition with
  | none => s
  | some t =>
    if !domOn s 27 then s
    else
      let s := markStep (transitionAct s t.target t.step) t.target t.step
      if t.step = 15 then deviceResetOp { s with lc := { s.lc with transition := none } } none
      else { s with lc := { s.lc with transition := some { t with step := nextStep t.target t.step } } }

/-- The erase of the user-data region runs: as a transition's step, or in a resume at sensing that has step 3 to do (R213 to
R215). -/
def eraseRuns (s : State) : Bool :=
  match s.lc.transition with
  | some t => t.step = 3 && 3 ≤ t.target
  | none => s.boot.phase = .sensing && domOn s 27 && [3, 4].any fun t => inProgress s t && !stepDone s t 3

/-- ERASE_FAULT (R215): a block of the region that stayed busy. -/
def eraseFaultOp (s : State) (block : Nat) : State :=
  if eraseRuns s && block < 16 then
    let a := 0x00F00000 + 0x10000 * block
    emit { s with lc := { s.lc with eraseFailed := s.lc.eraseFailed ++ [a] } } islOtp 0x431 0x050 [w32 a]
  else s

/-! ### `LC_REQUEST` (R210, R211) -/

/-- G_1 to G_6 are all locked. -/
def prereqMet (s : State) : Bool := [1, 2, 3, 4, 5, 6].all (groupLocked s)

/-- The answer to a request for a target, in the codes of R228. -/
def lcRefusal (s : State) (target : Nat) : Nat :=
  let st := lcState s
  if s.lc.transition.isSome then 0x01
  else if powerTarget s ≠ 0 then 0x03
  else if target = 3 || (target = 4 && st = 2) then 0x05
  else if target = 4 && st ≠ 4 then 0
  else if target = 1 && st = 0 then 0
  else if target = 2 && st = 1 then (if prereqMet s then 0 else 0x04)
  else 0x02

/-- LC_REQUEST; a wrong key is ignored (R227). The prerequisites of PRODUCTION are read from the seal words (R187). -/
def lcRequestOp (s : State) (v : W32) : State :=
  if fld v 16 16 ≠ 0x5A7E then s
  else
    let target := fld v 0 3
    let code := lcRefusal s target
    let s := if target = 2 && (code = 0 || code = 0x04) then otpLogWords s 0x431 ([1, 2, 3, 4, 5, 6].map (32 * · + 31)) else s
    let s := setRegF s (aLc 0x008) 0 8 code
    if code = 0 then startTransition s target else s

/-! ### Sensing (R200, R209, R214) -/

/-- Complete one transition found in progress: the lowest step that is not done, and so on. -/
def resumeTransition (s : State) (target : Nat) : State :=
  if inProgress s target then
    let s := (stepsOf target).foldl (fun s n =>
      if stepDone s target n then s else markStep (transitionAct s target n) target n) s
    { s with lc := { s.lc with resumed := true } }
  else s

/-- The life-cycle wires, the validity of the copies and `LC_PROGRESS` from the sensed words. -/
def latchLifecycle (s : State) : State :=
  let st := lcVote (lcDecode (crit s 0)) (lcDecode (crit s 1)) (lcDecode (crit s 2))
  let inv := b2n (lcInvalid (crit s 0)) + 2 * b2n (lcInvalid (crit s 1)) + 4 * b2n (lcInvalid (crit s 2))
  let s := setReg s (aLc 0x000) (w32 (2048 * b2n s.lc.resumed + 256 * inv + st))
  let s := if s.lc.resumed then setRegB s (aOtp 0x020) 2 true else s
  let last := ([4, 3, 2, 1].find? fun t => otpData s (markAddr t) ≠ 0).getD 1
  let s := setReg s (aLc 0x00C) (otpData s (markAddr last))
  { s with lc := { s.lc with resumed := false } }

/-- SENSING_COMPLETE (R200): the array is sensed; a transition in progress is completed, and its done step resets the
device; else the wires are valid and PD_30 follows (R229). -/
def sensingOp (s : State) : State :=
  if s.boot.phase = .sensing && domOn s 27 then
    let s := senseArray s
    if [1, 2, 3, 4].any (inProgress s) then deviceResetOp ([1, 2, 3, 4].foldl resumeTransition s) none
    else
      let s := latchLifecycle s
      settleDomains { s with boot := { s.boot with phase := .up } }
  else s

/-! ### Certificates (R221 to R225) -/

/-- Bytes of `CERT_BUFFER`. -/
def certBytes (s : State) (off n : Nat) : List Byte := (List.range n).map fun i => smGet s.lc.certBuffer (off + i) 0

/-- 0 free, 1 Lantern, 2 PF0. -/
def certHolder (s : State) : Nat := regF s (aLc 0x060) 0 2

/-- The source number of a master that may submit. -/
def certSource (m : Nat) : Nat := if m = lantern then 1 else if m = 0x300 then 2 else 0

/-- Bytes of OTP words. -/
def otpBytes (s : State) (a n : Nat) : List Byte := wordBytes ((List.range n).map fun i => otpData s (a + i))

/-- The checks of R221 in order; 0 where all pass. The submitter and its challenge are those of the submission. -/
def certCode (s : State) : Nat :=
  let b := certBytes s
  let kind := leNat (b 2 1)
  let st := lcState s
  let rights := w32 (leNat (b 4 4))
  let target := leNat (b 8 1)
  let digest := otpBytes s 556 12
  if (reg s (aLc 0x064)).toNat ≠ 5520 || leNat (b 0 2) ≠ 1 || !(kind = 1 || kind = 2) || leNat (b 9 7) ≠ 0 ||
      leNat (b 5517 3) ≠ 0 || (s.lc.certFrom = 2 && kind = 1) then 0x10
  else if fld (crit s 10) 0 3 ≠ 0 then 0x11
  else if leNat (b 3 1) ≠ st || !(st = 2 || (st = 3 && kind = 1)) || s.lc.transition.isSome then 0x12
  else if b 16 16 ≠ otpBytes s 32 4 then 0x13
  else if s.lc.certChallenge ≠ some (b 32 32) then 0x14
  else if (if kind = 1 then rights &&& 0xFFFFFF00 ≠ 0 || (bitOf rights 7 && st ≠ 3) || target ≠ 0
           else rights ≠ 0 || !(target = 3 || target = 4)) then 0x15
  else if digest = zeros 48 || hash 2 (b 64 2048) ≠ digest then 0x16
  else if !ecdsa384Ok (b 64 96) (hash 2 (b 0 2112)) (b 2112 96) then 0x17
  else if !Config.mldsa65 (b 160 1952) (b 0 2112) (b 2208 3309) then 0x17
  else 0

/-- The certificate buffer is wiped and released, and nothing is pending. -/
def certWipe (s : State) : State :=
  let s := setReg (setReg s (aLc 0x060) 0) (aLc 0x064) 0
  { s with lc := { s.lc with certBuffer := [], certPending := false, certFrom := 0, certChallenge := none } }

/-- A submission ends: its result, its record, the buffer wiped and released (R222, R223, R225). -/
def certEnd (s : State) (code : Nat) : State :=
  let kind := leNat (certBytes s 2 1)
  let rights := w32 (leNat (certBytes s 4 4))
  let s := emit s islLantern lantern 0x051 [w32 kind, rights, w32 code]
  setReg (certWipe s) (aLc 0x06C) (w32 code)

/-- A session opens with its rights; a Hub right applies R178 (R225, R226). -/
def openSession (s : State) (rights : W32) : State :=
  if s.lc.session.isSome then s
  else
    let s := { s with lc := { s.lc with session := some rights } }
    if hubRight rights && domOn s 26 then reseed s 1 else s

/-- Crank 0 can be claimed. -/
def crank0Free (s : State) : Bool := wheelOn s 0 && [0, 1].any fun x => (ctx s 0 x).state = .free

/-- CERT_CHECK (R224, R225). -/
def certCheckOp (s : State) : State :=
  if s.lc.certPending && hubOn s then
    if powerTarget s ≠ 0 || !crank0Free s then certEnd s 0x19
    else
      let code := certCode s
      let kind := leNat (certBytes s 2 1)
      let rights := w32 (leNat (certBytes s 4 4))
      let target := leNat (certBytes s 8 1)
      let s := certEnd s code
      if code ≠ 0 then s else if kind = 1 then openSession s rights else startTransition s target
  else s

/-- CERT_TIMEOUT (R224). -/
def certTimeoutOp (s : State) : State := if s.lc.certPending then certEnd s 0x18 else s

/-- CERT_SUBMIT by the holder (R222 to R225): the submission uses the challenge, whatever comes of it. -/
def certSubmitOp (s : State) : State :=
  if s.lc.certPending then s
  else if s.lc.session.isSome then certEnd (endChallenge s) 0x1A
  else
    let lc := { s.lc with certPending := true, certFrom := certHolder s, certChallenge := s.lc.challenge, challenge := none }
    hubInt { s with lc } "INT_CERT"

/-- CERT_CLAIM (R223). -/
def certClaimOp (s : State) (m : Nat) (v : W32) : State :=
  let code := fld v 0 2
  if certHolder s = 0 && code = certSource m then setReg s (aLc 0x060) (w32 code)
  else if certHolder s = certSource m && code = 0 then setReg s (aLc 0x060) 0
  else s

/-- LN_CHALLENGE_REQ (R222): 32 bytes from Drip, or a wait for them. -/
def challengeReqOp (s : State) : State :=
  let s := dropChallenge s
  match dripTake s 8 with
  | some (ws, s) => { s with lc := { s.lc with challenge := some (wordBytes ws), challengeAsked := false } }
  | none => { s with lc := { s.lc with challengeAsked := true } }

/-- LN_CLOSE (R226). -/
def lnCloseOp (s : State) : State := closeSession s

/-! ### Registers (R227) -/

/-- `LC_STATUS`. -/
def lcStatusWord (s : State) : W32 :=
  let v := reg s (aLc 0x008)
  match s.lc.transition with
  | some t => setFld (setFld v 31 1 1) 16 4 t.step
  | none => v

/-- Registers marked "Lantern". -/
def lanternMarked (off : Nat) : Bool :=
  [0x000, 0x004, 0x008, 0x020, 0x024, 0x028, 0x030, 0x060, 0x06C].contains off || (0x040 ≤ off && off < 0x060)

/-- Registers of the certificate's holder. -/
def holderReg (off : Nat) : Bool := off = 0x064 || off = 0x068 || (0x1000 ≤ off && off < 0x3000)

/-- Who may write a register of the block. -/
def lcMayWrite (s : State) (m off : Nat) : Bool :=
  let holder := certHolder s ≠ 0 && certHolder s = certSource m
  if off = 0x004 then m = hubA || (m = lantern && lcState s < 2)
  else if off = 0x020 then m = hubA || m = lantern
  else if off = 0x02C then m = hubA && inRom s
  else if off = 0x030 || off = 0x060 then m = lantern || m = 0x300
  else if holderReg off then holder
  else m = lantern && lanternMarked off

/-- Who may read a register of the block. -/
def lcMayRead (s : State) (m off : Nat) : Bool :=
  isHub m || (m = lantern && (lanternMarked off || (holderReg off && certHolder s = 1))) ||
  (m = 0x300 && (off = 0x030 || (0x040 ≤ off && off < 0x070) || (holderReg off && certHolder s = 2)))

/-- A read of the block. -/
def lcRead (s : State) (off : Nat) : W32 :=
  if off = 0x008 then lcStatusWord s
  else if off = 0x024 then w32 (256 * b2n s.lc.certPending + debugLevel s)
  else if off = 0x028 then rightsNow s
  else if 0x040 ≤ off && off < 0x060 then w32 (field (s.lc.challenge.getD []) (off - 0x040) 4)
  else if 0x1000 ≤ off && off < 0x3000 then w32 (leNat (certBytes s (off - 0x1000) 4))
  else reg s (aLc off)

/-- A granted write of the block. -/
def lcWriteOp (s : State) (m off : Nat) (v : W32) : State :=
  if off = 0x004 then lcRequestOp s v
  else if off = 0x020 then (if bitOf v 0 then lnCloseOp s else s)
  else if off = 0x02C then openSession s v
  else if off = 0x030 then (if bitOf v 0 then challengeReqOp s else s)
  else if off = 0x060 then certClaimOp s m v
  else if off = 0x068 then (if bitOf v 0 then certSubmitOp s else s)
  else if 0x1000 ≤ off && off < 0x3000 then
    let buf := (List.range 4).foldl (fun b i => smSet b (off - 0x1000 + i) 0 (BitVec.ofNat 8 (fld v (8 * i) 8))) s.lc.certBuffer
    { s with lc := { s.lc with certBuffer := buf } }
  else plainWrite s (aLc off) v

/-- The kind of a refused access: Lantern's own rights, or the window's. -/
def refusedKind (m : Nat) : Nat := if m = lantern then vLantern else vWindow

/-- An access to the block in the OTP controller island (R19, R227). -/
def lcAccess (s : State) (m off : Nat) (ok : Bool) (f : State → State) : State :=
  guarded s m (aLc off) (domOn s 27) fun s => if ok then f s else violate s m (refusedKind m) (aLc off)

/-- A write of the block by a master. -/
def lcWrite (s : State) (m off : Nat) (v : W32) : State :=
  lcAccess s m off (lcMayWrite s m off) fun s => lcWriteOp s m off v

/-! ### The Lantern port (R217, R218) -/

/-- The port answers: PD_29 on and the TAP selected. -/
def lanternUp (s : State) : Bool := domOn s 29 && s.lc.selected

/-- An instruction is loaded and its register shifts out. -/
def lanternShift (s : State) (ir : BitVec 5) (bits v : Nat) : State :=
  if lanternUp s then emitOut { s with lc := { s.lc with ir } } (.lantern bits v) else s

/-- `IDCODE`. -/
def idcodeValue : Nat := Config.siliconRevision.toNat <<< 28 ||| 0x5120 <<< 12 ||| Config.vendorCode.toNat <<< 1 ||| 1

/-- The level of each PCTL pin, and of each FWP_N pin where it is high. -/
def pctlWord (s : State) : BitVec 12 := BitVec.ofNat 12 ((List.range 12).map fun n => b2n (pctlLevel s n) * 2 ^ n).sum
def fwpWord (s : State) : BitVec 4 := BitVec.ofNat 4 ((List.range 4).map fun p => b2n (fwpHigh s p) * 2 ^ p).sum

/-- `SAMPLE` and `EXTEST` under `BOUNDARY_SCAN`: the boundary register captures the pins and shifts out; what `EXTEST` shifts
in is free, as its row carries no data, and drives other pins than PCTL's (R217, R218, log 83). -/
def boundaryOp (s : State) (ir : BitVec 5) : State :=
  if !lanternUp s then s
  else
    let s := { s with lc := { s.lc with ir } }
    if bitOf (rightsNow s) 6 then
      let pctl := pctlWord s
      let fwp := fwpWord s
      let driven := Config.boundaryIn s.draws % 2 ^ Config.boundaryLength
      let (w, s) := drawWord s
      let s := if ir = 3 then { s with lc := { s.lc with extest := driven } } else s
      emitOut s (.lantern Config.boundaryLength (Config.boundaryValue pctl fwp w.toNat % 2 ^ Config.boundaryLength))
    else violate s lantern vLantern 0

/-- The 48 bits of `LN_MAILBOX` as they shift out (log 83): data in [47:16], offset in [15:1], write in [0]. -/
def mailboxBits (data : W32) (off : Nat) (write : Bool) : Nat := data.toNat * 2 ^ 16 + off % 2 ^ 15 * 2 + b2n write

/-- LN_MAILBOX: a 48-bit access to a register of R227; the data bits of a write's answer are free (log 83). -/
def mailboxOp (s : State) (write : Bool) (off : Nat) (v : W32) : State :=
  if !lanternUp s then s
  else
    let s := { s with lc := { s.lc with ir := 0x10 } }
    if write then
      let (w, s) := drawWord (lcWrite s lantern off v)
      emitOut s (.lantern 48 (mailboxBits w off true))
    else
      let s := lcAccess s lantern off (lcMayRead s lantern off) id
      emitOut s (.lantern 48 (mailboxBits (if domOn s 27 && lcMayRead s lantern off then lcRead s off else 0) off false))

/-- `LN_UID`. -/
def uidOp (s : State) : State := lanternShift s 0x08 128 (leNat (otpBytes s 32 4))

/-- BYPASS (R217): one bit, for `BYPASS` and every code that the table does not list; a listed code selects its own register. -/
def bypassOp (s : State) (ir : BitVec 5) : State :=
  match ir.toNat with
  | 0x01 => lanternShift s ir 32 idcodeValue
  | 0x02 => boundaryOp s ir
  | 0x03 => boundaryOp s ir
  | 0x08 => uidOp s
  | 0x10 => mailboxOp s false 0 0
  | 0x11 => lanternShift s ir 96 0
  | _ => lanternShift s ir 1 0

/-- LANTERN_ESCAPE: 0 selection, 1 deselection, 2 reset. -/
def escapeOp (s : State) (kind : Nat) : State :=
  match kind with
  | 0 => { s with lc := { s.lc with selected := true } }
  | 1 => { s with lc := { s.lc with selected := false } }
  | 2 => { s with lc := { s.lc with ir := 1, selected := true } }
  | _ => s

/-! ### The commands -/

def execSensingComplete (s : State) : Host.Outcome State Fault Refusal := .next (sensingOp s)
def execLcRequest (m : Nat) (v : W32) (s : State) : Host.Outcome State Fault Refusal := .next (lcWrite s m 0x004 v)
def execTransitionStep (s : State) : Host.Outcome State Fault Refusal := .next (transitionStepOp s)
def execEraseFault (block : Nat) (s : State) : Host.Outcome State Fault Refusal := .next (eraseFaultOp s block)
def execIdcode (s : State) : Host.Outcome State Fault Refusal := .next (lanternShift s 0x01 32 idcodeValue)
def execSample (s : State) : Host.Outcome State Fault Refusal := .next (boundaryOp s 0x02)
def execExtest (s : State) : Host.Outcome State Fault Refusal := .next (boundaryOp s 0x03)
def execLnUid (s : State) : Host.Outcome State Fault Refusal := .next (uidOp s)
def execLnMailbox (write : Bool) (off : BitVec 15) (v : W32) (s : State) : Host.Outcome State Fault Refusal :=
  .next (mailboxOp s write off.toNat v)
def execBypass (ir : BitVec 5) (s : State) : Host.Outcome State Fault Refusal := .next (bypassOp s ir)
def execLanternEscape (kind : Nat) (s : State) : Host.Outcome State Fault Refusal :=
  .next (if domOn s 29 then escapeOp s kind else s)
def execLnChallengeReq (m : Nat) (s : State) : Host.Outcome State Fault Refusal := .next (lcWrite s m 0x030 1)
def execChallengeExpiry (s : State) : Host.Outcome State Fault Refusal := .next (endChallenge s)
def execCertClaim (m : Nat) (v : W32) (s : State) : Host.Outcome State Fault Refusal := .next (lcWrite s m 0x060 v)
def execCertSubmit (m : Nat) (s : State) : Host.Outcome State Fault Refusal := .next (lcWrite s m 0x068 1)
def execCertCheck (s : State) : Host.Outcome State Fault Refusal := .next (certCheckOp s)
def execCertTimeout (s : State) : Host.Outcome State Fault Refusal := .next (certTimeoutOp s)
def execLnAuthGrant (m : Nat) (v : W32) (s : State) : Host.Outcome State Fault Refusal := .next (lcWrite s m 0x02C v)
def execLnClose (m : Nat) (s : State) : Host.Outcome State Fault Refusal := .next (lcWrite s m 0x020 1)

end Sys2Proof.Machine
end

