-- ==== Sys2Proof/Machine/FlashPolicy.lean ====
section
/-! DEFINITION. Flash policy: rule tables, decisions, swaps, the transaction log and the shipped gatekeeper program
(11_flash_policy.md). -/

namespace Sys2Proof.Machine

/-! ### Tables (R283 to R287) -/

def activeBank (s : State) (p : Nat) : Nat := regF s (aPort p 0x3004) 0 1
def copyBusy (s : State) (p : Nat) : Bool := regB s (aPort p 0x3004) 2
def opAddr (p b n : Nat) : Nat := aPort p (0x1000 + 0x400 * b + 4 * n)
def winAddr (p b m : Nat) : Nat := aPort p (0x2000 + 0x400 * b + 0x10 * m)

/-- Classes of R284. -/
def clsRead : Nat := 0
def clsWrite : Nat := 1
def clsErase : Nat := 2
def clsRegwrite : Nat := 3
def clsOther : Nat := 4

def eAction (e : W32) : Nat := fld e 30 2
def eClass (e : W32) : Nat := fld e 27 3
def eAddr (e : W32) : Nat := fld e 24 2
def eExtent (e : W32) : Nat := fld e 7 5

/-- Every field holds a value that R284 gives, and R285 allows the combination. -/
def entryValid (e : W32) : Bool :=
  let wide := eClass e = 1 || eClass e = 2
  eAction e < 3 && eClass e < 5 && fld e 22 2 < 3 && fld e 20 2 < 3 && fld e 0 7 = 0 && eExtent e ≠ 29 && eExtent e ≠ 30 &&
    (wide || eExtent e = 0) && !(wide && eAddr e = 0 && eExtent e ≠ 31)

/-- The entry that a port acts on; an invalid one acts as a denied register write without an address (R285). -/
def entryActs (e : W32) : W32 := if entryValid e then e else setFld (setFld (setFld e 30 2 1) 27 3 3) 24 2 0

/-- A window of a bank. -/
structure Win where
  idx : Nat
  base : Nat
  last : Nat
  perm : Nat
  log : Bool
  tag : Nat
  deriving DecidableEq, Repr

/-- Window m, where it takes part in decisions (R287). -/
def winOf (s : State) (p b m : Nat) : Option Win :=
  let w0 := reg s (winAddr p b m)
  let w1 := reg s (winAddr p b m + 4)
  let w2 := reg s (winAddr p b m + 8)
  let w3 := reg s (winAddr p b m + 12)
  if bitOf w0 0 && fld w0 1 11 = 0 && fld w1 0 12 = 0 && w2 &&& 0xFFFF0070 = 0 && w3 = 0 && fld w0 12 20 ≤ fld w1 12 20 then
    some { idx := m, base := 4096 * fld w0 12 20, last := 4096 * fld w1 12 20 + 4095, perm := fld w2 0 4, log := bitOf w2 7,
           tag := fld w2 8 8 }
  else none

/-- The windows of a bank in their order. -/
def windows (s : State) (p b : Nat) : List Win := (List.range 64).filterMap (winOf s p b)

/-- The lowest-numbered window that contains a byte. -/
def decider (ws : List Win) (a : Nat) : Option Win := ws.find? fun w => w.base ≤ a && a ≤ w.last

/-- The permissions of a byte. -/
def permAt (ws : List Win) (dflt a : Nat) : Nat := ((decider ws a).map Win.perm).getD dflt

/-- Where the deciding window can change within `[lo, hi]`. -/
def breakpoints (ws : List Win) (lo hi : Nat) : List Nat :=
  lo :: (ws.flatMap fun w => [w.base, w.last + 1]).filter fun a => lo < a && a ≤ hi

/-! ### Decisions (R288 to R291, R296) -/

/-- 2^`SIZE_LOG2`. -/
def flashSize (s : State) (p : Nat) : Nat := 2 ^ regF s (aPort p 0x014) 8 5

/-- The extent that a class checks, first and last byte (R289). -/
def extentOf (e : W32) (a size : Nat) : Nat × Nat :=
  if eClass e = clsRead then (if eAddr e = 0 then (0, size - 1) else (a, a))
  else if eClass e = clsRegwrite then (a / 4096 * 4096, min (a / 4096 * 4096 + 4095) (size - 1))
  else if eExtent e = 31 then (0, size - 1)
  else
    let n := 2 ^ eExtent e
    (a / n * n, min (a / n * n + n - 1) (size - 1))

/-- The permission bit of a class (R287). -/
def permBit (cls : Nat) : Nat := if cls = clsRead then 0 else cls

/-- What a decision yields: denied, logged, deciding window of the first byte. -/
structure Verdict where
  denied : Bool
  log : Bool
  window : Option Win
  deriving DecidableEq, Repr

/-- The checks of R288 and R291 on an entry of a bank. -/
def decideBank (s : State) (p b : Nat) (e : W32) (a : Nat) : Verdict :=
  let logE := bitOf e 26 || eAction e = 2
  if eAction e = 1 then { denied := true, log := true, window := none }
  else if eClass e = clsOther || (eClass e = clsRegwrite && eAddr e = 0) then { denied := false, log := logE, window := none }
  else
    let ws := windows s p b
    let dflt := regF s (aPort p (0x2800 + 4 * b)) 0 4
    let ext := extentOf e a (flashSize s p)
    let pts := breakpoints ws ext.1 ext.2
    let ok := pts.all fun x => (permAt ws dflt x).testBit (permBit (eClass e))
    let logW := pts.any fun x => (decider ws x).any Win.log
    { denied := !ok, log := !ok || logE || logW, window := decider ws ext.1 }

/-- The static table: default entries, reads unchecked, every change denied (R296). -/
def decideStatic (e : W32) : Verdict :=
  let denied := eAction e = 1 || eClass e = clsWrite || eClass e = clsErase || eClass e = clsRegwrite
  { denied, log := denied, window := none }

/-! ### Writes and swaps (R293 to R295) -/

/-- `OWNER`'s master. -/
def tableOwner (s : State) (p : Nat) : Nat := if regB s (aPort p 0x3000) 8 then hubA else gkId p

def writeIgnored (s : State) (p : Nat) : State := setRegB s (aPort p 0x3004) 5 true

/-- The bank of a table word at an offset. -/
def tableBank (off : Nat) : Nat :=
  if off < 0x2000 then (off - 0x1000) / 0x400 else if off < 0x2800 then (off - 0x2000) / 0x400 else (off - 0x2800) / 4

/-- Offsets of table words; word 3 of a window, which no register map lists, takes no value (R6). -/
def isTableWord (off : Nat) : Bool :=
  (0x1000 ≤ off && off < 0x1800) || (0x2000 ≤ off && off < 0x2800) || off = 0x2800 || off = 0x2804

/-- A write of a table word. -/
def tableWrite (s : State) (m p off : Nat) (v : W32) : State :=
  if m ≠ tableOwner s p || tableBank off = activeBank s p || copyBusy s p then writeIgnored s p
  else plainWrite s (aPort p off) v

/-- `SWAP` by the owner (R294). -/
def swapOp (s : State) (m p : Nat) : State :=
  if m ≠ tableOwner s p then writeIgnored s p else setRegB s (aPort p 0x3004) 1 true

/-- `COPY_ACTIVE` by the owner (R295). -/
def copyActiveOp (s : State) (m p : Nat) : State :=
  if m ≠ tableOwner s p then writeIgnored s p else setRegB s (aPort p 0x3004) 2 true

/-- Offsets of a bank's words. -/
def bankWords (b : Nat) : List Nat :=
  (List.range 256).map (fun n => 0x1000 + 0x400 * b + 4 * n) ++ (List.range 256).map (fun n => 0x2000 + 0x400 * b + 4 * n) ++
    [0x2800 + 4 * b]

/-- COPY_DONE (R295): the shadow takes the active bank's words. -/
def copyDoneOp (s : State) (p : Nat) : State :=
  if copyBusy s p then
    let b := activeBank s p
    let s := ((bankWords b).zip (bankWords (1 - b))).foldl (fun s e => setReg s (aPort p e.2) (reg s (aPort p e.1))) s
    setRegB s (aPort p 0x3004) 2 false
  else s

/-! ### The transaction log (R298 to R300) -/

/-- Write an entry, or drop it when the FIFO is full. -/
def tlogWrite (s : State) (p : Nat) (w0 w1 w2 : W32) : State :=
  let k := port s p
  if 256 ≤ k.tlog.length then bump (setPort s p { k with tlogLost := true }) (aPort p 0x3104)
  else
    let e := [w0, w1, setFld w2 23 1 (b2n k.tlogLost), w32 (nowUs32 s)]
    interrupt (setPort s p { k with tlog := k.tlog ++ [e], tlogLost := false }) (gkId p) intTlogReady

/-- A stopped gatekeeper: in reset, halted or frozen. -/
def coreStopped (s : State) (c : Nat) : Bool :=
  (core s c).run = .reset || (core s c).run = .halted || (core s c).frozen

/-- TLOG_POP: the gatekeeper while it runs, Hub-A while it does not. -/
def mayPop (s : State) (m p : Nat) : Bool :=
  (m = gkId p && !coreStopped s (gkId p)) || (m = hubA && coreStopped s (gkId p))

def tlogPopOp (s : State) (m p : Nat) : State :=
  if mayPop s m p then setPort s p { port s p with tlog := (port s p).tlog.drop 1 } else s

/-! ### The shipped gatekeeper program (R304, R305) -/

/-- Eight bytes of gatekeeper scratch. -/
def gkScratch (s : State) (p a : Nat) : Nat := leNat ((List.range 8).map fun i => smGet (port s p).scratch (a + i) 0)

/-- Write `n` bytes of gatekeeper scratch. -/
def gkScratchWrite (s : State) (p a n v : Nat) : State :=
  let cells := ((leBytes n v).zipIdx).foldl (fun m e => smSet m (a + e.2) 0 e.1) (port s p).scratch
  setPort s p { port s p with scratch := cells }

/-- A 32-bit word of gatekeeper scratch. -/
def gkWord (s : State) (p a : Nat) : W32 := w32 (gkScratch s p a)

/-- The program runs: its core is released and neither halted nor frozen. -/
def gkRuns (s : State) (p : Nat) : Bool := portOn s p && !coreStopped s (gkId p)

/-- The permissions that the program gives a window: those of the image, with WRITE and ERASE for the tag of an open
update window, without ERASE for a tag at its limit. -/
def gkPerm (k : GkProgram) (w2 : W32) : W32 :=
  let tag := fld w2 8 8
  let v := if k.window = some tag then w2 ||| 0x6 else w2
  if k.limited.contains tag then v &&& 0xFFFFFFFB else v

/-- Load an image of scratch into the shadow, as the program's writes do, and swap (R293, R304). -/
def gkLoad (s : State) (p image : Nat) : State :=
  let m := gkId p
  let b := 1 - activeBank s p
  let s := (List.range 256).foldl (fun s n => tableWrite s m p (0x1000 + 0x400 * b + 4 * n) (gkWord s p (image + 4 * n))) s
  let s := (List.range 64).foldl (fun s i =>
    let o := 0x2000 + 0x400 * b + 0x10 * i
    let src := image + 0x400 + 0x10 * i
    let s := tableWrite s m p o (gkWord s p src)
    let s := tableWrite s m p (o + 4) (gkWord s p (src + 4))
    tableWrite s m p (o + 8) (gkPerm (port s p).gk (gkWord s p (src + 8)))) s
  swapOp (tableWrite s m p (0x2800 + 4 * b) (gkWord s p (image + 0x800))) m p

/-- The image in force. -/
def gkImage (s : State) (p : Nat) : Nat := if (port s p).gk.lockdown then 0x9000 else 0x8000

def modGk (s : State) (p : Nat) (f : GkProgram → GkProgram) : State :=
  setPort s p { port s p with gk := f (port s p).gk }

/-- `BOOT_DONE` of the port (R278): the audit is disarmed. -/
def portBootDoneOp (s : State) (p : Nat) : State := armAudit (setRegB s (aPort p 0x0B0) 0 true) p false

/-- DESIGN CHOICE (log 60): the shipped program is there when the boot or run image of its scratch lists something. -/
def gkShipped (s : State) (p : Nat) : Bool :=
  (port s p).scratch.any fun e => 0x8000 ≤ e.1 && e.1 < 0x9804

/-- The gatekeeper's answer: `_HI` sets `OUT_READY` (R303). -/
def mailOutOp (s : State) (p : Nat) (hi : W32) : State :=
  hubInt (setRegB (setReg s (aPort p 0x322C) hi) (aPort p 0x3230) 2 true) "GK_OUT_READY" p

/-- `IN_TAKEN` (R303). -/
def inTakenOp (s : State) (p : Nat) : State :=
  setRegB (setPort s p { port s p with mail := false }) (aPort p 0x3230) 0 true

/-- Answer a mailbox message of the shipped program (R305). -/
def gkReply (s : State) (p msg result : Nat) : State :=
  mailOutOp (setReg s (aPort p 0x3228) (w32 (msg <<< 24 + result))) p 0

/-- Answer the message that a change served, if one did. -/
def gkAnswer (s : State) (p : Nat) (reply : Option Nat) : State :=
  match reply with
  | some msg => gkReply s p msg 0
  | none => s

/-- Make a change of the program's own state, load an image and wait for its swap (R304); `reply` is answered then. -/
def gkChange (s : State) (p : Nat) (reply : Option Nat) (f : GkProgram → GkProgram) : State :=
  let s := modGk s p fun k => { f k with reply, waiting := true }
  gkLoad s p (gkImage s p)

/-- Enter lockdown: boot-done, the run image, a swap; in lockdown already, the answer alone. -/
def gkLockdown (s : State) (p : Nat) (reply : Option Nat) : State :=
  if (port s p).gk.lockdown then gkAnswer s p reply
  else gkChange (portBootDoneOp s p) p reply fun k => { k with lockdown := true }

/-- The program starts its next change, and takes a message, only when none of its swaps is pending. -/
def gkReady (s : State) (p : Nat) : Bool := gkRuns s p && gkShipped s p && !(port s p).gk.waiting

/-- A window of the run image carries the tag. -/
def tagUsed (s : State) (p tag : Nat) : Bool :=
  (List.range 64).any fun i =>
    bitOf (gkWord s p (0x9400 + 0x10 * i)) 0 && fld (gkWord s p (0x9400 + 0x10 * i + 8)) 8 8 = tag

/-- `WP_ASSERT`. -/
def setWp (s : State) (p : Nat) (v : Bool) : State := setRegB s (aPort p 0x004) 0 v

/-- One table change (R304): the boot image at a release, or lockdown at once when `BOOT_DONE` reads 1 (R441); nothing
while Hub-A owns the tables. -/
def gkAct (s : State) (p : Nat) : GkChange → State
  | .boot =>
    if regB s (aPort p 0x3000) 8 then s
    else if regB s (aPort p 0x0B0) 0 then gkLockdown s p none
    else gkChange s p none id
  | .lockdown reply => gkLockdown s p reply
  | .limit tag => gkChange s p none fun k => { k with limited := k.limited ++ [tag] }
  | .interval => if (port s p).gk.limited = [] then s else gkChange s p none fun k => { k with limited := [] }
  | .openWindow tag ms =>
    gkChange (setWp s p false) p (some 2) fun k => { k with window := some tag, windowMs := min ms (gkScratch s p 0xD010) }
  | .closeWindow reply =>
    if (port s p).gk.window.isNone then gkAnswer s p reply
    else gkChange (setWp s p true) p reply fun k => { k with window := none, windowMs := 0 }

/-- The message in the mailbox (R305): a change, or its answer at once. -/
def gkMessage (s : State) (p msg tag ms : Nat) : State :=
  match msg with
  | 1 => gkAct s p (.lockdown (some 1))
  | 2 =>
    if !tagUsed s p tag then gkReply s p 2 2
    else if !(port s p).gk.lockdown || (port s p).gk.window.isSome then gkReply s p 2 1
    else gkAct s p (.openWindow tag ms)
  | 3 => if (port s p).gk.window = some tag then gkAct s p (.closeWindow (some 3)) else gkReply s p 3 2
  | _ => gkReply s p msg 2

/-- Take the message: `MSG`, `TAG` and time from the mailbox registers. -/
def gkTake (s : State) (p : Nat) : State :=
  let lo := reg s (aPort p 0x3220)
  gkMessage (inTakenOp s p) p (fld lo 24 8) (fld lo 0 8) (reg s (aPort p 0x3224)).toNat

/-- The ready program's next act: the change that waited longest, or a waiting message. -/
def gkNext (s : State) (p : Nat) : State :=
  if !gkReady s p then s
  else match (port s p).gk.todo with
  | c :: rest => gkAct (modGk s p fun k => { k with todo := rest }) p c
  | [] => if (port s p).mail then gkTake s p else s

/-- The program acts until a swap holds it or nothing is left: every waiting change, and a message. -/
def gkRun (s : State) (p : Nat) : State := (List.range ((port s p).gk.todo.length + 1)).foldl (fun s _ => gkNext s p) s

/-- A change joins those that wait. -/
def gkWant (s : State) (p : Nat) (c : GkChange) : State := gkRun (modGk s p fun k => { k with todo := k.todo ++ [c] }) p

/-- Boot policy at a release. -/
def gkStart (s : State) (p : Nat) : State := gkWant s p .boot

/-- `INT_TABLE_SWAPPED`: the change has taken effect. -/
def gkSwapped (s : State) (p : Nat) : State :=
  let reply := (port s p).gk.reply
  gkRun (gkAnswer (modGk s p fun k => { k with reply := none, waiting := false }) p reply) p

/-- SWAP_APPLY (R294). -/
def swapApplyOp (s : State) (p : Nat) : State :=
  let k := port s p
  if regB s (aPort p 0x3004) 1 && k.txn = none && !k.brake && !copyBusy s p then
    let v := reg s (aPort p 0x3004)
    let v := setFld (setFld (setFld v 0 1 (1 - fld v 0 1)) 1 1 0) 16 16 (fld v 16 16 + 1)
    let s := interrupt (setReg s (aPort p 0x3004) v) (gkId p) intTableSwapped
    if gkRuns s p && gkShipped s p then gkSwapped s p else s
  else s

/-- A Hub core's message: `_HI` raises `INT_HUB_SIGNAL`; one that was not taken is replaced (R303). -/
def mailInOp (s : State) (p : Nat) (hi : W32) : State :=
  let k := port s p
  let s := setReg s (aPort p 0x3224) hi
  let s := if k.mail then setRegB s (aPort p 0x3230) 1 true else s
  let s := setRegB (setPort s p { k with mail := true }) (aPort p 0x3230) 0 false
  gkRun (interrupt s (gkId p) intHubSignal) p

/-- A message of R305 from a Hub core, both halves. -/
def messageOp (s : State) (p msg tag : Nat) (ms : W32) : State :=
  if portOn s p then mailInOp (setReg s (aPort p 0x3220) (w32 (msg <<< 24 + tag))) p ms else s

/-- UPDATE_WINDOW_EXPIRY. -/
def windowExpiryOp (s : State) (p : Nat) : State :=
  if gkRuns s p && gkShipped s p && (port s p).gk.window.isSome then gkWant s p (.closeWindow none) else s

/-- INTERVAL_END: the counters zero; a bank whose ERASE was cleared swaps back. -/
def intervalEndOp (s : State) (p : Nat) : State :=
  if gkRuns s p && gkShipped s p then
    gkWant (setPort s p { port s p with scratch := smDrop (port s p).scratch 0xE800 0xF000 }) p .interval
  else s

/-- What the program does with a popped entry: a passed erase counts for its tag; the first logged read of
`BOOT_END_TAG` starts lockdown. -/
def gkDrain (s : State) (p : Nat) (e : List W32) : State :=
  let w0 := e.headD 0
  let tag := fld w0 0 8
  let endTag := gkScratch s p 0xD008
  if fld w0 15 2 ≠ 0 then s
  else if fld w0 20 4 = 4 then
    let n := gkScratch s p (0xE800 + 8 * tag) + 1
    let limit := gkScratch s p (0xE000 + 8 * tag)
    let s := gkScratchWrite s p (0xE800 + 8 * tag) 8 n
    if limit ≠ 0 && limit ≤ n && !(port s p).gk.limited.contains tag && !(port s p).gk.todo.contains (.limit tag) then
      gkWant s p (.limit tag)
    else s
  else if fld w0 21 3 = 0 && endTag ≠ 0 && tag = endTag && !(port s p).gk.lockdown then gkWant s p (.lockdown none)
  else s

/-- The running shipped program pops the oldest entry and acts on it. -/
def gkPop (s : State) (m p : Nat) : State :=
  let s' := tlogPopOp s m p
  match (port s p).tlog with
  | e :: _ => if m = gkId p && mayPop s m p && gkRuns s p && gkShipped s p then gkDrain s' p e else s'
  | [] => s'

/-! ### Reset of the gatekeeper (R306) -/

/-- `GK_RESET`: the core and the program that it ran. -/
def gkResetOp (s : State) (p : Nat) : State := resetCore (modGk s p fun _ => {}) (gkId p)

/-- `GK_STATUS`. -/
def gkStatus (s : State) (p : Nat) : W32 :=
  let k := core s (gkId p)
  w32 (4 * b2n k.frozen + 2 * b2n (k.run = .halted) + b2n (k.run = .reset))

end Sys2Proof.Machine
end

