-- ==== Sys2Proof/Machine/Flash.lean ====
section
/-! DEFINITION. Flash ports: host transactions, own commands, quiet windows, audits and sweeps (10_flash_ports.md,
09_boot.md R254 to R256). -/

namespace Sys2Proof.Machine

/-! ### Host mode (R262) -/

def addr4 (s : State) (p : Nat) : Bool := bitOf (hostMode s p) 1
def contRead (s : State) (p : Nat) : Bool := bitOf (hostMode s p) 2

/-- A record of a port: port, address, epoch (R282). -/
def portRecord (s : State) (p rtype addr : Nat) : State :=
  emit s (islPort p) (0x438 + p) rtype [w32 p, w32 addr, w32 (epoch s p)]

/-- The address that a port decodes: 3 or 4 bytes as the entry and the mode give, wrapped at the flash size (R286, R289). -/
def wrapAddr (s : State) (p : Nat) (e : W32) (a : Nat) : Nat :=
  let four := eAddr e = 3 || (eAddr e = 1 && addr4 s p)
  if eAddr e = 0 then 0 else (if four then a % 2 ^ 32 else a % 2 ^ 24) % flashSize s p

/-! ### A transaction -/

/-- HCS_N falls (R259, R260, R270, R277): a held platform's fall is ignored; one during a brake or an own command makes
the port discard the transaction, and FCS_A_N stays as it is. -/
def txnStartOp (s : State) (p : Nat) : State :=
  let k := port s p
  if !portOn s p || !released s p || k.txn.isSome then s
  else if k.owner.isSome then
    let s := setPort s p { k with txn := some { kind := 2 } }
    let a := (reg s (aPort p (0x044 + 0x20 * k.owner.getD 0))).toNat
    portRecord (setRegB s (aPort p 0x008) 6 true) p 0x0A2 a
  else if k.brake then
    let s := setPort s p { k with txn := some { kind := 1 } }
    portRecord (setRegB s (aPort p 0x008) 7 true) p 0x0A1 k.brakeAddr
  else emitOut (setPort s p { k with txn := some {} }) (.flashSelect p true)

/-- `EARLY_DATA` (R267, R282): one record per 1 ms. -/
def earlyData (s : State) (p a : Nat) : State :=
  let s := bump (setRegB s (aPort p 0x008) 4 true) (aPort p 0x0C8)
  let k := port s p
  if k.earlyAt.any fun t => s.ticks < t + 25000 then s
  else portRecord (setPort s p { k with earlyAt := some s.ticks }) p 0x0A4 a

/-- The flash drives the data phase (R284). -/
def dataToHost (t : HostTxn) : Bool := !bitOf t.entry 12

/-- How many of `bytes` data bytes of a passed read come before the first that denies reads (R266), where one does; the
bank is the deciding one (R283). -/
def readCutAt (s : State) (p : Nat) (t : HostTxn) (bytes : Nat) : Option Nat :=
  if t.denied || t.bank = 2 || eClass t.entry ≠ clsRead || eAddr t.entry = 0 || bytes = 0 then none
  else
    let size := flashSize s p
    let ws := windows s p t.bank
    let dflt := regF s (aPort p (0x2800 + 4 * t.bank)) 0 4
    let bad := fun (lo hi : Nat) => ((breakpoints ws lo hi).filter fun x => !(permAt ws dflt x).testBit 0).min?
    let last := t.addr + bytes - 1
    match bad t.addr (min last (size - 1)) with
    | some x => some (x - t.addr)
    | none => if last < size then none else (bad 0 (min (last - size) (size - 1))).map fun x => x + size - t.addr

/-- The running address of a passed read meets a byte that denies reads (R266). -/
def readCut (s : State) (p : Nat) (t : HostTxn) (bytes : Nat) : Bool := (readCutAt s p t bytes).isSome

/-- Data bytes that pass (R259, R265 to R267): none of a substituted read, those before the cut of a passed one. -/
def passedBytes (s : State) (p : Nat) (t : HostTxn) (bytes : Nat) : Nat :=
  if t.substituted then 0 else (readCutAt s p t bytes).getD bytes

/-- The mode after a transaction: continuous read from its mode byte, which any other than the set one clears; entry and exit
opcodes and the reset pair only when it passed (R262). -/
def trackMode (s : State) (p : Nat) (t : HostTxn) : State :=
  let cfg2 := reg s (aPort p 0x014)
  let v := hostMode s p
  let v :=
    if !bitOf t.entry 19 then v
    else if bitOf cfg2 4 && t.modeByte.toNat / 16 = fld cfg2 0 4 then setFld (setFld v 2 1 1) 8 8 t.opcode
    else setFld v 2 1 0
  let s := setReg s (aPort p 0x00C) v
  if t.denied || t.cont then setPort s p { port s p with resetArmed := false }
  else
    let c := reg s (aPort p 0x010)
    let hit := fun (lo : Nat) => fld c lo 8 ≠ 0 && fld c lo 8 = t.opcode
    let v := if hit 0 then setFld v 0 1 1 else v
    let v := if hit 8 then setFld v 0 1 0 else v
    let v := if hit 16 then setFld v 1 1 1 else v
    let v := if hit 24 then setFld v 1 1 0 else v
    let s := setReg s (aPort p 0x00C) v
    let s := if t.opcode = 0x99 && (port s p).resetArmed then hostModeReset s p else s
    setPort s p { port s p with resetArmed := t.opcode = 0x66 }

/-- Word 0 of a log entry (R298). -/
def logWord (t : HostTxn) (subst : Bool) : W32 :=
  w32 (t.opcode <<< 24 + eClass t.entry <<< 21 + b2n t.denied <<< 20 + b2n (isBraked t) <<< 19 + b2n subst <<< 18 +
    b2n t.cont <<< 17 + t.window <<< 8 + t.tag)

/-- Word 2 without `LOST` (R298). -/
def logEpoch (s : State) (p bytes : Nat) : W32 := w32 (epoch s p <<< 24 + min bytes 0x7FFFFF)

/-- A decided transaction ends: its data phase, the brake or FCS_A_N's rise, the mode, the log (R259, R265 to R269,
R291). FCS_A_N stays low while a brake is under way. -/
def txnFinish (s : State) (p bytes : Nat) (t : HostTxn) : State :=
  let n := passedBytes s p t bytes
  let s := setPort s p { port s p with txn := none }
  let s := emitOut s (if dataToHost t then .hostData p true n (bytes - n) else .hostData p false bytes 0)
  let s := releaseBus s p bytes t
  let subst := bytes ≠ 0 && dataToHost t && n ≠ bytes
  let s := trackMode s p t
  if t.logged then tlogWrite s p (logWord t subst) (w32 t.addr) (logEpoch s p bytes) else s

/-- A discarded transaction ends (R270, R277): its data phase reads as 1. -/
def discardFinish (s : State) (p bytes : Nat) (t : HostTxn) : State :=
  let s := emitOut (setPort s p { port s p with txn := none }) (.hostData p true 0 bytes)
  tlogWrite s p (w32 (b2n (bytes ≠ 0) <<< 18 + t.kind <<< 15 + 127 <<< 8)) 0 (logEpoch s p bytes)

/-- HOST_TRANSACTION_END (R268, R269, R291, R299): before the decision, HCS_N's rise waits for it. -/
def txnEndOp (s : State) (p bytes : Nat) : State :=
  match (port s p).txn with
  | none => s
  | some t =>
    if t.ended.isSome then s
    else if t.kind ≠ 0 then discardFinish s p bytes t
    else if !t.decided then setPort s p { port s p with txn := some { t with ended := some bytes } }
    else txnFinish s p bytes t

/-- The transaction as decided (R264, R286, R288, R296). -/
def txnDecided (s : State) (p opcode addr : Nat) (modeByte : Byte) (early : Bool) (t : HostTxn) : HostTxn :=
  let cont := contRead s p
  let op := if cont then fld (hostMode s p) 8 8 else opcode
  let st := staticNow s p
  let b := activeBank s p
  let e := if st then opDefault op else entryActs (reg s (opAddr p b op))
  let a := wrapAddr s p e addr
  let v := if st then decideStatic e else decideBank s p b e a
  { t with decided := true, opcode := op, cont, addr := a, entry := e, denied := v.denied,
           substituted := !bitOf e 12 && (v.denied || early), logged := v.log, modeByte,
           window := (v.window.map Win.idx).getD 127, tag := (v.window.map Win.tag).getD 0,
           bank := if st then 2 else b }

/-- HOST_DECISION (R264, R286, R288, R296): the transaction's opcode, address and mode byte; `early` when the host clocked
data before the decision. A rise of HCS_N that waited for it takes effect now (R269). -/
def txnDecideOp (s : State) (p opcode addr : Nat) (modeByte : Byte) (early : Bool) : State :=
  match (port s p).txn with
  | none => s
  | some t =>
    if t.kind ≠ 0 || t.decided || !portOn s p then s
    else
      let t' := txnDecided s p opcode addr modeByte early t
      let s := setPort s p { port s p with txn := some t' }
      let s := if t'.denied && eClass t'.entry = clsRead then bump s (aPort p 0x0C0) else s
      let s := if early then earlyData s p t'.addr else s
      match t.ended with
      | some bytes => txnFinish s p bytes t'
      | none => s

/-! ### Own commands (R273 to R277) -/

/-- Register of slot k. -/
def aOwn (p k off : Nat) : Nat := aPort p (off + 0x20 * k)
def ownBusy (s : State) (p k : Nat) : Bool := regB s (aOwn p k 0x054) 0
def ownKind (s : State) (p k : Nat) : Nat := regF s (aOwn p k 0x040) 8 2
def ownLen (s : State) (p k : Nat) : Nat := regF s (aOwn p k 0x048) 0 13
def ownBuf (s : State) (p k : Nat) : Nat := regPair s (aOwn p k 0x04C)

/-- End a slot's command: `DONE`, or `ERR` with its cause. -/
def ownEnd (s : State) (p k cause : Nat) : State :=
  let v := setFld (reg s (aOwn p k 0x054)) 0 1 0
  let v := if cause = 0 then setFld v 1 1 1 else setFld (setFld v 2 1 1) 4 2 cause
  let s := setReg s (aOwn p k 0x054) v
  if (port s p).owner = some k then setPort s p { port s p with owner := none } else s

/-- The parameters meet R273 and the table of R274. -/
def ownParamsOk (s : State) (p k : Nat) : Bool :=
  let n := ownLen s p k
  (k = 0 || regB s (aPort p 0x004) 2) &&
    match ownKind s p k with
    | 0 => 1 ≤ n && n ≤ 4096
    | 1 => 1 ≤ n && n ≤ 32
    | 2 => true
    | _ => 1 ≤ n && n ≤ 4096

/-- A write of `OWN_CMD_c`; `GO` while `BUSY` is ignored (R281). -/
def ownCmdWrite (s : State) (p k : Nat) (v : W32) : State :=
  if bitOf v 31 then
    if ownBusy s p k then s
    else
      let s := plainWrite s (aOwn p k 0x040) v
      if ownParamsOk s p k then setReg s (aOwn p k 0x054) (setFld (reg s (aOwn p k 0x054)) 0 1 1) else ownEnd s p k 1
  else plainWrite s (aOwn p k 0x040) v

/-- Own commands may use the bus: held, absent, or a quiet window is open, and neither a host transaction nor a brake
drives it (R275). -/
def busFree (s : State) (p : Nat) : Bool :=
  (!released s p || !regB s (aPlat p 0x000) 0 || regB s (aPort p 0x008) 1) && (port s p).txn = none && !(port s p).brake

/-- Slot k's settings, `OWN_CFG_A` or `OWN_CFG_B` (R274, R281). -/
def ownCfg (s : State) (p k : Nat) : W32 := reg s (aPort p (0x020 + 4 * k))

/-- A command on the flash bus in slot k's protocol and clock. -/
def slotCmd (s : State) (p k opcode : Nat) (addr : Option Nat) : FlashCmd :=
  let c := ownCfg s p k
  { port := p, cs := k, opcode, addr, proto := fld c 4 2, addr4 := bitOf c 21, clkDiv := regF s (aPort p 0x028) 0 5 }

/-- The command that slot k puts on the bus; `data` for a write class, a poll in 1S-1S-1S (R274). -/
def ownCmd (s : State) (p k : Nat) (data : List Byte) : FlashCmd :=
  let n := ownLen s p k
  let a := (reg s (aOwn p k 0x044)).toNat
  let op := regF s (aOwn p k 0x040) 0 8
  match ownKind s p k with
  | 0 => { slotCmd s p k op (some a) with dummy := fld (ownCfg s p k) 16 5, read := n }
  | 1 => { slotCmd s p k op (some a) with bytes := data }
  | 2 => slotCmd s p k op (if n = 1 then some a else none)
  | _ => { slotCmd s p k op none with proto := 0, read := 1 }

/-- Slot k takes the bus, with the data of a write class. -/
def ownIssue (s : State) (p k : Nat) (data : List Byte) : State :=
  let s := emitOut (setPort s p { port s p with owner := some k, lastSlot := k }) (.flash (ownCmd s p k data))
  if ownKind s p k = 1 || ownKind s p k = 2 then flashTouched s p k else s

/-- OWN_CMD_START (R274, R275): the slots in turn when both wait; in STANDBY none runs (R441). `CSB_PRESENT` counts when the
command comes to run (R273), and the data of a write class is fetched then. -/
def ownStartOp (s : State) (p k : Nat) : State :=
  let st := port s p
  if portOn s p && k < 2 && ownBusy s p k && st.owner = none && busFree s p && powerTarget s < 2 &&
      !(ownBusy s p (1 - k) && st.lastSlot = k) then
    if !ownParamsOk s p k then ownEnd s p k 1
    else if ownKind s p k = 1 then
      let r := dmaRead s (gkId p) (gkId p) (ownBuf s p k) (ownLen s p k)
      if r.2.2.isSome then ownEnd r.2.1 p k 2 else ownIssue r.2.1 p k r.1
    else ownIssue s p k []
  else s

/-- OWN_CMD_DONE (R274): the data of a read go to the buffer; a poll ends when the masked status is zero. -/
def ownDoneOp (s : State) (p k : Nat) (status : Byte) (data : List Byte) : State :=
  if (port s p).owner = some k then
    match ownKind s p k with
    | 0 =>
      let r := dmaWrite s (gkId p) (gkId p) (ownBuf s p k) (data.take (ownLen s p k))
      ownEnd r.1 p k (if r.2.isSome then 2 else 0)
    | 3 =>
      if status.toNat &&& regF s (aOwn p k 0x040) 16 8 = 0 then
        ownEnd (setRegF s (aOwn p k 0x054) 8 8 status.toNat) p k 0
      else s
    | _ => ownEnd s p k 0
  else s

/-- OWN_POLL_TIMEOUT (R274): the time of the poll has passed; its last status byte is shown. -/
def pollTimeoutOp (s : State) (p k : Nat) (status : Byte) : State :=
  if (port s p).owner = some k && ownKind s p k = 3 then ownEnd (setRegF s (aOwn p k 0x054) 8 8 status.toNat) p k 0
  else s

/-- The port's quiet pin is configured as `FLASH_QUIET_N` of its platform (R276, R505). -/
def quietPin (s : State) (p : Nat) : Option Nat :=
  let n := regF s (aPort p 0x004) 8 4
  if n < 12 && pctlFunc s n = 4 && pctlPlatform s n = p then some n else none

/-- QUIET_OPEN (R276). -/
def quietOpenOp (s : State) (p : Nat) : State :=
  match quietPin s p with
  | some n =>
    if portOn s p && regB s (aPort p 0x004) 3 then setRegB (setPin s n false) (aPort p 0x008) 1 true else setPin s n false
  | none => s

/-- QUIET_CLOSE (R276): reads and polls stop; a write-class or no-data command completes. -/
def quietCloseOp (s : State) (p : Nat) : State :=
  match quietPin s p with
  | some n =>
    let s := setPin s n true
    if portOn s p && regB s (aPort p 0x008) 1 then
      let s := setRegB s (aPort p 0x008) 1 false
      match (port s p).owner with
      | some k => if ownKind s p k = 0 || ownKind s p k = 3 then ownEnd s p k 3 else s
      | none => s
    else s
  | none => s

/-! ### Audit and sweeps (R254 to R256, R278 to R280) -/

/-- Address of block i's table entry. -/
def auditEntryAddr (s : State) (p i : Nat) : Nat := regPair s (aPort p 0x0A0) + 32 * i

/-- Block i's table entry, read by the port's DMA (R106, R255); a refused one never arrives. -/
def auditEntry (s : State) (p i : Nat) : Option (List Byte) × State :=
  let r := dmaRead s (gkId p) (gkId p) (auditEntryAddr s p i) 32
  (if r.2.2.isSome then none else some r.1, r.2.1)

/-- Index of the block at a flash address, within the table. -/
def auditIndex (s : State) (p a : Nat) : Option Nat :=
  let lo := (reg s (aPort p 0x0A8)).toNat
  let n := min 32768 (reg s (aPort p 0x0AC)).toNat
  if a % 4096 = 0 && lo ≤ a && (a - lo) / 4096 < n then some ((a - lo) / 4096) else none

/-- AUDIT_MISMATCH (R256): the record, the status bit, the hold. -/
def auditMismatch (s : State) (p a : Nat) : State :=
  let s := portRecord s p 0x0A5 a
  holdOp (setPlatStatus s p 10 true) p

/-- Compare an audited block with its entry. -/
def auditCompare (s : State) (p a : Nat) (digest : List Byte) : State :=
  match auditIndex s p a with
  | some i =>
    match auditEntry s p i with
    | (some e, s) => if e = digest then s else auditMismatch s p a
    | (none, s) => s
  | none => s

/-- The port's host transaction delivers the whole block at `a` (R254): a decided read whose data are the flash's own. -/
def deliversBlock (s : State) (p a : Nat) : Bool :=
  match (port s p).txn with
  | some t =>
    t.kind = 0 && t.decided && t.ended = none && eClass t.entry = clsRead && eAddr t.entry ≠ 0 && !t.substituted &&
      (let off := (a + flashSize s p - t.addr) % flashSize s p
       readCutAt s p t (off + 4096) = none)
  | none => false

/-- AUDIT_BLOCK (R254, R255): a whole block that one host read delivered while the audit is armed. -/
def auditBlockOp (s : State) (p : Nat) (addr : W32) (data : List Byte) (entryHere : Bool) : State :=
  if portOn s p && released s p && platStatus s p 9 && (auditIndex s p addr.toNat).isSome && data.length = 4096 &&
      deliversBlock s p addr.toNat then
    let d := sha256 data
    if entryHere then auditCompare s p addr.toNat d
    else setPort s p { port s p with pendingAudits := (port s p).pendingAudits ++ [(addr.toNat, d)] }
  else s

/-- AUDIT_ENTRY_ARRIVAL (R255). -/
def auditArrivalOp (s : State) (p : Nat) : State :=
  match (port s p).pendingAudits with
  | [] => s
  | (a, d) :: rest => auditCompare (setPort s p { port s p with pendingAudits := rest }) p a d

/-- The read of one block that a sweep puts on the bus: slot 0's read settings (R279). -/
def sweepCmd (s : State) (p a : Nat) : FlashCmd :=
  { slotCmd s p 0 (fld (ownCfg s p 0) 8 8) (some a) with dummy := fld (ownCfg s p 0) 16 5, read := 4096 }

/-- Bus time of a read in port clocks: FCLK periods of its phases, each `CLK_DIV` long (R274, R281). -/
def readTime (c : FlashCmd) : Nat :=
  let ab := if c.addr4 then 4 else 3
  c.clkDiv * (c.dummy +
    match c.proto with
    | 0 => 8 + 8 * ab + 8 * c.read
    | 1 => 8 + 8 * ab + 2 * c.read
    | 2 => 8 + 2 * ab + 2 * c.read
    | _ => 2 + ab + c.read)

/-- Port clocks that sweeps may use in 1 ms: `SWEEP_DUTY`/256 of it at 400 MHz (R279). -/
def sweepQuota (s : State) (p : Nat) : Nat := regF s (aPort p 0x080) 0 8 * 400000 / 256

/-- Milliseconds that have begun since the one in which the last sweep read ended. -/
def sweepMs (s : State) (p : Nat) : Nat := (s.ticks - (port s p).sweepFrom) / 25000

/-- The duty leaves a block's read its bus time. DESIGN CHOICE (log 84): a read that one millisecond's share does not hold
is spread over the shares of those that follow. -/
def sweepMay (s : State) (p cost : Nat) : Bool :=
  (port s p).sweepUsed + cost ≤ sweepQuota s p * (1 + sweepMs s p)

/-- Charge a block's read to the millisecond that it ends in. -/
def sweepCharge (s : State) (p cost : Nat) : State :=
  let k := port s p
  let ms := sweepMs s p
  setPort s p { k with sweepFrom := k.sweepFrom + 25000 * ms,
                       sweepUsed := if ms = 0 then k.sweepUsed + cost else min cost (sweepQuota s p) }

/-- Compare a swept block with its entry (R280). -/
def sweepCompare (s : State) (p i a : Nat) (data : List Byte) : State :=
  match auditEntry s p i with
  | (some e, s) => if e = sha256 data then s else portRecord (setRegB s (aPort p 0x008) 5 true) p 0x0A3 a
  | (none, s) => s

/-- SWEEP_BLOCK (R279, R280): one block read whole and compared; the position goes on. -/
def sweepBlockOp (s : State) (p : Nat) (data : List Byte) : State :=
  let n := min 32768 (reg s (aPort p 0x0AC)).toNat
  let i := (reg s (aPort p 0x084)).toNat % n
  let a := (reg s (aPort p 0x0A8)).toNat + 4096 * i
  let c := sweepCmd s p a
  if portOn s p && regB s (aPort p 0x080) 8 && busFree s p && !ownBusy s p 0 && !ownBusy s p 1 && n ≠ 0 &&
      data.length = 4096 && powerTarget s < 2 && sweepMay s p (readTime c) then
    let s := sweepCompare (emitOut (sweepCharge s p (readTime c)) (.flash c)) p i a data
    let s := setReg s (aPort p 0x084) (w32 ((i + 1) % n))
    if i + 1 = n then bump s (aPort p 0x088) else s
  else s

/-! ### Sequences of own commands -/

/-- The status register's busy bit, read with `0x05` in 1S-1S-1S (R271, R274). -/
def ownPoll (s : State) (p k : Nat) : State := emitOut s (.flash { slotCmd s p k 0x05 none with proto := 0, read := 1 })

/-- A change of the flash: write enable, the command, the poll. DEDUCED (log 85): `0x06` sets the write enable latch and a
status bit 0 of zero ends the change. -/
def ownChange (s : State) (p k opcode addr : Nat) (bytes : List Byte) : State :=
  let s := emitOut s (.flash (slotCmd s p k 0x06 none))
  ownPoll (flashTouched (emitOut s (.flash { slotCmd s p k opcode (some addr) with bytes })) p k) p k

/-- The aligned 32-byte pieces of a range: address and length (R274). -/
def programPieces (addr n : Nat) : List (Nat × Nat) :=
  ((List.range (n / 32 + 2)).map fun i =>
    let lo := max addr ((addr / 32 + i) * 32)
    (lo, min (addr + n) ((addr / 32 + i + 1) * 32) - lo)).filter fun e => e.2 ≠ 0

/-- Program bytes in commands of at most 32 (R274), each within an aligned 32-byte block. -/
def ownProgram (s : State) (p k addr : Nat) (bytes : List Byte) : State :=
  (programPieces addr bytes.length).foldl (fun s e => ownChange s p k 0x02 e.1 ((bytes.drop (e.1 - addr)).take e.2)) s

/-! ### Registers (R281, R306) -/

/-- HCS_N of port p is low: a transaction that HCS_N's rise has not ended. -/
def hostActive (s : State) (p : Nat) : Bool := (port s p).txn.any fun t => t.ended.isNone

/-- `PORT_STATUS`; `AUDIT_ARMED` mirrors `PLAT_STATUS_p`. -/
def portStatusWord (s : State) (p : Nat) : W32 :=
  setFld (setFld (setFld (reg s (aPort p 0x008)) 3 1 (b2n (platStatus s p 9))) 2 1 (b2n (port s p).owner.isSome)) 0 1
    (b2n (hostActive s p))

/-- Hub cores reach the gatekeeper's scratch only while it is stopped (R301); otherwise R95 applies. -/
def gkScratchBusy (s : State) (m p : Nat) : State := emit s (islPort p) m 0x013 []

/-- Address in gatekeeper scratch of a `GK_SCRATCH` offset. -/
def gkWindow (s : State) (p off : Nat) : Nat := 0x4000 * regF s (aPort p 0x321C) 0 2 + (off - 0xC000)

/-- Who may write an offset of port p's block: Hub-A all, Hub-B and the gatekeeper their own registers; the rule tables
ignore other writers of the block (R281, R293, R306). -/
def portMayWrite (m p off : Nat) : Bool :=
  let table := (0x1000 ≤ off && off < 0x3000) || off = 0x3008
  m = hubA ||
  (m = hubB && ((0x040 ≤ off && off < 0x078) || table || off = 0x321C || off = 0x3220 || off = 0x3224 || off = 0x3230 ||
    off = 0x3004 || off = 0x3120 || 0xC000 ≤ off)) ||
  (m = gkId p && (off = 0x004 || off = 0x0B0 || off = 0x080 || table || off = 0x3004 || off = 0x3120 || off = 0x3228 || off = 0x322C ||
    off = 0x3230))

/-- A granted write of port p's block. -/
def portWriteOp (s : State) (m p off : Nat) (v : W32) : State :=
  if off = 0x004 then (if m = gkId p then setRegB s (aPort p 0x004) 0 (bitOf v 0) else plainWrite s (aPort p 0x004) v)
  else if off = 0x040 then ownCmdWrite s p 0 v
  else if off = 0x060 then ownCmdWrite s p 1 v
  else if off = 0x0B0 then (if bitOf v 0 then portBootDoneOp s p else s)
  else if off = 0x3004 then
    plainWrite s (aPort p 0x3004) (if m = hubA then v else v &&& 0x20)
  else if off = 0x3008 then
    if m ≠ tableOwner s p then writeIgnored s p
    else
      let s := if bitOf v 0 then swapOp s m p else s
      if bitOf v 1 then copyActiveOp s m p else s
  else if isTableWord off then tableWrite s m p off v
  else if off = 0x3120 then (if bitOf v 0 then tlogPopOp s m p else s)
  else if off = 0x3208 then relStatusWrite s (aPort p 0x3208) v
  else if off = 0x320C then (if bitOf v 0 then gkResetOp s p else s)
  else if off = 0x3224 then (if isHub m then mailInOp s p v else s)
  else if off = 0x3220 then (if isHub m then plainWrite s (aPort p off) v else s)
  else if off = 0x3228 then (if m = gkId p then plainWrite s (aPort p off) v else s)
  else if off = 0x322C then (if m = gkId p then mailOutOp s p v else s)
  else if off = 0x3230 then
    if m = gkId p then
      let s := if bitOf v 0 then inTakenOp s p else s
      if bitOf v 1 then setRegB s (aPort p 0x3230) 1 false else s
    else plainWrite s (aPort p 0x3230) v
  else if 0xC000 ≤ off then
    (if coreStopped s (gkId p) then gkScratchWrite s p (gkWindow s p off) 4 v.toNat else gkScratchBusy s m p)
  else plainWrite s (aPort p off) v

/-- A write of port p's block by a master. -/
def portWrite (s : State) (m p off : Nat) (v : W32) : State :=
  guarded s m (aPort p off) (portOn s p) fun s =>
    granted s m (aPort p off) (portMayWrite m p off) fun s => portWriteOp s m p off v

/-- A read of port p's block; the value and the state after it. -/
def portRead (s : State) (m p off : Nat) : W32 × State :=
  if off = 0x008 then (portStatusWord s p, s)
  else if off = 0x3004 then (setFld (reg s (aPort p 0x3004)) 3 1 (b2n (staticNow s p)), s)
  else if off = 0x3100 then (w32 (port s p).tlog.length, s)
  else if 0x3110 ≤ off && off < 0x3120 then (((port s p).tlog.headD []).getD ((off - 0x3110) / 4) 0, s)
  else if off = 0x3210 then (gkStatus s p, s)
  else if off = 0x3234 then (platStatusRead s p, s)
  else if 0xC000 ≤ off then
    (if coreStopped s (gkId p) then (w32 (gkScratch s p (gkWindow s p off)), s) else (0, gkScratchBusy s m p))
  else if 0x1000 ≤ off && off < 0x1800 then (reg s (aPort p off) &&& 0xFFFFFF80, s)
  else if 0x2000 ≤ off && off < 0x2800 then
    let mask : W32 := match off % 16 with
      | 0 => 0xFFFFF001
      | 4 => 0xFFFFF000
      | 8 => 0x0000FF8F
      | _ => 0
    (reg s (aPort p off) &&& mask, s)
  else if off = 0x040 || off = 0x060 then (reg s (aPort p off) &&& 0x7FFFFFFF, s)
  else (reg s (aPort p off), s)

/-! ### The commands -/

/-- A write of `OWN_CMD_c` with `GO` and the row's `KIND`. -/
def ownGo (s : State) (m p k kind : Nat) (v : W32) : State :=
  if k < 2 then portWrite s m p (0x040 + 0x20 * k) (setFld (setFld v 8 2 kind) 31 1 1) else s

/-- A table word of the block by a master that reaches the block, on a port of the map. -/
def portCmd (s : State) (m p off : Nat) (v : W32) : State := if p < 4 then portWrite s m p off v else s

/-- `PLATFORM_RECOVERED` (R322): Hub firmware records a release under R310. -/
def recoveredRecord (s : State) (p : Nat) : State := if hubOn s then emit s islHub hubA 0x0B2 [w32 p] else s

/-- Release of a platform: a running gatekeeper program starts its boot policy anew (R249, R278, R304). -/
def releaseOp (s : State) (p : Nat) : State :=
  let s' := platformReleaseOp s p
  if !released s p && released s' p then
    let s' := if platStatus s' p 1 then recoveredRecord s' p else s'
    if gkRuns s' p && gkShipped s' p then gkStart s' p else s'
  else s'

def execPlatformRelease (p : Nat) (s : State) : Host.Outcome State Fault Refusal := .next (releaseOp s p)
def execAuditBlock (p : Nat) (addr : W32) (data : List Byte) (entryHere : Bool) (s : State) :
    Host.Outcome State Fault Refusal := .next (auditBlockOp s p addr data entryHere)
def execAuditEntryArrival (p : Nat) (s : State) : Host.Outcome State Fault Refusal := .next (auditArrivalOp s p)
def execHostTransactionStart (p : Nat) (s : State) : Host.Outcome State Fault Refusal := .next (txnStartOp s p)
def execHostDecision (p : Nat) (opcode : Byte) (addr : W32) (modeByte : Byte) (early : Bool) (s : State) :
    Host.Outcome State Fault Refusal := .next (txnDecideOp s p opcode.toNat addr.toNat modeByte early)
def execHostTransactionEnd (p bytes : Nat) (s : State) : Host.Outcome State Fault Refusal := .next (txnEndOp s p bytes)
def execOwnRead (m p k : Nat) (v : W32) (s : State) : Host.Outcome State Fault Refusal := .next (ownGo s m p k 0 v)
def execOwnWrite (m p k : Nat) (v : W32) (s : State) : Host.Outcome State Fault Refusal := .next (ownGo s m p k 1 v)
def execOwnNoData (m p k : Nat) (v : W32) (s : State) : Host.Outcome State Fault Refusal := .next (ownGo s m p k 2 v)
def execOwnPoll (m p k : Nat) (v : W32) (s : State) : Host.Outcome State Fault Refusal := .next (ownGo s m p k 3 v)
def execOwnCmdStart (p k : Nat) (s : State) : Host.Outcome State Fault Refusal := .next (ownStartOp s p k)
def execOwnCmdDone (p k : Nat) (status : Byte) (data : List Byte) (s : State) : Host.Outcome State Fault Refusal :=
  .next (ownDoneOp s p k status data)
def execOwnPollTimeout (p k : Nat) (status : Byte) (s : State) : Host.Outcome State Fault Refusal :=
  .next (pollTimeoutOp s p k status)
def execQuietOpen (p : Nat) (s : State) : Host.Outcome State Fault Refusal := .next (quietOpenOp s p)
def execQuietClose (p : Nat) (s : State) : Host.Outcome State Fault Refusal := .next (quietCloseOp s p)
def execSweepBlock (p : Nat) (data : List Byte) (s : State) : Host.Outcome State Fault Refusal :=
  .next (sweepBlockOp s p data)
def execPortBootDone (m p : Nat) (s : State) : Host.Outcome State Fault Refusal := .next (portCmd s m p 0x0B0 1)
def execSwap (m p : Nat) (s : State) : Host.Outcome State Fault Refusal := .next (portCmd s m p 0x3008 1)
def execSwapApply (p : Nat) (s : State) : Host.Outcome State Fault Refusal := .next (swapApplyOp s p)
def execCopyActive (m p : Nat) (s : State) : Host.Outcome State Fault Refusal := .next (portCmd s m p 0x3008 2)
def execCopyDone (p : Nat) (s : State) : Host.Outcome State Fault Refusal := .next (copyDoneOp s p)
def execTlogPop (m p : Nat) (s : State) : Host.Outcome State Fault Refusal :=
  .next (guarded s m (aPort p 0x3120) (portOn s p) fun s =>
    granted s m (aPort p 0x3120) (portMayWrite m p 0x3120) fun s => gkPop s m p)
def execGkReset (m p : Nat) (s : State) : Host.Outcome State Fault Refusal := .next (portCmd s m p 0x320C 1)
def execGkMailboxIn (m p : Nat) (hi : W32) (s : State) : Host.Outcome State Fault Refusal :=
  .next (portCmd s m p 0x3224 hi)
def execGkMailboxOut (m p : Nat) (hi : W32) (s : State) : Host.Outcome State Fault Refusal :=
  .next (portCmd s m p 0x322C hi)
def execInTaken (m p : Nat) (s : State) : Host.Outcome State Fault Refusal := .next (portCmd s m p 0x3230 1)
def execGkBootDoneMsg (p : Nat) (s : State) : Host.Outcome State Fault Refusal := .next (messageOp s p 1 0 0)
def execOpenWindow (p : Nat) (tag : BitVec 8) (ms : W32) (s : State) : Host.Outcome State Fault Refusal :=
  .next (messageOp s p 2 tag.toNat ms)
def execCloseWindow (p : Nat) (tag : BitVec 8) (s : State) : Host.Outcome State Fault Refusal :=
  .next (messageOp s p 3 tag.toNat 0)
def execUpdateWindowExpiry (p : Nat) (s : State) : Host.Outcome State Fault Refusal := .next (windowExpiryOp s p)
def execIntervalEnd (p : Nat) (s : State) : Host.Outcome State Fault Refusal := .next (intervalEndOp s p)

end Sys2Proof.Machine
end

