-- ==== Sys2Proof/Machine/Firewall.lean ====
section
/-! DEFINITION. The firewall: freezes and their release (17_security_matrix.md R446 to R451). -/

namespace Sys2Proof.Machine

/-- The port applies its static table (R296, R297): `STATIC_LATCH`. -/
def latchStatic (s : State) (p : Nat) : State := setRegB s (aPort p 0x3004) 4 true

/-- A core's clock stops; what it holds ends (R447). -/
def freezeCore (s : State) (c : Nat) : State :=
  let s := revertBanks (stopMaster s c) c
  modCore s c fun k => { k with frozen := true, resetSinceFreeze := false }

/-- A Spoke freezes; its Wheel DMA slot stops. -/
def freezeSpoke (s : State) (c : Nat) : State := freezeCore (if wdmaBusy s c then wdmaStop s c false else s) c

/-- A gatekeeper freezes. -/
def freezeGk (s : State) (p : Nat) : State := latchStatic (freezeCore s (gkId p)) p

/-- A PCIe function freezes: its queues stop, all that it sends is discarded. -/
def freezeFunc (s : State) (f : Nat) : State :=
  let s := setFunc s f { func s f with frozen := true, resetSinceFreeze := false }
  stopQueues s f

/-- A chain port freezes: `LINK_MODE` off, link down; banks that it owns revert (R525). -/
def freezeChain (s : State) (x : Nat) : State :=
  let s := setRegF (setRegB (setLink s x false) (aChain x 0x004) 0 false) (aChain x 0x000) 0 2 0
  let s := revertBanks s (0x410 + x)
  setCport s x { cport s x with frozen := true, resetSinceFreeze := false }

/-- The master is frozen now. -/
def isFrozen (s : State) (m : Nat) : Bool :=
  if isSpoke m || isGk m then (core s m).frozen
  else if isFunc m then (func s (m - 0x300)).frozen
  else if m = 0x410 || m = 0x411 then (cport s (m - 0x410)).frozen
  else false

/-- The master was reset since its freeze (R448). -/
def resetSince (s : State) (m : Nat) : Bool :=
  if isSpoke m || isGk m then (core s m).resetSinceFreeze
  else if isFunc m then (func s (m - 0x300)).resetSinceFreeze
  else (cport s (m - 0x410)).resetSinceFreeze

/-- The violating master stops, as its kind says. -/
def freezeMaster (s : State) (m : Nat) : State :=
  if isSpoke m then freezeSpoke s m
  else if isGk m then freezeGk s (m - 0x210)
  else if isFunc m then freezeFunc s (m - 0x300)
  else if m = 0x410 || m = 0x411 then freezeChain s (m - 0x410)
  else if m = lantern then
    let s := closeSession s
    { s with lc := { s.lc with freezes := s.lc.freezes + 1 } }
  else s

/-- `FREEZE_LAST_MASTER`, `FREEZE_LAST_ADDR`, the record and the event of a freeze (R450, R451). -/
def noteFreeze (s : State) (v : Violation) (late : Bool) : State :=
  let s := setReg s (aFw 0x010) (w32 (v.kind <<< 24 + b2n late <<< 20 + v.master))
  let s := setPair s (aFw 0x014) v.addr
  let s := emit s islHub 0x437 0x0F1 (w32 v.master :: w32 v.kind :: words64 v.addr ++ [w32 (b2n late)])
  if late then s else hubInt (setRegB s (aFw 0x004) 0 true) "INT_FREEZE" v.master

/-- The refusal was issued before the master's latest reset, or before Lantern's latest freeze (R449). -/
def isStale (s : State) (v : Violation) : Bool := v.resetCount ≠ resetCountOf s v.master

/-- One violation reaches the firewall (R24, R447, R449): a refusal from before the master's latest reset leaves a record with
`LATE`; a further refusal of a frozen master, or of Lantern before its freeze, leaves none. -/
def applyViolation (s : State) (v : Violation) : State :=
  if v.master = qfDma || isHub v.master then deviceResetOp s (some (v.master, v.kind, v.addr))
  else if isStale s v then (if v.master = lantern then s else noteFreeze s v true)
  else if isFrozen s v.master then s
  else freezeMaster (noteFreeze s v false) v.master

/-- FREEZE (R447): the oldest violation arrives. -/
def freezeOp (s : State) : State :=
  match s.fw.pending with
  | [] => s
  | v :: rest => applyViolation { s with fw := { s.fw with pending := rest } } v

/-- The freeze of a master ends. -/
def thawMaster (s : State) (m : Nat) : State :=
  if isSpoke m || isGk m then modCore s m fun k => { k with frozen := false, resetSinceFreeze := false }
  else if isFunc m then
    setFunc s (m - 0x300) { func s (m - 0x300) with frozen := false, resetSinceFreeze := false }
  else setCport s (m - 0x410) { cport s (m - 0x410) with frozen := false, resetSinceFreeze := false }

/-- UNFREEZE (R448). -/
def unfreezeOp (s : State) (v : W32) : State :=
  let m := fld v 0 11
  if !isFrozen s m then setReg s (aFw 0x024) 1
  else if !resetSince s m then setReg s (aFw 0x024) 2
  else emit (setReg (thawMaster s m) (aFw 0x024) 0) islHub 0x437 0x0F5 [w32 m]

/-! ### Registers (R450) -/

/-- A bit for each of `n` masters from `lo` that is frozen. -/
def frozenBits (s : State) (lo n : Nat) : Nat :=
  (List.range n).foldl (fun v i => if isFrozen s (lo + i) then v + 2 ^ i else v) 0

/-- Masters that are frozen now. -/
def frozenCount (s : State) : Nat :=
  ((List.range 0x412).filter fun m => isFrozen s m).length

/-- A read of the block below `0x1000`. -/
def fwRead (s : State) (off : Nat) : W32 :=
  if off = 0x000 then w32 (frozenCount s <<< 16 + b2n (frozenCount s ≠ 0))
  else if 0x100 ≤ off && off < 0x180 && off % 4 = 0 then w32 (frozenBits s (16 * ((off - 0x100) / 4)) 16)
  else if off = 0x180 then w32 (frozenBits s 0x210 4)
  else if off = 0x184 then w32 (frozenBits s 0x410 2)
  else if 0x200 ≤ off && off < 0x220 && off % 4 = 0 then w32 (frozenBits s (0x300 + 32 * ((off - 0x200) / 4)) 32)
  else reg s (aFw off)

/-- Hub-A's write below `0x1000`. -/
def fwWrite (s : State) (off : Nat) (v : W32) : State :=
  if off = 0x020 then unfreezeOp s v else plainWrite s (aFw off) v

/-! ### The commands -/

def execFreeze (s : State) : Host.Outcome State Fault Refusal := .next (freezeOp s)
def execUnfreeze (m : Nat) (v : W32) (s : State) : Host.Outcome State Fault Refusal :=
  .next (guarded s m (aFw 0x020) (hubOn s) fun s => byHubA s m (aFw 0x020) fun s => unfreezeOp s v)

end Sys2Proof.Machine
end

