-- ==== Sys2Proof/Machine/I3c.lean ====
section
/-! DEFINITION. The I3C target (21_pins_package.md R509 to R511). -/

namespace Sys2Proof.Machine

/-- `I3C_CFG.EN`. -/
def i3cEn (s : State) : Bool := regB s (aI3c 0x000) 31
/-- `I3C_STATUS.DA_VALID`, `DYN_ADDR`, `IBI_EN`. -/
def i3cAssigned (s : State) : Bool := regB s (aI3c 0x004) 31
def ibiEn (s : State) : Bool := regB s (aI3c 0x004) 9
def i3cRxFull (s : State) : Bool := regB s (aI3c 0x010) 31
def i3cTxGo (s : State) : Bool := regB s (aI3c 0x014) 31

/-- The target answers: PD_30 on and out of retention, not in STANDBY or DEEP, enabled (R509). -/
def i3cUp (s : State) : Bool := hubOn s && s.pwr.current < 2 && i3cEn s

/-- Bytes that the target drives, or no acknowledgement. -/
def i3cOut (s : State) (b : Option (List Byte)) : State := emitOut s (.i3c b)

/-- A CCC that the target acknowledges. -/
def i3cCcc (s : State) (f : State → State) : State := if i3cUp s then f (i3cOut s (some [])) else i3cOut s none

/-- A CCC that reads. -/
def i3cGet (s : State) (b : List Byte) : State := if i3cUp s then i3cOut s (some b) else i3cOut s none

/-- The dynamic address is assigned; `MODE_I3C` (the spike filter is off) follows it. -/
def i3cAssign (s : State) (addr : Nat) : State :=
  let v := reg s (aI3c 0x004)
  setReg s (aI3c 0x004) (setFld (setFld (setFld v 31 1 1) 16 7 addr) 8 1 1)

/-- A `STATIC_ADDR` or `INSTANCE` written while an address was held takes effect (R510). -/
def i3cTakeCfg (s : State) : State := { s with i3c := { s.i3c with staticAddr := regF s (aI3c 0x000) 16 7,
                                                                   instId := regF s (aI3c 0x000) 8 4 } }

/-- `RSTDAA`. -/
def i3cRelease (s : State) : State :=
  let v := reg s (aI3c 0x004)
  i3cTakeCfg (setReg s (aI3c 0x004) (setFld (setFld (setFld v 31 1 0) 16 7 0) 8 1 0))

/-- The target asks for an in-band interrupt: enabled, addressed, a message ready. -/
def i3cIbi (s : State) : State :=
  if ibiEn s && i3cAssigned s && i3cTxGo s then { s with i3c := { s.i3c with ibiPending := true } } else s

/-- `ENEC` and `DISEC`: bit 0 of the event byte is the IBI. -/
def i3cEvents (s : State) (events : BitVec 8) (en : Bool) : State :=
  if events.getLsbD 0 then
    let s := setRegB s (aI3c 0x004) 9 en
    if en then i3cIbi s else { s with i3c := { s.i3c with ibiPending := false } }
  else s

/-- A length of 8 to 256 bytes (R509). -/
def i3cLength (n : Nat) : Bool := 8 ≤ n && n ≤ 256

/-- The provisional ID (R509), most significant byte first. -/
def i3cPid (s : State) : List Byte :=
  beBytes 6 (0x2C5 <<< 33 + 0x5120 <<< 16 + s.i3c.instId <<< 12 + (uid s).toNat % 4096)

/-- The two status bytes of `GETSTATUS`: whether an interrupt is pending (the low four bits). -/
def i3cStatus (s : State) : List Byte := [0, if s.i3c.ibiPending then 1 else 0]

/-- A private write (R510). -/
def i3cWriteOp (s : State) (data : List Byte) : State :=
  if !i3cUp s || i3cRxFull s then i3cOut s none
  else
    let d := data.take s.i3c.maxWrite
    let s := { i3cOut s (some []) with i3c := { s.i3c with rx := d } }
    hubInt (setReg s (aI3c 0x010) (w32 (2 ^ 31 + d.length))) "INT_I3C"

/-- The buffered message. -/
def i3cMessage (s : State) : List Byte :=
  (List.range (min (regF s (aI3c 0x014) 0 9) s.i3c.maxRead)).map fun i => smGet s.i3c.tx i 0

/-- A private read (R510). -/
def i3cReadOp (s : State) : State :=
  if i3cUp s && i3cTxGo s then
    let s := i3cOut s (some (i3cMessage s))
    setRegB { s with i3c := { s.i3c with ibiPending := false } } (aI3c 0x014) 31 false
  else i3cOut s none

/-- `I3C_TX_CTRL` by Hub-B: the length, and `TX_GO`. -/
def txGoOp (s : State) (v : W32) : State :=
  let s := plainWrite s (aI3c 0x014) v
  if bitOf v 31 then i3cIbi (setRegB s (aI3c 0x014) 31 true) else s

/-- Hub-B clears `RX_FULL`. -/
def rxFullClearOp (s : State) : State := setRegB s (aI3c 0x010) 31 false

/-- Hub-A's write of `I3C_CFG`: address and instance wait for `RSTDAA` while an address is held. -/
def i3cCfgOp (s : State) (v : W32) : State :=
  let s := plainWrite s (aI3c 0x000) v
  if i3cAssigned s then s else i3cTakeCfg s

/-! ### Registers (R511) -/

/-- Who writes a register. -/
def i3cMayWrite (m off : Nat) : Bool := if off = 0x000 then m = hubA else m = hubB

/-- A granted write. -/
def i3cWrite (s : State) (off : Nat) (v : W32) : State :=
  if off = 0x000 then i3cCfgOp s v
  else if off = 0x010 then (if bitOf v 31 then rxFullClearOp s else s)
  else if off = 0x014 then txGoOp s v
  else if 0x500 ≤ off && off < 0x600 then
    let tx := (List.range 4).foldl (fun m i => smSet m (off - 0x500 + i) 0 (BitVec.ofNat 8 (fld v (8 * i) 8))) s.i3c.tx
    { s with i3c := { s.i3c with tx } }
  else s

/-- A read. -/
def i3cRead (s : State) (off : Nat) : W32 :=
  if 0x400 ≤ off && off < 0x500 then w32 (field s.i3c.rx (off - 0x400) 4)
  else if 0x500 ≤ off && off < 0x600 then w32 (leNat ((List.range 4).map fun i => smGet s.i3c.tx (off - 0x500 + i) 0))
  else reg s (aI3c off)

/-! ### The commands -/

/-- A write of the block. -/
def i3cAccess (s : State) (m off : Nat) (v : W32) : State :=
  guarded s m (aI3c off) (hubOn s) fun s => granted s m (aI3c off) (i3cMayWrite m off) fun s => i3cWrite s off v

def execEntdaa (addr : BitVec 7) (s : State) : Host.Outcome State Fault Refusal :=
  .next (if i3cAssigned s then i3cOut s none else i3cCcc s fun s => i3cAssign s addr.toNat)
def execSetdasa (addr : BitVec 7) (s : State) : Host.Outcome State Fault Refusal :=
  .next (if i3cAssigned s then i3cOut s none else i3cCcc s fun s => i3cAssign s addr.toNat)
def execSetaasa (s : State) : Host.Outcome State Fault Refusal :=
  .next (if i3cAssigned s then i3cOut s none else i3cCcc s fun s => i3cAssign s s.i3c.staticAddr)
def execEnec (events : BitVec 8) (s : State) : Host.Outcome State Fault Refusal :=
  .next (i3cCcc s fun s => i3cEvents s events true)
def execDisec (events : BitVec 8) (s : State) : Host.Outcome State Fault Refusal :=
  .next (i3cCcc s fun s => i3cEvents s events false)
def execRstdaa (s : State) : Host.Outcome State Fault Refusal := .next (i3cCcc s i3cRelease)
def execSetmwl (n : Nat) (s : State) : Host.Outcome State Fault Refusal :=
  .next (i3cCcc s fun s => if i3cLength n then { s with i3c := { s.i3c with maxWrite := n } } else s)
def execSetmrl (n : Nat) (s : State) : Host.Outcome State Fault Refusal :=
  .next (i3cCcc s fun s => if i3cLength n then { s with i3c := { s.i3c with maxRead := n } } else s)
def execGetmwl (s : State) : Host.Outcome State Fault Refusal := .next (i3cGet s (beBytes 2 s.i3c.maxWrite))
def execGetmrl (s : State) : Host.Outcome State Fault Refusal := .next (i3cGet s (beBytes 2 s.i3c.maxRead))
def execGetpid (s : State) : Host.Outcome State Fault Refusal := .next (i3cGet s (i3cPid s))
def execGetbcr (s : State) : Host.Outcome State Fault Refusal := .next (i3cGet s [0x06])
def execGetdcr (s : State) : Host.Outcome State Fault Refusal := .next (i3cGet s [0x00])
def execGetstatus (s : State) : Host.Outcome State Fault Refusal := .next (i3cGet s (i3cStatus s))
/-- `GETMXDS`: 12.5 MHz in both directions (R509), code 0 in both bytes. -/
def execGetmxds (s : State) : Host.Outcome State Fault Refusal := .next (i3cGet s [0x00, 0x00])
def execI3cPrivateRead (s : State) : Host.Outcome State Fault Refusal := .next (i3cReadOp s)
def execTxGo (m : Nat) (v : W32) (s : State) : Host.Outcome State Fault Refusal :=
  .next (i3cAccess s m 0x014 (v ||| 0x80000000))
def execRxFullClear (m : Nat) (s : State) : Host.Outcome State Fault Refusal := .next (i3cAccess s m 0x010 0x80000000)

end Sys2Proof.Machine
end

