-- ==== Sys2Proof/Machine/Pcie.lean ====
section
/-! DEFINITION. The PCIe controller: configuration requests, SPDM and IDE (13_host_queues.md R323 to R329). -/

namespace Sys2Proof.Machine

def pcieOn (s : State) : Bool := domOn s 17

/-- `HB_STATUS.CFG_READY`. -/
def cfgReady (s : State) : Bool := regB s (aHost 0x000) 1

/-- Completion statuses: successful, Configuration Request Retry Status, Completer Abort. -/
def cplOk : Nat := 0
def cplRetry : Nat := 1
def cplAbort : Nat := 2

/-! ### Configuration space -/

/-- Offsets of the command register and of the MSI-X control word. -/
def cfgCommand : Nat := 0x004
def cfgMsix : Nat := 0x0B0

/-- A word of function f's configuration space; the MSI-X Table Size is the length of its range less 1 (R329). -/
def cfgRead (s : State) (f off : Nat) : W32 :=
  let v := smGet (func s f).config off (Config.configWord f off)
  if off = cfgCommand then setFld v 2 1 (b2n (func s f).busMaster)
  else if off = cfgMsix then
    setFld (setFld (setFld v 31 1 (b2n (func s f).msixEnabled)) 30 1 (b2n (func s f).msixMasked)) 16 11 (vecCount s f - 1)
  else v

/-- A vector whose mask went away sends what is pending (R329). -/
def flushVector (s : State) (f i : Nat) : State :=
  let k := func s f
  if (vector s i).pending && k.msixEnabled && !k.msixMasked && !(vector s i).masked && !k.frozen then
    hostOut (setVector s i { vector s i with pending := false }) f (.msix f i)
  else s

/-- All vectors of a function. -/
def flushVectors (s : State) (f : Nat) : State :=
  (List.range (vecCount s f)).foldl (fun s i => flushVector s f (vecBase s f + i)) s

/-- A configuration write: Bus Master Enable (R343) and the MSI-X controls act. -/
def cfgWrite (s : State) (f off : Nat) (v : W32) : State :=
  let k := func s f
  let s := setFunc s f { k with config := smIns (smDel k.config off) off v }
  if off = cfgCommand then setBusMaster s f (bitOf v 2)
  else if off = cfgMsix then
    flushVectors (setFunc s f { func s f with msixEnabled := bitOf v 31, msixMasked := bitOf v 30 }) f
  else s

/-- CONFIG_REQUEST (R326). -/
def configOp (s : State) (f off : Nat) (write : Bool) (v : W32) : State :=
  if !pcieOn s || 256 ≤ f then s
  else if !bootDone s && !cfgReady s then emitOut s (.pcie cplRetry 0)
  else if write then emitOut (cfgWrite s f (off / 4 * 4) v) (.pcie cplOk 0)
  else emitOut s (.pcie cplOk (cfgRead s f (off / 4 * 4)))

/-- BAR_ACCESS_FAULT (R327): a PF0 BAR0 access that is not a naturally aligned 32- or 64-bit one; a frozen function's
reads return all ones and its writes are discarded (R447). -/
def barFaultOp (s : State) (write : Bool) (off size : Nat) : State :=
  if !pcieOn s || ((size = 4 || size = 8) && off % size = 0) then s
  else if (func s 0).frozen then (if write then s else emitOut s (.pcie cplOk all32))
  else
    let s := emit s islPcie 0x435 0x073 []
    if write then s else emitOut s (.pcie cplAbort 0)

/-! ### MSI-X tables in BAR4 (R325, R329) -/

/-- A write to function f's BAR4: 16-byte entries; the PBA is read only. -/
def msixWrite (s : State) (f off : Nat) (v : W32) : State :=
  let i := vecBase s f + off / 16
  if 0x8000 ≤ off || vecCount s f ≤ off / 16 || (func s f).frozen then s
  else
    let k := vector s i
    match off % 16 with
    | 0 => setVector s i { k with address := k.address &&& 0xFFFFFFFF00000000 ||| (v &&& 0xFFFFFFFC).setWidth 64 }
    | 4 => setVector s i { k with address := k.address &&& 0xFFFFFFFF ||| v.setWidth 64 <<< 32 }
    | 8 => setVector s i { k with data := v }
    | _ => flushVector (setVector s i { k with masked := bitOf v 0 }) f i

/-- A read of function f's BAR4. -/
def msixRead (s : State) (f off : Nat) : W32 :=
  if (func s f).frozen then all32
  else if 0x8000 ≤ off then
    w32 ((List.range 32).foldl (fun v i =>
      let j := (off - 0x8000) * 8 + i
      if j < vecCount s f && (vector s (vecBase s f + j)).pending then v + 2 ^ i else v) 0)
  else if vecCount s f ≤ off / 16 then 0
  else
    let k := vector s (vecBase s f + off / 16)
    match off % 16 with
    | 0 => k.address.setWidth 32
    | 4 => (k.address >>> 32).setWidth 32
    | 8 => k.data
    | _ => if k.masked then 1 else 0

/-! ### SPDM and IDE_KM (R328) -/

/-- SPDM 1.2 request codes. -/
def spdmVersion : Nat := 0x84
def spdmMeasure : Nat := 0xE0
def spdmFinish : Nat := 0xE5
def spdmEnd : Nat := 0xEC
/-- Requests that the responder's capabilities cover: `GET_VERSION`, `GET_CAPABILITIES`, `NEGOTIATE_ALGORITHMS`,
`GET_DIGESTS`, `GET_CERTIFICATE`, `CHALLENGE`, `GET_MEASUREMENTS`, `KEY_EXCHANGE`, `FINISH`, `KEY_UPDATE`, `END_SESSION`. -/
def spdmCodes : List Nat := [0x84, 0xE1, 0xE3, 0x81, 0x82, 0x83, 0xE0, 0xE4, 0xE5, 0xE9, 0xEC]

/-- `FW_MEASURE` as bytes. -/
def fwMeasureBytes (s : State) : List Byte := wordBytes ((List.range 12).map fun i => smGet s.boot.fwMeasure i 0)

/-- A measurement block. -/
def measurement (s : State) (i : Nat) : List Byte :=
  match i with
  | 1 => fwMeasureBytes s
  | 2 => activeManifest s
  | 3 => [BitVec.ofNat 8 (lcState s)]
  | 4 => [BitVec.ofNat 8 (debugLevel s)]
  | _ => []

/-- What `GET_MEASUREMENTS` answers: the number of blocks, all of them, or one. -/
def measurements (s : State) (param : Nat) : List Byte :=
  if param = 0 then [4]
  else if param = 0xFF then (List.range 4).flatMap fun i => measurement s (i + 1)
  else measurement s param

/-- SPDM_REQUEST: the response code is the request's less bit 7; an unsupported one is answered `ERROR`. A session opens at
`FINISH` and closes at `END_SESSION`. -/
def spdmOp (s : State) (code param : Nat) : State :=
  if !pcieOn s then s
  else if !spdmCodes.contains code then emitOut s (.spdm 0x7F [BitVec.ofNat 8 code])
  else
    let body :=
      if code = spdmVersion then [0x00, 0x12]
      else if code = spdmMeasure then measurements s param ++ Config.spdmBody code param
      else Config.spdmBody code param
    let s := if code = spdmFinish then { s with fabric := { s.fabric with spdm := true } }
      else if code = spdmEnd then { s with fabric := { s.fabric with spdm := false } } else s
    emitOut s (.spdm (code % 128) body)

/-- IDE_KM runs only inside a secured session. -/
def ideKm (s : State) (f : State → State) : State :=
  if !pcieOn s then s else if s.fabric.spdm then f s else emitOut s (.spdm 0x7F [])

/-- One link stream and eight selective streams. -/
def ideStreams : Nat := 9

/-- `KEY_PROG`. -/
def keyProgOp (s : State) (stream : Nat) (key : BitVec 256) : State :=
  if ideStreams ≤ stream then emitOut s (.spdm 0x03 [1])
  else emitOut { s with fabric := { s.fabric with ideKeys := smIns (smDel s.fabric.ideKeys stream) stream key } } (.spdm 0x03 [0])

/-- A key is programmed for the stream. -/
def hasKey (s : State) (stream : Nat) : Bool := s.fabric.ideKeys.any fun e => e.1 = stream

/-- `K_SET_GO`: only where a key is programmed. -/
def keyGoOp (s : State) (stream : Nat) : State :=
  if hasKey s stream then
    let go := s.fabric.ideGo.filter (· ≠ stream) ++ [stream]
    emitOut { s with fabric := { s.fabric with ideGo := go } } (.spdm 0x06 [0])
  else emitOut s (.spdm 0x06 [1])

/-- `K_SET_STOP`. -/
def keyStopOp (s : State) (stream : Nat) : State :=
  emitOut { s with fabric := { s.fabric with ideGo := s.fabric.ideGo.filter (· ≠ stream) } } (.spdm 0x06 [0])

/-! ### The commands -/

def execConfigRequest (f off : Nat) (write : Bool) (v : W32) (s : State) : Host.Outcome State Fault Refusal :=
  .next (configOp s f off write v)
def execBarAccessFault (write : Bool) (off size : Nat) (s : State) : Host.Outcome State Fault Refusal :=
  .next (barFaultOp s write off size)
def execSpdmRequest (code param : BitVec 8) (s : State) : Host.Outcome State Fault Refusal :=
  .next (spdmOp s code.toNat param.toNat)
def execQuery (s : State) : Host.Outcome State Fault Refusal :=
  .next (ideKm s fun s => emitOut s (.spdm 0x01 [BitVec.ofNat 8 ideStreams]))
def execKeyProg (stream : Nat) (key : BitVec 256) (s : State) : Host.Outcome State Fault Refusal :=
  .next (ideKm s fun s => keyProgOp s stream key)
def execKSetGo (stream : Nat) (s : State) : Host.Outcome State Fault Refusal := .next (ideKm s fun s => keyGoOp s stream)
def execKSetStop (stream : Nat) (s : State) : Host.Outcome State Fault Refusal := .next (ideKm s fun s => keyStopOp s stream)

end Sys2Proof.Machine
end

