-- ==== Sys2Proof/Machine/Zvc.lean ====
section
/-! DEFINITION. The device flash and the Zarvotum container: headers, manifests, operation streams (09_boot.md R234 to R241,
16_update.md R410 to R418, R435). -/

namespace Sys2Proof.Machine

/-! ### The device flash (R234) -/

def flashByte (s : State) (a : Nat) : Byte := smGet s.flash a 0xFF

/-- `n` bytes from flash address a. -/
def flashBytes (s : State) (a n : Nat) : List Byte := (List.range n).map fun i => flashByte s (a + i)

/-- Program bytes: bits go from 1 to 0 only. -/
def flashProgram (s : State) : Nat → List Byte → State
  | _, [] => s
  | a, b :: bs => flashProgram { s with flash := smSet s.flash a 0xFF (flashByte s a &&& b) } (a + 1) bs

/-- Erase `[lo, hi)`. -/
def flashErase (s : State) (lo hi : Nat) : State := { s with flash := smDrop s.flash lo hi }

/-- Hub firmware programs the device flash by own commands of slot 1 (R274): those for bytes that are not there yet. -/
def devProgram (s : State) (a : Nat) (bs : List Byte) : State :=
  let s := (programPieces a bs.length).foldl (fun s e =>
    let part := (bs.drop (e.1 - a)).take e.2
    if part.zipIdx.all fun x => flashByte s (e.1 + x.2) &&& x.1 = flashByte s (e.1 + x.2) then s
    else ownChange s 0 1 0x02 e.1 part) s
  flashProgram s a bs

/-- Hub firmware erases `[lo, hi)` of the device flash: 64 KiB blocks (`0xD8`, R215) where both ends are, else 4 KiB
sectors (`0x20`, R268); DEDUCED (log 85). -/
def devErase (s : State) (lo hi : Nat) : State :=
  let big := lo % 65536 = 0 && hi % 65536 = 0
  let size := if big then 65536 else 4096
  let s := (List.range ((hi - lo) / size)).foldl
    (fun s i => ownChange s 0 1 (if big then 0xD8 else 0x20) (lo + size * i) []) s
  flashErase s lo hi

/-- Base of slot A (0) or B (1). -/
def slotBase (k : Nat) : Nat := if k = 0 then 0x100000 else 0x700000

/-! ### The header (R411, R412, R240, R241) -/

def hdrLen : Nat := 8192
def hdrKind (h : List Byte) : Nat := field h 6 1
def hdrRollback (h : List Byte) : Nat := field h 8 4
def hdrFloor (h : List Byte) : Nat := field h 12 4
def hdrManifestLen (h : List Byte) : Nat := field h 16 4
def hdrSetLen (h : List Byte) : Nat := field h 20 4
def hdrManifestDigest (h : List Byte) : List Byte := slice h 32 48
/-- The header digest (R410). -/
def hdrDigest (h : List Byte) : List Byte := sha384 (fitBytes hdrLen h)

/-- All bytes are zero. -/
def allZero (bs : List Byte) : Bool := bs.all (· = 0)

/-- Check 1: fields, reserved bytes and lengths. -/
def hdrFormatOk (h : List Byte) : Bool :=
  h.length = hdrLen && field h 0 4 = 0x43565A56 && field h 4 2 = 1 && 1 ≤ hdrKind h && hdrKind h ≤ 3 &&
    field h 7 1 = 0 && allZero (slice h 24 8) && allZero (slice h 80 48) && allZero (slice h 5581 2611) &&
    hdrManifestLen h % 4096 = 0 && 4096 ≤ hdrManifestLen h && hdrManifestLen h ≤ 131072 &&
    hdrFloor h ≤ hdrRollback h && hdrSetLen h % 4096 = 0 && hdrLen + hdrManifestLen h ≤ hdrSetLen h &&
    hdrSetLen h ≤ 0x600000

/-- Digest of the signing key. -/
def hdrKeyDigest (h : List Byte) : List Byte := sha384 (slice h 128 2048)

/-- Both signatures over bytes 0 to 2,175. -/
def hdrSigOk (h : List Byte) : Bool :=
  let msg := slice h 0 2176
  ecdsa384Ok (slice h 128 96) (sha384 msg) (slice h 2176 96) &&
    Config.mldsa65 (slice h 224 1952) msg (slice h 2272 3309)

/-- The key digest that a firmware set's key must have (R240): G_17, or Heltor's while that reads zero. -/
def fwKeyDigest (s : State) : List Byte :=
  let d := otpBytes s 544 12
  if allZero d then fitBytes 48 Config.heltorKeyDigest else d

/-- Codes of R244. -/
def bcOk : Nat := 0x00
def bcFormat : Nat := 0x01
def bcRecord : Nat := 0x02
def bcKey : Nat := 0x03
def bcSignature : Nat := 0x04
def bcRollback : Nat := 0x05
def bcManifest : Nat := 0x06
def bcSize : Nat := 0x07
def bcBlock : Nat := 0x08
def bcDrip : Nat := 0x09

/-- Checks 1 to 5 of R241 in order; `bound` is the digest that a commit record names. -/
def hdrCheck (h : List Byte) (kind : Nat) (key : List Byte) (floor : Nat) (bound : Option (List Byte)) : Nat :=
  if !hdrFormatOk h || hdrKind h ≠ kind then bcFormat
  else if bound.any (· ≠ hdrDigest h) then bcRecord
  else if hdrKeyDigest h ≠ key then bcKey
  else if !hdrSigOk h then bcSignature
  else if hdrRollback h < floor then bcRollback
  else bcOk

/-! ### The manifest (R413, R414) -/

/-- A part entry. -/
structure Part where
  kind : Nat
  target : Nat
  id : Nat
  offset : Nat
  length : Nat
  firstBlock : Nat
  digest : List Byte
  deriving DecidableEq, Repr

def partHubFw : Nat := 1
def partPack : Nat := 2
def partConfig : Nat := 4
def partPlatform : Nat := 5
def partImage : Nat := 6

def manCount (m : List Byte) : Nat := field m 4 2
def manVersion (m : List Byte) : Nat := field m 6 2
def manBlocks (m : List Byte) : Nat := field m 8 4
def manChunks (m : List Byte) : Nat := field m 12 4
def manBase (m : List Byte) : List Byte := slice m 16 48

/-- Part entry i. -/
def manPart (m : List Byte) (i : Nat) : Part :=
  let e := slice m (64 + 64 * i) 64
  { kind := field e 0 1, target := field e 1 1, id := field e 2 2, offset := field e 4 4, length := field e 8 4,
    firstBlock := field e 12 4, digest := slice e 16 48 }

def manParts (m : List Byte) : List Part := (List.range (manCount m)).map (manPart m)

/-- Offsets of the block table and of the chunk table. -/
def manBlockTable (m : List Byte) : Nat := 64 + 64 * manCount m
def manBlockDigest (m : List Byte) (k : Nat) : List Byte := slice m (manBlockTable m + 32 * k) 32
def manChunkDigest (m : List Byte) (k : Nat) : List Byte := slice m (manBlockTable m + 32 * manBlocks m + 32 * k) 32

/-- Slot parts lie in entry order without gaps from the end of the manifest to the end of the set (R414). -/
def partsAbut : List Part → Nat → Nat → Bool
  | [], at_, stop => at_ = stop
  | p :: ps, at_, stop => p.offset = at_ && p.length % 4096 = 0 && partsAbut ps (at_ + p.length) stop

/-- Kinds of a firmware set: one `HUB_FW` first, one `GATEKEEPER` a port, one `CONFIG` (R414). -/
def kindsOk (ps : List Part) : Bool :=
  (ps.head?.any fun p => p.kind = partHubFw) && (ps.countP fun p => p.kind = partHubFw) = 1 &&
    ps.all (fun p => 1 ≤ p.kind && p.kind ≤ 5) && (ps.countP fun p => p.kind = partConfig) ≤ 1 &&
    ps.all (fun p => p.kind ≠ partConfig || p.length ≤ 393088) &&
    (List.range 4).all fun t => (ps.countP fun p => p.kind = 3 && p.target = t) ≤ 1

/-- The Hub firmware part's size limit (R241). -/
def hubFwSizeOk (m : List Byte) : Bool :=
  let p := manPart m 0
  p.kind = partHubFw && p.length % 4096 = 0 && p.length ≤ 4186112

/-- Check 6 of R241. -/
def manCheck (h m : List Byte) : Nat :=
  if sha384 m ≠ hdrManifestDigest h then bcManifest else if !hubFwSizeOk m then bcSize else bcOk

/-- The manifest of a firmware set has the form of R413 and R414. -/
def manFormOk (h m : List Byte) : Bool :=
  field m 0 4 = 0x4D435A56 && 1 ≤ manCount m && manCount m ≤ 64 && kindsOk (manParts m) &&
    partsAbut (manParts m) (hdrLen + hdrManifestLen h) (hdrSetLen h)

/-! ### The operation stream (R415, R416) -/

/-- How far a stream got. -/
inductive OpEnd where
  /-- More bytes are needed. -/
  | more
  | ended
  /-- Invalid, or a breach of R416. -/
  | bad
  deriving DecidableEq, Repr

/-- Outputs so far, by 2 × part (+ 1 for its image), with the part that the stream writes. -/
structure OpState where
  outs : SMap (List Byte) := []
  cur : Option Nat := none
  /-- Some part was begun other than part 0 (R319). -/
  beyond : Bool := false
  /-- A `COPY` was met. -/
  copied : Bool := false
  stop : OpEnd := .more
  deriving DecidableEq, Repr

/-- Bytes produced for an output. -/
def OpState.out (o : OpState) (k : Nat) : List Byte := smGet o.outs k []

/-- What a `COPY` may read: length and bytes of the base of an output. -/
structure OpBase where
  /-- Base part by `PART_ID`: none where no base set applies. -/
  part : Nat → Option (List Byte)
  /-- Platform's primary image, where its manifest is the one that the part names: address and length. -/
  image : Nat → Option (Nat → Byte)

/-- The header, manifest and block table that a `PLATFORM` part holds (R414). -/
def innerManifest (c : List Byte) : List Byte := slice c hdrLen (hdrManifestLen (c.take hdrLen))
def innerTable (c : List Byte) : List Byte := c.drop (hdrLen + hdrManifestLen (c.take hdrLen))

/-- The length that an output must have. -/
def outLength (ps : List Part) (o : OpState) (k : Nat) : Nat :=
  match ps[k / 2]? with
  | none => 0
  | some p => if k % 2 = 0 then p.length else (manPart (innerManifest (o.out (k - 1))) 0).length

/-- Append bytes at the current output position. -/
def opAppend (ps : List Part) (o : OpState) (bs : List Byte) : OpState :=
  match o.cur with
  | none => { o with stop := .bad }
  | some k =>
    let all := o.out k ++ bs
    if outLength ps o k < all.length then { o with stop := .bad }
    else { o with outs := smSet o.outs k [] all }

/-- `PART_BEGIN`. -/
def opBegin (ps : List Part) (o : OpState) (id flags len src : Nat) : OpState :=
  match ps.findIdx? fun p => p.id = id with
  | none => { o with stop := .bad }
  | some i =>
    let k := 2 * i + flags
    if len ≠ 0 || src ≠ 0 || o.out k ≠ [] || (flags = 1 && (ps.map Part.kind).getD i 0 ≠ partPlatform) then
      { o with stop := .bad }
    else { o with cur := some k, beyond := o.beyond || k ≠ 0 }

/-- `COPY`: the range must lie within its base. -/
def opCopy (ps : List Part) (base : OpBase) (o : OpState) (id len src : Nat) : OpState :=
  let o := { o with copied := true }
  match o.cur with
  | none => { o with stop := .bad }
  | some k =>
    if k % 2 = 1 then
      match base.image (k / 2) with
      | some f => opAppend ps o ((List.range len).map fun i => f (src + i))
      | none => { o with stop := .bad }
    else
      match base.part id with
      | some b => if src + len ≤ b.length then opAppend ps o (slice b src len) else { o with stop := .bad }
      | none => { o with stop := .bad }

/-- Bytes of an operation in the stream: its header, and the literal bytes of `INSERT` padded to 8. -/
def opSize (op len : Nat) : Nat := if op = 3 then 16 + (len + 7) / 8 * 8 else 16

/-- One operation at the front of a stream. -/
def opStep (ps : List Part) (base : OpBase) (o : OpState) (b : List Byte) : OpState :=
  let op := field b 0 1
  let flags := field b 1 1
  let id := field b 2 2
  let len := field b 4 4
  let src := field b 8 4
  if field b 12 4 ≠ 0 || 1 < flags then { o with stop := .bad }
  else match op with
  | 1 => opBegin ps o id flags len src
  | 2 => opCopy ps base o id len src
  | 3 => opAppend ps o ((b.drop 16).take len)
  | 4 => opAppend ps o (List.replicate len (BitVec.ofNat 8 (src % 256)))
  | 5 => { o with stop := .ended }
  | _ => { o with stop := .bad }

/-- Run a stream as far as it goes. -/
def opRun (ps : List Part) (base : OpBase) : Nat → OpState → List Byte → OpState
  | 0, o, _ => o
  | n + 1, o, b =>
    if o.stop ≠ .more || b.length < 16 then o
    else
      let o := opStep ps base o b
      let size := opSize (field b 0 1) (field b 4 4)
      if b.length < size then o else opRun ps base n o (b.drop size)

/-- Every part is whole, and every image that was begun (R416). -/
def opComplete (ps : List Part) (o : OpState) : Bool :=
  (List.range ps.length).all fun i =>
    (o.out (2 * i)).length = outLength ps o (2 * i) &&
      (o.out (2 * i + 1) = [] || (o.out (2 * i + 1)).length = outLength ps o (2 * i + 1))

/-- Number of the first of the whole 4 KiB blocks of `bs` that differs from its digest. -/
def badBlock (bs : List Byte) (digest : Nat → List Byte) : Option Nat :=
  (List.range (bs.length / 4096)).find? fun i => sha256 (slice bs (4096 * i) 4096) ≠ digest i

/-- Every whole block that the outputs hold matches its table entry: the manifest's, or the new image's. -/
def opBlocksOk (m : List Byte) (o : OpState) : Bool :=
  (List.range (manCount m)).all fun i =>
    (badBlock (o.out (2 * i)) fun k => manBlockDigest m ((manPart m i).firstBlock + k)).isNone &&
      (badBlock (o.out (2 * i + 1)) fun k => slice (innerTable (o.out (2 * i))) (32 * k) 32).isNone

/-! ### A container being received (R410) -/

/-- The parts of a container so far. -/
def zHeader (c : List Byte) : List Byte := c.take hdrLen
def zManifestEnd (c : List Byte) : Nat := hdrLen + hdrManifestLen (zHeader c)
def zManifest (c : List Byte) : List Byte := slice c hdrLen (hdrManifestLen (zHeader c))
def zStream (c : List Byte) : List Byte := c.drop (zManifestEnd c)
/-- Its length in chunks. -/
def zTotal (c : List Byte) : Nat := zManifestEnd c / 4096 + manChunks (zManifest c)

/-- Chunk k of the container matches what is known of it: operation chunks have a table entry. -/
def zChunkOk (c : List Byte) (k : Nat) : Bool :=
  let first := zManifestEnd c / 4096
  k < first || sha256 (slice c (4096 * k) 4096) = manChunkDigest (zManifest c) (k - first)

/-- The stream of a container, run. -/
def zRun (c : List Byte) (base : OpBase) : OpState :=
  opRun (manParts (zManifest c)) base ((zStream c).length / 16 + 1) {} (zStream c)

/-- No base applies: recovery listen, or `BASE_DIGEST` zero. -/
def noBase : OpBase := { part := fun _ => none, image := fun _ => none }

/-! ### Records of the device flash (R235, R236, R417, R418) -/

/-- The digest field of a record holds: SHA-384 of bytes 0 to 8 and 10 to `n`. -/
def recordDigest (b : List Byte) (n : Nat) : List Byte := sha384 (b.take 9 ++ (b.take n).drop 10)

/-- The common validity rule (R236). -/
def recordOk (b : List Byte) (magic n : Nat) : Bool :=
  field b 0 4 = magic && field b 9 1 = 0x3C && field b 10 2 = 0xFFFF && slice b n 48 = recordDigest b n

/-- Commit record copy i. -/
def commitAddr (i : Nat) : Nat := 0x10000 * i
def commitCopy (s : State) (i : Nat) : List Byte := flashBytes s (commitAddr i) 112
def commitOk (s : State) (i : Nat) : Bool := recordOk (commitCopy s i) 0x4B435A56 64
def commitGen (s : State) (i : Nat) : Nat := field (commitCopy s i) 4 4
def commitSlot (s : State) (i : Nat) : Nat := field (commitCopy s i) 8 1
def commitFloor (s : State) (i : Nat) : Nat := field (commitCopy s i) 12 4
def commitDigest (s : State) (i : Nat) : List Byte := slice (commitCopy s i) 16 48

def armAddr : Nat := 0x20000
def firstAddr : Nat := 0x21000
def armCopy (s : State) : List Byte := flashBytes s armAddr 120
def armOk (s : State) : Bool := recordOk (armCopy s) 0x4D524156 72
def firstCopy (s : State) : List Byte := flashBytes s firstAddr 120
def firstOk (s : State) : Bool := recordOk (firstCopy s) 0x54534656 72

/-- A record with its digest and `VALID` still erased. -/
def recordBytes (head tail : List Byte) : List Byte :=
  let b := head ++ [0xFF] ++ tail
  b ++ recordDigest b b.length

/-- Set `VALID` of the record at an address. -/
def setValid (s : State) (a v : Nat) : State := devProgram s (a + 9) [BitVec.ofNat 8 v]

/-- Program a record, then its `VALID`. -/
def writeRecord (s : State) (a : Nat) (b : List Byte) : State := setValid (devProgram s a b) a 0x3C

/-! ### The firmware set in a slot -/

def slotHeader (s : State) (k : Nat) : List Byte := flashBytes s (slotBase k) hdrLen
def slotManifest (s : State) (k : Nat) : List Byte :=
  flashBytes s (slotBase k + hdrLen) (min 131072 (hdrManifestLen (slotHeader s k)))
/-- Bytes of a part of the set in slot k. -/
def slotPart (s : State) (k : Nat) (p : Part) : List Byte := flashBytes s (slotBase k + p.offset) p.length

/-- Every block of the set in slot k matches its table. -/
def slotBlocksOk (s : State) (k : Nat) : Bool :=
  let m := slotManifest s k
  (manParts m).all fun p => (badBlock (slotPart s k p) fun i => manBlockDigest m (p.firstBlock + i)).isNone

/-- The set in slot k as the update protocol names it. -/
def slotSet (s : State) (k : Nat) : FwSet :=
  let h := slotHeader s k
  { digest := hdrDigest h, manifestDigest := hdrManifestDigest h, rollback := hdrRollback h, floor := hdrFloor h }

/-- A set passes every check in full (R433). -/
def slotVerifies (s : State) (k floor : Nat) : Bool :=
  hdrCheck (slotHeader s k) 1 (fwKeyDigest s) floor none = bcOk &&
    manCheck (slotHeader s k) (slotManifest s k) = bcOk && slotBlocksOk s k

/-! ### Configuration regions (R417, R435) -/

def cfgBase (i : Nat) : Nat := if i = 0 then 0x40000 else 0xA0000
def cfgHead (s : State) (i : Nat) : List Byte := flashBytes s (cfgBase i) 128
def cfgBody (s : State) (i : Nat) : List Byte := flashBytes s (cfgBase i + 128) (min 393088 (field (cfgHead s i) 12 4))
def cfgDigest (head body : List Byte) : List Byte := sha384 (head.take 9 ++ (head.take 32).drop 10 ++ body)
/-- The region's digest verifies, whatever its `VALID`. -/
def cfgWhole (s : State) (i : Nat) : Bool :=
  let h := cfgHead s i
  field h 0 4 = 0x47464356 && slice h 32 48 = cfgDigest h (cfgBody s i)
def cfgValid (s : State) (i : Nat) : Bool := cfgWhole s i && field (cfgHead s i) 9 1 = 0x3C
def cfgGen (s : State) (i : Nat) : Nat := field (cfgHead s i) 4 4
def cfgTag (s : State) (i : Nat) : List Byte := slice (cfgHead s i) 16 16

/-- The region that belongs to a set: valid, with its tag. -/
def cfgOf (s : State) (digest : List Byte) : Option Nat := [0, 1].find? fun i => cfgValid s i && cfgTag s i = digest.take 16

/-- The region that firmware uses (R435): its own, else the valid one of highest generation that is not newer. -/
def cfgInUse (s : State) (set : FwSet) (version : Nat) : Option Nat :=
  match cfgOf s set.digest with
  | some i => some i
  | none =>
    let ok := [0, 1].filter fun i => cfgValid s i && field (cfgHead s i) 10 2 ≤ version
    ok.find? fun i => ok.all fun j => cfgGen s j ≤ cfgGen s i

/-- Erase region i and write a body for a set, with `VALID` left erased. -/
def cfgProgram (s : State) (i gen version : Nat) (tag body : List Byte) : State :=
  let head := leBytes 4 0x47464356 ++ leBytes 4 gen ++ [0, 0xFF] ++ leBytes 2 version ++ leBytes 4 body.length ++ tag.take 16
  let s := devErase s (cfgBase i) (cfgBase i + 0x60000)
  devProgram s (cfgBase i) (head ++ cfgDigest head body ++ zeros 48 ++ body)

/-- The owner's configuration that the running firmware uses. -/
def ownerConfig (s : State) : List Byte :=
  match cfgInUse s s.upd.active (manVersion (slotManifest s s.upd.activeSlot)) with
  | some i => cfgBody s i
  | none => []

end Sys2Proof.Machine
end

