-- ==== Sys2Proof/Machine/Rom.lean ====
section
/-! DEFINITION. The Hub ROM as a program of the block: self-test, choice of a slot, loading, leaving, recovery listen
(09_boot.md R229 to R246, R177, R316). It advances with the clock, one step a tick, while Hub-A runs in it. -/

namespace Sys2Proof.Machine

/-- `BOOT_CFG` (R197). -/
def bootCfg (s : State) : W32 := crit s 12

/-- The straps that the ROM obeys: bit 0 `SAFE_READ`, bit 1 `FORCE_RECOVERY` (R232, R233). -/
def romStraps (s : State) : Nat := if bitOf (bootCfg s) 5 then 0 else s.boot.straps.toNat

def setRom (s : State) (r : RomPhase) : State := { s with boot := { s.boot with rom := r } }

/-- Hub-A starts in the ROM (R229). -/
def romStart (s : State) : State := if lcState s = 4 then holdAll (setRom s .stopped) else setRom s .power

/-- Hub-A runs. -/
def romRuns (s : State) : Bool :=
  let k := core s hubA
  hubOn s && k.run = .running && !k.frozen && !k.lnHalted

/-! ### Reading the device flash (R238, R239) -/

/-- A command of the ROM on FP_0's chip select B, 3-byte address. -/
def romCmd (opcode : Nat) (addr : Option Nat) (proto dummy clkDiv : Nat) : FlashCmd :=
  { port := 0, cs := 1, opcode, addr, proto, dummy, clkDiv }

/-- The mode that `BOOT_CFG` selects: 0b00 under `SAFE_READ`; 0b10 where 0b11 finds no table (R233, R238, R239). -/
def readMode (s : State) : Nat :=
  let mode := if (romStraps s).testBit 0 then 0 else fld (bootCfg s) 0 2
  if mode = 3 && Config.flashTable.isNone then 2 else mode

/-- The ROM takes the flash into its mode: for 0b11 it reads SFDP first, and issues the enable sequence of its table. The
length of that read is the model's (log 88). -/
def romEnterMode (s : State) : State :=
  let asked := !(romStraps s).testBit 0 && fld (bootCfg s) 0 2 = 3
  let s := if asked then emitOut s (.flash { romCmd 0x5A (some 0) 0 8 16 with read := 256 }) else s
  let s := if readMode s = 3 then
      ((Config.flashTable.map Config.FlashTable.enable).getD []).foldl (fun s op => emitOut s (.flash (romCmd op none 0 0 16))) s
    else s
  { s with boot := { s.boot with flashMode := readMode s } }

/-- A read in the mode in use. -/
def romRead (s : State) (a n : Nat) : State :=
  let c := match s.boot.flashMode with
    | 0 => romCmd 0x03 (some a) 0 0 16
    | 1 => romCmd 0x6B (some a) 1 8 4
    | 2 => { romCmd 0xEB (some a) 2 4 4 with modeByte := some 0 }
    | _ => romCmd ((Config.flashTable.map Config.FlashTable.readOpcode).getD 0) (some a) 3
        ((Config.flashTable.map Config.FlashTable.dummy).getD 0) 4
  emitOut s (.flash { c with read := n })

/-- Both copies of the commit record are read (R235). -/
def romReadCopies (s : State) : State := romRead (romRead s (commitAddr 0) 112) (commitAddr 1) 112

/-! ### Candidates (R237) -/

/-- A slot to try: its floor, and the commit record copy that binds it. -/
structure Candidate where
  slot : Nat
  floor : Nat
  bound : Option Nat
  deriving DecidableEq, Repr

/-- Valid copies, the one to follow first in front. -/
def commitOrder (s : State) : List Nat :=
  match commitOk s 0, commitOk s 1 with
  | true, true => if commitGen s 0 < commitGen s 1 then [1, 0] else [0, 1]
  | true, false => [0]
  | false, true => [1]
  | false, false => []

def romCandidates (s : State) : List Candidate :=
  let copies := commitOrder s
  let bound := copies.map fun i => ({ slot := commitSlot s i, floor := commitFloor s i, bound := some i } : Candidate)
  let bound := match bound with
    | a :: b :: _ => if a.slot = b.slot then [a] else [a, b]
    | l => l
  let floor := (copies.map (commitFloor s)).foldl max 0
  let rest := [0, 1].filter fun k => bound.all fun c => c.slot ≠ k
  bound ++ rest.map fun k => { slot := k, floor, bound := none }

/-- The checks of R241 on a candidate: code, and the block that mismatched. -/
def tryCandidate (s : State) (c : Candidate) : Nat × Nat :=
  let h := slotHeader s c.slot
  let m := slotManifest s c.slot
  let code := hdrCheck h 1 (fwKeyDigest s) c.floor (c.bound.map (commitDigest s))
  if code ≠ bcOk then (code, 0)
  else if manCheck h m ≠ bcOk then (manCheck h m, 0)
  else
    let p := manPart m 0
    match badBlock (slotPart s c.slot p) fun i => manBlockDigest m (p.firstBlock + i) with
    | some i => (bcBlock, i)
    | none => (bcOk, 0)

/-- Blocks of the Hub firmware part that the ROM has read when a candidate ended: all, or the one that mismatched and the
one that is read meanwhile (R242). -/
def blocksRead (s : State) (c : Candidate) (code block : Nat) : Nat :=
  let n := (manPart (slotManifest s c.slot) 0).length / 4096
  if code = bcOk then n else if code = bcBlock then min n (block + 2) else 0

/-- The reads that R241 and R242 make for a candidate that ended with a code. -/
def candidateReads (s : State) (c : Candidate) (code block : Nat) : State :=
  let base := slotBase c.slot
  let p := manPart (slotManifest s c.slot) 0
  let s := romRead s base hdrLen
  let s := if code = bcFormat || code = bcRecord || code = bcKey then s
    else romRead s (base + hdrLen) (hdrManifestLen (slotHeader s c.slot))
  (List.range (blocksRead s c code block)).foldl (fun s i => romRead s (base + p.offset + 4096 * i) 4096) s

/-- A candidate failed: what it loaded into Hub SRAM is zeroed (R242). -/
def zeroLoaded (s : State) (blocks : Nat) : State := wipeMem s 0x10000000 (0x10000000 + 4096 * blocks)

/-- A `BOOT_FAIL` record: slot, code, block (R242). -/
def bootFail (s : State) (slot code block : Nat) : State :=
  emit s islHub hubA 0x060 [w32 slot, w32 code, w32 block]

/-! ### Leaving the ROM (R245, R246) -/

/-- `BOOT_INFO`. -/
def bootInfoWord (s : State) (fail boundBy recovery fallback slot : Nat) : W32 :=
  w32 (fail <<< 16 + boundBy <<< 10 + s.boot.flashMode <<< 8 + s.boot.straps.toNat <<< 6 + recovery <<< 5 + fallback <<< 4 +
    b2n (commitOk s 1) <<< 3 + b2n (commitOk s 0) <<< 2 + slot)

/-- CDI_1 into slot 1 (R177). -/
def layer0 (s : State) : State :=
  if domOn s 26 then
    let key := hmac 2 (slot s 0).key (fwMeasureBytes s)
    setSlot s 1 { state := .loaded, attr := mkAttr 6 hubA 2 useDerive 10, head := 1, key }
  else s

/-- The firmware part is in Hub SRAM: measure, report, lock, derive, wipe lanes 0 to 2, jump. -/
def romLeave (s : State) (part manifest : List Byte) (info : W32) (gen : Nat) : State :=
  let s := wrBytes s 0x10000000 part
  let measure := (toWords (sha384 part)).zipIdx.foldl (fun m e => smSet m e.2 0 e.1) []
  let s := { s with boot := { s.boot with fwMeasure := measure, bootInfo := info, bootGen := w32 gen, measureLock := true,
                                          rom := .left } }
  let s := layer0 s
  modCore { s with lanes := smDrop s.lanes 64 67 } hubA fun k => { k with pc := Config.entryPoint manifest }

/-- Load candidate c, the `n`-th that is tried; `fail` is the code of the last one that failed. -/
def romLoad (s : State) (c : Candidate) (n fail : Nat) : State :=
  let m := slotManifest s c.slot
  let boundBy := (c.bound.map (· + 1)).getD 0
  romLeave s (slotPart s c.slot (manPart m 0)) m (bootInfoWord s fail boundBy 0 (b2n (n ≠ 0)) c.slot)
    ((c.bound.map (commitGen s)).getD 0)

/-! ### Recovery listen (R316) -/

/-- Transports that `BOOT_CFG` leaves enabled: 1 PF0, 2 I3C, 4 chain. -/
def listenMask (s : State) : Nat :=
  b2n (!bitOf (bootCfg s) 2) + 2 * b2n (!bitOf (bootCfg s) 3) + 4 * b2n (!bitOf (bootCfg s) 4)

def rcvTarget (s : State) (t : Nat) : RcvTarget := smGet s.rcv.targets t {}
def setRcvTarget (s : State) (t : Nat) (k : RcvTarget) : State :=
  { s with rcv := { s.rcv with targets := smSet s.rcv.targets t {} k } }

/-- Hold the platforms that run. -/
def holdReleased (s : State) : State := [0, 1, 2, 3].foldl (fun s p => if released s p then holdOp s p else s) s

/-- The ROM listens for an image: every platform is held, `HB_STATUS`, PD_17 for PF0, PD_22 and PD_25 for the chain, its
record (R237, R314, R316). -/
def romListen (s : State) (fail : Nat) : State :=
  let mask := listenMask s
  let s := holdReleased s
  let s := { s with boot := { s.boot with bootInfo := bootInfoWord s fail 0 0 (b2n (fail ≠ 0)) 0 } }
  if mask = 0 then setRom s .stopped
  else
    let s := setRcvTarget (setRom s .listen) 0 { state := .listen }
    let s := setRegB (setRegB s (aHost 0x000) 2 true) (aHost 0x000) 1 true
    let req := reg s (aPwr 0x020) ||| 0x20000 ||| (if mask < 4 then 0 else 0x2400000)
    emit (pdReqOp s req) islHub hubA 0x0B6 [w32 mask]

/-- Try the candidates in order (R237, R242, R244). -/
def romTry : List Candidate → Nat → Nat → State → State
  | [], _, fail, s => romListen s fail
  | c :: rest, n, fail, s =>
    let (code, block) := tryCandidate s c
    let s := candidateReads s c code block
    if code = bcOk then romLoad s c n fail
    else romTry rest (n + 1) code (bootFail (zeroLoaded s (blocksRead s c code block)) c.slot code block)

/-- Slot by slot (R237), once FP_0 runs and its bus is free (R275). -/
def romChoose (s : State) : State :=
  if portOn s 0 && busFree s 0 then
    let s := romReadCopies (romEnterMode s)
    if (romStraps s).testBit 1 then romListen s 0 else romTry (romCandidates s) 0 0 s
  else s

/-- PD_28 for Drip's self-test (R230); while it runs, PD_26, PD_18 and PD_0, and Wheel 0 at 1,200 MHz (R231). -/
def romPower (s : State) : State :=
  let s := pdReqOp s (reg s (aPwr 0x020) ||| 0x10000000)
  if domOn s 28 then
    let s := selftestOp s
    setRom (setStep (pdReqOp s (reg s (aPwr 0x020) ||| 0x04040001)) 0 4) (.selfTest false)
  else s

/-- Drip's self-test ended: passed, failed once, failed twice (R230). -/
def romSelfTest (s : State) (again : Bool) : State :=
  if s.drip.testing then s
  else if regB s (aDrip 0x004) 8 then
    (if domOn s 26 && domOn s 18 && domOn s 0 && !s.otp.slot0Waiting then setRom s .choose else s)
  else if again then
    let s := { s with boot := { s.boot with bootInfo := bootInfoWord s bcDrip 0 0 0 0 } }
    holdAll (setRom (bootFail s 0 bcDrip 0) .stopped)
  else setRom (selftestOp s) (.selfTest true)

/-- The ROM sets up chain port x for recovery listen. DESIGN CHOICE (log 87): a ring of 8 slots in bank 4 + x, which the
port owns, the serial lane, and a peloton ID of the ROM's own. -/
def romChainPort (s : State) (x : Nat) : State :=
  let s := handoverOp s hubA (4 + x) (w32 (0x410 + x))
  let s := setReg (setPair s (aChain x 0x030) (bankBase (4 + x))) (aChain x 0x038) 8
  linkModeOp (setPair s (aChain 0 0x2010) Config.romPelotonId.toNat) hubA x 1

/-- The chain ports that recovery listen uses, once their domains run (R316). -/
def romChain (s : State) : State :=
  if (listenMask s).testBit 2 && chainOn s && domOn s 25 && linkMode s 0 = 0 && linkMode s 1 = 0 then
    romChainPort (romChainPort s 0) 1
  else s

/-- One step of the ROM. -/
def romStep (s : State) : State :=
  if !romRuns s then s
  else match s.boot.rom with
  | .power => romPower s
  | .selfTest again => romSelfTest s again
  | .choose => romChoose s
  | .listen => romChain s
  | _ => s

/-- Hub-A resets the Hub (R429): both cores, the privileged registers, the Hub lanes; Hub-A runs in the ROM again. -/
def hubRestart (s : State) : State :=
  let s := [hubA, hubB].foldl (fun s c => coreLost (stopMaster s c) c) s
  let s := { s with hubs := [], lanes := smDrop s.lanes 64 68,
                    boot := { s.boot with fwMeasure := [], measureLock := false, bootInfo := 0, bootGen := 0,
                                          hubBVector := 0, hubBGo := false, fwDone := false } }
  romStart (modCore (firmwareLost s) hubA fun k => { k with run := .running })

end Sys2Proof.Machine
end

