-- ==== Sys2Proof/Machine/Recovery.lean ====
section
/-! DEFINITION. Commits, recovery messages and recovery listen (12_recovery.md R307 to R322, 16_update.md R432). Target 0 is
the device, 1 to 4 are platforms 0 to 3; transport 0 is PF0, 1 I3C, 2 chain UP, 3 chain DOWN. -/

namespace Sys2Proof.Machine

/-! ### The commit record (R432) -/

/-- The copy that does not bind; copy 1 when neither does. -/
def commitTarget (s : State) : Nat := if fld s.boot.bootInfo 10 2 = 2 then 0 else 1

/-- Highest generation of the valid copies. -/
def topGeneration (s : State) : Nat := ([0, 1].filter (commitOk s)).foldl (fun g i => max g (commitGen s i)) 0

/-- Steps 4 to 6: the configuration region of the set, the other copy, the arm record. -/
def commitTail (s : State) (copy : Nat) (digest : List Byte) : State :=
  let s := match [0, 1].find? fun i => cfgWhole s i && cfgTag s i = digest.take 16 && field (cfgHead s i) 9 1 = 0xFF with
    | some i => setValid s (cfgBase i) 0x3C
    | none => s
  let s := if commitOk s (1 - copy) then setValid s (commitAddr (1 - copy)) 0x00 else s
  if armOk s then setValid s armAddr 0x00 else s

/-- Commit the set in slot k. -/
def commitSet (s : State) (k : Nat) : State :=
  let set := slotSet s k
  let copy := commitTarget s
  let gen := topGeneration s + 1
  let s := devErase s (commitAddr copy) (commitAddr copy + 0x10000)
  let b := recordBytes (leBytes 4 0x4B435A56 ++ leBytes 4 gen ++ leBytes 1 k)
    (leBytes 2 0xFFFF ++ leBytes 4 set.floor ++ set.digest)
  let s := commitTail (writeRecord s (commitAddr copy) b) copy set.digest
  { s with upd := { s.upd with generation := gen, minRollback := set.floor } }

/-- Write the header, the manifest and the parts of a container into slot k (R320, R422). -/
def writeSet (s : State) (k : Nat) (c : List Byte) (o : OpState) : State :=
  let s := devErase s (slotBase k) (slotBase k + 0x600000)
  let s := devProgram s (slotBase k) (c.take (zManifestEnd c))
  let ps := manParts (zManifest c)
  (List.range ps.length).foldl
    (fun s i => devProgram s (slotBase k + (manPart (zManifest c) i).offset) (o.out (2 * i))) s

/-! ### Answers (R316, R317, R321) -/

def rcBusy : Nat := 0x20
def rcSequence : Nat := 0x21
def rcTimeout : Nat := 0x22
def rcTarget : Nat := 0x23
def rcFormat : Nat := 0x24
def rcStream : Nat := 0x25

/-- `STATE` values. -/
def RcvState.num : RcvState → Nat
  | .idle => 0
  | .listen => 1
  | .claimed => 2
  | .receiving => 3
  | .entering => 4

/-- Bytes 0 to 9 of a response. -/
def responseBytes (rtype seq state code next : Nat) : List Byte :=
  [BitVec.ofNat 8 rtype, BitVec.ofNat 8 seq, BitVec.ofNat 8 state, BitVec.ofNat 8 code] ++ leBytes 4 next ++ [0, 0]

/-- CRC-8 of bytes, polynomial x^8 + x^2 + x + 1: the PEC of DSP0233 and DSP0237 (R509). -/
def pec (bs : List Byte) : Byte :=
  BitVec.ofNat 8 (bs.foldl (fun c b =>
    (List.range 8).foldl (fun c _ => if 128 ≤ c then (2 * c) ^^^ 0x107 else 2 * c) (c ^^^ b.toNat)) 0)

/-- The address that I3C calls the target by: the dynamic one, or the static one in fallback. -/
def i3cAddress (s : State) : Nat := if i3cAssigned s then regF s (aI3c 0x004) 16 7 else s.i3c.staticAddr

/-- A response goes into the transmit buffer as one MCTP packet, with `TX_GO` (R510). PRESUMED (log 90): the packet. -/
def i3cRespond (s : State) (bytes : List Byte) : State :=
  let h := s.i3c.header
  let flags := 0xC0 ||| (h.getD 3 0 &&& 7)
  let packet := [0x01, h.getD 2 0, h.getD 1 0, flags] ++ s.i3c.message.take 3 ++ bytes
  let packet := packet ++ [pec (BitVec.ofNat 8 (2 * i3cAddress s + 1) :: packet)]
  let tx := packet.zipIdx.foldl (fun m e => smSet m e.2 0 e.1) []
  let v := setFld (setFld (reg s (aI3c 0x014)) 0 9 packet.length) 31 1 1
  i3cIbi (setReg { s with i3c := { s.i3c with tx } } (aI3c 0x014) v)

/-- A response leaves: into PF0's mailbox, on the chain, or by I3C. -/
def respond (s : State) (tr rtype seq state code next : Nat) : State :=
  let s := emitOut s (.response tr rtype seq state code next)
  if tr = 0 then
    let b := responseBytes rtype seq state code next ++ zeros 6
    let s := (List.range 4).foldl (fun s i => setReg s (aHost (0x2020 + 4 * i)) (w32 (field b (4 * i) 4))) s
    setRegB (setRegB s (aHost 0x2000) 2 false) (aHost 0x2000) 1 true
  else if tr = 1 then i3cRespond s (responseBytes rtype seq state code next ++ zeros 6)
  else sendRaw s (tr - 2) 0x30 (responseBytes rtype seq state code next)

/-- Who answers recovery messages: 0 nobody, 1 the ROM in recovery listen, 2 the Hub firmware. -/
def rcvServer (s : State) : Nat :=
  if s.boot.rom = .listen && romRuns s then 1 else if s.boot.rom = .left && hubBUp s then 2 else 0

/-- The transport is listened to. -/
def rcvEnabled (s : State) (tr : Nat) : Bool :=
  rcvServer s = 2 || (listenMask s).testBit (if tr = 0 then 0 else if tr = 1 then 1 else 2)

/-- An image is wanted for platform p: its attempt's source is outside (R307), and it is held. -/
def imageWanted (s : State) (p : Nat) : Bool :=
  let r := regF s (aPlat p 0x018) 8 3
  (r = 3 || r = 4) && regB s (aPlat p 0x000) 0 && !released s p && !quarantined s p

/-- The state of a target as it answers. -/
def rcvState (s : State) (t : Nat) : RcvState :=
  match (rcvTarget s t).state with
  | .idle => if 1 ≤ t && imageWanted s (t - 1) then .listen else .idle
  | x => x

/-- Do `f` for a request that is heard and whose target exists. -/
def rcvHeard (s : State) (tr rtype seq t : Nat) (f : State → State) : State :=
  if rcvServer s = 0 || !rcvEnabled s tr then s
  else if 4 < t then respond s tr (rtype + 0x80) seq 0 rcFormat 0
  else if rcvServer s = 1 && t ≠ 0 then respond s tr (rtype + 0x80) seq 0 rcTarget 0
  else f s

/-- Answer with the target's state and next chunk. -/
def rcvAnswer (s : State) (tr rtype seq t code : Nat) : State :=
  respond s tr (rtype + 0x80) seq (rcvState s t).num code (rcvTarget s t).next

/-! ### Claims (R318) -/

/-- The record of a claim that ended with a code: the device's boot failure, or the platform's attempt. -/
def claimRecord (s : State) (t code : Nat) : State :=
  if t = 0 then bootFail s 0 code 0
  else emit s islHub hubA 0x0B3 [w32 (t - 1), w32 (regF s (aPlat (t - 1) 0x018) 8 3), w32 code]

/-- A claim ends: the ROM zeroes the Hub SRAM that it wrote. -/
def endClaim (s : State) (t code : Nat) : State :=
  let s := if t = 0 && rcvServer s = 1 then
      wipeMem s 0x10000000 (0x10000000 + ((zRun (rcvTarget s 0).container noBase).out 0).length)
    else s
  let s := setRcvTarget s t { state := if t = 0 then .listen else .idle, code }
  if code = 0 then s else claimRecord s t code

/-- Header buffer of a transport and target. -/
def headerKey (tr t : Nat) : Nat := 8 * tr + t
def headerBuf (s : State) (tr t : Nat) : List Byte := smGet s.rcv.headers (headerKey tr t) []
def setHeaderBuf (s : State) (tr t : Nat) (b : List Byte) : State :=
  { s with rcv := { s.rcv with headers := smSet s.rcv.headers (headerKey tr t) [] b } }

/-- The floor of an unbound slot (R237 step 3). -/
def unboundFloor (s : State) : Nat := ((commitOrder s).map (commitFloor s)).foldl max 0

/-- Checks 1 and 3 to 5 for a target. -/
def rcvHeaderCheck (s : State) (t : Nat) (h : List Byte) : Nat :=
  if t = 0 then hdrCheck h 1 (fwKeyDigest s) (unboundFloor s) none
  else
    let cfg := ownerConfig s
    hdrCheck h 3 (Config.platformKeyDigest cfg (t - 1)) (Config.platformFloor cfg (t - 1)) none

/-- Chunks 0 and 1 on a transport (R317, R318). -/
def rcvHeader (s : State) (tr seq t index : Nat) (data : List Byte) : State :=
  let buf := if index = 0 then [] else headerBuf s tr t
  if 1 < index || buf.length ≠ 4096 * index then rcvAnswer s tr 2 seq t rcSequence
  else
    let h := buf ++ data
    if h.length < hdrLen then respond (setHeaderBuf s tr t h) tr 0x82 seq (rcvState s t).num 0 1
    else
      let code := rcvHeaderCheck s t h
      let s := setHeaderBuf s tr t []
      if code = bcOk then
        let s := if t = 0 then s else setRegF s (aPlat (t - 1) 0x018) 8 3 (if tr < 2 then 3 else 4)
        rcvAnswer (setRcvTarget s t { state := .claimed, claimant := some tr, next := 2, container := h }) tr 2 seq t 0
      else rcvAnswer (claimRecord s t code) tr 2 seq t code

/-! ### Chunks of a claim (R318 to R320) -/

/-- Number of chunks of a platform image's block table, after the manifest (R414). -/
def tableChunks (c : List Byte) : Nat := (32 * ((manPart (zManifest c) 0).length / 4096) + 4095) / 4096
/-- A platform container: its table and its operation stream. -/
def imageTable (c : List Byte) : List Byte := (zStream c).take (32 * ((manPart (zManifest c) 0).length / 4096))
def imageStream (c : List Byte) : List Byte := (zStream c).drop (4096 * tableChunks c)
def imageRun (c : List Byte) : OpState :=
  opRun (manParts (zManifest c)) noBase ((imageStream c).length / 16 + 1) {} (imageStream c)

/-- The manifest has arrived: its digest, its form, no base (R319). -/
def rcvManifestCheck (t : Nat) (c : List Byte) : Nat :=
  let m := zManifest c
  if t = 0 then
    if manCheck (zHeader c) m ≠ bcOk then manCheck (zHeader c) m
    else if !allZero (manBase m) || !manFormOk (zHeader c) m then rcStream
    else 0
  else if sha384 m ≠ hdrManifestDigest (zHeader c) then bcManifest
  else if manCount m ≠ 1 || (manPart m 0).kind ≠ partImage || (manPart m 0).length % 4096 ≠ 0 then bcSize
  else 0

/-- The stream's state after a chunk of a platform container. -/
def rcvImageCheck (c : List Byte) : Nat :=
  let m := zManifest c
  let k := c.length / 4096 - 1 - zManifestEnd c / 4096
  let last := slice c (c.length - 4096) 4096
  if k < tableChunks c then
    (if k + 1 = tableChunks c && sha384 (imageTable c) ≠ (manPart m 0).digest then bcManifest else 0)
  else if sha256 last ≠ manChunkDigest m (k - tableChunks c) then rcStream
  else
    let o := imageRun c
    if (badBlock (o.out 0) fun i => slice (imageTable c) (32 * i) 32).isSome then bcBlock
    else if o.stop = .bad || o.copied then rcStream
    else 0

/-- The stream's state after a chunk for the device (R319): the code, and whether the Hub firmware part is whole. -/
def rcvStreamCheck (c : List Byte) : Nat × Bool :=
  let m := zManifest c
  let o := zRun c noBase
  let fw := o.out 0
  if !zChunkOk c (c.length / 4096 - 1) then (rcStream, false)
  else if (badBlock fw fun i => manBlockDigest m ((manPart m 0).firstBlock + i)).isSome then (bcBlock, false)
  else if fw.length = (manPart m 0).length && fw ≠ [] then (0, true)
  else if o.stop ≠ .more || o.copied || o.beyond then (rcStream, false)
  else (0, false)

/-- The ROM leaves with the image that it received (R320). -/
def rcvLeave (s : State) (c : List Byte) : State :=
  let fw := (zRun c noBase).out 0
  let s := setRegB s (aHost 0x000) 2 false
  romLeave s fw (zManifest c) (bootInfoWord s (fld s.boot.bootInfo 16 8) 0 1 (fld s.boot.bootInfo 4 1) 0) 0

/-- The firmware's check of a chunk in `ENTERING` (R320, R416). -/
def enteringCheck (c : List Byte) : Nat :=
  let o := zRun c noBase
  if !zChunkOk c (c.length / 4096 - 1) || o.stop = .bad || o.copied then rcStream
  else if !opBlocksOk (zManifest c) o then bcBlock
  else 0

/-- A chunk in order from the claimant. In recovery listen the ROM applies it into Hub SRAM (R319). DESIGN CHOICE (log 92): a
claim on the device that ends while the firmware keeps it in `ENTERING` may be followed by another, which brings the set from
its header on. -/
def rcvChunk (s : State) (tr seq t : Nat) (data : List Byte) : State :=
  let k := rcvTarget s t
  let c := k.container ++ data
  let s := setRcvTarget s t { k with container := c, next := k.next + 1 }
  let fail := fun (code : Nat) => rcvAnswer (endClaim s t code) tr 2 seq t code
  if c.length < zManifestEnd c then rcvAnswer s tr 2 seq t 0
  else if c.length = zManifestEnd c then
    let code := rcvManifestCheck t c
    if code ≠ 0 then fail code
    else
      let state := if t = 0 && rcvServer s = 2 then RcvState.entering else .receiving
      rcvAnswer (setRcvTarget s t { rcvTarget s t with state }) tr 2 seq t 0
  else if t ≠ 0 then (if rcvImageCheck c ≠ 0 then fail (rcvImageCheck c) else rcvAnswer s tr 2 seq t 0)
  else if k.state = .entering then (if enteringCheck c ≠ 0 then fail (enteringCheck c) else rcvAnswer s tr 2 seq t 0)
  else
    let (code, whole) := rcvStreamCheck c
    let s := wrBytes s 0x10000000 ((zRun c noBase).out 0)
    if code ≠ 0 then rcvAnswer (endClaim s t code) tr 2 seq t code
    else if whole then rcvAnswer (rcvLeave (setRcvTarget s t { rcvTarget s t with state := .entering }) c) tr 2 seq t 0
    else rcvAnswer s tr 2 seq t 0

/-! ### The requests -/

/-- `RCV_STATUS`: always answered; a past timeout is reported once. -/
def rcvStatusOp (s : State) (tr seq t : Nat) : State :=
  rcvHeard s tr 1 seq t fun s =>
    let k := rcvTarget s t
    setRcvTarget (rcvAnswer s tr 1 seq t k.code) t { k with code := 0 }

/-- `RCV_DATA` (R318). -/
def rcvDataOp (s : State) (tr seq t index : Nat) (data : List Byte) : State :=
  rcvHeard s tr 2 seq t fun s =>
    let k := rcvTarget s t
    if data.length ≠ 4096 then rcvAnswer s tr 2 seq t rcFormat
    else match rcvState s t with
    | .idle => rcvAnswer s tr 2 seq t rcTarget
    | .listen => rcvHeader s tr seq t index data
    | _ =>
      if k.claimant ≠ some tr then rcvAnswer s tr 2 seq t rcBusy
      else if index ≠ k.next then rcvAnswer s tr 2 seq t rcSequence
      else rcvChunk s tr seq t data

/-- The slot that recovery writes: A, or B when the valid copy of higher generation names A (R320). -/
def recoverySlot (s : State) : Nat :=
  match commitOrder s with
  | i :: _ => if commitSlot s i = 0 then 1 else 0
  | [] => 0

/-- The device's container is whole: write the slot, read it back, commit (R320). -/
def rcvCommit (s : State) (c : List Byte) : State × Nat :=
  let o := zRun c noBase
  if o.stop = .ended && opComplete (manParts (zManifest c)) o then
    let k := recoverySlot s
    let s := writeSet s k c o
    if slotBlocksOk s k then (commitSet s k, 0) else (s, bcBlock)
  else (s, rcStream)

/-- A platform's container is whole: the image goes to the firmware, which rewrites the primary range from it and verifies
it again (R309, R310). -/
def rcvPlatform (s : State) (t : Nat) (c : List Byte) : State × Nat :=
  let o := imageRun c
  let p := t - 1
  if released s p then (s, rcTarget)
  else if o.stop = .ended && (o.out 0).length = (manPart (zManifest c) 0).length then
    let ep := match smGet s.rcv.work p none with
      | some (.outside ep) => ep
      | _ => epoch s p
    let outside := smSet s.rcv.outside p ([], []) (c.take (zManifestEnd c) ++ imageTable c, o.out 0)
    ({ s with rcv := { s.rcv with outside, work := smSet s.rcv.work p none (some (.write 3 ep 0)) } }, 0)
  else (s, rcStream)

/-- `RCV_END` (R320). -/
def rcvEndOp (s : State) (tr seq t : Nat) : State :=
  rcvHeard s tr 3 seq t fun s =>
    let k := rcvTarget s t
    if k.claimant = none then rcvAnswer s tr 3 seq t rcTarget
    else if k.claimant ≠ some tr then rcvAnswer s tr 3 seq t rcBusy
    else
      let (s, code) :=
        if t ≠ 0 then rcvPlatform s t k.container
        else if k.state = .entering then rcvCommit s k.container
        else (s, rcStream)
      if code = 0 then rcvAnswer (setRcvTarget s t {}) tr 3 seq t 0
      else rcvAnswer (endClaim s t code) tr 3 seq t code

/-- `RCV_ABORT` by the claimant. -/
def rcvAbortOp (s : State) (tr seq t : Nat) : State :=
  rcvHeard s tr 4 seq t fun s =>
    match (rcvTarget s t).claimant with
    | some c => if c = tr then rcvAnswer (endClaim s t 0) tr 4 seq t 0 else rcvAnswer s tr 4 seq t rcBusy
    | none => rcvAnswer s tr 4 seq t rcTarget

/-- RCV_TIMEOUT (R318): 10 s without a claimant message. -/
def rcvTimeoutOp (s : State) (t : Nat) : State :=
  if rcvServer s ≠ 0 && (rcvTarget s t).claimant.isSome then endClaim s t rcTimeout else s

/-- A request with its header and payload, by type. -/
def rcvRequest (s : State) (tr rtype seq t index : Nat) (data : List Byte) : State :=
  match rtype with
  | 1 => rcvStatusOp s tr seq t
  | 2 => rcvDataOp s tr seq t index data
  | 3 => rcvEndOp s tr seq t
  | 4 => rcvAbortOp s tr seq t
  | _ => if rcvServer s = 0 then s else respond s tr (rtype % 128 + 0x80) seq 0 rcFormat 0

/-- A message with its header of 16 bytes (R316): one that is malformed is answered `RCV_FORMAT`. -/
def headerOk (h data : List Byte) : Bool :=
  h.length = 16 && field h 3 1 = 0 && allZero (slice h 10 6) && field h 8 2 ≤ 4096 && data.length = field h 8 2

/-! ### The attached flashes (R252, R307, R308) -/

/-- Byte a of the flash on chip select k of port p. -/
def attachedByte (s : State) (p k a : Nat) : Byte :=
  if p = 0 && k = 1 then (if a < 0x1000000 then flashByte s a else Config.deviceFlashByte a)
  else Config.attachedByte p k (smGet s.flashGen (p + 4 * k) 0) a
def attachedBytes (s : State) (p k a n : Nat) : List Byte := (List.range n).map fun i => attachedByte s p k (a + i)

/-- The container of a platform image: header, manifest and block table (R414). -/
def containerAt (s : State) (p k a : Nat) : List Byte :=
  let h := attachedBytes s p k a hdrLen
  let m := attachedBytes s p k (a + hdrLen) (min 131072 (hdrManifestLen h))
  h ++ m ++ attachedBytes s p k (a + hdrLen + m.length) (32 * min 32768 ((manPart m 0).length / 4096))
def containerPart (c : List Byte) : Part := manPart (innerManifest c) 0
/-- Entry i of its block table. -/
def containerEntry (c : List Byte) (i : Nat) : List Byte := slice (innerTable c) (32 * i) 32

/-- The checks of R252 and R308 on a container: signature and key, floor, manifest, the root of the table. -/
def containerCheck (s : State) (p floor : Nat) (c : List Byte) : Nat :=
  let code := hdrCheck (c.take hdrLen) 3 (Config.platformKeyDigest (ownerConfig s) p) floor none
  let m := innerManifest c
  if code ≠ bcOk then code
  else if sha384 m ≠ hdrManifestDigest (c.take hdrLen) then bcManifest
  else if manCount m ≠ 1 || (manPart m 0).kind ≠ partImage || (manPart m 0).length % 4096 ≠ 0 ||
      32768 < (manPart m 0).length / 4096 then bcSize
  else if sha384 (innerTable c) ≠ (manPart m 0).digest then bcManifest
  else bcOk

/-- The platform's own container, and its header digest (R252, R425). -/
def platformContainer (s : State) (p : Nat) : List Byte :=
  containerAt s p 0 (Config.manifestAddr (ownerConfig s) p)
def platformManifest (s : State) (p : Nat) : List Byte := hdrDigest (platformContainer s p)

/-! ### The commands -/

def execRcvStatus (tr : Nat) (seq : BitVec 8) (target : Nat) (s : State) : Host.Outcome State Fault Refusal :=
  .next (rcvStatusOp s tr seq.toNat target)
def execRcvData (tr : Nat) (seq : BitVec 8) (target index : Nat) (data : List Byte) (s : State) :
    Host.Outcome State Fault Refusal := .next (rcvDataOp s tr seq.toNat target index data)
def execRcvEnd (tr : Nat) (seq : BitVec 8) (target : Nat) (s : State) : Host.Outcome State Fault Refusal :=
  .next (rcvEndOp s tr seq.toNat target)
def execRcvAbort (tr : Nat) (seq : BitVec 8) (target : Nat) (s : State) : Host.Outcome State Fault Refusal :=
  .next (rcvAbortOp s tr seq.toNat target)
def execRcvTimeout (target : Nat) (s : State) : Host.Outcome State Fault Refusal := .next (rcvTimeoutOp s target)

end Sys2Proof.Machine
end

