-- ==== Sys2Proof/Machine/Update.lean ====
section
/-! DEFINITION. Firmware update across the peloton, as the shipped Hub firmware runs it (16_update.md R419 to R437). Transports
as for recovery: 0 PF0, 1 I3C, 2 chain UP, 3 chain DOWN. -/

namespace Sys2Proof.Machine

/-! ### Codes, answers, reports (R420, R421, R436, R437) -/

def ucAccept : Nat := 0x00
def ucSame : Nat := 0x01
def ucOlder : Nat := 0x02
def ucBusy : Nat := 0x03
def ucConflict : Nat := 0x04
def ucSuperseded : Nat := 0x05
def ucNotReady : Nat := 0x06
def ucHdrFail : Nat := 0x07
def ucChunkFail : Nat := 0x08
def ucBaseMismatch : Nat := 0x09
def ucApplyFail : Nat := 0x0A
def ucUnplaceable : Nat := 0x0B
def ucTimeout : Nat := 0x0C
def ucWithdrawn : Nat := 0x0D

def rpStaged : Nat := 1
def rpFailed : Nat := 2
def rpArmed : Nat := 3
def rpActivated : Nat := 4
def rpLate : Nat := 5

def UpdState.num : UpdState → Nat
  | .idle => 0
  | .claiming => 1
  | .staging => 2
  | .staged => 3
  | .armed => 4
  | .conflict => 5

def setUpd (s : State) (u : Update) : State := { s with upd := u }

/-- A record of R437: the header digest's first 16 bytes, then its own words. -/
def updRecord (s : State) (rtype : Nat) (digest : List Byte) (more : List W32) : State :=
  hubBRecord s rtype (toWords (digest.take 16) ++ more)

/-- The next chunk that the member wants. -/
def updNext (s : State) : Nat := ((s.upd.candidate.map UpdCandidate.header).getD s.upd.container).length / 4096

/-- An answer to a source: `UPD_ANSWER` on the chain, a response elsewhere (R419). -/
def updAnswer (s : State) (tr rtype seq : Nat) (digest : List Byte) (code detail next : Nat) : State :=
  if tr < 2 then respond s tr (rtype + 0x80) seq s.upd.state.num code next
  else
    sendRaw s (tr - 2) 0x21 (fitBytes 48 digest ++
      [BitVec.ofNat 8 code, BitVec.ofNat 8 s.upd.state.num, BitVec.ofNat 8 detail, 0] ++ leBytes 4 next)

/-- An answer on the chain that no request of this moment asked for. -/
def tellSource (s : State) (tr : Nat) (digest : List Byte) (code : Nat) : State :=
  if tr < 2 then emitOut s (.response tr 0x91 0 s.upd.state.num code (updNext s))
  else updAnswer s tr 0x11 0 digest code 0 (updNext s)

/-! ### Offers and forwarding (R423, R424) -/

/-- The set that the member offers: its claim, or the running set. -/
def heldSet (s : State) : FwSet := s.upd.claim.getD s.upd.active

/-- Total chunks of the held set. -/
def heldTotal (s : State) : Nat :=
  if s.upd.claim.isSome then s.upd.total
  else zTotal (slotHeader s s.upd.activeSlot ++ slotManifest s s.upd.activeSlot)

/-- Offer the held set to the neighbour on port x. -/
def offerTo (s : State) (x : Nat) : State :=
  let u := heldSet s
  if hubBUp s && linkIsUp s x && u.digest ≠ [] then
    sendRaw s x 0x20 (fitBytes 48 u.digest ++ leBytes 4 u.rollback ++ fitBytes 48 u.manifestDigest ++ leBytes 4 (heldTotal s))
  else s

/-- Chunk k of the held set. -/
def heldChunk (s : State) (k : Nat) : List Byte :=
  match s.upd.claim with
  | some _ => slice s.upd.container (4096 * k) 4096
  | none =>
    let h := slotHeader s s.upd.activeSlot
    if 4096 * k < zManifestEnd h then flashBytes s (slotBase s.upd.activeSlot + 4096 * k) 4096
    else fitBytes 4096 (Config.streamChunk s.upd.active.digest (k - zManifestEnd h / 4096))

/-- Chunks of the held set that may be forwarded: checked ones only; no manifest chunk before the whole manifest is
checked (R422). -/
def sendable (s : State) : Nat :=
  match s.upd.claim with
  | some _ =>
    let c := s.upd.container
    if c.length < zManifestEnd c then 2 else c.length / 4096
  | none => heldTotal s

/-- Hub-B writes one of its banks; one that is off discards the write with a record (R19). -/
def hubStore (s : State) (a : Nat) (bs : List Byte) : State :=
  match bankOf a with
  | some b =>
    if !bankOn s b then offAccess s hubB a
    else if bankGrants s hubB b true false then wrBytes (settleBank s b) a bs
    else s
  | none => s

/-- Mailbox banks 4 and 5 hold the last 128 received chunks (R423). -/
def chunkAddr (k : Nat) : Nat := bankBase 4 + 4096 * (k % 128)

/-- The banks have room for one more chunk: no neighbour that takes the set lags 128 chunks behind (R423). -/
def chunkRoom (s : State) : Bool :=
  ([0, 1] : List Nat).all fun x =>
    s.upd.source = 2 + x || (smGet s.upd.forward x none).all fun e => s.upd.container.length / 4096 < e.1 + 128

/-- Send what the window of 64 chunks allows on port x. -/
def pumpPort (s : State) (x : Nat) : State :=
  match smGet s.upd.forward x none with
  | none => s
  | some (next, sent) =>
    let stop := min (sendable s) (next + 64)
    let d := (heldSet s).digest
    let s := (List.range (stop - sent)).foldl
      (fun s i => sendRaw s x 0x22 (d.take 8 ++ leBytes 4 (sent + i) ++ heldChunk s (sent + i))) s
    setUpd s { s.upd with forward := smSet s.upd.forward x none (some (next, max sent stop)) }

/-- Forward on every port but the source's. -/
def pump (s : State) : State :=
  [0, 1].foldl (fun s x => if s.upd.claim.isSome && s.upd.source = 2 + x then s else pumpPort s x) s

/-- Offer the claim on every port but the source's. -/
def offerOn (s : State) : State :=
  [0, 1].foldl (fun s x => if s.upd.source = 2 + x then s else offerTo s x) s

/-! ### Arming (R426, R427) -/

/-- The inactive slot. -/
def spareSlot (s : State) : Nat := 1 - s.upd.activeSlot

/-- Write the arm record for a set and its T (R418). -/
def writeArm (s : State) (digest : List Byte) (t : Nat) : State :=
  let s := devErase s armAddr (armAddr + 0x1000)
  let gen := topGeneration s + 1
  writeRecord s armAddr (recordBytes (leBytes 4 0x4D524156 ++ leBytes 4 gen ++ leBytes 1 (spareSlot s))
    (leBytes 2 0xFFFF ++ zeros 4 ++ leBytes 8 t ++ fitBytes 48 digest))

/-- Set `PT_ARM` and `ARMED` (R405). -/
def setArm (s : State) (t : Nat) : State := setReg (setPair s (aPt 0x030) t) (aPt 0x038) 1

/-- `UPD_ARM` leaves the pacer. -/
def sendArm (s : State) : State :=
  match s.upd.claim, s.upd.armTime with
  | some u, some t => sendAll s 0x24 (fitBytes 48 u.digest ++ leBytes 8 t ++ leBytes 4 s.upd.armSeq)
  | _, _ => s

/-- The member becomes armed for its staged set. -/
def armSelf (s : State) (u : FwSet) (t : Nat) : State :=
  let s := setArm (writeArm s u.digest t) t
  updRecord (setUpd s { s.upd with state := .armed, armTime := some t }) 0x0E5 u.digest (words64 t)

/-- Every member of the latest roster, the pacer included, reported `STAGED` for a digest. -/
def allStaged (s : State) (digest : List Byte) : Bool :=
  (uid s :: s.chain.roster).all fun m => s.upd.reports.contains (m, digest, rpStaged)

/-- A staged or claimed set is withdrawn (R426). -/
def withdrawSet (s : State) (digest : List Byte) : State :=
  if s.upd.state = .armed then s
  else
    let u := { s.upd with withdrawn := s.upd.withdrawn ++ [digest] }
    if s.upd.claim.any fun c => c.digest = digest then
      setUpd s { u with state := .idle, claim := none, container := [], built := false, forward := [] }
    else setUpd s u

/-- The pacer aborts a set. -/
def abortSet (s : State) (digest : List Byte) : State :=
  let s := withdrawSet (sendAll s 0x25 (fitBytes 48 digest)) digest
  let reports := s.upd.reports.filter fun r => r.2.1 ≠ digest
  updRecord (setUpd s { s.upd with reports }) 0x0E4 digest []

/-- The pacer arms its staged set once every member has staged it. -/
def armIfReady (s : State) : State :=
  match s.upd.claim with
  | some u =>
    if isPacer s && s.upd.state = .staged && allStaged s u.digest then
      let t := nowNs s + 1000000 * max 500 ((Config.armLead (ownerConfig s)).getD 2000)
      let s := armSelf (setUpd s { s.upd with armSeq := s.upd.armSeq + 1, armedAny := true }) u t
      sendArm (setUpd s { s.upd with reports := s.upd.reports ++ [(uid s, u.digest, rpArmed)] })
    else s
  | none => s

/-- The pacer takes a report (R426). -/
def takeReport (s : State) (m : BitVec 128) (digest : List Byte) (report : Nat) : State :=
  let reports := s.upd.reports.filter (fun r => ¬(r.1 = m ∧ r.2.1 = digest)) ++ [(m, digest, report)]
  let s := setUpd s { s.upd with reports }
  if report = rpFailed && !s.upd.armedAny then abortSet s digest else armIfReady s

/-- A report to the pacer. -/
def sendReport (s : State) (u : FwSet) (report code : Nat) : State :=
  if isPacer s then takeReport s (uid s) u.digest report
  else if pacerUid s = 0 then s
  else
    sendTo s 0x23 (pacerUid s)
      (fitBytes 48 u.digest ++ [BitVec.ofNat 8 report, BitVec.ofNat 8 code, 0, 0] ++ leBytes 4 u.rollback)

/-! ### Staging (R421, R422, R425) -/

/-- The claim ends with a failure. -/
def failClaim (s : State) (code : Nat) : State :=
  match s.upd.claim with
  | some u =>
    let s := setUpd s { s.upd with state := .idle, claim := none, container := [], built := false, forward := [] }
    sendReport s u rpFailed code
  | none => s

/-- Platform 0 is absent or signals quiet windows (R428). -/
def quietCapable (s : State) : Bool := !regB s (aPlat 0 0x000) 0 || regB s (aPort 0 0x004) 3

/-- The built set is reported once the member is `LOCKED` or the pacer. -/
def stagedCheck (s : State) : State :=
  match s.upd.claim with
  | some u =>
    if s.upd.built && s.upd.state = .staging && (ptState s = ptLocked || ptState s = ptPacer) && quietCapable s then
      let s := updRecord (setUpd s { s.upd with state := .staged }) 0x0E2 u.digest []
      sendReport s u rpStaged 0
    else s
  | none => s

/-- The base of the claim's `COPY` operations (R416). -/
def updBase (s : State) (m : List Byte) : OpBase :=
  let am := slotManifest s s.upd.activeSlot
  { part := fun id =>
      if allZero (manBase m) then none
      else ((manParts am).find? fun p => p.id = id).map (slotPart s s.upd.activeSlot),
    image := fun i =>
      let p := manPart m i
      if platformManifest s p.target = p.digest then
        some fun a => attachedByte s p.target 0 ((containerPart (platformContainer s p.target)).offset + a)
      else none }

/-- The claim's stream, run. -/
def updRun (s : State) : OpState := zRun s.upd.container (updBase s (zManifest s.upd.container))

/-- Some image does not fit its staging region (R425). -/
def unplaceable (s : State) (m : List Byte) (o : OpState) : Bool :=
  let cfg := ownerConfig s
  (List.range (manCount m)).any fun i =>
    (manPart m i).kind = partPlatform && (o.out (2 * i)).length = (manPart m i).length &&
      Config.stagingLength cfg (manPart m i).target < (manPart (innerManifest (o.out (2 * i))) 0).length

/-- Program what the stream has produced into the inactive slot. -/
def programParts (s : State) (o : OpState) : State :=
  let m := zManifest s.upd.container
  (List.range (manCount m)).foldl
    (fun s i => devProgram s (slotBase (spareSlot s) + (manPart m i).offset) (o.out (2 * i))) s

/-- A range of the flash on chip select A of port p is erased and programmed by own commands (R274, R425). -/
def writeRegion (s : State) (p base : Nat) (bs : List Byte) : State :=
  let n := max 1 (Config.eraseSize p)
  let s := (List.range ((bs.length + n - 1) / n)).foldl
    (fun s i => ownChange s p 0 (Config.eraseOpcode p) (base + n * i) []) s
  ownProgram s p 0 base bs

/-- Images go to the staging regions by own commands on chip select A (R425). -/
def stageImages (s : State) (o : OpState) : State :=
  let m := zManifest s.upd.container
  (List.range (manCount m)).foldl (fun s i =>
    let bs := o.out (2 * i + 1)
    let p := (manPart m i).target
    if bs = [] then s
    else
      let s := setUpd s { s.upd with images := smSet s.upd.images p [] bs }
      setWp (writeRegion (setWp s p false) p (Config.stagingBase (ownerConfig s) p) bs) p true) s

/-- The `CONFIG` part goes into the region that is not in use, `VALID` left erased (R422, R435). -/
def stageConfig (s : State) (u : FwSet) (o : OpState) : State :=
  let m := zManifest s.upd.container
  match (List.range (manCount m)).find? fun i => (manPart m i).kind = partConfig with
  | none => s
  | some i =>
    let used := (cfgInUse s s.upd.active (manVersion (slotManifest s s.upd.activeSlot))).getD 1
    let gen := max (cfgGen s 0) (cfgGen s 1) + 1
    cfgProgram s (1 - used) gen (manVersion m) u.digest (o.out (2 * i))

/-- The stream has ended (R422 steps 4 and 5). -/
def finishStaging (s : State) (u : FwSet) (o : OpState) : State :=
  if !opComplete (manParts (zManifest s.upd.container)) o then failClaim s ucApplyFail
  else if !slotBlocksOk s (spareSlot s) then failClaim s ucApplyFail
  else
    let s := stageConfig (stageImages s o) u o
    stagedCheck (setUpd s { s.upd with built := true })

/-- Apply the stream as far as it goes (R416). -/
def applyStream (s : State) (u : FwSet) : State :=
  let m := zManifest s.upd.container
  let o := updRun s
  if o.stop = .bad || !opBlocksOk m o then failClaim s ucApplyFail
  else if unplaceable s m o then failClaim s ucUnplaceable
  else
    let s := programParts s o
    if o.stop = .ended && s.upd.total ≤ s.upd.container.length / 4096 then finishStaging s u o else s

/-- A chunk mismatches: it is asked for once more, then the claim ends (R436). `keep` bytes of the container stay. -/
def chunkMismatch (s : State) (keep : Nat) : State :=
  if s.upd.retried then failClaim s ucChunkFail
  else setUpd s { s.upd with retried := true, container := s.upd.container.take keep }

/-- The whole manifest has arrived (R422 step 2). -/
def takeManifest (s : State) : State :=
  let c := s.upd.container
  let h := zHeader c
  let m := zManifest c
  if sha384 m ≠ hdrManifestDigest h then chunkMismatch s hdrLen
  else if !manFormOk h m || !hubFwSizeOk m then failClaim s ucApplyFail
  else
    let mismatch := !allZero (manBase m) && manBase m ≠ s.upd.active.digest
    let s := setUpd s { s.upd with baseMismatch := mismatch, total := zTotal c }
    let s := devProgram s (slotBase (spareSlot s)) (c.take (zManifestEnd c))
    let s := if mismatch then tellSource s s.upd.source (heldSet s).digest ucBaseMismatch else s
    pump s

/-- A chunk in order for the claim (R422). -/
def takeChunk (s : State) (u : FwSet) (chunk : List Byte) : State :=
  let had := s.upd.container.length
  let s := hubStore s (chunkAddr (had / 4096)) chunk
  let s := setUpd s { s.upd with container := s.upd.container ++ chunk }
  let c := s.upd.container
  if c.length < zManifestEnd c then s
  else if c.length = zManifestEnd c then takeManifest s
  else if !zChunkOk c (c.length / 4096 - 1) then chunkMismatch s had
  else
    let s := pump (setUpd s { s.upd with retried := false })
    if s.upd.baseMismatch then
      (if s.upd.total ≤ c.length / 4096 then failClaim s ucBaseMismatch else s)
    else applyStream s u

/-! ### Offers received (R421) -/

/-- The rows of R421 that the fields alone decide. -/
def offerCode (s : State) (u : FwSet) : Option Nat :=
  if !s.upd.firstStartDone || s.upd.state = .armed then some ucNotReady
  else if u.manifestDigest = s.upd.active.manifestDigest || s.upd.claim.any (fun c => c.manifestDigest = u.manifestDigest) then
    some ucSame
  else if u.rollback ≤ s.upd.active.rollback then some ucOlder
  else if s.upd.withdrawn.contains u.digest then some ucWithdrawn
  else none

/-- The rows of R421 after the header's checks. -/
def claimCode (s : State) (u : FwSet) : Option Nat :=
  if s.upd.state = .conflict && u.rollback ≤ s.upd.conflictRollback then some ucConflict
  else match s.upd.claim with
  | some c => if u.rollback < c.rollback then some ucBusy else none
  | none => none

/-- `UPD_OFFER`: answered from the member's fields; on `UPD_ACCEPT` chunks 0 and 1 are expected. -/
def updOfferOp (s : State) (tr : Nat) (f : Frame) : State :=
  let p := f.payload
  let u : FwSet := { digest := slice p 0 48, manifestDigest := slice p 52 48, rollback := field p 48 4, floor := 0 }
  let ans := fun (s : State) (code : Nat) (next : Nat) => updAnswer s tr 0x10 (f.seq.toNat % 256) u.digest code 0 next
  if p.length ≠ 104 then ans s ucHdrFail 0
  else match offerCode s u with
  | some code => ans s code 0
  | none =>
    match claimCode s u with
    | some code => ans s code 0
    | none =>
      if s.upd.candidate.any fun c => c.tr ≠ tr then ans s ucBusy 0
      else
        let candidate := some { tr, set := u, total := field p 100 4, header := [] }
        let state := if s.upd.state = .idle then .claiming else s.upd.state
        ans (setUpd s { s.upd with candidate, state }) ucAccept 0

/-- A verified header claims (R421, R422 step 1). -/
def claimHeader (s : State) (c : UpdCandidate) (h : List Byte) : State :=
  let u : FwSet := { digest := hdrDigest h, manifestDigest := hdrManifestDigest h, rollback := hdrRollback h, floor := hdrFloor h }
  let s := match s.upd.claim with
    | some old => tellSource s s.upd.source old.digest ucSuperseded
    | none => s
  let s := devErase s (slotBase (spareSlot s)) (slotBase (spareSlot s) + (hdrSetLen h + 65535) / 65536 * 65536)
  let s := setUpd s { s.upd with state := .staging, claim := some u, source := c.tr, total := c.total, container := h,
                                 retried := false, baseMismatch := false, built := false, forward := [] }
  offerOn (updRecord s 0x0E1 u.digest [])

/-- Both sources of one rollback counter are turned away (R421). -/
def conflictWith (s : State) (old : FwSet) (tr : Nat) (u : FwSet) : State :=
  let source := s.upd.source
  let s := setUpd s { s.upd with state := .conflict, claim := none, container := [], built := false, forward := [],
                                 conflictRollback := u.rollback }
  let s := tellSource (tellSource s source old.digest ucConflict) tr u.digest ucConflict
  updRecord s 0x0E3 u.digest []

/-- The state that a refused candidate leaves. -/
def afterCandidate (s : State) : State :=
  if s.upd.state = .claiming then setUpd s { s.upd with state := .idle } else s

/-- Decide on a received header, in the order of R421. -/
def decideHeader (s : State) (c : UpdCandidate) (seq : Nat) (h : List Byte) : State :=
  let s := setUpd s { s.upd with candidate := none }
  let u : FwSet := { digest := hdrDigest h, manifestDigest := hdrManifestDigest h, rollback := hdrRollback h, floor := hdrFloor h }
  let ans := fun (s : State) (code detail : Nat) => updAnswer (afterCandidate s) c.tr 0x11 seq c.set.digest code detail 0
  let check := hdrCheck h 1 (fwKeyDigest s) s.upd.minRollback (some c.set.digest)
  match offerCode s u with
  | some code => ans s code 0
  | none =>
    if check ≠ bcOk then ans s ucHdrFail check
    else if u.floor < s.upd.minRollback then ans s ucHdrFail bcRollback
    else match claimCode s u with
    | some code => ans s code 0
    | none =>
      match s.upd.claim with
      | some old =>
        if old.rollback = u.rollback then conflictWith s old c.tr u
        else updAnswer (claimHeader s c h) c.tr 0x11 seq u.digest ucAccept 0 2
      | none => updAnswer (claimHeader s c h) c.tr 0x11 seq u.digest ucAccept 0 2

/-- `UPD_CHUNK`: a header chunk of the candidate, the claim's next chunk, or a gap (R422, R423). Staging waits while
platform 0 has the bus (R424) and while the chunk buffer is full; a chunk of no claim is refused where its transport wants
an answer. -/
def updChunkOp (s : State) (tr : Nat) (f : Frame) : State :=
  let p := f.payload
  let index := field p 8 4
  let chunk := slice p 12 4096
  let seq := f.seq.toNat % 256
  let isFor := fun (d : List Byte) => d.take 8 = p.take 8
  match s.upd.candidate.filter fun c => c.tr = tr && isFor c.set.digest with
  | some c =>
    if p.length ≠ 4108 || 4096 * index ≠ c.header.length then
      updAnswer s tr 0x11 seq c.set.digest ucAccept 0 (c.header.length / 4096)
    else
      let h := c.header ++ chunk
      if h.length < hdrLen then
        let s := setUpd s { s.upd with candidate := some { c with header := h } }
        if tr < 2 then updAnswer s tr 0x11 seq c.set.digest ucAccept 0 1 else s
      else decideHeader s c seq h
  | none =>
    match s.upd.claim with
    | some u =>
      let next := s.upd.container.length / 4096
      if s.upd.source ≠ tr || s.upd.state ≠ .staging || s.upd.built || !isFor u.digest then noClaim s
      else if p.length ≠ 4108 || index ≠ next then updAnswer s tr 0x11 seq u.digest ucAccept 0 next
      else if !busFree s 0 || !chunkRoom s then s
      else
        let s := takeChunk s u chunk
        let now := s.upd.container.length / 4096
        if s.upd.claim.isNone then updAnswer s tr 0x11 seq u.digest ucChunkFail 0 0
        else if tr < 2 || now % 16 = 0 || now ≠ next + 1 || s.upd.built then updAnswer s tr 0x11 seq u.digest ucAccept 0 now
        else s
    | none => noClaim s
where
  noClaim (s : State) : State :=
    if tr < 2 then updAnswer s tr 0x11 (f.seq.toNat % 256) (slice f.payload 0 8) ucNotReady 0 0 else s

/-- `UPD_ANSWER` from a neighbour that was offered the held set. -/
def updAnswerOp (s : State) (x : Nat) (f : Frame) : State :=
  let p := f.payload
  let code := field p 48 1
  let next := field p 52 4
  if slice p 0 48 ≠ fitBytes 48 (heldSet s).digest then s
  else
    let s := setUpd s { s.upd with lastAnswer := smSet s.upd.lastAnswer x none (some code) }
    if code = ucAccept then
      let sent := match smGet s.upd.forward x none with
        | some (_, sent) => max sent next
        | none => next
      pumpPort (setUpd s { s.upd with forward := smSet s.upd.forward x none (some (next, sent)) }) x
    else setUpd s { s.upd with forward := smSet s.upd.forward x none none }

/-! ### Activation (R427 to R431) -/

/-- What the new firmware must derive anew goes: the ticket-key slots and slots 2 to 15 (R430). -/
def freeKeys (s : State) : State :=
  let tickets : List Nat := s.svc.ticketKeys.flatMap fun e => match e.2 with
    | some (a, b) => [a, b]
    | none => []
  (tickets ++ (List.range 14).map (· + 2)).foldl (fun (s : State) i => if (slot s i).state = SlotState.empty then s else wipeExtent s i) s

/-- Steps 2 to 5 of R429: dispatch stops; once every Wheel is drained and the bus is free, the set is committed and the Hub
restarts. -/
def activate (s : State) (late : Bool) : State :=
  let s := setUpd s { s.upd with activating := true, late }
  let s := if qfOn s then setReg s (aQf 0x010) 0 else s
  if wheelIdle s ≠ all32 then s
  else if !busFree s 0 then
    (if s.upd.delayed then s
     else updRecord (setUpd s { s.upd with delayed := true }) 0x0E8 (heldSet s).digest [])
  else
    let s := commitSet s (spareSlot s)
    hubRestart (freeKeys s)

/-- ACTIVATION (R429): `PT_FIRE` on an armed member. -/
def activationOp (s : State) : State :=
  if hubBUp s && s.upd.state = .armed && regB s (aPt 0x038) 1 then activate s false else s

/-- A late activation of the armed set (R431). -/
def lateActivation (s : State) : State :=
  if s.upd.state = .armed && s.upd.armTime.any (· ≤ nowNs s) then activate s true else s

/-- The armed set is what a neighbour runs (R431). -/
def neighbourRuns (s : State) (manifest : List Byte) : State :=
  if s.upd.state = .armed && s.upd.claim.any fun u => fitBytes 48 u.manifestDigest = manifest then activate s true else s

/-- `UPD_ARM` at a member (R427, R431). -/
def updArmOp (s : State) (f : Frame) : State :=
  let digest := slice f.payload 0 48
  let t := field f.payload 48 8
  if isPacer s then s
  else if digest = fitBytes 48 s.upd.active.digest then sendReport s s.upd.active (if s.upd.late then rpLate else rpActivated) 0
  else match s.upd.claim with
  | some u =>
    if fitBytes 48 u.digest ≠ digest then s
    else if s.upd.state = .staged then
      (if nowNs s < t then sendReport (armSelf s u t) u rpArmed 0
       else activate (sendReport (armSelf s u t) u rpLate 0) true)
    else if s.upd.state = .armed && t ≤ nowNs s then activate s true
    else if s.upd.state = .armed then sendReport s u rpArmed 0
    else s
  | none => s

/-- `UPD_ABORT` at a member (R426). -/
def updAbortOp (s : State) (f : Frame) : State := withdrawSet s (slice f.payload 0 48)

/-- `UPD_REPORT` at the pacer. -/
def updReportOp (s : State) (f : Frame) : State :=
  if isPacer s then takeReport s f.src (slice f.payload 0 48) (field f.payload 48 1) else s

/-- UPD_TIMEOUT (R422): the claimed source made no progress for 10 s. -/
def updTimeoutOp (s : State) : State :=
  if !hubBUp s then s
  else match s.upd.candidate with
  | some c =>
    let s := afterCandidate (setUpd s { s.upd with candidate := none })
    tellSource s c.tr c.set.digest ucTimeout
  | none =>
    match s.upd.claim with
    | some u =>
      if s.upd.state = .staging && !s.upd.built then failClaim (tellSource s s.upd.source u.digest ucTimeout) ucTimeout else s
    | none => s

/-- FORWARD_RESEND (R423): from the `NEXT` last reported. -/
def resendOp (s : State) (x : Nat) : State :=
  match smGet s.upd.forward x none with
  | some (next, _) =>
    if hubBUp s then pumpPort (setUpd s { s.upd with forward := smSet s.upd.forward x none (some (next, next)) }) x else s
  | none => s

/-- ARM_WAIT (R426): the wait after the first `STAGED` report ended. -/
def armWaitOp (s : State) : State :=
  if hubBUp s && isPacer s && !s.upd.armedAny then
    match s.upd.reports.find? fun r => r.2.2 = rpStaged with
    | some r => abortSet s r.2.1
    | none => s
  else s

/-- `UPD_STATUS` (R419): the member's update state and next chunk. -/
def updStatusOp (s : State) (tr : Nat) : State := respond s tr 0x92 0 s.upd.state.num 0 (updNext s)

/-! ### The firmware's start (R247, R315, R433 to R435) -/

/-- Migrate the configuration to the running set where no region is its own (R435). -/
def migrateConfig (s : State) : State :=
  let u := s.upd.active
  let version := manVersion (slotManifest s s.upd.activeSlot)
  match cfgOf s u.digest, cfgInUse s u version with
  | none, some i =>
    let body := Config.convertConfig (cfgBody s i) version
    let s := cfgProgram s (1 - i) (max (cfgGen s 0) (cfgGen s 1) + 1) version u.digest (body.take 393088)
    updRecord (setValid s (cfgBase (1 - i)) 0x3C) 0x0EA u.digest []
  | _, _ => s

/-- The first-start record of the running set (R418, R434). -/
def writeFirst (s : State) : State :=
  let s := devErase s firstAddr (firstAddr + 0x1000)
  writeRecord s firstAddr (recordBytes (leBytes 4 0x54534656 ++ leBytes 4 s.upd.generation ++ leBytes 1 s.upd.activeSlot)
    (leBytes 2 0xFFFF ++ zeros 12 ++ fitBytes 48 s.upd.active.digest))

/-- Every Spoke and gatekeeper whose island runs is reset, to be loaded from the new set (R429 step 6). -/
def resetWorkers (s : State) : State :=
  let s := (List.range 512).foldl (fun s c => if coreOn s c then resetCore s c else s) s
  [0, 1, 2, 3].foldl (fun s p => if portOn s p then latchStatic (gkResetOp s p) p else s) s

/-- The first start of a set (R434). -/
def firstStart (s : State) : State :=
  let u := s.upd.active
  let s := if fld s.boot.bootInfo 10 2 = 0 then s else commitTail s (fld s.boot.bootInfo 11 1) u.digest
  let s := resetWorkers (writeFirst (migrateConfig s))
  let s := if qfOn s then setReg s (aQf 0x010) all32 else s
  let parts := (manParts (slotManifest s s.upd.activeSlot)).filter (fun p => p.kind = partPlatform)
  let s := setUpd s { s.upd with firstStartDone := true, platformParts := parts.map Part.target }
  let s := updRecord s (if s.upd.late then 0x0E7 else 0x0E6) u.digest []
  sendReport s u (if s.upd.late then rpLate else rpActivated) 0

/-- What a start finds of an update that was under way (R431, R433). -/
def resumeUpdate (s : State) : State :=
  let spare := slotSet s (spareSlot s)
  let arm := slice (armCopy s) 24 48
  if armOk s && arm ≠ s.upd.active.digest && arm = spare.digest then
    let t := field (armCopy s) 16 8
    setArm (setUpd s { s.upd with state := .armed, claim := some spare, armTime := some t, total := heldTotal s }) t
  else if slotVerifies s (spareSlot s) s.upd.minRollback && s.upd.active.rollback < spare.rollback then
    let container := slotHeader s (spareSlot s) ++ slotManifest s (spareSlot s)
    stagedCheck (setUpd s { s.upd with state := .staging, claim := some spare, container, total := zTotal container,
                                       built := true })
  else s

/-- The shipped Hub firmware starts (R315, R434). A set from recovery listen is not in a slot yet (R320). -/
def firmwareStart (s : State) : State :=
  let info := s.boot.bootInfo
  if s.boot.rom ≠ .left then s
  else if bitOf info 5 then setUpd s { s.upd with activeSlot := 1 - recoverySlot s, firstStartDone := false }
  else
    let k := fld info 0 1
    let s := setUpd s { s.upd with activeSlot := k, active := slotSet s k, generation := s.boot.bootGen.toNat }
    let floor := match fld info 10 2 with
      | 0 => 0
      | b => commitFloor s (b - 1)
    let s := setUpd s { s.upd with minRollback := floor }
    let s := if bitOf info 4 then commitSet (hubBRecord s 0x0B5 [w32 (1 - k)]) k else s
    let done := firstOk s && slice (firstCopy s) 24 48 = fitBytes 48 s.upd.active.digest
    let s := if done then setUpd s { s.upd with firstStartDone := true } else firstStart s
    resumeUpdate s

/-! ### What the firmware does with time (R424 to R427) -/

/-- Some roster member has not yet reported that it is armed or has activated (R427). -/
def armPending (s : State) : Bool :=
  match s.upd.claim with
  | some u => s.chain.roster.any fun m => [rpArmed, rpActivated, rpLate].all fun r => !s.upd.reports.contains (m, u.digest, r)
  | none => false

/-- AON cycles of 100 ms. -/
def ticks100ms : Nat := 2500000

/-- Hub-B asks the neighbours once in an attempt whose source is outside for the image that the configuration names (R307). -/
def askImages (s : State) : State :=
  [0, 1, 2, 3].foldl (fun (s : State) p =>
    let n := if imageWanted s p then regF s (aPlat p 0x018) 4 4 + 1 else 0
    let ask := n ≠ 0 && smGet s.rcv.asked p 0 ≠ n
    let s := { s with rcv := { s.rcv with asked := smSet s.rcv.asked p 0 n } }
    if ask then sendOn s [0, 1] 0x31 0 (fitBytes 48 (Config.wantedManifest (ownerConfig s) p)) else s) s

/-- The firmware's periodic work, by the clock: `UPD_ARM` every 100 ms until T and every 1 s after it, offers every 1 s,
`STAGED` every 10 s. -/
def updTick (s : State) : State :=
  if !hubBUp s then s
  else
    let s := askImages (lateCheck (stagedCheck s))
    let s := if s.upd.activating && s.upd.state = .armed then activate s s.upd.late else s
    let past := s.upd.armTime.any (· ≤ nowNs s)
    let s := if s.upd.armedAny && armPending s && s.ticks % (if past then 10 * ticks100ms else ticks100ms) = 0 then sendArm s else s
    let s := if s.ticks % (10 * ticks100ms) = 0 then
        [0, 1].foldl (fun s x =>
          match smGet s.upd.lastAnswer x none with
          | some code => if code = ucSame || code = ucOlder then s else offerTo s x
          | none => offerTo s x) s
      else s
    match s.upd.claim with
    | some u => if s.upd.state = .staged && s.ticks % (100 * ticks100ms) = 0 then sendReport s u rpStaged 0 else s
    | none => s
where
  /-- An armed member that locks after T activates late (R431). -/
  lateCheck (s : State) : State :=
    if s.upd.state = .armed && !regB s (aPt 0x038) 1 && ptState s = ptLocked then lateActivation s else s

/-! ### Frames and messages -/

/-- An update frame on the chain: Hub firmware relays addressed and broadcast ones after its check; `UPD_ARM` and
`UPD_ABORT` only from the pacer (R420). -/
def updFrame (s : State) (x ftype : Nat) (f : Frame) (pacerOnly : Bool) (act : State → State) : State :=
  let mine := f.dst = uid s || f.dst = 0 || f.dst = broadcast
  if f.ftype.toNat ≠ ftype then s
  else if !mine then
    (if frameTaken s x f && linkIsUp s x && !isDuplicate s f && hubBUp s then relay (noteSeen s f) x f else s)
  else
    let (s, got) := receive s x f
    if got && hubBUp s then
      let s := consume s x
      if pacerOnly && f.src ≠ pacerUid s then s
      else act (if f.dst = broadcast then relay s x f else s)
    else s

/-- An update message of a transport: the ROM answers PF0 and I3C with `RCV_FORMAT` (R419). -/
def updHear (s : State) (tr ftype rtype : Nat) (f : Frame) (act : State → State) : State :=
  if 2 ≤ tr then updFrame s (tr - 2) ftype f false act
  else if rcvServer s = 1 then respond s tr (rtype + 0x80) (f.seq.toNat % 256) 0 rcFormat 0
  else if rcvServer s = 2 then act s
  else s

/-- `RCV_MSG` (R386): the ROM or the firmware takes the message; lengths that disagree count as a bad frame. -/
def rcvMsgOp (s : State) (x : Nat) (f : Frame) : State :=
  if f.ftype ≠ 0x30 then s
  else
    let (s, got) := receive s x f
    let p := f.payload
    if !got || rcvServer s = 0 then s
    else if p.length ≠ 10 + field p 8 2 || p.length < 10 then bump (consume s x) (aChain x 0x04C)
    else if field p 3 1 ≠ 0 then
      (if rcvEnabled s (2 + x) then respond (consume s x) (2 + x) (field p 0 1 % 128 + 0x80) (field p 1 1) 0 rcFormat 0
       else consume s x)
    else rcvRequest (consume s x) (2 + x) (field p 0 1) (field p 1 1) (field p 2 1) (field p 4 4) (p.drop 10)

/-- A link that comes up: the firmware offers its set (R424). -/
def linkUpEvent (s : State) (x : Nat) : State :=
  let was := linkIsUp s x
  let s := linkUpOp s x
  if !was && linkIsUp s x then offerTo s x else s

/-- A roll answer: collected; the answering neighbour that runs another set is offered this one, and one that runs the
armed set makes the member follow (R424, R431). -/
def rollAnswerEvent (s : State) (x : Nat) (f : Frame) : State :=
  onFrame s x 0x11 f fun s =>
    let s := rollAnswerOp s f
    let shown := slice f.payload 16 48
    let neighbour := (cport s x).neighbour = some f.src
    let s := if neighbour && shown ≠ activeManifest s then offerTo s x else s
    if neighbour then neighbourRuns s shown else s

/-- The rollback counter of a platform image that the member holds and that its platform runs, by manifest digest (R307). -/
def heldImage (s : State) (digest : List Byte) : Option Nat :=
  (([0, 1, 2, 3] : List Nat).filter (released s)).findSome? fun p =>
    let c := platformContainer s p
    if hdrManifestDigest (c.take hdrLen) = digest then some (hdrRollback (c.take hdrLen)) else none

/-- `IMAGE_QUERY` (R307): answered with an offer where the member holds the image. -/
def imageQueryOp (s : State) (x : Nat) (f : Frame) : State :=
  onFrame s x 0x31 f fun s =>
    match heldImage s (slice f.payload 0 48) with
    | some r => sendRaw s x 0x32 (slice f.payload 0 48 ++ leBytes 4 r)
    | none => s

/-- A frame arrives on port x, captured at peloton time t, and acts by its type (R385); types `0x26` to `0x2F` count as
bad (R420). -/
def frameArrives (s : State) (x : Nat) (f : Frame) (t : Nat) : State :=
  match f.ftype.toNat with
  | 0x01 => helloOp s x f
  | 0x02 => delayReqOp s x f t
  | 0x03 => delayRespOp s x f t
  | 0x04 => timeOp s x f t
  | 0x10 => onFrame s x 0x10 f fun s => rollCallOp s f
  | 0x11 => rollAnswerEvent s x f
  | 0x12 => onFrame s x 0x12 f fun s => rosterOp s f
  | 0x13 => onFrame s x 0x13 f fun s => pacerAssignOp s f
  | 0x14 => onFrame s x 0x14 f topoChangeOp
  | 0x20 => updHear s (2 + x) 0x20 0x10 f fun s => updOfferOp s (2 + x) f
  | 0x21 => updHear s (2 + x) 0x21 0x10 f fun s => updAnswerOp s x f
  | 0x22 => updHear s (2 + x) 0x22 0x11 f fun s => updChunkOp s (2 + x) f
  | 0x23 => updFrame s x 0x23 f false fun s => updReportOp s f
  | 0x24 => updFrame s x 0x24 f true fun s => updArmOp s f
  | 0x25 => updFrame s x 0x25 f true fun s => updAbortOp s f
  | 0x30 => rcvMsgOp s x f
  | 0x31 => imageQueryOp s x f
  | 0x32 => onDelivery s x 0x32 f
  | _ => badFrameOp s x f true

/-- RX_FULL (R390): the port takes the tunnelled frame and clears `RX_FULL`. -/
def rxFullOp (s : State) (x : Nat) : State :=
  if !portRuns s x || linkMode s x ≠ 2 then setRegB s (aChain x 0x200) 1 true
  else match tunFrame (tunBytes s x) with
  | some f => frameArrives s x f s.time.now
  | none => bump s (aChain x 0x048)

/-- A message of PF0 (transport 0) or I3C (1): recovery and update types by their header (R316, R419). -/
def hostMessage (s : State) (tr : Nat) (h data : List Byte) : State :=
  let seq := field h 1 1
  let f : Frame := { ftype := 0, dirUp := false, hops := 0, seq := BitVec.ofNat 16 seq, src := 0, dst := 0, pelotonId := 0,
                     payload := data }
  if rcvServer s = 0 || !rcvEnabled s tr then s
  else if !headerOk h data then respond s tr (field h 0 1 % 128 + 0x80) seq 0 rcFormat 0
  else match field h 0 1 with
  | 0x10 => updHear s tr 0x20 0x10 f fun s => updOfferOp s tr f
  | 0x11 =>
    let f := { f with payload := (heldDigest s).take 8 ++ leBytes 4 (field h 4 4) ++ data }
    updHear s tr 0x22 0x11 f fun s => updChunkOp s tr f
  | 0x12 => updHear s tr 0x20 0x12 f fun s => updStatusOp s tr
  | t => rcvRequest s tr t seq (field h 2 1) (field h 4 4) data
where
  /-- A chunk of these transports carries no digest: it is for the set that the sender is sending. -/
  heldDigest (s : State) : List Byte :=
    match s.upd.candidate.filter fun c => c.tr = tr with
    | some c => fitBytes 48 c.set.digest
    | none => fitBytes 48 (heldSet s).digest

/-- An `UPD_CHUNK` of transport tr for the claim waits until there is room for it (R419, R424). -/
def chunkWaits (s : State) (tr : Nat) (h : List Byte) : Bool :=
  field h 0 1 = 0x11 && rcvServer s = 2 && s.upd.source = tr && s.upd.claim.isSome && !(busFree s 0 && chunkRoom s)

/-- A message in PF0's recovery mailbox (R316, R354, R419): its header in `RCV_REQ`, its payload in `RCV_DATA`. -/
def mailboxHeader (s : State) : List Byte := wordBytes ((List.range 4).map fun i => reg s (aHost (0x2010 + 4 * i)))
def mailboxRequest (s : State) : State :=
  let h := mailboxHeader s
  if chunkWaits s 0 h then s
  else hostMessage s 0 h ((List.range (min 4096 (field h 8 2))).map fun i => smGet s.fabric.rcvData i 0)

/-- The received packet: transport header and message bytes, where its PEC holds; in fallback the three bytes of DSP0237
go before. PRESUMED (log 90). -/
def i3cPacket (s : State) : Option (List Byte × List Byte) :=
  let d := s.i3c.rx
  let body := d.take (d.length - 1)
  let m := if regB s (aI3c 0x004) 8 then body else body.drop 3
  if 5 ≤ m.length && pec (BitVec.ofNat 8 (2 * i3cAddress s) :: body) = d.getLastD 0 then some (m.take 4, m.drop 4) else none

/-- Who serves I3C takes a packet of a vendor-defined message from the receive buffer; the last one completes the message
(R316, R510). Other messages stay for Hub-B's software. -/
def i3cTake (s : State) : State :=
  match i3cPacket s with
  | none => s
  | some (h, b) =>
    let first := (h.getD 3 0).getLsbD 7
    let msg := if first then b else s.i3c.message ++ b
    if rcvServer s = 0 || field msg 0 1 % 128 ≠ 0x7E || chunkWaits s 1 (slice msg 3 16) then s
    else
      let header := if first then h else s.i3c.header
      let s := rxFullClearOp { s with i3c := { s.i3c with header, message := msg } }
      if (h.getD 3 0).getLsbD 6 then hostMessage s 1 (slice msg 3 16) (msg.drop 19) else s

/-- A private write that the target took is handed to the firmware. -/
def i3cMessageOp (s : State) (data : List Byte) : State :=
  let s' := i3cWriteOp s data
  if i3cUp s && !i3cRxFull s then i3cTake s' else s'

/-- Chunks of PF0 and I3C that waited for room are taken. -/
def waitingChunks (s : State) : State :=
  let s := if regB s (aHost 0x2000) 2 && field (mailboxHeader s) 0 1 = 0x11 && rcvServer s = 2 then mailboxRequest s else s
  if i3cUp s && i3cRxFull s && s.upd.source = 1 then i3cTake s else s

/-- `RCV_CTRL` (R354): `DONE` W1C, `GO` starts a message where nobody is busy with one. -/
def rcvCtrlWrite (s : State) (v : W32) : State :=
  let s := plainWrite s (aHost 0x2000) v
  if bitOf v 0 && !regB s (aHost 0x2000) 2 then mailboxRequest (setRegB s (aHost 0x2000) 2 true) else s

/-! ### The commands -/

def execLinkUp (x : Nat) (s : State) : Host.Outcome State Fault Refusal := .next (linkUpEvent s x)
def execRollAnswer (x : Nat) (f : Frame) (s : State) : Host.Outcome State Fault Refusal := .next (rollAnswerEvent s x f)
def execImageQuery (x : Nat) (f : Frame) (s : State) : Host.Outcome State Fault Refusal := .next (imageQueryOp s x f)
def execRcvMsg (x : Nat) (f : Frame) (s : State) : Host.Outcome State Fault Refusal := .next (rcvMsgOp s x f)
def execI3cPrivateWrite (data : List Byte) (s : State) : Host.Outcome State Fault Refusal := .next (i3cMessageOp s data)
def execRxFull (m x : Nat) (s : State) : Host.Outcome State Fault Refusal :=
  .next (chainBy s m (0x1000 * x + 0x200) (m = 0x300) fun s => if x < 2 then rxFullOp s x else s)
def execUpdOffer (tr : Nat) (f : Frame) (s : State) : Host.Outcome State Fault Refusal :=
  .next (updHear s tr 0x20 0x10 f fun s => updOfferOp s tr f)
def execUpdAnswer (tr : Nat) (f : Frame) (s : State) : Host.Outcome State Fault Refusal :=
  .next (if 2 ≤ tr then updFrame s (tr - 2) 0x21 f false fun s => updAnswerOp s (tr - 2) f else s)
def execUpdChunk (tr : Nat) (f : Frame) (s : State) : Host.Outcome State Fault Refusal :=
  .next (updHear s tr 0x22 0x11 f fun s => updChunkOp s tr f)
def execUpdStatus (tr : Nat) (s : State) : Host.Outcome State Fault Refusal :=
  .next (if rcvServer s = 1 then respond s tr 0x92 0 0 rcFormat 0 else if rcvServer s = 2 then updStatusOp s tr else s)
def execUpdReport (x : Nat) (f : Frame) (s : State) : Host.Outcome State Fault Refusal :=
  .next (updFrame s x 0x23 f false fun s => updReportOp s f)
def execUpdArm (x : Nat) (f : Frame) (s : State) : Host.Outcome State Fault Refusal :=
  .next (updFrame s x 0x24 f true fun s => updArmOp s f)
def execUpdAbort (x : Nat) (f : Frame) (s : State) : Host.Outcome State Fault Refusal :=
  .next (updFrame s x 0x25 f true fun s => updAbortOp s f)
def execUpdTimeout (s : State) : Host.Outcome State Fault Refusal := .next (updTimeoutOp s)
def execForwardResend (x : Nat) (s : State) : Host.Outcome State Fault Refusal := .next (resendOp s x)
def execArmWait (s : State) : Host.Outcome State Fault Refusal := .next (armWaitOp s)
def execActivation (s : State) : Host.Outcome State Fault Refusal := .next (activationOp s)

end Sys2Proof.Machine
end

