-- ==== Sys2Proof/Machine/Services.lean ====
section
/-! DEFINITION. The shipped trust services (14_services.md R356 to R381): input checks, reference sets, appraisal records,
tickets, key release, derivation and signing; and the Hub firmware that keeps their state. A service row is the whole work
of the program on the job of Spoke c: it leaves the trailer and the result in the job buffer; `WAIT.JOB` ends the job. -/

namespace Sys2Proof.Machine

/-! ### Codes (R149, R351, R359) -/

def stLength : Nat := 0x03
def stService : Nat := 0x09
def stOp : Nat := 0x0A
def svFormat : Nat := 0x01
def svAlg : Nat := 0x02
def svKey : Nat := 0x03
def svRefset : Nat := 0x04
def svStale : Nat := 0x05
def svAppraisal : Nat := 0x06
def svPolicy : Nat := 0x07
def svBinding : Nat := 0x08
def svAuth : Nat := 0x09
def svAttr : Nat := 0x0A
def svSet : Nat := 0x0B
def svFull : Nat := 0x0C
def svHub : Nat := 0x0D
def svRecord : Nat := 0x0E

/-! ### Sizes of R360 -/

def algKeyLen (alg : Nat) : Nat := [0, 64, 96, 32, 388, 388, 516, 516, 1952, 2592].getD alg 0
def algSigLen (alg : Nat) : Nat := [0, 64, 96, 64, 384, 384, 512, 512, 3309, 4627].getD alg 0
/-- Digest length of `MODE` 1; 0 where the algorithm has none. -/
def algModeLen (alg : Nat) : Nat := [0, 32, 48, 0, 32, 32, 48, 48, 64, 64].getD alg 0
/-- A signature algorithm in a mode that it has. -/
def algModeOk (alg mode : Nat) : Bool := 1 ≤ alg && alg ≤ 9 && (mode = 0 || (mode = 1 && algModeLen alg ≠ 0))

/-! ### Input checks (R147, R361); PRESUMED: the curves, encodings and moduli are those of the named standards -/

/-- b ^ e mod m. -/
def powMod (b e m : Nat) : Nat :=
  ((List.range (e.log2 + 1)).foldl (fun (st : Nat × Nat) i =>
    (if e.testBit i then st.1 * st.2 % m else st.1, st.2 * st.2 % m)) (1 % m, b % m)).1

def edP : Nat := 2 ^ 255 - 19
def edD : Nat := 37095705934669439343138083508754565189542113879843219016388785533085940283555
def edL : Nat := 2 ^ 252 + 27742317777372353535851937790883648493

/-- An encoded Edwards point decodes. -/
def edDecodes (bs : List Byte) : Bool :=
  let y := leNat bs % 2 ^ 255
  let u := (y * y + edP - 1) % edP
  let v := (edD * y * y + 1) % edP
  if u = 0 then leNat bs < 2 ^ 255 else powMod (u * v) ((edP - 1) / 2) edP = 1

/-- Ed25519. -/
def checkEd (key sig : List Byte) : Nat :=
  firstReason [(leNat key % 2 ^ 255 < edP && leNat (sig.take 32) % 2 ^ 255 < edP, inRange),
    (edDecodes key && edDecodes (sig.take 32), inPoint), (leNat (sig.drop 32) < edL, inRange)]

/-- RSA: modulus then a 4-byte exponent. -/
def checkRsa (key sig : List Byte) : Nat :=
  let n := key.length - 4
  let m := beNat (key.take n)
  let e := beNat (key.drop n)
  let t := beNat sig
  firstReason [(m % 2 = 1 && 2 ^ (8 * n - 1) ≤ m, inModulus), (e % 2 = 1 && 3 ≤ e, inModulus), (t ≠ 0, inZero),
    (t < m, inRange)]

/-- The hint of an ML-DSA signature: positions rising within each of `k` polynomials, the rest zero. -/
def hintOk (omega k : Nat) (h : List Byte) : Bool :=
  let at' := fun i => (h.getD i 0).toNat
  let ends := (List.range k).map fun i => at' (omega + i)
  let starts := 0 :: ends
  ((List.range k).all fun i =>
    let lo := starts.getD i 0
    let hi := ends.getD i 0
    lo ≤ hi && hi ≤ omega && (List.range (hi - lo - 1)).all fun j => at' (lo + j) < at' (lo + j + 1)) &&
  (List.range (omega - ends.getLastD 0)).all fun j => at' (ends.getLastD 0 + j) = 0

/-- ML-DSA: key and signature words fill their ranges, so the hint decides. -/
def checkMldsa (alg : Nat) (sig : List Byte) : Nat :=
  let (omega, k) := if alg = 8 then (55, 6) else (75, 8)
  firstReason [(hintOk omega k (sig.drop (sig.length - (omega + k))), inRange)]

/-- The input checks of a signature algorithm. -/
def inputCheck (alg : Nat) (key sig : List Byte) : Nat :=
  if alg ≤ 2 then checkEcdsa alg key sig
  else if alg = 3 then checkEd key sig
  else if alg ≤ 7 then checkRsa key sig
  else checkMldsa alg sig

/-- The two checks of KEY_RELEASE's recipient keys: the FIPS 203 modulus check, and R361's for X25519. -/
def checkRecipient (ek xk : List Byte) : Nat :=
  let u := leNat xk % 2 ^ 255
  firstReason [
    ((List.range 384).all fun i =>
      let v := field ek (3 * i) 3
      v % 4096 < 3329 && v / 4096 < 3329, inRange),
    (u < edP, inRange),
    (!([0, 1, edP - 1, 325606250916557431795983626356110631294008115727848805560023387167927233504,
      39382357235489614581723060781553021112529911719440698176882885853963445705823] : List Nat).contains u, inPoint)]

/-! ### The job buffer -/

/-- A service's outcome: trailer status, service status, result; and whether the result was declassified. -/
structure SvcEnd where
  status : Nat
  svc : Nat := 0
  result : List Byte := []
  deriving DecidableEq, Repr

def svcOk (result : List Byte) : SvcEnd := { status := 0, result }
def svcLength : SvcEnd := { status := stLength }
def svcErr (svc : Nat) : SvcEnd := { status := stService, svc }
/-- A failed input check (R149, R351). -/
def svcReject (reason : Nat) : SvcEnd := { status := 0x10 + reason }

/-- What core m reads of the banks from `a`: zeros where a bank is off or refuses it (R19, R24, R99). -/
def bankBytes (s : State) (m a n : Nat) : List Byte :=
  (dmaParts a n).flatMap fun e =>
    match bankOf e.1 with
    | some b => if bankOn s b && bankGrants s m b false false then rdBytes s e.1 e.2 else zeros e.2
    | none => zeros e.2

/-- What core m's reads of the banks from `a` do: an island that is off logs them, a refusal is a violation, a wipe ends
first (R19, R99, R104). -/
def bankReach (s : State) (m a n : Nat) : State :=
  (dmaParts a n).foldl (fun s e =>
    match bankOf e.1 with
    | some b =>
      if !bankOn s b then offAccess s m e.1
      else if bankGrants s m b false false then settleBank s b
      else violate s m vBank e.1
    | none => s) s

/-- `ARGS` of a Spoke's job, and its payload. -/
def jobArgs (s : State) (c : Nat) : List Byte := bankBytes s c (jobBuffer c + 32) 32
def jobPayload (s : State) (c : Nat) (j : Job) : List Byte := bankBytes s c (jobBuffer c + 128) j.entry.payloadLen
/-- The body after the payload header. -/
def jobBody (s : State) (c : Nat) (j : Job) : List Byte := (jobPayload s c j).drop 8

/-- Write into the job buffer through the job window (R346). -/
def jobWrite (s : State) (c off : Nat) (bs : List Byte) : State :=
  match jobOf s c with
  | some j =>
    let r := bufferWrite s c off bs
    if r.2 then setJob r.1 c (some { j with highWater := max j.highWater (off + bs.length) }) else r.1
  | none => s

/-- The end of a service's work (R358, R359, R380, R381): result and trailer; on a SIGN queue a refusal or rejection is
an entry in the diagnostic ring and nothing is declassified. -/
def svcFinish (s : State) (c : Nat) (j : Job) (e : SvcEnd) : State :=
  let s := if e.result = [] then s else jobWrite s c 128 e.result
  let s := jobWrite s c 64 (leBytes 4 128 ++ leBytes 4 e.result.length ++
    leBytes 1 e.status ++ leBytes 1 e.svc ++ zeros 6)
  let refusal := fun (s : State) code =>
    diagEntry s 0x0C1 (some j.func) j.queue j.entry.cid (w32 code) [] (qTag s j.queue)
  if j.sign then
    if e.status = 0 then
      match jobOf s c with
      | some j => setJob s c (some { j with declassified := true })
      | none => s
    else if 0x11 ≤ e.status then refusal (emit s islQf c 0x023 [w32 (e.status - 0x10)]) (e.status - 0x10)
    else if e.status = stService then refusal s e.svc
    else s
  else if e.status = stService && e.svc = svHub then refusal s svHub
  else s

/-- Bytes of `ARGS` that an operation does not list are zero (R358). -/
def argsZero (args : List Byte) (used : List (Nat × Nat)) : Bool :=
  (List.range 32).all fun i => used.any (fun u => u.1 ≤ i && i < u.1 + u.2) || args.getD i 0 = 0

/-- Run a service's operation `f` on the job of Spoke c: another operation of the service is no concern of this row, one
that the service does not list ends with `OP_UNSUPPORTED`; the format, reserved bytes and payload come first (R356, R358). -/
def svcRun (s : State) (c service op : Nat) (ops : List Nat) (body : Bool) (used : List (Nat × Nat))
    (f : State → Job → State × SvcEnd) : State :=
  match jobOf s c with
  | none => s
  | some j =>
    if !isSpoke c || (core s c).run ≠ .running || (core s c).frozen || j.service ≠ service then s
    else if !ops.contains j.entry.op then svcFinish s c j { status := stOp }
    else if j.entry.op ≠ op then s
    else
    let s := bankReach s c (jobBuffer c + 32) (96 + j.entry.payloadLen)
    if j.entry.payloadLen ≠ 0 && field (jobPayload s c j) 4 2 ≠ 1 then svcFinish s c j (svcErr svFormat)
    else if !argsZero (jobArgs s c) used then svcFinish s c j (svcErr svFormat)
    else if (j.entry.payloadLen ≠ 0) ≠ body then svcFinish s c j svcLength
    else
      let (s, e) := f s j
      svcFinish s c j e

/-! ### Shared banks of the services (R363) -/

/-- The services of a pack that a `QUEUE_CREATE` may name: the six shipped ones with the release kind of R356, or the
owner's. -/
def packHolds (k : Config.Pack) (service : Nat) : Option Bool :=
  if 1 ≤ service && service ≤ 6 then (if k.shipped then some ([3, 4, 6].contains service) else none)
  else if 0x100 ≤ service && service ≤ 0x7FFF then (k.services.find? fun e => e.1 = service).map Prod.snd
  else none

/-- The pack that Heltor ships. -/
def shippedPack : Config.Pack := { wheels := all32, services := [], shipped := true, run := 0, footprint := 0 }

/-- The owner's packs of the running set. -/
def ownerPacks (s : State) : List Config.Pack :=
  ((manParts (slotManifest s s.upd.activeSlot)).filter fun p => p.kind = partPack).filterMap fun p =>
    Config.packHeader (slotPart s s.upd.activeSlot p)

/-- Hub firmware maps pack k of the set (R377): its run and footprint fit, and no other pack has its service numbers. -/
def packMapped (ks : List Config.Pack) (i : Nat) : Bool :=
  let k := ks.getD i shippedPack
  k.run ≤ 2400 && k.footprint ≤ 0xF000 && k.services.all (fun e => 0x100 ≤ e.1 && e.1 ≤ 0x7FFF) &&
    (List.range ks.length).all fun j =>
      j = i || k.services.all fun e => !((ks.getD j shippedPack).services.any fun d => d.1 = e.1)

/-- The one pack of Wheel w (R357): an owner's that is mapped to it, else the shipped one. -/
def wheelPack (s : State) (w : Nat) : Config.Pack :=
  let ks := ownerPacks s
  match (List.range ks.length).find? fun i => packMapped ks i && bitOf (ks.getD i shippedPack).wheels w with
  | some i => ks.getD i shippedPack
  | none => shippedPack

/-- Appraisal record r of group g, and the reference-set directory and storage from bank 56 on. -/
def recordAddr (g r : Nat) : Nat := bankBase 24 + 128 * (256 * g + r)
def setsBase : Nat := bankBase 56

/-- The banks of Hub-B: 4 and 5 for chunks (R423), the others for the services (R363). -/
def serviceBanks : List Nat := [4, 5, 7] ++ (List.range 40).map (· + 24)

/-- Hub-A hands Hub-B its banks (R105), which shares those of the services with every present Wheel that runs the shipped
pack; bank 7 holds UID and boot nonce. -/
def reserveBank (s : State) (b : Nat) : State :=
  if bankOn s b && bankOwner s b = hubA && !wiping s b then
    let share := w32 ((List.range 32).foldl (fun v w => if wheelAbsent s w || !(wheelPack s w).shipped then v else v + 2 ^ w) 0)
    let s := handoverOp s hubA b (w32 hubB)
    let s := if b < 6 then s else setReg s (shareAddr b) share
    if b = 7 then wrBytes s (bankBase 7) (leBytes 16 (uid s).toNat ++ fitBytes 8 s.svc.bootNonce) else s
  else s

/-- Layer 1 (R177): slots 2 and 3 from slot 1. -/
def layer1 (s : State) : State :=
  let put := fun (s : State) i n =>
    setSlot s i { slotReset i with state := .loaded, key := fitBytes n (Config.layerOneKey i (slotBytes s 1)) }
  put (put s 2 32) 3 48

/-- The two ticket keys of a queue group (R371), P-384 first. -/
def deriveTicketKeys (s : State) (q : Nat) : State :=
  let g := q / 128
  if (slot s 3).state ≠ .loaded || (smGet s.svc.ticketKeys g none).isSome then s
  else
    let tag := leBytes 2 (qTag s q)
    let info := fun (n : String) => n.toUTF8.toList.map (fun b => BitVec.ofNat 8 b.toNat) ++ tag
    let attr := fun len8 type => mkAttr len8 g 1 useCrank type ||| 0x400
    let key := fun n len => hkdf 2 [] (slotBytes s 3) (info n) len
    match findRun s 1 with
    | none => s
    | some a =>
      let s1 := putExtent s a { state := .loaded, attr := attr 6 5, key := key "Z512-TK-EC" 48, allocBy := hubB }
      match findRun s1 1 with
      | none => s
      | some b =>
        let s2 := putExtent s1 b { state := .loaded, attr := attr 4 8, key := key "Z512-TK-PQ" 32, allocBy := hubB }
        { s2 with svc := { s2.svc with ticketKeys := smSet s2.svc.ticketKeys g none (some (a, b)) } }

/-- What the Hub firmware keeps in order for the services, whenever it runs: layer 0 and 1 after the Chamber lost or wiped
its keys (R177, R178), its boot nonce and banks (R363), ticket keys of groups with a live TICKET queue (R371). -/
def servicesTick (s : State) : State :=
  if !hubBUp s || s.boot.rom ≠ .left then s
  else
    let s := if domOn s 26 && (slot s 0).state = .loaded && (slot s 1).state ≠ .loaded then layer0 s else s
    let s := if domOn s 26 && (slot s 1).state = .loaded && (slot s 3).state ≠ .loaded then layer1 s else s
    let s := if s.svc.bootNonce = [] then
        match dripTake s 2 with
        | some (ws, s) => { s with svc := { s.svc with bootNonce := wordBytes ws, ticketSeq := 0 } }
        | none => s
      else s
    let s := if s.svc.bootNonce = [] then s else serviceBanks.foldl reserveBank s
    (liveQueues s).foldl (fun s q => if qState s q = stOn && qService s q = 3 then deriveTicketKeys s q else s) s

/-! ### VERIFY (R362) -/

/-- A signature check under R147 and R361, then verification: the reason of a failed check, or the verdict. -/
def checkThenVerify (alg : Nat) (digest : Bool) (key msg sig : List Byte) : Nat × Bool :=
  (inputCheck alg key sig, Config.verifies alg digest key msg sig)

/-- The body of VERIFY. -/
def verifyOp (s : State) (c : Nat) (j : Job) : State × SvcEnd :=
  let args := jobArgs s c
  let alg := field args 0 1
  let mode := field args 1 1
  let b := jobBody s c j
  let msgLen := field b 4 4
  if !algModeOk alg mode then (s, svcErr svAlg)
  else if field b 0 2 ≠ algKeyLen alg || field b 2 2 ≠ algSigLen alg || (mode = 1 && msgLen ≠ algModeLen alg) ||
      b.length ≠ 8 + algKeyLen alg + algSigLen alg + msgLen then (s, svcLength)
  else
    let key := slice b 8 (algKeyLen alg)
    let sig := slice b (8 + algKeyLen alg) (algSigLen alg)
    let (reason, ok) := checkThenVerify alg (mode = 1) key (slice b (8 + algKeyLen alg + algSigLen alg) msgLen) sig
    (s, if reason ≠ 0 then svcReject reason else svcOk (leBytes 8 (if ok then 0 else 1)))

/-! ### Reference sets (R365, R366) -/

/-- Entry i of the directory as core m reads it. -/
def dirEntry (s : State) (m i : Nat) : List Byte := bankBytes s m (setsBase + 16 * i) 16
def dirId (d : List Byte) : Nat := field d 0 4
def dirGroup (d : List Byte) : Nat := field d 4 1
def dirShared (d : List Byte) : Bool := (field d 5 1).testBit 0
def dirOffset (d : List Byte) : Nat := field d 8 3
def dirLength (d : List Byte) : Nat := field d 11 3
def dirVersion (d : List Byte) : Nat := field d 14 2

/-- H of `MEAS_ALG`. -/
def measLen (alg : Nat) : Nat := if alg = 1 then 32 else 48

/-- Entry i of a set: register, kind, digest. -/
def setEntry (b : List Byte) (i : Nat) : Nat × Nat × List Byte :=
  let h := measLen (field b 10 1)
  let o := 64 + 48 * field b 12 2 + (4 + h) * i
  (field b o 1, field b (o + 1) 1, slice b (o + 4) h)

/-- The layout of R365. -/
def setOk (id : Nat) (b : List Byte) : Bool :=
  let h := measLen (field b 10 1)
  let keys := field b 12 2
  let n := field b 14 2
  let rank := fun i => (setEntry b i).1 * 2 ^ 384 + beNat (setEntry b i).2.2
  field b 0 4 = 0x5346525A && field b 4 4 = id && id ≠ 0 && (field b 10 1 = 1 || field b 10 1 = 2) && field b 11 1 < 2 &&
    1 ≤ keys && keys ≤ 256 && (slice b 16 48).all (· = 0) && b.length ≤ 65536 &&
    b.length = 64 + 48 * keys + (4 + h) * n &&
    ((List.range n).all fun i => (setEntry b i).2.1 < 2 && field b (64 + 48 * keys + (4 + h) * i + 2) 2 = 0) &&
    (List.range (n - 1)).all fun i => rank i < rank (i + 1)

/-- Storage that no entry of the directory and no retired version uses. -/
def storageFree (s : State) (off n : Nat) : Bool :=
  let apart := fun o l => off + n ≤ o || o + l ≤ off
  off + n ≤ 2097152 &&
    ((List.range 1024).all fun i => let d := dirEntry s hubB i; dirId d = 0 || apart (dirOffset d) (dirLength d)) &&
    s.svc.retired.all fun (o, l, t) => t ≤ nowNs s || apart o l

/-- The lowest free storage for `n` bytes. -/
def findStorage (s : State) (n : Nat) : Option Nat :=
  let ends := 16384 :: ((List.range 1024).map fun i => let d := dirEntry s hubB i; dirOffset d + dirLength d) ++
    s.svc.retired.map fun (o, l, _) => o + l
  ((ends.filter fun o => 16384 ≤ o && storageFree s o n)).foldl (fun b o =>
    match b with
    | none => some o
    | some x => some (min x o)) none

/-- Publish a set: storage first, then the directory entry (R366). -/
def publishSet (s : State) (id group : Nat) (b : List Byte) : State × SvcEnd :=
  let s := bankReach s hubB setsBase 16384
  let place := match (List.range 1024).find? fun i => dirId (dirEntry s hubB i) = id with
    | some i => some i
    | none => (List.range 1024).find? fun i => dirId (dirEntry s hubB i) = 0
  match place, findStorage s b.length with
  | some i, some off =>
    let old := dirEntry s hubB i
    let s := hubStore s (setsBase + off) b
    let retired := s.svc.retired.filter fun r => nowNs s < r.2.2
    let until' := nowNs s + 1000 * (reg s (aQf 0x00C)).toNat
    let retired := if dirId old = 0 then retired else retired ++ [(dirOffset old, dirLength old, until')]
    let s := { s with svc := { s.svc with retired } }
    let entry := leBytes 4 id ++ leBytes 1 group ++ leBytes 1 (field b 11 1) ++ zeros 2 ++ leBytes 3 off ++
      leBytes 3 b.length ++ leBytes 2 (field b 8 2)
    let s := hubStore s (setsBase + 16 * i) entry
    (hubBRecord s 0x0C2 [w32 id, w32 (field b 8 2)], svcOk [])
  | _, _ => (s, svcErr svFull)

/-- The body of REFSET_LOAD. -/
def refsetLoadOp (s : State) (c : Nat) (j : Job) : State × SvcEnd :=
  let args := jobArgs s c
  let id := field args 0 4
  let flags := field args 5 1
  let off := field args 8 4
  let chunk := jobBody s c j
  if j.func ≠ 0 then (s, svcErr svAuth)
  else if 4 ≤ flags then (s, svcErr svFormat)
  else if !hubBUp s then (s, svcErr svHub)
  else if 65536 < off + chunk.length then (s, svcErr svSet)
  else
    let old := if flags.testBit 0 then [] else smGet s.svc.staging id []
    let staged := fitBytes off old ++ chunk ++ old.drop (off + chunk.length)
    let keep := fun (s : State) b => { s with svc := { s.svc with staging := smSet s.svc.staging id [] b } }
    if !flags.testBit 1 then (keep s staged, svcOk [])
    else if setOk id staged then publishSet (keep s []) id (field args 4 1) staged
    else (keep s [], svcErr svSet)

/-- The directory entry of the set with an ID that a group may use, as Spoke c reads it (R367 step 1). -/
def findEntry (s : State) (c id group : Nat) : Option (List Byte) :=
  ((List.range 1024).find? fun i =>
    let d := dirEntry s c i
    id ≠ 0 && dirId d = id && (dirGroup d = group || dirShared d)).map (dirEntry s c)

/-- The set's bytes. -/
def findSet (s : State) (c id group : Nat) : Option (List Byte) :=
  (findEntry s c id group).map fun d => bankBytes s c (setsBase + dirOffset d) (dirLength d)

/-- The reads of the directory and of the set. -/
def reachSet (s : State) (c id group : Nat) : State :=
  let s := bankReach s c setsBase 16384
  match findEntry s c id group with
  | some d => bankReach s c (setsBase + dirOffset d) (dirLength d)
  | none => s

/-! ### APPRAISE (R364, R367, R368) -/

/-- A stored record as Spoke c reads it: 128 bytes, or none where `SEQ` is odd. -/
def recordOf (s : State) (c g r : Nat) : Option (List Byte) :=
  let b := bankBytes s c (recordAddr g r) 128
  if (field b 0 8) % 2 = 0 then some b else none

/-- The read of a record. -/
def reachRecord (s : State) (c g r : Nat) : State := bankReach s c (recordAddr g r) 128

def recTime (b : List Byte) : Nat := field b 16 8

/-- Hub-B stores a record: `SEQ` grows by 2, `TIME` is now. -/
def storeAppraisal (s : State) (g r result version id : Nat) (workload digest binding : List Byte) : State :=
  let s := bankReach s hubB (recordAddr g r) 8
  let seq := field (bankBytes s hubB (recordAddr g r) 8) 0 8
  hubStore s (recordAddr g r) (leBytes 8 (seq + 2) ++ leBytes 2 result ++ leBytes 2 version ++ leBytes 4 id ++
    leBytes 8 (nowNs s) ++ fitBytes 16 workload ++ fitBytes 48 digest ++ fitBytes 32 binding ++ zeros 8)

/-- The parts of an evidence record. -/
structure Evidence where
  alg : Nat
  meas : Nat
  nonce : List Byte
  key : List Byte
  statement : List Byte
  sig : List Byte
  log : List (Nat × List Byte)
  deriving DecidableEq, Repr

/-- Evidence from a body, or how the program refuses it. -/
def evidenceOf (b : List Byte) : Evidence ⊕ SvcEnd :=
  let alg := field b 0 1
  let meas := field b 1 1
  let h := measLen meas
  let k := field b 2 2
  let n := field b 4 2
  let count := field b 6 2
  let o := 40 + k
  let regs := field b (o + 84) 1
  let len := 88 + regs * h
  let logAt := fun i => o + len + n + (4 + h) * i
  if !algModeOk alg 0 || (meas ≠ 1 && meas ≠ 2) then .inr (svcErr svAlg)
  else if k ≠ algKeyLen alg || n ≠ algSigLen alg || 1024 < count || b.length ≠ logAt count then .inr svcLength
  else if field b o 4 ≠ 0x31535A56 || regs = 0 || 24 < regs || field b (o + 85) 1 ≠ meas || field b (o + 86) 2 ≠ 0 ||
      (List.range count).any (fun i => field b (logAt i + 1) 1 ≠ 0) then .inr (svcErr svFormat)
  else .inl { alg, meas, nonce := slice b 8 32, key := slice b 40 k, statement := slice b o len, sig := slice b (o + len) n,
              log := (List.range count).map fun i => (field b (logAt i) 1, slice b (logAt i + 4) h) }

/-- Register values of a statement. -/
def evidenceRegs (e : Evidence) : List (List Byte) :=
  (List.range (field e.statement 84 1)).map fun i => slice e.statement (88 + measLen e.meas * i) (measLen e.meas)

/-- Replay of the log over registers of zeros. -/
def replay (e : Evidence) : List (List Byte) :=
  e.log.foldl (fun regs (r, d) => regs.set r (hash e.meas (regs.getD r [] ++ d)))
    (List.replicate (field e.statement 84 1) (zeros (measLen e.meas)))

/-- What a set says of a log entry: 0 allow, 1 deny, none. -/
def setKind (b : List Byte) (l : Nat × List Byte) : Option Nat :=
  ((List.range (field b 14 2)).find? fun i => (setEntry b i).1 = l.1 && (setEntry b i).2.2 = l.2).map fun i =>
    (setEntry b i).2.1

/-- The first log entry that a condition selects. -/
def firstEntry (e : Evidence) (p : Nat × List Byte → Bool) : Option Nat :=
  (List.range e.log.length).find? fun i => p (e.log.getD i (0, []))

/-- Steps 3 to 7: `RESULT` and `FAIL_INDEX`. -/
def appraisal (set : List Byte) (e : Evidence) : Nat × Nat :=
  let keys := (List.range (field set 12 2)).map fun i => slice set (64 + 48 * i) 48
  if !keys.contains (sha384 e.key) then (1, 0)
  else if !Config.verifies e.alg false e.key e.statement e.sig then (2, 0)
  else if slice e.statement 20 32 ≠ e.nonce then (3, 0)
  else
    match firstEntry e fun l => field e.statement 84 1 ≤ l.1 with
    | some i => (4, i)
    | none =>
      if replay e ≠ evidenceRegs e then (4, 0)
      else
        match firstEntry e fun l => setKind set l ≠ some 0 with
        | some i => (if setKind set (e.log.getD i (0, [])) = some 1 then 6 else 5, i)
        | none => (0, 0)

/-- The body of APPRAISE. -/
def appraiseOp (s : State) (c : Nat) (j : Job) : State × SvcEnd :=
  let args := jobArgs s c
  let id := field args 0 4
  let r := field args 4 2
  if 255 < r && r ≠ 0xFFFF then (s, svcErr svRecord)
  else match evidenceOf (jobBody s c j) with
  | .inr e => (s, e)
  | .inl e =>
    let s := reachSet s c id j.group
    match (findSet s c id j.group).filter fun b => field b 10 1 = e.meas with
    | none => (s, svcErr svRefset)
    | some set =>
      let reason := inputCheck e.alg e.key e.sig
      if reason ≠ 0 then (s, svcReject reason)
      else if r ≠ 0xFFFF && !hubBUp s then (s, svcErr svHub)
      else
        let (result, fail) := appraisal set e
        let version := field set 8 2
        let workload := slice e.statement 4 16
        let digest := sha384 (evidenceRegs e).flatten
        let s := if r = 0xFFFF then s
          else storeAppraisal s j.group r result version id workload digest (slice e.statement 52 32)
        (s, svcOk (leBytes 2 result ++ leBytes 2 fail ++ leBytes 4 id ++ leBytes 2 version ++ leBytes 2 r ++ zeros 4 ++
          digest ++ workload))

/-- The body of RECORD_STATUS. -/
def recordStatusOp (s : State) (c : Nat) (j : Job) : State × SvcEnd :=
  let r := field (jobArgs s c) 0 2
  if 255 < r then (s, svcErr svRecord)
  else
    let s := reachRecord s c j.group r
    match recordOf s c j.group r with
    | some b => (s, svcOk (b.drop 8))
    | none => (s, svcErr svStale)

/-- A record that a ticket or a release may use (R369): for the workload, and of minute m or, back to `age` minutes, an
earlier one. -/
def freshRecord (s : State) (c g r age : Nat) (workload : List Byte) : Option (List Byte) :=
  let minute := fun t => t / 60000000000
  (recordOf s c g r).filter fun b =>
    recTime b ≠ 0 && slice b 24 16 = workload && minute (recTime b) ≤ minute (nowNs s) &&
      minute (nowNs s) ≤ minute (recTime b) + age

/-! ### POLICY_SET (R372) -/

/-- The policy table of a body, or how it is refused. -/
def policyOf (b : List Byte) : List PolicyEntry ⊕ SvcEnd :=
  let n := field b 0 2
  let entry := fun i => ({ slot := field b (8 + 8 * i) 2, maxAge := field b (8 + 8 * i + 2) 1,
                           refsetId := field b (8 + 8 * i + 4) 4 } : PolicyEntry)
  if b.length ≠ 8 + 8 * n then .inr svcLength
  else if 64 < n || field b 2 6 ≠ 0 || (List.range n).any (fun i => field b (8 + 8 * i + 3) 1 ≠ 0 || 1 < (entry i).maxAge) then
    .inr (svcErr svFormat)
  else .inl ((List.range n).map entry)

/-- The body of POLICY_SET. -/
def policySetOp (s : State) (c : Nat) (j : Job) : State × SvcEnd :=
  match policyOf (jobBody s c j) with
  | .inr e => (s, e)
  | .inl ps =>
    if !hubBUp s then (s, svcErr svHub)
    else
      let s := { s with svc := { s.svc with policies := smSet s.svc.policies j.group [] ps } }
      (hubBRecord s 0x0C3 [w32 j.group], svcOk [])

/-! ### Tickets (R369 to R371) -/

/-- A CBOR head: major type and argument in its shortest form. -/
def cborHead (major n : Nat) : List Byte :=
  if n < 24 then beBytes 1 (32 * major + n)
  else if n < 256 then beBytes 1 (32 * major + 24) ++ beBytes 1 n
  else if n < 65536 then beBytes 1 (32 * major + 25) ++ beBytes 2 n
  else if n < 2 ^ 32 then beBytes 1 (32 * major + 26) ++ beBytes 4 n
  else beBytes 1 (32 * major + 27) ++ beBytes 8 n
def cborUint (n : Nat) : List Byte := cborHead 0 n
def cborBytes (bs : List Byte) : List Byte := cborHead 2 bs.length ++ bs

/-- The ticket payload of R370. -/
def ticketPayload (s : State) (tag seq : Nat) (rec : List Byte) : List Byte :=
  let kv := fun k v => cborUint k ++ v
  cborHead 5 9 ++ kv 1 (cborUint tag) ++ kv 2 (cborBytes (slice rec 24 16)) ++
    kv 3 (cborUint (nowNs s / 60000000000)) ++ kv 4 (cborBytes (slice rec 40 48)) ++ kv 5 (cborUint (field rec 8 1)) ++
    kv 6 (cborHead 4 2 ++ cborUint (field rec 12 4) ++ cborUint (field rec 10 2)) ++
    kv 7 (cborBytes (leBytes 16 (uid s).toNat)) ++ kv 8 (cborBytes (fitBytes 8 s.svc.bootNonce)) ++ kv 9 (cborUint seq)

/-- The protected header: algorithm −35 or −49 and the key ID. -/
def coseHeader (alg : Nat) (pub : List Byte) : List Byte :=
  cborHead 5 2 ++ cborUint 1 ++ cborHead 1 (alg - 1) ++ cborUint 4 ++ cborBytes ((sha384 pub).take 16)

/-- `Sig_structure` of RFC 9052. -/
def sigStructure (header payload : List Byte) : List Byte :=
  cborHead 4 4 ++ cborHead 3 10 ++ ("Signature1".toUTF8.toList.map fun b => BitVec.ofNat 8 b.toNat) ++ cborBytes header ++
    cborBytes [] ++ cborBytes payload

/-- A COSE_Sign1 structure, and whether its signature verifies before release (R150). -/
def coseSign (alg cose : Nat) (key payload rnd : List Byte) : List Byte × Bool :=
  let pub := Config.publicKey alg key
  let header := coseHeader cose pub
  let tbs := sigStructure header payload
  let sig := fitBytes (algSigLen alg) (Config.signature alg false key tbs rnd)
  (cborHead 6 18 ++ cborHead 4 4 ++ cborBytes header ++ cborHead 5 0 ++ cborBytes payload ++ cborBytes sig,
    Config.verifies alg false pub tbs sig)

/-- A signing job whose paired verification failed leaves without `DECLASSIFY` (R145, R146, R381). -/
def selfCheckFailed (s : State) (c : Nat) : State × SvcEnd :=
  (emit s (coreIsland c) c 0x022 [], { status := stService })

/-- The group's ticket keys, both loaded. -/
def ticketKeysOf (s : State) (g : Nat) : Option (List Byte × List Byte) :=
  (smGet s.svc.ticketKeys g none).bind fun (a, b) =>
    if (slot s a).state = .loaded && (slot s b).state = .loaded then some ((slot s a).key, (slot s b).key) else none

/-- `n` words of Drip output from Hub-B by `HUBCALL`, as bytes. -/
def hubDrip (s : State) (n : Nat) : Option (List Byte × State) :=
  if hubBUp s then (dripTake s n).map fun (ws, s) => (wordBytes ws, s) else none

/-- The body of TICKET. -/
def ticketOp (s : State) (c : Nat) (j : Job) : State × SvcEnd :=
  let args := jobArgs s c
  let r := field args 0 2
  if 255 < r then (s, svcErr svRecord)
  else
    let s := reachRecord s c j.group r
    match freshRecord s c j.group r 1 (slice args 16 16), ticketKeysOf s j.group with
    | none, _ => (s, svcErr svStale)
    | _, none => (s, svcErr svKey)
    | some rec, some (ec, pq) =>
      match hubDrip s 8 with
      | none => (s, svcErr svHub)
      | some (rnd, s) =>
        let s := { s with svc := { s.svc with ticketSeq := s.svc.ticketSeq + 1 } }
        let payload := ticketPayload s (qTag s j.queue) s.svc.ticketSeq rec
        let (a, okA) := coseSign 2 35 ec payload rnd
        let (b, okB) := coseSign 8 49 pq payload rnd
        if okA && okB then (s, svcOk (cborHead 4 2 ++ a ++ b)) else selfCheckFailed s c

/-- The body of TICKET_KEYS. -/
def ticketKeysOp (s : State) (j : Job) : State × SvcEnd :=
  match ticketKeysOf s j.group with
  | none => (s, svcErr svKey)
  | some (ec, pq) => (s, svcOk (fitBytes 96 (Config.publicKey 2 ec) ++ fitBytes 1952 (Config.publicKey 8 pq)))

/-! ### KEY_RELEASE (R373, R374) -/

/-- A slot that a service may use for its job: the first of its extent, loaded, the group's own, with usage bits. -/
def keyUsable (s : State) (j : Job) (i usage : Nat) : Bool :=
  let a := (slot s i).attr
  isHead s i && (slot s i).state = .loaded && attrGroup a && attrOwner a % 256 = j.group && attrUsage a &&& usage = usage

/-- The policy entry that speaks for a slot: one whose set agrees with the record's, else any for the slot. -/
def policyFor (ps : List PolicyEntry) (slot set : Nat) : Option PolicyEntry :=
  match ps.find? fun p => p.slot = slot && (p.refsetId = 0 || p.refsetId = set) with
  | some p => some p
  | none => ps.find? fun p => p.slot = slot

/-- The key plus `PAD`, word by word. -/
def addPad (key pad : List Byte) : List Byte :=
  (List.range (key.length / 8)).flatMap fun i => leBytes 8 ((field key (8 * i) 8 + field pad (8 * i) 8) % 2 ^ 64)

/-- The release of R374. -/
def release (key ek xk workload : List Byte) (slot : Nat) (drip : List Byte) : List Byte :=
  let seed := hmac 2 key drip
  let (ssk, ct) := Config.mlkemEncaps ek (Config.expandSeed seed 0)
  let e := Config.expandSeed seed 1
  let pubE := fitBytes 32 (Config.x25519 e (leBytes 32 9))
  let ssx := fitBytes 32 (Config.x25519 e xk)
  let ct := fitBytes 1088 ct
  let th := sha384 (ct ++ pubE ++ xk ++ workload ++ leBytes 2 slot)
  let prk := hmac 2 ("Vilust-KR1".toUTF8.toList.map fun b => BitVec.ofNat 8 b.toNat) (fitBytes 32 ssk ++ ssx)
  let l := key.length
  let pad := hkdfExpand 2 prk (1 :: th) l
  let mac := hkdfExpand 2 prk (2 :: th) 48
  leBytes 2 l ++ zeros 2 ++ ct ++ pubE ++ addPad key pad ++ (hmac 2 mac key).take 32

/-- The body of KEY_RELEASE. The released value is computed twice from the same seed, and the paired verify job compares
the copies before it leaves (R143, R374). -/
def keyReleaseOp (s : State) (c : Nat) (j : Job) : State × SvcEnd :=
  let args := jobArgs s c
  let b := jobBody s c j
  let r := field args 0 2
  let i := field args 2 2
  let workload := slice args 16 16
  let reason := checkRecipient (slice b 0 1184) (slice b 1184 32)
  if b.length ≠ 1216 then (s, svcLength)
  else if 255 < r then (s, svcErr svRecord)
  else if reason ≠ 0 then (s, svcReject reason)
  else
    let s := reachRecord s c j.group r
    let policy := policyFor (smGet s.svc.policies j.group []) i (field ((recordOf s c j.group r).getD []) 12 4)
    match freshRecord s c j.group r ((policy.map PolicyEntry.maxAge).getD 1) workload with
    | none => (s, svcErr svStale)
    | some rec =>
      let binding := slice rec 88 32
      let key := (slot s i).key
      if field rec 8 1 ≠ 0 then (s, svcErr svAppraisal)
      else if policy.all (fun p => p.refsetId ≠ 0 && p.refsetId ≠ field rec 12 4) then (s, svcErr svPolicy)
      else if binding ≠ sha256 b || binding = zeros 32 then (s, svcErr svBinding)
      else if !keyUsable s j i (useCrank ||| useDerive) || key.length < 8 || 64 < key.length then (s, svcErr svKey)
      else match hubDrip s 8 with
        | none => (s, svcErr svHub)
        | some (drip, s) =>
          let first := release key (slice b 0 1184) (slice b 1184 32) workload i drip
          let second := release key (slice b 0 1184) (slice b 1184 32) workload i drip
          if first = second then (s, svcOk first) else selfCheckFailed s c

/-! ### DERIVE (R375) -/

/-- The body of DERIVE. -/
def deriveOp (s : State) (c : Nat) (j : Job) : State × SvcEnd :=
  let args := jobArgs s c
  let i := field args 0 2
  let alg := field args 2 1
  let n := field args 3 1
  let a := w32 (field args 4 4)
  let b := jobBody s c j
  let saltLen := field b 0 2
  let infoLen := field b 2 2
  if alg ≠ 1 && alg ≠ 2 then (s, svcErr svAlg)
  else if b.length ≠ 4 + saltLen + infoLen then (s, svcLength)
  else if !keyUsable s j i useDerive then (s, svcErr svKey)
  else if !attrOk s c a || !attrGroup a || attrOwner a % 256 ≠ j.group || attrLen a ≠ n || n % 8 ≠ 0 || algDigest alg < n ||
      !(attrLifetime a = 1 || (attrLifetime a = 2 && j.func = 0)) then (s, svcErr svAttr)
  else match findRun s 1 with
    | none => (s, svcErr svFull)
    | some k =>
      let key := hkdf alg (slice b 4 saltLen) (slotBytes s i) (slice b (4 + saltLen) infoLen) n
      (putExtent s k { state := .loaded, attr := a, key, allocBy := c, allocJob := some j.number }, svcOk (leBytes 8 k))

/-! ### SIGN (R376) -/

/-- `TYPE` of the key of an algorithm. -/
def signType (alg : Nat) : Nat := [0, 4, 5, 6, 9, 9, 9, 9, 8, 8].getD alg 0

/-- The body of SIGN. -/
def signOp (s : State) (c : Nat) (j : Job) : State × SvcEnd :=
  let args := jobArgs s c
  let i := field args 0 2
  let alg := field args 2 1
  let mode := field args 3 1
  let msg := jobBody s c j
  let a := (slot s i).attr
  if !algModeOk alg mode then (s, svcErr svAlg)
  else if mode = 1 && msg.length ≠ algModeLen alg then (s, svcLength)
  else if !keyUsable s j i useCrank || attrType a ≠ signType alg ||
      (signType alg = 9 && attrLen a ≠ Config.rsaCrtLength alg) then (s, svcErr svKey)
  else match hubDrip s 8 with
    | none => (s, svcErr svHub)
    | some (rnd, s) =>
      let key := (slot s i).key
      let sig := fitBytes (algSigLen alg) (Config.signature alg (mode = 1) key msg rnd)
      if Config.verifies alg (mode = 1) (Config.publicKey alg key) msg sig then (s, svcOk sig) else selfCheckFailed s c

/-! ### Queues of the services (R356, R357) -/

/-- Hub-B's checks of a service and its release kind: every present Wheel of the mask runs a pack that holds it. -/
def serviceOk (s : State) (words : List W32) : Bool :=
  let service := fld (words.getD 6 0) 16 16
  let sign := bitOf (words.getD 4 0) 29
  let f := fld (words.getD 5 0) 0 8
  let wheels := (List.range 32).filter fun w => bitOf (words.getD 8 0) w && !wheelAbsent s w
  ((1 ≤ service && service ≤ 6) || (0x100 ≤ service && service ≤ 0x7FFF)) &&
    (6 < service || sign = [3, 4, 6].contains service) &&
    wheels.all (fun w => packHolds (wheelPack s w) service = some sign) && (!sign || Config.isSigner (ownerConfig s) f)

/-- QUEUE_CREATE as Hub-B serves it. -/
def queueCreateBy (s : State) (q : Nat) (words : List W32) : State :=
  if !hubBUp s then s else if serviceOk s words then queueCreateOp s q words else adminEnd s 1 1

/-- An admin operation that Hub-B serves. -/
def adminOp (s : State) (f : State → State) : State := if hubBUp s then f s else s

/-! ### The commands -/

def execQueueCreate (q : Nat) (ctx : List W32) (s : State) : Host.Outcome State Fault Refusal := .next (queueCreateBy s q ctx)
def execQueueDestroy (q : Nat) (s : State) : Host.Outcome State Fault Refusal :=
  .next (adminOp s fun s => queueDestroyOp s q)
def execQueueSet (groups : BitVec 256) (index : Nat) (quantum wheelMask : W32) (s : State) :
    Host.Outcome State Fault Refusal := .next (adminOp s fun s => queueSetOp s groups index quantum wheelMask)
def execFuncSet (f : Nat) (en : Bool) (base count : Nat) (s : State) : Host.Outcome State Fault Refusal :=
  .next (adminOp s fun s => funcSetOp s f en base count)
def execVerify (c : Nat) (s : State) : Host.Outcome State Fault Refusal :=
  .next (svcRun s c 1 1 [1] true [(0, 2)] fun s j => verifyOp s c j)
def execAppraise (c : Nat) (s : State) : Host.Outcome State Fault Refusal :=
  .next (svcRun s c 2 1 [1, 2, 3, 4, 5] true [(0, 6)] fun s j => appraiseOp s c j)
def execRefsetLoad (c : Nat) (s : State) : Host.Outcome State Fault Refusal :=
  .next (svcRun s c 2 2 [1, 2, 3, 4, 5] true [(0, 6), (8, 4)] fun s j => refsetLoadOp s c j)
def execPolicySet (c : Nat) (s : State) : Host.Outcome State Fault Refusal :=
  .next (svcRun s c 2 3 [1, 2, 3, 4, 5] true [] fun s j => policySetOp s c j)
def execTicketKeys (c : Nat) (s : State) : Host.Outcome State Fault Refusal :=
  .next (svcRun s c 2 4 [1, 2, 3, 4, 5] false [] fun s j => ticketKeysOp s j)
def execRecordStatus (c : Nat) (s : State) : Host.Outcome State Fault Refusal :=
  .next (svcRun s c 2 5 [1, 2, 3, 4, 5] false [(0, 2)] fun s j => recordStatusOp s c j)
def execTicket (c : Nat) (s : State) : Host.Outcome State Fault Refusal :=
  .next (svcRun s c 3 1 [1] false [(0, 2), (16, 16)] fun s j => ticketOp s c j)
def execKeyRelease (c : Nat) (s : State) : Host.Outcome State Fault Refusal :=
  .next (svcRun s c 4 1 [1] true [(0, 4), (16, 16)] fun s j => keyReleaseOp s c j)
def execDerive (c : Nat) (s : State) : Host.Outcome State Fault Refusal :=
  .next (svcRun s c 5 1 [1] true [(0, 8)] fun s j => deriveOp s c j)
def execSign (c : Nat) (s : State) : Host.Outcome State Fault Refusal :=
  .next (svcRun s c 6 1 [1] true [(0, 4)] fun s j => signOp s c j)

end Sys2Proof.Machine
end

