-- ==== Sys2Proof/Machine/Verify.lean ====
section
/-! DEFINITION. What the shipped Hub firmware does on its own with time: the end of the device half (09_boot.md R247), the
verification and the recovery of platforms (R252, 12_recovery.md R307 to R311, 16_update.md R425), and the journal
(18_recorder.md R463, R464). One step a tick for each; how long a step takes is timing (log 73). -/

namespace Sys2Proof.Machine

/-! ### The device half (R247) -/

/-- Every block of a part of the set in the running slot matches its table. -/
def partVerifies (s : State) (p : Part) : Bool :=
  (badBlock (slotPart s s.upd.activeSlot p) fun i =>
    manBlockDigest (slotManifest s s.upd.activeSlot) (p.firstBlock + i)).isNone

/-- Parts of the running set of a kind. -/
def runningParts (s : State) (kind : Nat) : List Part :=
  (manParts (slotManifest s s.upd.activeSlot)).filter fun p => p.kind = kind

/-- The set's program packs verify. -/
def packsVerify (s : State) : Bool := (runningParts s 2).all (partVerifies s)

/-- Set `IMAGE_VERIFIED`, `BANKS_ASSIGNED` and `HUB_GO` of a core in reset whose island runs (R60, R247). -/
def readyCore (s : State) (c : Nat) : State :=
  if coreOn s c && (core s c).run = .reset then setRegF s (relStatusAddr c) 0 3 7 else s

/-- The gatekeeper part of port p. -/
def gkPart (s : State) (p : Nat) : Option Part := (runningParts s 3).find? fun q => q.target = p

/-- The gatekeeper's program of port p verifies, or the set has none. -/
def gkVerifies (s : State) (p : Nat) : Bool := (gkPart s p).all (partVerifies s)

/-- Port p's gatekeeper, in reset and not yet made ready: its program and its policy go into its scratch and it gets the
tables (R301, R304); one that fails its check stays in reset, and the port decides by the static table (R297). -/
def gkPrepare (s : State) (p : Nat) : State :=
  if portOn s p && (core s (gkId p)).run = .reset && regF s (relStatusAddr (gkId p)) 0 3 = 0 then
    match gkPart s p with
    | none => s
    | some q =>
      let s' := setRegB s (aPort p 0x3000) 8 false
      if partVerifies s q then
        let code := (slotPart s s.upd.activeSlot q).take 0x10000
        let policy := (Config.gatekeeperPolicy (ownerConfig s) p).take 0x8000
        let s' := gkScratchWrite s' p 0 code.length (leNat code)
        readyCore (gkScratchWrite s' p 0x8000 policy.length (leNat policy)) (gkId p)
      else s'
  else s

/-- Steps 4 to 6 of R247; `BOOT_DONE` once the queue fabric runs. -/
def finishBoot (s : State) : State :=
  let s := if packsVerify s then (List.range 512).foldl (fun s c => if isSpoke c then readyCore s c else s) s else s
  let s := [0, 1, 2, 3].foldl gkPrepare s
  bootDoneOp { s with boot := { s.boot with fwDone := true } }

/-- The firmware on Hub-A completes the device half, one step a tick (R247): PD_17 (and PD_16, which holds `BOOT_DONE`),
layer 1, Hub-B, then the rest. After recovery listen it waits for the rest of the set (R320). -/
def firmwareTick (s : State) : State :=
  if s.boot.rom ≠ .left || s.boot.fwDone || !romRuns s then s
  else if reg s (aPwr 0x020) &&& 0x30000 ≠ 0x30000 then pdReqOp s (reg s (aPwr 0x020) ||| 0x30000)
  else if (slot s 3).state ≠ .loaded then
    (if domOn s 26 && (slot s 1).state = .loaded then layer1 s else s)
  else if !s.boot.hubBGo then { s with boot := { s.boot with hubBVector := Config.hubBVector, hubBGo := true } }
  else if !hubBUp s || !qfOn s || (rcvTarget s 0).state = .entering then s
  else finishBoot s

/-! ### Platforms (R252, R307 to R311, R425) -/

def platWork (s : State) (p : Nat) : Option PlatWork := smGet s.rcv.work p none
def setPlatWork (s : State) (p : Nat) (w : Option PlatWork) : State :=
  { s with rcv := { s.rcv with work := smSet s.rcv.work p none w } }

/-- The block table of port p lies here (R252). -/
def tableAddr (p : Nat) : Nat := bankBase (8 + 4 * p)

/-- Hub-A hands the banks of port p's verification to its gatekeeper, read by Wheel ⌊p/2⌋ (R252). -/
def verifyBanks (s : State) (p : Nat) : State :=
  (p :: (List.range 4).map (· + (8 + 4 * p))).foldl (fun s b =>
    if bankOwner s b = hubA && !wiping s b then
      setReg (handoverOp s hubA b (w32 (gkId p))) (shareAddr b) (w32 (2 ^ (p / 2)))
    else s) s

/-- The flash side as SFDP and the owner's configuration give it; 1S-1S-1S without SFDP (R252, R263). -/
def portSetup (s : State) (p : Nat) : State :=
  let s := emitOut s (.flash { port := p, cs := 0, opcode := 0x5A, addr := some 0, dummy := 8, read := 256 })
  match Config.portSetup (ownerConfig s) p (smGet s.flashGen p 0) with
  | some (t, t2, c) => setReg (setReg (setReg s (aPort p 0x010) t) (aPort p 0x014) t2) (aPort p 0x020) c
  | none => setRegF s (aPort p 0x020) 4 2 0

/-- The block table of a container goes into the shared banks, where the port's audit lane finds it (R252, R254). -/
def loadTable (s : State) (p : Nat) (c : List Byte) : State :=
  let s := (dmaWrite s (gkId p) (gkId p) (tableAddr p) (innerTable c)).1
  let q := containerPart c
  let s := setReg (setReg (setPair s (aPort p 0x0A0) (tableAddr p)) (aPort p 0x0A8) (w32 q.offset))
    (aPort p 0x0AC) (w32 (q.length / 4096))
  s

/-- A read of one block by an own command of slot k (R274). -/
def ownBlockRead (s : State) (p k a : Nat) : State :=
  let c := { slotCmd s p k (fld (ownCfg s p k) 8 8) (some a) with dummy := fld (ownCfg s p k) 16 5, read := 4096 }
  emitOut (setPort s p { port s p with lastSlot := k }) (.flash c)

/-- Entry i of the loaded table, by the rights of the port's gatekeeper (R99, R252). -/
def loadedEntry (s : State) (p i : Nat) : List Byte × State :=
  let r := dmaRead s (gkId p) (gkId p) (tableAddr p + 32 * i) 32
  (if r.2.2.isSome then [] else r.1, r.2.1)

/-- Block i of the primary image matches the loaded table (R252), and the state after both reads. -/
def primaryBlock (s : State) (p i : Nat) : Bool × State :=
  let a := (containerPart (platformContainer s p)).offset + 4096 * i
  let bytes := attachedBytes s p 0 a 4096
  let r := loadedEntry (ownBlockRead s p 0 a) p i
  (sha256 bytes = r.1, r.2)

/-- The start of a verification: port and banks, then the platform's manifest and its table; the code (R252). -/
def verifyManifest (s : State) (p : Nat) : Nat × State :=
  let s := gkPrepare (verifyBanks (portSetup s p) p) p
  let c := platformContainer s p
  let code := containerCheck s p 0 c
  (code, if code = bcOk then loadTable s p c else s)

/-- An attempt failed: its record (R322), the next work. -/
def attemptFailed (s : State) (p k code : Nat) (w : PlatWork) : State :=
  let s := emit s islHub hubA 0x0B3 [w32 p, w32 k, w32 code]
  setPlatWork s p (some w)

/-- The image verified: Hub-A's `PLAT_VERIFY_p` with the epoch, `SET_RECOVERY` after an attempt, and `SET_GO` unless the
gatekeeper's program failed (R247, R252, R310). A stale write of an attempt fails it, and it begins again from source 1. -/
def verified (s : State) (p ep : Nat) (attempt : Option Nat) : State :=
  let act := if attempt.isSome then 2 else 1
  let go := if gkVerifies s p then 8 else 0
  let s' := verifyWrite s p (w32 (ep <<< 8 + act + go))
  if epoch s p = ep then setPlatWork s' p (some (.rest ep))
  else match attempt with
  | some k => attemptFailed s' p k 0 (.next 1 (epoch s p))
  | none => setPlatWork s' p (some (.verify (epoch s p) 0))

/-- One step of a verification of the primary image: 0 for its manifest, i + 1 for block i; `good` when a step passed and
more follow, `bad` with the code of a failure. -/
def verifyStep (s : State) (p i : Nat) (done : State → State) (good : State → State) (bad : State → Nat → State) : State :=
  match i with
  | 0 =>
    let r := verifyManifest s p
    if r.1 = bcOk then good r.2 else bad r.2 r.1
  | b + 1 =>
    if (containerPart (platformContainer s p)).length / 4096 ≤ b then done s
    else
      let r := primaryBlock s p b
      if r.1 then good r.2 else bad r.2 bcBlock

/-- A source that lies in a flash: chip select, address of its container (R307). -/
def sourceAt (s : State) (p k : Nat) : Option (Nat × Nat) :=
  let cfg := ownerConfig s
  if k = 1 then
    let c := platformContainer s p
    let q := containerPart c
    match Config.recoveryRegion (innerManifest c) with
    | some (a, n) => if a + n ≤ q.offset || q.offset + q.length ≤ a then some (0, a) else none
    | none => none
  else if k = 2 then
    match Config.copyAddr cfg p with
    | some a =>
      if (if p = 0 then 0x1000000 ≤ a && a < Config.deviceFlashSize else regB s (aPort p 0x004) 2) then some (1, a)
      else none
    | none => none
  else none

/-- Container and image of source k (R307, R425): in a flash, delivered from outside, or staged. -/
def sourceImage (s : State) (p k : Nat) : List Byte × List Byte :=
  if k = 0 then
    (((runningParts s partPlatform).find? fun q => q.target = p).elim [] fun q => slotPart s s.upd.activeSlot q,
      smGet s.upd.images p [])
  else if k = 3 then smGet s.rcv.outside p ([], [])
  else match sourceAt s p k with
  | some (cs, a) =>
    let c := containerAt s p cs a
    (c, attachedBytes s p cs (Config.sourceBase c k) (containerPart c).length)
  | none => ([], [])

/-- Hub-A's `START` with a source (R311, R312). -/
def startAttempt (s : State) (p k : Nat) : State :=
  platWrite s (0x40 * p + 0x18) (setFld (setFld (reg s (aPlat p 0x018) &&& 0xFFFF7FFF) 8 3 k) 16 1 1)

/-- The next source of R307: one that does not exist is skipped; source 3 waits for an image; after it nothing is left. -/
def nextSource (s : State) (p k ep : Nat) : State :=
  if 3 < k then setPlatWork s p (some (.rest ep))
  else if k = 3 then setPlatWork (startAttempt s p 3) p (some (.outside ep))
  else if (sourceAt s p k).isSome then setPlatWork (startAttempt s p k) p (some (.source k ep 0))
  else setPlatWork s p (some (.next (k + 1) ep))

/-- A source in a flash is accepted block by block (R308): its manifest first, then each block. -/
def sourceStep (s : State) (p k ep i : Nat) : State :=
  match sourceAt s p k with
  | none => attemptFailed s p k bcFormat (.next (k + 1) ep)
  | some (cs, a) =>
    let c := containerAt s p cs a
    match i with
    | 0 =>
      let code := containerCheck s p (Config.platformFloor (ownerConfig s) p) c
      if code = bcOk then setPlatWork s p (some (.source k ep 1)) else attemptFailed s p k code (.next (k + 1) ep)
    | b + 1 =>
      if (containerPart c).length / 4096 ≤ b then setPlatWork s p (some (.write k ep 0))
      else
        let x := Config.sourceBase c k + 4096 * b
        let s := ownBlockRead s p cs x
        if sha256 (attachedBytes s p cs x 4096) = containerEntry c b then setPlatWork s p (some (.source k ep (i + 1)))
        else attemptFailed s p k bcBlock (.next (k + 1) ep)

/-- Offsets of the 4 KiB blocks of `bs` within `[lo, hi)` of the flash that differ from what they should hold (R309). -/
def differing (s : State) (p base : Nat) (bs : List Byte) (lo hi : Nat) : List Nat :=
  ((List.range ((hi - lo) / 4096)).map fun i => lo + 4096 * i).filter fun a =>
    sha256 (attachedBytes s p 0 a 4096) ≠ sha256 (slice bs (a - base) 4096)

/-- Rewrite erase block e of a range that should hold `bs` from `base` on, where it differs (R309). DESIGN CHOICE (log 91):
an erase block that reaches out of the range is rewritten by 4 KiB sectors. -/
def rewriteBlock (s : State) (p base : Nat) (bs : List Byte) (e : Nat) : State :=
  let n := max 4096 (Config.eraseSize p)
  let lo := max base (n * e)
  let hi := min (base + bs.length) (n * (e + 1))
  let diff := differing s p base bs lo hi
  let s := (List.range ((hi - lo) / 4096)).foldl (fun s i => ownBlockRead s p 0 (lo + 4096 * i)) s
  if diff = [] then s
  else if hi - lo = n then
    ownProgram (ownChange s p 0 (Config.eraseOpcode p) lo []) p 0 lo (slice bs (lo - base) n)
  else diff.foldl (fun s a => ownProgram (ownChange s p 0 0x20 a []) p 0 a (slice bs (a - base) 4096)) s

/-- Number of erase blocks that a range touches, and the first. -/
def eraseBlocks (p base n : Nat) : Nat × Nat :=
  let size := max 4096 (Config.eraseSize p)
  (base / size, (base + n + size - 1) / size - base / size)

/-- One erase block of the primary range is rewritten from source k, then the manifest's own blocks (R309, R425); `WP_ASSERT`
is clear meanwhile. -/
def writeStep (s : State) (p k ep i : Nat) : State :=
  let (c, image) := sourceImage s p k
  let q := containerPart c
  let (first, n) := eraseBlocks p q.offset q.length
  let own := Config.manifestAddr (ownerConfig s) p
  let whole := c ++ List.replicate ((4096 - c.length % 4096) % 4096) 0xFF
  let (first', n') := eraseBlocks p own whole.length
  let s := setWp s p false
  if i < n then setPlatWork (rewriteBlock s p q.offset image (first + i)) p (some (.write k ep (i + 1)))
  else if i < n + n' then
    setPlatWork (rewriteBlock s p own whole (first' + (i - n))) p (some (.write k ep (i + 1)))
  else setPlatWork (setWp s p true) p (some (.recheck k ep 0))

/-- A platform part of a set that was activated waits for this hold (R425). -/
def stagedPart (s : State) (p : Nat) : Option Part :=
  if s.upd.platformParts.contains p then (runningParts s partPlatform).find? fun q => q.target = p else none

/-- The part is dropped, with its record. -/
def skipPart (s : State) (p : Nat) : State :=
  let s := setUpd s { s.upd with platformParts := s.upd.platformParts.filter (· ≠ p) }
  updRecord s 0x0E9 s.upd.active.digest [w32 p]

/-- The first step of a verification: a staged part comes first, where it fits the platform's manifest (R425). -/
def beginVerify (s : State) (p ep : Nat) : State :=
  match stagedPart s p with
  | some q =>
    if smGet s.upd.images p [] ≠ [] && (allZero q.digest || q.digest = platformManifest s p) then
      setPlatWork s p (some (.write 0 ep 0))
    else setPlatWork (skipPart s p) p (some (.verify ep 0))
  | none => setPlatWork s p (some (.verify ep 0))

/-- The domains that a verification needs run: the port's, PD_25, PD_23 (R252). -/
def verifyPower (s : State) (p : Nat) : Bool := domOn s (18 + p) && domOn s 25 && domOn s 23

/-- One step of the work on a held platform; on FP_0 a waiting command of slot 1 alternates with it (R253, R274, R313). -/
def platStep (s : State) (p : Nat) : State :=
  match platWork s p with
  | none => beginVerify s p (epoch s p)
  | some (.verify ep i) =>
    verifyStep s p i (fun s => verified s p ep none) (fun s => setPlatWork s p (some (.verify ep (i + 1))))
      fun s _ => setPlatWork s p (some (.next 1 ep))
  | some (.next k ep) => nextSource s p k ep
  | some (.source k ep i) => sourceStep s p k ep i
  | some (.outside _) => s
  | some (.write k ep i) => writeStep s p k ep i
  | some (.recheck k ep i) =>
    verifyStep s p i (fun s => verified s p ep (if k = 0 then none else some k))
      (fun s => setPlatWork s p (some (.recheck k ep (i + 1))))
      fun s code => if k = 0 then setPlatWork s p (some (.next 1 ep)) else attemptFailed s p k code (.next (k + 1) ep)
  | some (.rest ep) => if epoch s p = ep then s else beginVerify s p (epoch s p)

/-- The shipped firmware's work on platform p: none while it is absent, released or quarantined (R311). -/
def platTick (s : State) (p : Nat) : State :=
  if !regB s (aPlat p 0x000) 0 || quarantined s p then setPlatWork s p none
  else if released s p then
    setUpd (setPlatWork s p none) { s.upd with platformParts := s.upd.platformParts.filter (· ≠ p) }
  else if !verifyPower s p then
    pdReqOp s (reg s (aPwr 0x020) ||| w32 (2 ^ (18 + p) + 0x2800000))
  else if !busFree s p || (port s p).owner.isSome || (ownBusy s p 1 && (port s p).lastSlot = 0) then s
  else platStep s p

/-- Verification and recovery run while both Hub cores run the shipped firmware. -/
def platformsTick (s : State) : State :=
  if s.boot.rom = .left && romRuns s && hubBUp s then [0, 1, 2, 3].foldl platTick s else s

/-! ### The journal (R463, R464) -/

def journalBase (i : Nat) : Nat := if i = 0 then 0xD00000 else 0xDC0000
def journalSize : Nat := 0xC0000
def journalHead (s : State) (i : Nat) : List Byte := flashBytes s (journalBase i) 128
/-- A slot counts under the validity rule of R236. -/
def journalOk (s : State) (i : Nat) : Bool := recordOk (journalHead s i) 0x4C4A5346 80
def journalGen (s : State) (i : Nat) : Nat := field (journalHead s i) 4 4
/-- The latest slot: valid, of the higher generation. -/
def journalLatest (s : State) : Option Nat :=
  match journalOk s 0, journalOk s 1 with
  | true, true => if journalGen s 0 < journalGen s 1 then some 1 else some 0
  | true, false => some 0
  | false, true => some 1
  | false, false => none

/-- The records of the array from an offset up to another, in ring order, without `PAD` records (R452, R464). -/
def journalRecords (s : State) : Nat → Nat → Nat → List Byte
  | 0, _, _ => []
  | n + 1, off, stop =>
    let w := w32 (rdMem s (fsWindow + off) 4)
    let size := (fld w 12 7 * 4 + 7) / 8 * 8
    if off = stop || size = 0 then []
    else
      let rest := journalRecords s n ((off + size) % fsSize) stop
      if fld w 0 12 = 0 && fld w 19 11 = 0x43F then rest else rdBytes s (fsWindow + off) size ++ rest

/-- The header of a slot, `VALID` left erased (R463). -/
def journalHeader (s : State) (gen : Nat) (recs : List Byte) : List Byte :=
  recordBytes (leBytes 4 0x4C4A5346 ++ leBytes 4 gen ++ [0])
    (leBytes 2 0xFFFF ++ leBytes 4 recs.length ++ leBytes 8 (nowNs s) ++ leBytes 4 (reg s (aFs 0x00C)).toNat ++ zeros 4 ++
      sha384 recs)

/-- Steps 1 to 4 of R464 by the shipped Hub-B. -/
def journalCommit (s : State) : State :=
  let i := match journalLatest s with
    | some 0 => 1
    | _ => 0
  let gen := (journalLatest s).elim 1 fun j => journalGen s j + 1
  let recs := journalRecords s (fsSize / 8) (reg s (aFs 0x020)).toNat (reg s (aFs 0x024)).toNat
  let s := devErase s (journalBase i) (journalBase i + journalSize)
  let s := devProgram s (journalBase i + 0x1000) recs
  commitDoneOp (writeRecord s (journalBase i) (journalHeader s gen recs)) true

/-- A commit that Hub-B was told of, once FP_0's bus is free (R275, R464). -/
def journalTick (s : State) : State :=
  if commitActive s && hubBUp s && s.boot.rom = .left && portOn s 0 && busFree s 0 && (port s 0).owner.isNone then
    journalCommit s
  else s

/-- What the shipped firmware does in one tick. -/
def shippedTick (s : State) : State := journalTick (platformsTick (firmwareTick s))

end Sys2Proof.Machine
end

