-- ==== Sys2Proof/Machine/Bus.lean ====
section
/-! DEFINITION. The device physical map (22_address_map.md R514 to R518): where an access leads, whether it is granted (R95,
R99, R101, R116, R129 to R131, R151, R180, R220, R331, R445), and what it reads or writes. -/

namespace Sys2Proof.Machine

/-! ### Where an address leads -/

/-- The regions of R514; a bank's plain view is 0, its set alias 1, its clear alias 2. -/
inductive Target where
  | rom
  | sram
  | recorder (off : Nat)
  | block (blk off : Nat)
  | bank (b view a : Nat)
  | wheel (w off : Nat)
  | bcast (off : Nat)
  | qctx (q i : Nat)
  | qalias (off : Nat)
  | fabric (off : Nat)
  | jobWindow (m off : Nat)
  /-- A function's MSI-X structures in its BAR4, which the device map does not hold. -/
  | msix (f off : Nat)
  | hole
  deriving DecidableEq, Repr

/-- The target of a device address. -/
def target (a : Nat) : Target :=
  let inside := fun lo hi => lo ≤ a && a < hi
  if a < 0x40000 then .rom
  else if inside 0x10000000 0x10400000 then .sram
  else if inside 0x20000000 0x20100000 then .recorder (a - 0x20000000)
  else if inside 0x40000000 0x400C0000 || inside 0x40100000 0x40140000 || inside 0x40200000 0x40210000 then
    .block ((a - 0x40000000) / 0x10000) (a % 0x10000)
  else if inside 0x100000000 0x101000000 then .bank ((a - 0x100000000) / 0x40000) 0 a
  else if inside 0x110000000 0x111000000 then .bank ((a - 0x110000000) / 0x40000) 1 (a - 0x10000000)
  else if inside 0x120000000 0x121000000 then .bank ((a - 0x120000000) / 0x40000) 2 (a - 0x20000000)
  else if inside 0x200000000 0x220000000 then .wheel ((a - 0x200000000) / 0x1000000) (a % 0x1000000)
  else if inside 0x400000000 0x401000000 then .bcast (a - 0x400000000)
  else if inside 0x500000000 0x500200000 then .qctx ((a - 0x500000000) / 64) (a % 64 / 4)
  else if inside 0x501000000 0x501002000 then .qalias (a - 0x501000000)
  else if inside 0x502000000 0x502010000 then .fabric (a - 0x502000000)
  else if inside 0x504000000 0x504800000 then .jobWindow ((a - 0x504000000) / 0x4000) (a % 0x4000)
  else if inside 0x10000000000 0x10001000000 then .msix ((a - 0x10000000000) / 0x10000) (a % 0x10000)
  else .hole

/-- The parts of a Wheel window (R516). -/
inductive WheelPart where
  | scratch (c : Nat)
  | pool (b view a : Nat)
  | pArea (off : Nat)
  | sArea
  | crank (off : Nat)
  | lane (l off : Nat)
  | control (off : Nat)
  | nothing
  deriving DecidableEq, Repr

/-- The part of Wheel w's window at an offset. -/
def wheelPart (w off : Nat) : WheelPart :=
  let pool := fun view o => WheelPart.pool (64 + 4 * w + o / 0x20000) view (aWheel w (0x100000 + o))
  if off < 0x100000 then .scratch (16 * w + off / 0x10000)
  else if off < 0x180000 then pool 0 (off - 0x100000)
  else if off < 0x200000 then pool 1 (off - 0x180000)
  else if off < 0x280000 then pool 2 (off - 0x200000)
  else if off < 0x300000 then .nothing
  else if off < 0x308000 then .pArea (off - 0x300000)
  else if off < 0x30C000 then .sArea
  else if off < 0x310000 then .crank (off - 0x30C000)
  else if off < 0x312000 then .lane (2 * w + (off - 0x310000) / 0x1000) (off % 0x1000)
  else if 0x320000 ≤ off && off < 0x321000 then .control off
  else .nothing

/-! ### Refusals -/

/-- Lantern holds right i of R220. -/
def lanternMay (s : State) (m i : Nat) : Bool := m = lantern && bitOf (rightsNow s) i

/-- A register or window access that is not granted: it reads zero or is discarded (R24, R446). -/
def deny (s : State) (m a : Nat) : State := violate s m (refusedKind m) a

/-- A bank or scratch access that is not granted. -/
def denyBank (s : State) (m a : Nat) : State := violate s m (if m = lantern then vLantern else vBank) a

/-! ### Captured high halves (R7) -/

/-- `_LO` words of the quantities that hardware updates: `PT_NOW`, `FREEZE_LAST_ADDR`, `ISLAND_LOCK`, and each lane's
`DECLARED_LENGTH` (R158, R161) and `ABSORBED`. -/
def hwPair (a : Nat) : Bool :=
  a = aPt 0x000 || a = aFw 0x014 || a = aPwr 0x060 ||
    match target a with
    | .block 5 off => off < 0x4000 && (off % 0x1000 = 0x014 || off % 0x1000 = 0x01C)
    | .wheel w off =>
      match wheelPart w off with
      | .lane _ o => o = 0x014 || o = 0x01C
      | _ => false
    | _ => false

/-- Where a master's captured word lies. -/
def shadowKey (m a : Nat) : Nat := m * 2 ^ 41 + a
def shadow (s : State) (m a : Nat) : Option W32 := smGet s.shadows (shadowKey m a) none
def setShadow (s : State) (m a : Nat) (v : Option W32) : State :=
  { s with shadows := smSet s.shadows (shadowKey m a) none v }

/-- Read one half of a pair: `lo` captures `hi`; a captured `hi` is delivered once. `read` reads a word now; a read of `lo`
that is refused or finds no island (`ok` false) is one access and captures nothing. -/
def pairRead (s : State) (m a : Nat) (isLo : Nat → Bool) (ok : Bool) (read : State → Nat → W32 × State) (step : Nat) :
    W32 × State :=
  if isLo a && ok then
    let (v, s) := read s a
    (v, setShadow s m (a + step) (some (read s (a + step)).1))
  else if step ≤ a && isLo (a - step) then
    match shadow s m a with
    | some h => (h, setShadow s m a none)
    | none => read s a
  else read s a

/-! ### Control register blocks (R445, R518) -/

/-- The island of a block runs. -/
def blockOn (s : State) (blk off : Nat) : Bool :=
  match blk with
  | 2 | 3 => domOn s 27
  | 4 => domOn s 26
  | 5 | 11 => hubOn s
  | 6 => if off < 0x1000 then hubOn s else domOn s 25
  | 9 => domOn s 22
  | 10 => domOn s 28
  | 16 | 17 | 18 | 19 => portOn s (blk - 16)
  | 32 => domOn s 17
  | _ => true

/-- The tunnel fields of the chain block, which PF0 reaches (R407). -/
def tunnelField (off : Nat) : Bool :=
  (off < 0x2000 && 0x200 ≤ off % 0x1000 && off % 0x1000 ≤ 0x208) || 0x8000 ≤ off

/-- A read of a block is granted (R445). -/
def blockMayRead (s : State) (m blk off : Nat) : Bool :=
  let mem := lanternMay s m 1
  match blk with
  | 0 | 1 | 7 | 8 => isHub m || m = 0x300 || mem
  | 2 | 10 | 11 => isHub m || mem
  | 3 => lcMayRead s m off || mem
  | 4 => if off < 0x20 then isCore m else isHub m || mem
  | 5 => laneReadOk s m (64 + off / 0x1000) (off % 0x1000)
  | 6 => if off < 0x1000 then isHub m || mem else m ≠ lantern || mem
  | 9 => isHub m || (m = 0x300 && tunnelField off) || mem
  | 16 | 17 | 18 | 19 => isHub m || m = gkId (blk - 16) || m = 0x300 || lanternMay s m 4
  | 32 => isHub m || m = 0x300 || mem
  | _ => false

/-- The chain block (R407). -/
def chainRead (s : State) (off : Nat) : W32 :=
  if 0x2000 ≤ off && off < 0x2010 then (uid s).extractLsb' (8 * (off - 0x2000)) 32
  else if 0x8000 ≤ off then
    let x := (off - 0x8000) / 0x4000
    let o := off % 0x4000
    if o < 0x2000 then w32 (field (cport s x).tunTx o 4)
    else w32 (leNat ((List.range 4).map fun i => smGet (cport s x).tunRx (o - 0x2000 + i) 0))
  else if off < 0x1140 && off % 0x1000 / 0x40 = 4 && off % 16 = 12 then reg s (aChain 0 off) &&& 0x7FFFFFFF
  else reg s (aChain 0 off)

/-- The host block (R354). -/
def hostRead (s : State) (off : Nat) : W32 :=
  if off = 0x000 then setFld (reg s (aHost 0x000)) 1 1 (b2n (cfgReady s))
  else if 0x3000 ≤ off && off < 0x4000 then
    w32 (leNat ((List.range 4).map fun i => smGet s.fabric.rcvData (off - 0x3000 + i) 0))
  else if 0x1000 ≤ off && off < 0x2000 then 0
  else reg s (aHost off)

/-- A granted read of a word of a block. -/
def blockRead (s : State) (m blk off : Nat) : W32 × State :=
  match blk with
  | 0 => (pwrRead s off, s)
  | 1 => (platRead s off, s)
  | 2 => (reg s (aOtp off), s)
  | 3 => (lcRead s off, s)
  | 4 => (chRead s m off, s)
  | 5 => (w32 (laneRead s m (64 + off / 0x1000) (off % 0x1000) 4), s)
  | 6 => (if off < 0x1000 then fwRead s off else reg s (aFw off), s)
  | 7 => (fsRead s m off, s)
  | 8 => (ptRead s off, s)
  | 9 => (chainRead s off, s)
  | 10 => dripRead s off
  | 11 => (i3cRead s off, s)
  | 16 | 17 | 18 | 19 => portRead s m (blk - 16) off
  | 32 => (hostRead s off, s)
  | _ => (0, s)

/-- A write to the chain block by a Hub core. -/
def chainHubWrite (s : State) (m off : Nat) (v : W32) : State :=
  let x := off / 0x1000
  let o := off % 0x1000
  if off < 0x2000 then
    if o = 0x000 then linkModeOp s m x v
    else if o = 0x200 then setReg s (aChain x 0x200) (accessWrite { rw := 0x8FFF0000 } (reg s (aChain x 0x200)) v)
    else if o = 0x208 then s
    else if x = 0 && 0x100 ≤ o && o < 0x140 && o % 16 = 12 then txCtrlOp s ((o - 0x100) / 16) v
    else plainWrite s (aChain x o) v
  else if off < 0x8000 then plainWrite s (aChain 0 off) v
  else s

/-- PF0's write to the tunnel fields. -/
def chainPfWrite (s : State) (off : Nat) (v : W32) : State :=
  let x := off / 0x1000
  if off < 0x2000 && off % 0x1000 = 0x200 then
    let s := if bitOf v 0 then txFullClearOp s x else s
    if bitOf v 1 then rxFullOp s x else s
  else if off < 0x2000 && off % 0x1000 = 0x208 then plainWrite s (aChain x 0x208) v
  else if 0x8000 ≤ off && 0x2000 ≤ off % 0x4000 then tunRxWrite s ((off - 0x8000) / 0x4000) (off % 0x4000 - 0x2000) v
  else s

/-- PF0's write to the host block (R353, R354). -/
def hostWrite (s : State) (off : Nat) (v : W32) : State :=
  let en := bitOf (adminCfg s) 31
  if 0x010 ≤ off && off < 0x020 then (if en then s else plainWrite s (aHost off) v)
  else if off = 0x020 then
    (if en then (if bitOf v 31 then s else queueOffReq (setRegB s (aHost 0x020) 31 false) 0)
     else
       let s := plainWrite s (aHost 0x020) v
       if bitOf v 31 then queueOnOp s 0 else s)
  else if 0x1000 ≤ off && off < 0x2000 then
    (if off % 8 = 0 && qfOn s && bootDone s then doorbellOp s 0 ((off - 0x1000) / 8) v else s)
  else if off = 0x2000 then rcvCtrlWrite s v
  else if 0x3000 ≤ off && off < 0x4000 then
    let d := (List.range 4).foldl (fun d i => smSet d (off - 0x3000 + i) 0 (BitVec.ofNat 8 (fld v (8 * i) 8))) s.fabric.rcvData
    { s with fabric := { s.fabric with rcvData := d } }
  else plainWrite s (aHost off) v

/-- A write to the bank registers (R101): the owner register checks its writer itself. -/
def bankRegWrite (s : State) (m off : Nat) (v : W32) : State :=
  let b := (off - 0x1000) / 0x10
  if 64 ≤ b then s
  else match off % 0x10 with
  | 0 => handoverOp s m b v
  | 4 => if m = bankOwner s b || m = hubA then plainWrite s (shareAddr b) v else deny s m (aFw off)
  | 8 => if isHub m then bankStatusWrite s b v else deny s m (aFw off)
  | _ => s

/-- A write of a word to a block, with the grants of R445 and of the chapter that owns the block. -/
def blockWrite (s : State) (m blk off : Nat) (v : W32) : State :=
  let a := 0x40000000 + 0x10000 * blk + off
  let by' := fun (ok : Bool) (f : State → State) => if ok then f s else deny s m a
  match blk with
  | 0 => by' (m = hubA) fun s => pwrWrite s off v
  | 1 => by' (m = hubA) fun s => platWrite s off v
  | 2 => by' (m = hubA) fun s => otpWrite s off v
  | 3 => lcWrite s m off v
  | 4 => by' (if off < 0x20 then isCore m else m = hubA) fun s => chWrite s m off v
  | 5 => if off < 0x4000 then laneWrite s m (64 + off / 0x1000) (off % 0x1000) 4 (v.setWidth 64) else by' (isHub m) id
  | 6 => if off < 0x1000 then by' (m = hubA) fun s => fwWrite s off v else bankRegWrite s m off v
  | 7 => by' (isHub m) fun s => fsWrite s m off v
  | 8 => by' (m = hubB) fun s => ptWrite s off v
  | 9 => if isHub m then chainHubWrite s m off v else by' (m = 0x300 && tunnelField off) fun s => chainPfWrite s off v
  | 10 => by' (m = hubA) fun s => dripWrite s off v
  | 11 => by' (i3cMayWrite m off) fun s => i3cWrite s off v
  | 16 | 17 | 18 | 19 => portWrite s m (blk - 16) off v
  | 32 => by' (m = 0x300) fun s => hostWrite s off v
  | _ => by' (isHub m) id

/-! ### Memories -/

/-- A read of `n` bytes of a bank (R99, R104, R220): plain contents through every view. -/
def bankRead (s : State) (m b a n : Nat) : Nat × State :=
  if !bankOn s b then (0, offAccess s m a)
  else if bankGrants s m b false false || lanternMay s m 3 then
    let s := coreServed (settleBank s b) m b
    (rdMem s a n, s)
  else (0, denyBank s m a)

/-- A write of `n` bytes to a bank through a view. -/
def bankWrite (s : State) (m b view a n v : Nat) : State :=
  if !bankOn s b then offAccess s m a
  else if bankGrants s m b true (view ≠ 0) then
    let s := coreServed (settleBank s b) m b
    wrMem s a n (viewValue view (rdMem s a n) (v % 2 ^ (8 * n)) (8 * n))
  else denyBank s m a

/-! ### Register accesses by size (R7) -/

/-- Read `n` bytes at `a` of something made of words: a doubleword is two words, low one first; less than a word is part
of its word. -/
def readWords (f : State → Nat → W32 × State) (s : State) (a n : Nat) : Nat × State :=
  if n = 8 then
    let (lo, s) := f s a
    let (hi, s) := f s (a + 4)
    (pair64 lo hi, s)
  else
    let (v, s) := f s (a / 4 * 4)
    (v.toNat / 2 ^ (8 * (a % 4)) % 2 ^ (8 * n), s)

/-- Write `n` bytes: a doubleword is two words, low one first; less than a word arrives as a word with the other bytes
zero. -/
def writeWords (f : State → Nat → W32 → State) (s : State) (a n v : Nat) : State :=
  if n = 8 then f (f s a (w32 v)) (a + 4) (w32 (v / 2 ^ 32))
  else f s (a / 4 * 4) (w32 (v % 2 ^ (8 * n) * 2 ^ (8 * (a % 4))))

/-! ### Wheel windows -/

/-- Spokes of the Wheel and Hub cores. -/
def wheelUser (m w : Nat) : Bool := isHub m || (isSpoke m && m / 16 = w)

/-- A write of the Wheel control block (R60, R101, R116, R117). -/
def wheelCtrlWrite (s : State) (m w off : Nat) (v : W32) : State :=
  let a := aWheel w off
  let o := off - 0x320000
  let slot := 16 * w + (o - 0x200) / 0x20
  let wdma := 0x200 ≤ o && o < 0x400
  if 0x020 ≤ o && o < 0x030 then handoverOp s m (64 + 4 * w + (o - 0x020) / 4) v
  else if o = 0x00C then spokeResetWrite s m w v
  else if !isHub m && !(wdma && m = slot) then deny s m a
  else if 0x030 ≤ o && o < 0x040 then bankStatusWrite s (64 + 4 * w + (o - 0x030) / 4) v
  else if 0x100 ≤ o && o < 0x200 && o % 16 = 8 then (if m = hubA then relStatusWrite s a v else deny s m a)
  else if wdma && o % 0x20 = 0x14 then
    let s := plainWrite s a v
    if bitOf v 0 then wdmaGoOp s m slot else s
  else plainWrite s a v

/-- A read of `n` bytes of Wheel w's window; the Wheel is present and on. -/
def wheelRead (s : State) (m w off n : Nat) : Nat × State :=
  let a := aWheel w off
  let words := fun (f : State → Nat → W32) => readWords (fun s o => (f s o, s)) s off n
  match wheelPart w off with
  | .scratch c =>
    if isHub m then (if spokeStopped s c then (rdMem s a n, s) else (0, scratchBusy s m c))
    else if lanternMay s m 3 then (rdMem s a n, s)
    else (0, denyBank s m a)
  | .pool b _ p => bankRead s m b p n
  | .pArea o =>
    if heldCtx s m w = some (o / 0x4000) || lanternMay s m 3 then (areaRead s w o n, s) else (0, deny s m a)
  | .sArea => (0, violate s m vSArea a)
  | .crank _ => if crankUser m w then words fun s o => crankRegRead s m w (o - 0x30C000) else (0, deny s m a)
  | .lane l o => if laneReadOk s m l o then (laneRead s m l o n, s) else (0, deny s m a)
  | .control _ => if wheelUser m w then words fun s o => wheelCtrlRead s w o else (0, deny s m a)
  | .nothing => (0, s)

/-- A write of `n` bytes to Wheel w's window. -/
def wheelWrite (s : State) (m w off n v : Nat) : State :=
  let a := aWheel w off
  match wheelPart w off with
  | .scratch c =>
    if isHub m then (if spokeStopped s c then wrMem s a n v else scratchBusy s m c) else denyBank s m a
  | .pool b view p => bankWrite s m b view p n v
  | .pArea o => if heldCtx s m w = some (o / 0x4000) then areaWrite s w o n v else deny s m a
  | .sArea => violate s m vSArea a
  | .crank _ => writeWords (fun s o v => crankRegWrite s m w (o - 0x30C000) v) s off n v
  | .lane l o => laneWrite s m l o n (BitVec.ofNat 64 v)
  | .control _ => writeWords (fun s o v => wheelCtrlWrite s m w o v) s off n v
  | .nothing => s

/-- An access to a Wheel: absent ones answer zero (R3), those off are logged (R19), parked ones wake (R473). -/
def atWheel {α : Type} (s : State) (m w a : Nat) (none' : State → α) (f : State → α) : α :=
  if wheelAbsent s w then none' s
  else if !wheelOn s w then none' (offAccess s m a)
  else f (wakeWheel s w false)

/-- Present Wheels that a Hub core's `WHEEL_GROUP_MASK` selects. -/
def groupWheels (s : State) (m : Nat) : List Nat :=
  (List.range 32).filter fun w => bitOf (hub s m).wheelGroupMask w && !wheelAbsent s w

/-- A broadcast goes to Wheel w; it is outstanding there until its own acknowledgement (R115). -/
def bcastSent (h : HubRegs) (w : Nat) : HubRegs :=
  { h with bcastPending := h.bcastPending ||| w32 (2 ^ w), bcastOut := smSet h.bcastOut w 0 (smGet h.bcastOut w 0 + 1) }

/-- Wheel w acknowledges one broadcast; its bit clears with the last one. -/
def bcastAcked (h : HubRegs) (w : Nat) : HubRegs :=
  let n := smGet h.bcastOut w 0 - 1
  { h with bcastPending := if n = 0 then h.bcastPending &&& ~~~(w32 (2 ^ w)) else h.bcastPending,
           bcastOut := smSet h.bcastOut w 0 n }

/-- BCAST_WRITE (R114, R115): every selected Wheel takes the write as through its own window; Crank and Cassette offsets are
refused and logged. -/
def bcastOp (s : State) (m off n v : Nat) : State :=
  if !isHub m then deny s m (0x400000000 + off)
  else
    let ws := groupWheels s m
    let s := ws.foldl (fun s w =>
      if !wheelOn s w then offAccess s m (aWheel w off)
      else if 0x300000 ≤ off && off < 0x320000 then emit s w m 0x017 [w32 w, w32 off]
      else wheelWrite (wakeWheel s w false) m w off n v) s
    let on := ws.filter (wheelOn s)
    let s := setHub s m (on.foldl bcastSent (hub s m))
    modCore s m fun k => { k with unacked := k.unacked + on.length }

/-! ### The map -/

/-- The island that a target lies in runs (R12, R17, R19); an access to one that is off is checked by nobody. A Wheel, the
broadcast window and a job window answer for their Wheels themselves. -/
def targetOn (s : State) : Target → Bool
  | .rom | .sram => hubOn s
  | .block blk off => blockOn s blk off
  | .bank b _ _ => bankOn s b
  | .qctx _ _ | .qalias _ | .fabric _ | .jobWindow _ _ | .msix _ _ => qfOn s
  | .recorder _ | .wheel _ _ | .bcast _ | .hole => true

/-- What a gatekeeper may reach in the device map (R62): its port's block with the log FIFO, banks, its Chamber bank. -/
def gkReach (m : Nat) : Target → Bool
  | .block blk off => blk = 16 + (m - 0x210) || (blk = 4 && off < 0x20) || (blk = 6 && 0x1000 ≤ off)
  | .bank _ _ _ => true
  | _ => false

/-- A granted word of a block, off islands included. -/
def blockWord (s : State) (m a : Nat) : W32 × State :=
  match target a with
  | .block blk off =>
    if !blockOn s blk off then (0, offAccess s m a)
    else if blockMayRead s m blk off then blockRead s m blk off
    else (0, deny s m a)
  | _ => (0, s)

/-- A word of Wheel w's window as a register (R3, R19). -/
def wheelWord (s : State) (m w a : Nat) : W32 × State :=
  atWheel s m w a (fun s => ((0 : W32), s)) fun s =>
    let (v, s) := wheelRead s m w (a % 0x1000000) 4
    (w32 v, s)

/-- A read that may capture a high half (R7) is granted where the pair lies. -/
def pairGranted (s : State) (m a : Nat) : Bool :=
  match target a with
  | .block blk off => blockOn s blk off && blockMayRead s m blk off
  | .wheel w off =>
    wheelOn s w && match wheelPart w off with
    | .lane l o => laneReadOk s m l o
    | _ => false
  | _ => false

/-- What a granted target answers to a read of `n` bytes at `a` (R445); the island runs. -/
def targetRead (s : State) (m a n : Nat) : Target → Nat × State
  | .rom =>
    if isHub m || lanternMay s m 1 then (leNat ((List.range n).map fun i => Config.romByte (a + i)), s)
    else (0, deny s m a)
  | .sram => if isHub m || lanternMay s m 1 then (rdMem s a n, s) else (0, deny s m a)
  | .recorder off =>
    if isHub m || lanternMay s m 5 then readWords (fun s o => (fsWindowRead s o, s)) s off n else (0, deny s m a)
  | .block _ _ => readWords (fun s a => pairRead s m a hwPair (pairGranted s m a) (fun s a => blockWord s m a) 4) s a n
  | .bank b _ p => bankRead s m b p n
  | .wheel w _ =>
    if n = 4 then
      let (v, s) := pairRead s m a hwPair (pairGranted s m a) (fun s a => wheelWord s m w a) 4
      (v.toNat, s)
    else atWheel s m w a (fun s => (0, s)) fun s => wheelRead s m w (a % 0x1000000) n
  | .qctx q _ =>
    if isHub m || m = 0x300 then
      readWords (fun s a => (if queueExists s q then qw s q (a % 64 / 4) else 0, s)) s a n
    else (0, deny s m a)
  | .fabric off =>
    if isHub m || m = 0x300 then readWords (fun s o => (qfRead s o, s)) s off n else (0, deny s m a)
  | .msix f off => if m = 0x300 + f then readWords (fun s o => (msixRead s f o, s)) s off n else (0, deny s m a)
  | .bcast _ | .qalias _ | .jobWindow _ _ => (0, s)
  | .hole => (0, deny s m a)

/-- A read of `n` bytes at a device address by master m: the value, and the state after it. -/
def busRead (s : State) (m a n : Nat) : Nat × State :=
  if !targetOn s (target a) then (0, offAccess s m a)
  else if isGk m && !gkReach m (target a) then (0, deny s m a)
  else targetRead s m a n (target a)

/-- What a granted target does with a write of `n` bytes; the island runs. -/
def targetWrite (s : State) (m a n v : Nat) : Target → State
  | .rom => if isHub m then s else deny s m a
  | .sram => if isHub m then wrMem s a n v else deny s m a
  | .recorder _ => if isHub m then s else deny s m a
  | .block blk off =>
    if blk = 5 && off < 0x4000 then laneWrite s m (64 + off / 0x1000) (off % 0x1000) n (BitVec.ofNat 64 v)
    else writeWords (fun s a v => blockWrite s m blk (a % 0x10000) v) s a n v
  | .bank b view p => bankWrite s m b view p n v
  | .wheel w _ => atWheel s m w a id fun s => wheelWrite s m w (a % 0x1000000) n v
  | .bcast off => bcastOp s m off n v
  | .qctx q _ =>
    if isHub m then writeWords (fun s a v => ctxWriteOp s m q (a % 64 / 4) v) s a n v else deny s m a
  | .qalias off => writeWords (fun s o v => aliasWriteOp s m o v) s off n v
  | .fabric off => if isHub m then writeWords (fun s o v => qfWrite s o v) s off n v else deny s m a
  | .jobWindow c off =>
    if wheelAbsent s (c / 16) then s
    else if m = c then jobWindowOp s m off n (BitVec.ofNat 64 v)
    else deny s m a
  | .msix f off => if m = 0x300 + f then writeWords (fun s o v => msixWrite s f o v) s off n v else deny s m a
  | .hole => deny s m a

/-- A write of `n` bytes at a device address by master m. -/
def busWrite (s : State) (m a n v : Nat) : State :=
  if !targetOn s (target a) then offAccess s m a
  else if isGk m && !gkReach m (target a) then deny s m a
  else targetWrite s m a n v (target a)

/-! ### Acknowledgements (R15, R88, R115) -/

/-- An earlier access of core c is acknowledged; w below 32 names the Wheel of a broadcast, 33 a queue broadcast. -/
def ackOp (s : State) (c w : Nat) : State :=
  let k := core s c
  if k.unacked = 0 then s
  else
    let s := if w < 32 && isHub c then
        setHub s c (bcastAcked (hub s c) w)
      else if w = 33 && isHub c then setHub s c { hub s c with queueBcast := (hub s c).queueBcast - 1 }
      else s
    modCore s c fun k =>
      { k with unacked := k.unacked - 1, run := if k.run = .fence && k.unacked = 1 then .running else k.run }

/-! ### The commands -/

/-- A function reaches its windows while the PCIe controller runs and it is not frozen (R327, R447). -/
def reaches (s : State) (m : Nat) : Bool := !isFunc m || (pcieOn s && !(func s (m - 0x300)).frozen)

def execRegisterWrite (m addr : Nat) (v : BitVec 32) (s : State) : Host.Outcome State Fault Refusal :=
  .next (if addr % 4 = 0 && reaches s m then busWrite s m addr 4 v.toNat else s)
def execBcastWrite (m off size : Nat) (v : BitVec 64) (s : State) : Host.Outcome State Fault Refusal :=
  .next (if off < 0x1000000 && [1, 2, 4, 8].contains size && off % size = 0 then bcastOp s m off size v.toNat else s)
def execAccessAcknowledged (c w : Nat) (s : State) : Host.Outcome State Fault Refusal := .next (ackOp s c w)

end Sys2Proof.Machine
end

