-- ==== Sys2Proof/Machine/Flags.lean ====
section
/-! DEFINITION. The results of the arithmetic, logic and compare instructions (03_isa_reference.md R69 to R75). The Spoke
has no flag register (R30): a compare writes 0 or 1. -/

namespace Sys2Proof.Machine

/-- What an ALU or compare instruction computes. -/
inductive Alu where
  | add | sub | and | or | xor | mov | sll | srl | sra | rol | ror | neg | abs
  | mul | mulhs | mulhu | div | divu | rem | remu
  | ceq | cne | clt | cltu | cle | cleu | cgt | cgtu
  | cat
  deriving DecidableEq, Repr

/-- All ones: the quotient of a division by zero (R72), the answer of a timed-out `HUBCALL` (R89). -/
def ones64 : W64 := 0xFFFFFFFFFFFFFFFF

/-- 1 if the condition holds, else 0 (R75). -/
def truth (b : Bool) : W64 := if b then 1 else 0

/-- Shift amounts of 64 and more (R73): `out` if so, else the shift. -/
def shiftBy (b out : W64) (f : Nat → W64) : W64 := if b.toNat < 64 then f b.toNat else out

/-- Quotients and remainders, b = 0 included (R72). -/
def divS (a b : W64) : W64 := if b = 0 then ones64 else a.sdiv b
def divU (a b : W64) : W64 := if b = 0 then ones64 else a / b
def remS (a b : W64) : W64 := if b = 0 then a else a.srem b
def remU (a b : W64) : W64 := if b = 0 then a else a % b

/-- The result from a and b (R69 to R75). -/
def aluFn (f : Alu) (a b : W64) : W64 :=
  match f with
  | .add => a + b
  | .sub => a - b
  | .and => a &&& b
  | .or => a ||| b
  | .xor => a ^^^ b
  | .mov => a
  | .sll => shiftBy b 0 fun n => a <<< n
  | .srl => shiftBy b 0 fun n => a >>> n
  | .sra => shiftBy b (if a.msb then ones64 else 0) fun n => a.sshiftRight n
  | .rol => a.rotateLeft (b.toNat % 64)
  | .ror => a.rotateRight (b.toNat % 64)
  | .neg => 0 - a
  | .abs => if a.msb then 0 - a else a
  | .mul => a * b
  | .mulhs => BitVec.ofInt 64 (a.toInt * b.toInt / 2 ^ 64)
  | .mulhu => BitVec.ofNat 64 (a.toNat * b.toNat / 2 ^ 64)
  | .div => divS a b
  | .divu => divU a b
  | .rem => remS a b
  | .remu => remU a b
  | .ceq => truth (a == b)
  | .cne => truth (a != b)
  | .clt => truth (a.slt b)
  | .cltu => truth (a.ult b)
  | .cle => truth (a.sle b)
  | .cleu => truth (a.ule b)
  | .cgt => truth (b.slt a)
  | .cgtu => truth (b.ult a)
  | .cat => a <<< 12 ||| b

/-- The divisions, which trap on a zero divisor while `ARITH_TRAP_EN` is 1 (R72). -/
def Alu.divides : Alu → Bool
  | .div | .divu | .rem | .remu => true
  | _ => false

/-- imm12 and other fields, sign-extended to 64 bits. -/
def sext {n : Nat} (v : BitVec n) : W64 := v.signExtend 64
/-- Zero-extended. -/
def zext {n : Nat} (v : BitVec n) : W64 := v.setWidth 64

/-- Bytes of a load or store of this SIZE (R47). -/
def sizeBytes (size : BitVec 3) : Nat := 2 ^ (size.toNat / 2)

/-- A loaded value extended to 64 bits (R47): even sizes keep the sign. -/
def loadExt (size : BitVec 3) (v : Nat) : W64 :=
  match size.toNat with
  | 0 => sext (BitVec.ofNat 8 v)
  | 2 => sext (BitVec.ofNat 16 v)
  | 4 => sext (BitVec.ofNat 32 v)
  | _ => BitVec.ofNat 64 v

end Sys2Proof.Machine
end

