-- ==== Sys2Proof/Machine/Encoding.lean ====
section
/-! DEFINITION. The Spoke instruction set's encodings (02_isa_model.md R41 to R48; 03_isa_reference.md R69, R70, R75, R77,
R81, R83, R84, R92): the instruction that halfwords of memory hold. The repeat prefixes and the two fetch commands read it;
every other command carries its instruction decoded. -/

namespace Sys2Proof

/-- Which operation a 16- or 32-bit encoding names. -/
inductive SpokeOp where
  /-- A reserved encoding or a nonzero reserved field; under MAJOR `0x10` if `priv` (R43, R92). -/
  | reserved (priv : Bool)
  | alu (f : Machine.Alu) (d a b : Nat)
  | alui (f : Machine.Alu) (d a : Nat) (v : W64)
  | leapc (d : Nat) (imm : BitVec 12)
  | sel (d r a b : Nat)
  | load (d a : Nat) (mode : AddrMode) (size : BitVec 3)
  | store (d a : Nat) (mode : AddrMode) (size : BitVec 3)
  /-- `BNZ` if `nz`, else `BZ`; the offset in halfwords. -/
  | branch (nz : Bool) (r : Nat) (off : BitVec 20)
  | br (off : BitVec 20)
  | call (off : BitVec 20) (slide16 : Bool)
  | callr (a : Nat) (slide16 : Bool)
  | jr (a : Nat)
  | ret
  | rep (r : Nat)
  | repi (n : Nat)
  | wait
  | waitJob (d : Nat)
  | fence
  | hubcall (d a : Nat) (n : BitVec 12)
  | excRet
  | crr (d : Nat) (n : BitVec 12)
  | crw (n : BitVec 12) (a : Nat)
  | pcrr (d : Nat) (n : BitVec 12)
  | pcrw (n : BitVec 12) (a : Nat)
  | intoff (d : Nat)
  | inton
  deriving DecidableEq, Repr

namespace Machine

/-! ### Decoding -/

/-- The operations of short OP `0x01` to `0x0C` (R44). -/
def shortAlu (op : Nat) : Option Alu :=
  ([.mov, .add, .sub, .and, .or, .xor, .ceq, .cne, .clt, .cltu, .cle, .cleu] : List Alu)[op - 1]?

/-- A 16-bit instruction (R43, R44). -/
def decodeShort (h : BitVec 16) : SpokeOp :=
  let f := fun lo len => (h.toNat / 2 ^ lo) % 2 ^ len
  let op := f 10 5
  if op = 0 then .reserved false
  else if op < 0x0D then
    match shortAlu op with
    | some .mov => .alu .mov (f 5 5) (f 0 5) 0
    | some g => .alu g (f 5 5) (f 5 5) (f 0 5)
    | none => .reserved false
  else if op = 0x0D then .alui .add (f 5 5) (f 5 5) (sext (h.extractLsb' 0 5))
  else if op = 0x0E then (if f 0 5 = 0 then .rep (f 5 5) else .reserved false)
  else if op = 0x0F then (if f 0 10 = 0 then .ret else .reserved false)
  else if op = 0x10 then .load (8 + f 7 3) (8 + f 4 3) (.short (h.extractLsb' 0 4)) 6
  else if op = 0x11 then .store (8 + f 7 3) (8 + f 4 3) (.short (h.extractLsb' 0 4)) 6
  else if op < 0x18 then .reserved false
  else .branch (h.getLsbD 12) (8 + f 9 3) ((h.extractLsb' 0 9).signExtend 20)

/-- MAJOR `0x01` (R69). -/
def aluLong (func : Nat) : Option Alu :=
  match func with
  | 0x00 => some .add
  | 0x01 => some .sub
  | 0x02 => some .and
  | 0x03 => some .or
  | 0x04 => some .xor
  | 0x05 => some .mov
  | 0x06 => some .sll
  | 0x07 => some .srl
  | 0x08 => some .sra
  | 0x09 => some .rol
  | 0x0A => some .ror
  | 0x0B => some .neg
  | 0x0C => some .abs
  | 0x10 => some .mul
  | 0x11 => some .mulhs
  | 0x12 => some .mulhu
  | 0x14 => some .div
  | 0x15 => some .divu
  | 0x16 => some .rem
  | 0x17 => some .remu
  | _ => none

/-- MAJOR `0x03` but for `LEAPC` (R70): the operation and its second operand, and whether bits [11:6] must be zero. -/
def aluImm (func : Nat) (imm : BitVec 12) : Option (Alu × W64 × Bool) :=
  let n := zext (imm.extractLsb' 0 6)
  match func with
  | 0x0 => some (.add, sext imm, false)
  | 0x1 => some (.and, sext imm, false)
  | 0x2 => some (.or, sext imm, false)
  | 0x3 => some (.xor, sext imm, false)
  | 0x4 => some (.sll, n, true)
  | 0x5 => some (.srl, n, true)
  | 0x6 => some (.sra, n, true)
  | 0x7 => some (.ror, n, true)
  | 0x8 => some (.cat, zext imm, false)
  | _ => none

/-- The compares of MAJOR `0x02` and `0x04` (R75). -/
def cmpOf (func : Nat) : Option Alu :=
  ([.ceq, .cne, .clt, .cltu, .cle, .cleu, .cgt, .cgtu] : List Alu)[func]?

/-- The operation if the fields that must be zero are. -/
def whenZero (z : Nat) (op : SpokeOp) : SpokeOp := if z = 0 then op else .reserved false

/-- The LM modes (R48, R77). -/
def lmMode (mode b s : Nat) : Option AddrMode :=
  match mode with
  | 0 => if b = 0 && s = 0 then some .postInc else none
  | 1 => if b = 0 && s = 0 then some .preDec else none
  | 2 => some (.index b (BitVec.ofNat 2 s))
  | _ => none

/-- A 32-bit instruction (R45, R46). -/
def decodeLong (w : W32) : SpokeOp :=
  let f := fun lo len => (w.toNat / 2 ^ lo) % 2 ^ len
  let rd := f 5 5
  let ra := f 0 5
  let rb := f 16 5
  let rc := f 22 5
  let func := f 27 5
  let fn := f 16 4
  let imm := w.extractLsb' 20 12
  let off : BitVec 20 := BitVec.ofNat 20 (f 1 4 * 65536 + f 16 16)
  match f 10 5 with
  | 0x01 =>
    match aluLong func with
    | some g =>
      let unary := g = .mov || g = .neg || g = .abs
      whenZero (rc + f 21 1 + (if unary then rb else 0)) (.alu g rd ra rb)
    | none => .reserved false
  | 0x02 =>
    if func = 8 then whenZero (f 21 1) (.sel rd rc ra rb)
    else match (if func < 6 then cmpOf func else none) with
      | some g => whenZero (rc + f 21 1) (.alu g rd ra rb)
      | none => .reserved false
  | 0x03 =>
    if fn = 9 then whenZero ra (.leapc rd imm)
    else match aluImm fn imm with
      | some (g, v, short) => whenZero (if short then imm.toNat / 64 else 0) (.alui g rd ra v)
      | none => .reserved false
  | 0x04 =>
    match cmpOf fn with
    | some g => .alui g rd ra (sext imm)
    | none => .reserved false
  | 0x05 => whenZero (fn / 8) (.load rd ra (.offset imm) (BitVec.ofNat 3 fn))
  | 0x06 => whenZero (fn / 8) (.store rd ra (.offset imm) (BitVec.ofNat 3 fn))
  | 0x07 =>
    match lmMode (f 30 2) rb (f 22 2) with
    | some m => whenZero (f 24 3 + f 21 1) (.load rd ra m (BitVec.ofNat 3 (f 27 3)))
    | none => .reserved false
  | 0x08 =>
    match lmMode (f 30 2) rb (f 22 2) with
    | some m => whenZero (f 24 3 + f 21 1) (.store rd ra m (BitVec.ofNat 3 (f 27 3)))
    | none => .reserved false
  | 0x09 => whenZero (f 0 1) (.branch false rd off)
  | 0x0A => whenZero (f 0 1) (.branch true rd off)
  | 0x0B => whenZero (f 0 1 + rd) (.br off)
  | 0x0C => whenZero (f 0 1 + f 5 4) (.call off (w.getLsbD 9))
  | 0x0D =>
    if func = 0 then whenZero (rd + rb + rc + f 21 1) (.jr ra)
    else if func = 1 then whenZero (rd + rb + rc / 2 + f 21 1) (.callr ra (w.getLsbD 22))
    else .reserved false
  | 0x0E =>
    if fn = 0 then whenZero (rd + imm.toNat) (.rep ra)
    else if fn = 1 then whenZero (rd + ra + imm.toNat / 64) (.repi (imm.toNat % 64 + 1))
    else .reserved false
  | 0x0F =>
    match fn with
    | 0 => if imm = 1 then whenZero ra (.waitJob rd) else whenZero (rd + ra + imm.toNat) .wait
    | 1 => whenZero (rd + ra + imm.toNat) .fence
    | 2 => .hubcall rd ra imm
    | 3 => whenZero (rd + ra + imm.toNat) .excRet
    | 4 => whenZero ra (.crr rd imm)
    | 5 => whenZero rd (.crw imm ra)
    | _ => .reserved false
  | 0x10 =>
    let must := fun (z : Nat) op => if z = 0 then op else SpokeOp.reserved true
    match fn with
    | 0 => must ra (.pcrr rd imm)
    | 1 => must rd (.pcrw imm ra)
    | 2 => must (ra + imm.toNat) (.intoff rd)
    | 3 => must (rd + ra + imm.toNat) .inton
    | _ => .reserved true
  | _ => .reserved false

/-! ### Encoding (R43 to R48): the words of an instruction, for the round trip -/

/-- A 16-bit instruction from its OP and bits [9:0]. -/
def shortWord (op low : Nat) : BitVec 16 := BitVec.ofNat 16 (op * 1024 + low)

/-- OP of the two-register short forms (R44). -/
def shortCode : Alu → Nat
  | .mov => 1
  | .add => 2
  | .sub => 3
  | .and => 4
  | .or => 5
  | .xor => 6
  | .ceq => 7
  | .cne => 8
  | .clt => 9
  | .cltu => 10
  | .cle => 11
  | .cleu => 12
  | _ => 0

/-- The 16-bit form of an instruction that has one (`shortOk`). -/
def encodeShort : SpokeOp → BitVec 16
  | .alu f d a b => shortWord (shortCode f) (32 * d + (if f = .mov then a else b))
  | .alui _ d _ v => shortWord 0x0D (32 * d + v.toNat % 32)
  | .rep r => shortWord 0x0E (32 * r)
  | .ret => shortWord 0x0F 0
  | .load d a (.short k) _ => shortWord 0x10 (128 * (d - 8) + 16 * (a - 8) + k.toNat)
  | .store d a (.short k) _ => shortWord 0x11 (128 * (d - 8) + 16 * (a - 8) + k.toNat)
  | .branch nz r off => shortWord ((if nz then 0x1C else 0x18) + (r - 8) / 2) ((r - 8) % 2 * 512 + off.toNat % 512)
  | _ => 0

/-- The instruction has a 16-bit form (R43, R44). -/
def shortOk : SpokeOp → Bool
  | .alu f d a b => shortCode f ≠ 0 && d < 32 && a < 32 && b < 32 && (if f = .mov then b = 0 else a = d)
  | .alui f d a v => f = .add && d < 32 && a = d && v = sext (v.extractLsb' 0 5)
  | .rep r => r < 32
  | .ret => true
  | .load d a (.short _) size => 8 ≤ d && d < 16 && 8 ≤ a && a < 16 && size = 6
  | .store d a (.short _) size => 8 ≤ d && d < 16 && 8 ≤ a && a < 16 && size = 6
  | .branch _ r off => 8 ≤ r && r < 16 && off = (off.extractLsb' 0 9).signExtend 20
  | _ => false

/-- A 32-bit instruction from MAJOR, `rd`, `ra` and bits [31:16] (R45). -/
def longWord (major rd ra hi : Nat) : W32 := BitVec.ofNat 32 (32768 + major * 1024 + rd * 32 + ra + hi * 65536)

/-- FUNC of MAJOR `0x01` (R69). -/
def aluCode : Alu → Nat
  | .add => 0x00
  | .sub => 0x01
  | .and => 0x02
  | .or => 0x03
  | .xor => 0x04
  | .mov => 0x05
  | .sll => 0x06
  | .srl => 0x07
  | .sra => 0x08
  | .rol => 0x09
  | .ror => 0x0A
  | .neg => 0x0B
  | .abs => 0x0C
  | .mul => 0x10
  | .mulhs => 0x11
  | .mulhu => 0x12
  | .div => 0x14
  | .divu => 0x15
  | .rem => 0x16
  | .remu => 0x17
  | _ => 0x1F

/-- FUNC of the compares (R75); 8 for what is none. -/
def cmpCode : Alu → Nat
  | .ceq => 0
  | .cne => 1
  | .clt => 2
  | .cltu => 3
  | .cle => 4
  | .cleu => 5
  | .cgt => 6
  | .cgtu => 7
  | _ => 8

/-- FN of MAJOR `0x03` (R70); 15 for what has none. -/
def immCode : Alu → Nat
  | .add => 0
  | .and => 1
  | .or => 2
  | .xor => 3
  | .sll => 4
  | .srl => 5
  | .sra => 6
  | .ror => 7
  | .cat => 8
  | _ => 15

/-- Bits [31:16] of an LM-form (R48). -/
def lmBits (m : AddrMode) (size : Nat) : Nat :=
  match m with
  | .postInc => 2048 * size
  | .preDec => 16384 + 2048 * size
  | .index b s => 32768 + 2048 * size + 64 * s.toNat + b
  | _ => 0

/-- The 32-bit form of a load or store: MAJOR `i` with an offset, MAJOR `lm` otherwise. -/
def memWord (i lm d a : Nat) (m : AddrMode) (size : BitVec 3) : W32 :=
  match m with
  | .offset imm => longWord i d a (16 * imm.toNat + size.toNat)
  | m => longWord lm d a (lmBits m size.toNat)

/-- The 32-bit form of a branch (R81). -/
def jumpWord (major rd : Nat) (off : BitVec 20) : W32 :=
  longWord major rd (2 * (off.toNat / 65536)) (off.toNat % 65536)

/-- The 32-bit form of an instruction that has one (`longOk`). -/
def encodeLong : SpokeOp → W32
  | .alu f d a b =>
    if cmpCode f = 8 then longWord 0x01 d a (2048 * aluCode f + b) else longWord 0x02 d a (2048 * cmpCode f + b)
  | .alui f d a v =>
    let imm := v.toNat % 4096
    if cmpCode f = 8 then longWord 0x03 d a (16 * imm + immCode f) else longWord 0x04 d a (16 * imm + cmpCode f)
  | .leapc d imm => longWord 0x03 d 0 (16 * imm.toNat + 9)
  | .sel d r a b => longWord 0x02 d a (2048 * 8 + 64 * r + b)
  | .load d a m size => memWord 0x05 0x07 d a m size
  | .store d a m size => memWord 0x06 0x08 d a m size
  | .branch nz r off => jumpWord (if nz then 0x0A else 0x09) r off
  | .br off => jumpWord 0x0B 0 off
  | .call off slide16 => jumpWord 0x0C (16 * slide16.toNat) off
  | .callr a slide16 => longWord 0x0D 0 a (2048 + 64 * slide16.toNat)
  | .jr a => longWord 0x0D 0 a 0
  | .rep r => longWord 0x0E 0 r 0
  | .repi n => longWord 0x0E 0 0 (16 * (n - 1) + 1)
  | .wait => longWord 0x0F 0 0 0
  | .waitJob d => longWord 0x0F d 0 16
  | .fence => longWord 0x0F 0 0 1
  | .hubcall d a n => longWord 0x0F d a (16 * n.toNat + 2)
  | .excRet => longWord 0x0F 0 0 3
  | .crr d n => longWord 0x0F d 0 (16 * n.toNat + 4)
  | .crw n a => longWord 0x0F 0 a (16 * n.toNat + 5)
  | .pcrr d n => longWord 0x10 d 0 (16 * n.toNat)
  | .pcrw n a => longWord 0x10 0 a (16 * n.toNat + 1)
  | .intoff d => longWord 0x10 d 0 2
  | .inton => longWord 0x10 0 0 3
  | _ => 0

/-- An address of the 32-bit forms of loads and stores. -/
def modeOk : AddrMode → Bool
  | .short _ => false
  | .index b _ => b < 32
  | _ => true

/-- The immediate fits its instruction of MAJOR `0x03` or `0x04` (R70, R75). -/
def immOk (f : Alu) (v : W64) : Bool :=
  match f with
  | .sll | .srl | .sra | .ror => v.toNat < 64
  | .cat => v.toNat < 4096
  | _ => v = sext (v.extractLsb' 0 12)

/-- The instruction has a 32-bit form (R45, R46). -/
def longOk : SpokeOp → Bool
  | .alu f d a b =>
    (cmpCode f < 6 || (cmpCode f = 8 && aluCode f ≠ 0x1F)) && d < 32 && a < 32 && b < 32 &&
      (!(f = .mov || f = .neg || f = .abs) || b = 0)
  | .alui f d a v => (cmpCode f < 8 || immCode f ≠ 15) && d < 32 && a < 32 && immOk f v
  | .leapc d _ => d < 32
  | .sel d r a b => d < 32 && r < 32 && a < 32 && b < 32
  | .load d a m _ => d < 32 && a < 32 && modeOk m
  | .store d a m _ => d < 32 && a < 32 && modeOk m
  | .branch _ r _ => r < 32
  | .br _ => true
  | .call _ _ => true
  | .callr a _ => a < 32
  | .jr a => a < 32
  | .rep r => r < 32
  | .repi n => 1 ≤ n && n ≤ 64
  | .hubcall d a _ => d < 32 && a < 32
  | .waitJob d => d < 32
  | .crr d _ => d < 32
  | .crw _ a => a < 32
  | .pcrr d _ => d < 32
  | .pcrw _ a => a < 32
  | .intoff d => d < 32
  | .wait | .fence | .excRet | .inton => true
  | .ret | .reserved _ => false

/-! ### What is illegal (R42, R43, R47, R48, R52, R54, R86, R89, R92) -/

/-- An instruction of MAJOR `0x10`. -/
def isPriv : SpokeOp → Bool
  | .reserved p => p
  | .pcrr _ _ | .pcrw _ _ | .intoff _ | .inton => true
  | _ => false

/-- An auto-modify mode. -/
def autoMod : AddrMode → Bool
  | .postInc | .preDec => true
  | _ => false

/-- Reserved on core c beyond its encoding: sizes (R47), loads that modify their own destination (R48), `WAIT.JOB` and
`HUBCALL` where they are reserved (R86, R89). -/
def isReserved (spoke hub : Bool) : SpokeOp → Bool
  | .reserved _ => true
  | .load d a m size => size = 7 || (autoMod m && d = a)
  | .store _ _ _ size => size.toNat % 2 = 1
  | .waitJob _ => !spoke
  | .hubcall _ _ _ => hub
  | _ => false

/-- The 5-bit register codes that an instruction names. -/
def opRegs : SpokeOp → List Nat
  | .alu _ d a b => [d, a, b]
  | .alui _ d a _ => [d, a]
  | .rep r => [r]
  | _ => []

/-- The subcode of `ILLEGAL_INSTRUCTION` that an instruction raises on its own, in the order of R54. -/
def illegalOf (spoke hub wide : Bool) (op : SpokeOp) : Option Nat :=
  if isPriv op && !hub then some 2
  else if isReserved spoke hub op then some 0
  else if !wide && (opRegs op).any (24 ≤ ·) then some 1
  else none

/-- Instructions that no prefix may repeat (R52). -/
def notRepeatable : SpokeOp → Bool
  | .branch _ _ _ | .br _ | .jr _ | .call _ _ | .callr _ _ | .ret | .rep _ | .repi _ => true
  | .wait | .waitJob _ | .fence | .hubcall _ _ _ | .excRet | .crr _ _ | .crw _ _ => true
  | .pcrr _ _ | .pcrw _ _ | .intoff _ | .inton => true
  | _ => false

/-- The instruction names r as its destination, or uses it as the base of `[r]+` or `-[r]` (R52). -/
def writesReg (r : Nat) : SpokeOp → Bool
  | .alu _ d _ _ | .alui _ d _ _ | .leapc d _ | .sel d _ _ _ => d = r
  | .load d a m _ => d = r || (autoMod m && a = r)
  | .store _ a m _ => autoMod m && a = r
  | _ => false

/-- The subcode that a prefix raises before `op`; `count` is the register of `REP` (R52). -/
def illegalRepeat (spoke hub wide : Bool) (count : Option Nat) (op : SpokeOp) : Option Nat :=
  match illegalOf spoke hub wide op with
  | some n => some n
  | none =>
    if notRepeatable op then some 3
    else if count.any fun r => writesReg r op then some 4
    else none

end Machine
end Sys2Proof
end

