-- ==== Sys2Proof/Machine/Exceptions.lean ====
section
/-! DEFINITION. The register window with spill and fill (02_isa_model.md R32 to R40), halts (R58), exception and interrupt
entry and return (R53 to R57, R90). -/

namespace Sys2Proof.Machine

/-! ### A core's own memory (R27, R62, R63) -/

/-- Read `n` bytes of the core's scratch, or of Hub SRAM for a Hub core. -/
def ownRead (s : State) (c a n : Nat) : Nat :=
  if isSpoke c then rdMem s (scratchBase c + a) n
  else if isGk c then gkScratch s (c - 0x210) a % 2 ^ (8 * n)
  else rdMem s (0x10000000 + a) n

/-- Write `n` bytes of the core's scratch, or of Hub SRAM. -/
def ownWrite (s : State) (c a n v : Nat) : State :=
  if isSpoke c then wrMem s (scratchBase c + a) n v
  else if isGk c then gkScratchWrite s (c - 0x210) a n v
  else wrMem s (0x10000000 + a) n v

/-! ### Windows (R32 to R38) -/

/-- Physical group of a logical position. -/
def groupOf (c pos : Nat) : Nat := pos / 8 % (fileSize c / 8)

/-- The frame record of the group at a logical position. -/
def recordAt (c : Nat) (k : Core) (pos : Nat) : Option W64 := smGet k.records (groupOf c pos) none
def setRecord (c : Nat) (k : Core) (pos : Nat) (v : Option W64) : Core :=
  { k with records := smSet k.records (groupOf c pos) none v }

/-- A frame record (R34). -/
def mkRecord (slide : Nat) (ret : W64) : W64 :=
  BitVec.ofNat 64 (slide * 2 ^ 46 + ret.toNat % 2 ^ 40 / 2 * 2)
def recSlide (r : W64) : Nat := r.toNat / 2 ^ 46 % 4
def recTarget (r : W64) : W64 := BitVec.ofNat 64 (r.toNat % 2 ^ 40 / 2 * 2)

/-- Registers of the group at a logical position. -/
def groupRegs (c : Nat) (k : Core) (pos : Nat) : List W64 :=
  (List.range 8).map fun i => smGet k.window ((pos + i) % fileSize c) 0
def setGroupRegs (c : Nat) (k : Core) (pos : Nat) (vs : List W64) : Core :=
  vs.zipIdx.foldl (fun k e => { k with window := smSet k.window ((pos + e.2) % fileSize c) 0 e.1 }) k

/-- Addresses of a group slot and of a record slot (R37). -/
def slotAddr (k : Core) (i : Nat) : Nat := k.spillBase.toNat + 64 * i
def frameAddr (k : Core) (j : Nat) : Nat := k.spillLimit.toNat - 8 * (j + 1)

/-- One more group, with a record if `r`, keeps the two stacks apart (R38). -/
def spillFits (k : Core) (r : Bool) : Bool :=
  slotAddr k (k.spilled + 1) + 8 * (k.spilledRecords + b2n r) ≤ k.spillLimit.toNat

/-- Spill the group at `BOT` (R35). -/
def spillGroup (s : State) (c : Nat) : State :=
  let k := core s c
  let s := (groupRegs c k k.bot).zipIdx.foldl (fun s e => ownWrite s c (slotAddr k k.spilled + 8 * e.2) 8 e.1.toNat) s
  let k' := { setRecord c k k.bot none with bot := k.bot + 8, spilled := k.spilled + 1 }
  match recordAt c k k.bot with
  | none => setCore s c k'
  | some r =>
    let v := r.toNat % 2 ^ 48 + k.spilled % 2 ^ 16 * 2 ^ 48
    setCore (ownWrite s c (frameAddr k k.spilledRecords) 8 v) c { k' with spilledRecords := k.spilledRecords + 1 }

/-- Spill until the span of a window at `wp` fits; false at a `WINDOW_FAULT` (R35, R38). -/
def spillTo (s : State) (c wp : Nat) : Nat → Bool × State
  | 0 => (true, s)
  | n + 1 =>
    let k := core s c
    if wp + 24 ≤ k.bot + fileSize c then (true, s)
    else if spillFits k (recordAt c k k.bot).isSome then spillTo (spillGroup s c) c wp n
    else (false, s)

/-- Fill the most recently spilled group at `BOT` − 8 (R36); with none spilled the group's contents are open. -/
def fillGroup (s : State) (c : Nat) : State :=
  let k := core s c
  if k.spilled = 0 then
    let (ws, s) := drawWords 16 s
    let vs := (List.range 8).map fun i => BitVec.ofNat 64 (pair64 (ws.getD (2 * i) 0) (ws.getD (2 * i + 1) 0))
    modCore s c fun k => { setGroupRegs c k (k.bot - 8) vs with bot := k.bot - 8 }
  else
    let slot := k.spilled - 1
    let vs := (List.range 8).map fun i => BitVec.ofNat 64 (ownRead s c (slotAddr k slot + 8 * i) 8)
    let k' := { setGroupRegs c k (k.bot - 8) vs with bot := k.bot - 8, spilled := slot }
    let top := ownRead s c (frameAddr k (k.spilledRecords - 1)) 8
    if k.spilledRecords ≠ 0 && top / 2 ^ 48 = slot then
      setCore s c { setRecord c k' k'.bot (some (BitVec.ofNat 64 (top % 2 ^ 48))) with spilledRecords := k.spilledRecords - 1 }
    else setCore s c k'

/-- Fill until `BOT` is not above the window (R36). -/
def fillTo (s : State) (c wp : Nat) : Nat → State
  | 0 => s
  | n + 1 => if (core s c).bot ≤ wp then s else fillTo (fillGroup s c) c wp n

/-- Slide up by `d` with a frame record; false at a `WINDOW_FAULT` (R33, R35, R38). -/
def slideUp (s : State) (c d code : Nat) (ret : W64) : Bool × State :=
  let wp := (core s c).wp + d
  match spillTo s c wp 3 with
  | (false, s) => (false, s)
  | (true, s) => (true, modCore s c fun k => setRecord c { k with wp } wp (some (mkRecord code ret)))

/-- Slide back by `d`: the current group's record is used up (R33, R36, R57). Positions are counted up by 256 where they
would fall below zero, which names the same registers and the same groups in `WINDOW_STATE`. -/
def slideDown (s : State) (c d : Nat) : State :=
  let s := modCore s c fun k =>
    let k := if k.wp < d then { k with wp := k.wp + 256, bot := k.bot + 256 } else k
    setRecord c k k.wp none
  let wp := (core s c).wp - d
  modCore (fillTo s c wp 3) c fun k => { k with wp }

/-! ### Traps and halts (R53 to R58) -/

/-- A fault of an instruction: its cause, subcode and, for address faults, the address. -/
structure Trap where
  cause : Nat
  sub : Nat := 0
  addr : Option W64 := none
  deriving DecidableEq, Repr

def trapIllegal (n : Nat) : Trap := { cause := 0x01, sub := n }
def trapAlign (a : W64) : Trap := { cause := 0x02, addr := some a }
def trapWindow (n : Nat) : Trap := { cause := 0x03, sub := n }
def trapDivide : Trap := { cause := 0x04 }
def trapFetch (a : W64) : Trap := { cause := 0x05, addr := some a }
def trapAddress (a : W64) : Trap := { cause := 0x06, addr := some a }

/-- The core halts (R58): its job aborts, its token returns; a gatekeeper's port takes its static table (R297), a Hub core
escalates (R65). DEDUCED (log 78): the address that the escalation keeps (R447) is the fault's `EXC_ADDR` where it has one,
else the address of the instruction that faulted. -/
def haltCore (s : State) (c cause addr : Nat) : State :=
  if isHub c then deviceResetOp s (some (c, vHub, addr))
  else
    let s := emit s (coreIsland c) c 0x010 [w32 cause]
    let s := modCore (stopMaster s c) c fun k => { k with run := .halted }
    if isGk c then latchStatic s (c - 0x210) else s

/-- `EXC_INFO.EXC_ACTIVE` and `EXC_BASE.EN`. -/
def excActive (k : Core) : Bool := bitOf k.excInfo 21
def excEn (k : Core) : Bool := bitOf k.excBase 0
/-- `EXC_BASE.ADDR`. -/
def excHandler (k : Core) : W64 := zext (k.excBase &&& 0xFFFFFFFE)

/-- `EXC_INFO` on entry (R59). -/
def excInfoWord (cause sub : Nat) (wide inRepi : Bool) (left : Nat) : W32 :=
  w32 (2 ^ 21 + left % 128 * 2 ^ 14 + b2n inRepi * 2 ^ 13 + b2n wide * 2 ^ 12 + sub % 16 * 2 ^ 8 + cause % 256)

/-- Entry to the handler (R56): the exception registers, the slide by 24, the handler's address. A `WINDOW_FAULT` here halts
the core (R58). -/
def enterHandler (s : State) (c : Nat) (info : W32) (pc fpc : W64) (addr : Option W64) : State :=
  let s := modCore s c fun k =>
    { k with excInfo := info, excPc := pc, excFpc := fpc, excAddr := addr.getD k.excAddr }
  match slideUp s c 24 2 pc with
  | (true, s) => modCore s c fun k => { k with pc := excHandler k }
  | (false, s) => haltCore s c 0x03 fpc.toNat

/-- A fault (R54, R56, R58): `pc` for `EXC_PC`, `fpc` and `wide` for the instruction that faulted, `left` of a `REPI`. -/
def raiseTrap (s : State) (c : Nat) (t : Trap) (pc fpc : W64) (wide : Bool) (left : Option Nat := none) : State :=
  let k := core s c
  if excActive k || !excEn k then haltCore s c t.cause ((t.addr.getD fpc).toNat)
  else enterHandler s c (excInfoWord t.cause t.sub wide left.isSome (left.getD 0)) pc fpc t.addr

/-- A fetch that fails (R28, R56): no instruction, so `WIDTH` is 0. -/
def raiseFetch (s : State) (c : Nat) (pc a : W64) : State := raiseTrap s c (trapFetch a) pc a false

/-- An interrupt may be taken now (R55); a Hub core's must be enabled too (R63). -/
def intTakable (c : Nat) (k : Core) : Bool :=
  excEn k && bitOf k.ctrl 1 && !excActive k && intReady k && (!isHub c || k.hubIntEnable)

/-- The lowest enabled interrupt that is pending. -/
def lowestInt (k : Core) : Nat := ((List.range 32).find? fun i => bitOf (k.intPending &&& k.intEnable) i).getD 0

/-! ### Issue -/

/-- The core may issue an instruction: it runs, and its clock does. -/
def mayIssue (s : State) (c : Nat) : Bool :=
  let k := core s c
  isCore c && coreOn s c && (!isSpoke c || wheelRuns s (c / 16)) && k.run = .running && !k.frozen && !k.lnHalted && !k.stalled

/-- INTERRUPT_ENTRY (R55, R56). -/
def interruptEntryOp (s : State) (c : Nat) : State :=
  let k := core s c
  if mayIssue s c && intTakable c k then
    enterHandler s c (excInfoWord (0x10 + lowestInt k) 0 false false 0) k.pc k.pc none
  else s

/-- A core with a timer compare that fires (R524); a parked Wheel unparks (R473). -/
def timerFireOp (s : State) (c : Nat) : State :=
  let k := core s c
  if isCore c && coreOn s c && k.run ≠ .reset && !k.frozen && k.timerArmed && k.timerCmp.ule k.cycle then
    let s := modCore s c fun k => { k with timerArmed := false }
    interrupt (if isSpoke c then wakeWheel s (c / 16) false else s) c intTimer
  else s

def execInterruptEntry (c : Nat) (s : State) : Host.Outcome State Fault Refusal := .next (interruptEntryOp s c)
def execTimerCompareFire (c : Nat) (s : State) : Host.Outcome State Fault Refusal := .next (timerFireOp s c)

end Sys2Proof.Machine
end

