-- ==== Sys2Proof/Machine/Isa.lean ====
section
/-! DEFINITION. The Spoke instructions (02_isa_model.md R26 to R92; 03_isa_reference.md) on Spokes, gatekeepers and Hub cores:
data accesses, control transfers, waiting, control registers, repeat prefixes. A command names the core that issues it. -/

namespace Sys2Proof.Machine

/-! ### The program counter -/

def setPc (s : State) (c : Nat) (pc : W64) : State := modCore s c fun k => { k with pc }
def pcOf (s : State) (c : Nat) : W64 := (core s c).pc
def advance (s : State) (c len : Nat) : State := setPc s c (pcOf s c + BitVec.ofNat 64 len)

/-- Addresses that a core fetches from (R28, R62, R63). -/
def fetchable (c a : Nat) : Bool :=
  if isHub c then a < 0x40000 || (0x10000000 ≤ a && a < 0x10400000) else a < 0x10000

/-- The instruction of `len` bytes at `a` can be fetched. -/
def fetchOk (c : Nat) (a : W64) (len : Nat) : Bool := fetchable c a.toNat && fetchable c (a.toNat + len - 2)

/-- A halfword that a core fetches. -/
def fetchHalf (s : State) (c a : Nat) : Nat :=
  if isHub c && a < 0x40000 then leNat [Config.romByte a, Config.romByte (a + 1)]
  else if isHub c then rdMem s a 2
  else ownRead s c a 2

/-- The instruction at an address: its length and operation; none where it cannot be fetched (R28, R41). -/
def fetchOp (s : State) (c : Nat) (a : W64) : Option (Nat × SpokeOp) :=
  if !fetchOk c a 2 then none
  else
    let h := fetchHalf s c a.toNat
    if h < 0x8000 then some (2, decodeShort (BitVec.ofNat 16 h))
    else if !fetchOk c a 4 then none
    else some (4, decodeLong (w32 (h + 0x10000 * fetchHalf s c (a.toNat + 2))))

/-! ### Data accesses (R27, R29, R76 to R79) -/

/-- The access stays in the core's own scratch. -/
def isOwn (c a : Nat) : Bool := !isHub c && a < 0x10000

/-- A load of `n` bytes. -/
def dataRead (s : State) (c a n : Nat) : Nat × State := if isOwn c a then (ownRead s c a n, s) else busRead s c a n

/-- A store waits for an acknowledgement (R15): own scratch and Hub SRAM (R67) do not; broadcasts count their targets. -/
def isPosted (c a : Nat) : Bool :=
  !isOwn c a && !(isHub c && ((0x10000000 ≤ a && a < 0x10400000) || (0x400000000 ≤ a && a < 0x401000000) ||
    (0x501000000 ≤ a && a < 0x501002000)))

/-- A store of `n` bytes. -/
def dataWrite (s : State) (c a n v : Nat) : State :=
  if isOwn c a then ownWrite s c a n v
  else
    let s := if isPosted c a then modCore s c fun k => { k with unacked := k.unacked + 1 } else s
    busWrite s c a n v

/-- Effective address (R48, R76). -/
def effAddr (s : State) (c a : Nat) (mode : AddrMode) (n : Nat) : W64 :=
  let base := rd s c a
  match mode with
  | .short u => base + zext u * 8
  | .offset imm => base + sext imm
  | .postInc => base
  | .preDec => base - BitVec.ofNat 64 n
  | .index b sh => base + rd s c b <<< sh.toNat

/-- The base update of a mode (R48). -/
def baseUpdate (s : State) (c a : Nat) (mode : AddrMode) (n : Nat) : State :=
  match mode with
  | .postInc => wr s c a (rd s c a + BitVec.ofNat 64 n)
  | .preDec => wr s c a (rd s c a - BitVec.ofNat 64 n)
  | _ => s

/-- The fault of a data address (R54, R76). -/
def addrTrap (ea : W64) (n : Nat) : Option Trap :=
  if ea.toNat / 2 ^ 40 ≠ 0 then some (trapAddress ea)
  else if ea.toNat % n ≠ 0 then some (trapAlign ea)
  else none

/-! ### Control registers (R39, R59, R91) -/

def isPairLo (n : Nat) : Bool := [0x004, 0x006, 0x008, 0x014].contains n

/-- `WINDOW_STATE`: (BOT / 8) mod 32 and (WP / 8) mod 32 on every core; R62 changes R32 and R35 only. -/
def windowState (k : Core) : W32 :=
  w32 (k.spilled % 2048 * 2 ^ 16 + k.bot / 8 % 32 * 2 ^ 5 + k.wp / 8 % 32)

/-- A control register's value. -/
def crValue (c : Nat) (k : Core) (n : Nat) : W32 :=
  let lo := fun (v : W64) => v.extractLsb' 0 32
  let hi := fun (v : W64) => v.extractLsb' 32 32
  match n with
  | 0x000 => w32 c
  | 0x001 => k.ctrl
  | 0x002 => k.excInfo
  | 0x004 => lo k.excPc
  | 0x005 => hi k.excPc
  | 0x006 => lo k.excFpc
  | 0x007 => hi k.excFpc
  | 0x008 => lo k.excAddr
  | 0x009 => hi k.excAddr
  | 0x00A => k.excBase
  | 0x00C => k.intEnable
  | 0x00D => k.intPending
  | 0x010 => k.spillBase
  | 0x011 => k.spillLimit
  | 0x012 => windowState k
  | 0x014 => lo k.cycle
  | 0x015 => hi k.cycle
  | 0x016 => lo k.timerCmp
  | 0x017 => hi k.timerCmp
  | _ => 0

/-- A read with R7's captured halves. -/
def crRead (s : State) (c n : Nat) : W32 × State :=
  pairRead s c (2 ^ 40 + n) (fun a => isPairLo (a - 2 ^ 40)) true (fun s a => (crValue c (core s c) (a - 2 ^ 40), s)) 1

/-- Low or high half of a doubleword replaced. -/
def withLo (v : W64) (w : W32) : W64 := v.extractLsb' 32 32 ++ w
def withHi (v : W64) (w : W32) : W64 := w ++ v.extractLsb' 0 32

/-- Highest value of the spill registers: the core's scratch, or Hub SRAM (R39, R63). -/
def spillTop (c : Nat) : Nat := if isHub c then 0x400000 else 0x10000

/-- A write to `WINDOW_SPILL_BASE` or `WINDOW_SPILL_LIMIT` takes effect (R39). -/
def spillWriteOk (c : Nat) (k : Core) (base limit : W32) (v : W32) : Bool :=
  k.spilled = 0 && v.toNat % 64 = 0 && v.toNat ≤ spillTop c && base.toNat < limit.toNat

/-- What `CRW` does to the core. -/
def crWrite (c : Nat) (k : Core) (n : Nat) (v : W32) : Core :=
  match n with
  | 0x001 => { k with ctrl := v &&& 3 }
  | 0x004 => { k with excPc := withLo k.excPc v }
  | 0x005 => { k with excPc := withHi k.excPc v }
  | 0x00A => { k with excBase := v }
  | 0x00C => { k with intEnable := v }
  | 0x00D => { k with intPending := k.intPending &&& ~~~v }
  | 0x010 => if spillWriteOk c k v k.spillLimit v then { k with spillBase := v } else k
  | 0x011 => if spillWriteOk c k k.spillBase v v then { k with spillLimit := v } else k
  | 0x016 => { k with timerCmp := withLo k.timerCmp v }
  | 0x017 => { k with timerCmp := withHi k.timerCmp v, timerArmed := true }
  | _ => k

/-- `CRW` (R91); a compare whose condition already holds fires at once (R524). -/
def crwOp (s : State) (c n : Nat) (v : W32) : State :=
  let s := modCore s c fun k => crWrite c k n v
  if n = 0x017 then timerFireOp s c else s

/-! ### Hub privileged control registers (R115, R336, R519) -/

/-- `MEASURE_LOCK` (R519): the lock sets and stays. -/
def measureLockOp (s : State) (v : W32) : State :=
  if bitOf v 0 then { s with boot := { s.boot with measureLock := true } } else s

def pcrRead (s : State) (c n : Nat) : W32 :=
  let h := hub s c
  if n = 0x040 then h.wheelGroupMask
  else if n = 0x041 then w32 (b2n (h.bcastPending = 0))
  else if n = 0x042 then h.bcastPending
  else if 0x048 ≤ n && n < 0x050 then h.queueGroupMask.extractLsb' (32 * (n - 0x048)) 32
  else if n = 0x050 then w32 (b2n (h.queueBcast = 0))
  else if 0x060 ≤ n && n < 0x06C then smGet s.boot.fwMeasure (n - 0x060) 0
  else if n = 0x06C then w32 (b2n s.boot.measureLock)
  else if n = 0x070 then s.boot.bootInfo
  else if n = 0x071 then s.boot.bootGen
  else 0

/-- 32 bits of the queue group mask replaced. -/
def setMaskWord (m : BitVec 256) (i : Nat) (v : W32) : BitVec 256 :=
  (m &&& ~~~(BitVec.ofNat 256 (0xFFFFFFFF * 2 ^ (32 * i)))) ||| BitVec.ofNat 256 (v.toNat * 2 ^ (32 * i))

def pcrWrite (s : State) (c n : Nat) (v : W32) : State :=
  let h := hub s c
  let open' := c = hubA && !s.boot.measureLock
  if n = 0x040 then setHub s c { h with wheelGroupMask := v }
  else if 0x048 ≤ n && n < 0x050 then setHub s c { h with queueGroupMask := setMaskWord h.queueGroupMask (n - 0x048) v }
  else if 0x060 ≤ n && n < 0x06C then
    (if open' then { s with boot := { s.boot with fwMeasure := smSet s.boot.fwMeasure (n - 0x060) 0 v } } else s)
  else if n = 0x06C then (if c = hubA then measureLockOp s v else s)
  else if n = 0x070 then (if open' then { s with boot := { s.boot with bootInfo := v &&& 0x00FF0FFD } } else s)
  else if n = 0x071 then (if open' then { s with boot := { s.boot with bootGen := v } } else s)
  else s

/-! ### Waiting (R85, R86, R88, R89) -/

/-- A core gates its clock in `r` after the instruction, and its token returns. -/
def gate (s : State) (c len : Nat) (r : RunState) : State :=
  modCore (dropSpokeToken (advance s c len) c) c fun k => { k with run := r }

/-- WAIT (R85). -/
def waitOp (s : State) (c len : Nat) : State := wakeCore (gate s c len .wait) c

/-- WAIT.JOB (R86). -/
def waitJobOp (s : State) (c len d : Nat) : State :=
  wakeCore (gate (if (jobOf s c).isSome then endJob s c 0 else s) c len (.waitJob d)) c

/-- FENCE (R88). -/
def fenceOp (s : State) (c len : Nat) : State :=
  let s := advance s c len
  if (core s c).unacked = 0 then s else modCore s c fun k => { k with run := .fence }

/-- HUBCALL (R89). -/
def hubcallOp (s : State) (c len d : Nat) (n : BitVec 12) (v : W64) : State :=
  hubInt (modCore (gate s c len (.hubcall d)) c fun k => { k with hubRequest := some (n, v) }) "HUBCALL" c

/-- A waiting `HUBCALL` ends with a value (R89). -/
def hubcallEnd (s : State) (c : Nat) (v : W64) : State :=
  match (core s c).run with
  | .hubcall d => readmit (modCore (wr s c d v) c fun k => { k with hubRequest := none }) c
  | _ => s

/-- A core that waits in `HUBCALL` and is not frozen. -/
def inHubcall (s : State) (c : Nat) : Bool :=
  match (core s c).run with
  | .hubcall _ => !(core s c).frozen
  | _ => false

/-- HUBCALL_ANSWER: later answers are discarded. -/
def hubcallAnswerOp (s : State) (c : Nat) (v : W64) : State := if inHubcall s c then hubcallEnd s c v else s

/-- HUBCALL_TIMEOUT. -/
def hubcallTimeoutOp (s : State) (c : Nat) : State :=
  if inHubcall s c then hubcallEnd (emit s (coreIsland c) c 0x011 [w32 c]) c ones64 else s

/-- WAIT_END (R85): the token has come; the next instruction issues. -/
def waitEndOp (s : State) (c : Nat) : State :=
  let k := core s c
  if k.run = .granted && coreOn s c && !k.frozen && (!isSpoke c || wheelRuns s (c / 16)) then
    modCore s c fun k => { k with run := .running }
  else s

/-! ### One instruction -/

/-- How an instruction ends: done, or with a fault before it had any effect but spills (R54, R38). -/
inductive Ended where
  | ok (s : State)
  | trap (s : State) (t : Trap)
  deriving DecidableEq, Repr

/-- CALL, CALLR (R33, R81). -/
def callTo (s : State) (c len : Nat) (slide16 : Bool) (target : W64) : Ended :=
  match slideUp s c (if slide16 then 16 else 8) (b2n slide16) (pcOf s c + BitVec.ofNat 64 len) with
  | (true, s) => .ok (setPc s c target)
  | (false, s) => .trap s (trapWindow 0)

/-- RET (R33, R38). -/
def retTo (s : State) (c : Nat) : Ended :=
  let k := core s c
  match recordAt c k k.wp with
  | none => .trap s (trapWindow 1)
  | some r =>
    if 2 ≤ recSlide r then .trap s (trapWindow 2)
    else .ok (setPc (slideDown s c (if recSlide r = 1 then 16 else 8)) c (recTarget r))

/-- EXC_RET (R57, R90). -/
def excRetTo (s : State) (c : Nat) : Ended :=
  let k := core s c
  if k.excPc.toNat % 2 = 1 then .trap s (trapAlign k.excPc)
  else match recordAt c k k.wp with
  | none => .trap s (trapWindow 1)
  | some r =>
    if recSlide r ≠ 2 then .trap s (trapWindow 2)
    else .ok (modCore (slideDown s c 24) c fun k => { k with excInfo := k.excInfo &&& ~~~(BitVec.ofNat 32 (2 ^ 21)), pc := k.excPc })

/-- A load (R76, R77). -/
def loadTo (s : State) (c len d a : Nat) (mode : AddrMode) (size : BitVec 3) : Ended :=
  let n := sizeBytes size
  let ea := effAddr s c a mode n
  match addrTrap ea n with
  | some t => .trap s t
  | none =>
    let s := advance (baseUpdate s c a mode n) c len
    let (v, s) := dataRead s c ea.toNat n
    .ok (wr s c d (loadExt size v))

/-- A store (R76 to R78). -/
def storeFrom (s : State) (c len d a : Nat) (mode : AddrMode) (size : BitVec 3) : Ended :=
  let n := sizeBytes size
  let ea := effAddr s c a mode n
  let v := rd s c d
  match addrTrap ea n with
  | some t => .trap s t
  | none => .ok (dataWrite (advance (baseUpdate s c a mode n) c len) c ea.toNat n (v.toNat % 2 ^ (8 * n)))

/-- The fault of a division: a zero divisor while `ARITH_TRAP_EN` is 1 (R72). -/
def divideTraps (s : State) (c : Nat) (f : Alu) (b : W64) : Bool := f.divides && b = 0 && bitOf (core s c).ctrl 0

/-- Twice an offset in halfwords, from pc (R45, R81). -/
def relTarget (s : State) (c : Nat) (off : BitVec 20) : W64 := pcOf s c + sext off * 2

/-- The effect of a legal instruction of `len` bytes at pc; prefixes have their own. -/
def runOp (s : State) (c len : Nat) (op : SpokeOp) : Ended :=
  match op with
  | .alu f d a b =>
    if divideTraps s c f (rd s c b) then .trap s trapDivide
    else .ok (advance (wr s c d (aluFn f (rd s c a) (rd s c b))) c len)
  | .alui f d a v => .ok (advance (wr s c d (aluFn f (rd s c a) v)) c len)
  | .leapc d imm => .ok (advance (wr s c d (pcOf s c + sext imm)) c len)
  | .sel d r a b => .ok (advance (wr s c d (if rd s c r ≠ 0 then rd s c a else rd s c b)) c len)
  | .load d a mode size => loadTo s c len d a mode size
  | .store d a mode size => storeFrom s c len d a mode size
  | .branch nz r off => .ok (if (rd s c r != 0) == nz then setPc s c (relTarget s c off) else advance s c len)
  | .br off => .ok (setPc s c (relTarget s c off))
  | .call off slide16 => callTo s c len slide16 (relTarget s c off)
  | .callr a slide16 =>
    if (rd s c a).toNat % 2 = 1 then .trap s (trapAlign (rd s c a)) else callTo s c len slide16 (rd s c a)
  | .jr a => if (rd s c a).toNat % 2 = 1 then .trap s (trapAlign (rd s c a)) else .ok (setPc s c (rd s c a))
  | .ret => retTo s c
  | .wait => .ok (waitOp s c len)
  | .waitJob d => .ok (waitJobOp s c len d)
  | .fence => .ok (fenceOp s c len)
  | .hubcall d a n => .ok (hubcallOp s c len d n (rd s c a))
  | .excRet => excRetTo s c
  | .crr d n =>
    let r := crRead s c n.toNat
    .ok (advance (wr r.2 c d (zext r.1)) c len)
  | .crw n a => .ok (crwOp (advance s c len) c n.toNat ((rd s c a).setWidth 32))
  | .pcrr d n => .ok (advance (wr s c d (zext (pcrRead s c n.toNat))) c len)
  | .pcrw n a => .ok (pcrWrite (advance s c len) c n.toNat ((rd s c a).setWidth 32))
  | .intoff d =>
    .ok (modCore (advance (wr s c d (truth (core s c).hubIntEnable)) c len) c fun k => { k with hubIntEnable := false })
  | .inton => .ok (modCore (advance s c len) c fun k => { k with hubIntEnable := true })
  | .reserved _ | .rep _ | .repi _ => .ok s

/-! ### Repeat prefixes (R49 to R52, R83) -/

/-- `REP r` over an instruction: the prefix at `pre`, the instruction at `fpc`. It stops on the prefix when an interrupt may be
taken, and once the core no longer runs. -/
def repLoop (c r len : Nat) (pre fpc : W64) (op : SpokeOp) : Nat → State → State
  | 0, s => setPc s c (fpc + BitVec.ofNat 64 len)
  | n + 1, s =>
    match runOp (setPc s c fpc) c len op with
    | .trap s t => raiseTrap (setPc s c pre) c t pre fpc (len = 4)
    | .ok s =>
      if (core s c).run ≠ .running then s
      else
        let s := wr s c r (rd s c r - 1)
        if n ≠ 0 && intTakable c (core s c) then setPc s c pre else repLoop c r len pre fpc op n s

/-- `REPI`: `n` iterations are left; the internal counter is not state. -/
def repiLoop (c len : Nat) (fpc : W64) (op : SpokeOp) : Nat → State → State
  | 0, s => setPc s c (fpc + BitVec.ofNat 64 len)
  | n + 1, s =>
    match runOp (setPc s c fpc) c len op with
    | .trap s t => raiseTrap s c t (fpc + BitVec.ofNat 64 len) fpc (len = 4) (some (n + 1))
    | .ok s => if (core s c).run ≠ .running then s else repiLoop c len fpc op n s

/-- A prefix at pc: `count` is the register of `REP`, `n` the iterations (R52, R54). -/
def prefixOp (s : State) (c len : Nat) (count : Option Nat) (n : Nat) : State :=
  let pre := pcOf s c
  let fpc := pre + BitVec.ofNat 64 len
  match fetchOp s c fpc with
  | none => raiseFetch s c pre fpc
  | some (l, op) =>
    match illegalRepeat (isSpoke c) (isHub c) (l = 4) count op with
    | some sub => raiseTrap s c (trapIllegal sub) pre fpc (l = 4)
    | none =>
      match count with
      | some r => repLoop c r l pre fpc op n s
      | none => repiLoop c l fpc op n s

/-! ### Issue (R28, R43, R54) -/

/-- Run a legal instruction, with its faults. -/
def runIssued (s : State) (c len : Nat) (op : SpokeOp) : State :=
  match op with
  | .rep r => prefixOp s c len (some r) (rd s c r).toNat
  | .repi n => prefixOp s c len none n
  | _ =>
    match runOp s c len op with
    | .ok s => s
    | .trap s t => raiseTrap s c t (pcOf s c) (pcOf s c) (len = 4)

/-- Core c issues an instruction of `len` bytes at its pc. -/
def issue (s : State) (c len : Nat) (op : SpokeOp) : State :=
  if !mayIssue s c then s
  else if !fetchOk c (pcOf s c) len then raiseFetch s c (pcOf s c) (pcOf s c)
  else match illegalOf (isSpoke c) (isHub c) (len = 4) op with
  | some n => raiseTrap s c (trapIllegal n) (pcOf s c) (pcOf s c) (len = 4)
  | none => runIssued s c len op

/-- Bytes of a form. -/
def formLen (wide : Bool) : Nat := if wide then 4 else 2

/-- A two-operand form: the short one has its destination as first source (R44). -/
def issueAlu (s : State) (f : Alu) (c d a b : Nat) (wide : Bool) : State :=
  issue s c (formLen wide) (.alu f d (if wide || f = .mov then a else d) b)

/-- What a prefix in memory would repeat: some, or none where it cannot be fetched. -/
def prefixed (s : State) (c len : Nat) : Option (Nat × SpokeOp) := fetchOp s c (pcOf s c + BitVec.ofNat 64 len)

/-- ILLEGAL_INSTRUCTION (R43, R52): the encoding at pc is reserved, or a prefix whose combination is illegal. -/
def illegalOp (s : State) (c : Nat) : State :=
  match fetchOp s c (pcOf s c) with
  | none => s
  | some (len, op) =>
    let bad := match op with
      | .rep r => (prefixed s c len).any fun e => (illegalRepeat (isSpoke c) (isHub c) (e.1 = 4) (some r) e.2).isSome
      | .repi _ => (prefixed s c len).any fun e => (illegalRepeat (isSpoke c) (isHub c) (e.1 = 4) none e.2).isSome
      | _ => false
    if bad || (illegalOf (isSpoke c) (isHub c) (len = 4) op).isSome then issue s c len op else s

/-- FETCH_FAULT (R28, R52): the instruction at pc, or the one that a prefix there repeats, cannot be fetched. -/
def fetchFaultOp (s : State) (c : Nat) : State :=
  if !mayIssue s c then s
  else match fetchOp s c (pcOf s c) with
  | none => raiseFetch s c (pcOf s c) (pcOf s c)
  | some (len, op) =>
    match op with
    | .rep _ | .repi _ => if (prefixed s c len).isNone then issue s c len op else s
    | _ => s

/-! ### Release (R22, R31, R60, R64) -/

/-- The release conditions hold (R60); a gatekeeper stays in reset in STANDBY and DEEP (R480). -/
def relReady (s : State) (c : Nat) : Bool :=
  if isHub c then c = hubA || s.boot.hubBGo
  else
    reg s (condAddr c) &&& ~~~(reg s (relStatusAddr c)) &&& 0xF = 0 && (isSpoke c || powerTarget s < 2)

/-- Where a core starts: Hub-A at zero, Hub-B at the vector that Hub-A wrote (R64), others at `SPOKE_VECTOR`. -/
def vectorOf (s : State) (c : Nat) : W64 :=
  if c = hubA then 0 else if c = hubB then s.boot.hubBVector else zext (reg s (vectorAddr c) &&& 0xFFFE)

/-- A released core in the state of R31, at its vector. -/
def releasedCore (s : State) (c : Nat) (r : RunState) : State :=
  let pc := vectorOf s c
  modCore s c fun k => { coreReset c with resetCount := k.resetCount, run := r, pc }

/-- CORE_RELEASE (R60). -/
def coreReleaseOp (s : State) (c : Nat) : State :=
  let k := core s c
  if isCore c && coreOn s c && k.run = .reset && !k.frozen && relReady s c then
    if isSpoke c then askAdmission (releasedCore s c .admitting) (.spoke c) 1 false
    else
      let s := releasedCore s c .running
      if c = hubA then romStart s
      else if c = hubB then firmwareStart s
      else if gkShipped s (c - 0x210) then gkStart s (c - 0x210)
      else s
  else s

/-! ### The commands -/

def execAdd (c d a b : Nat) (wide : Bool) (s : State) : Host.Outcome State Fault Refusal := .next (issueAlu s .add c d a b wide)
def execSub (c d a b : Nat) (wide : Bool) (s : State) : Host.Outcome State Fault Refusal := .next (issueAlu s .sub c d a b wide)
def execAnd (c d a b : Nat) (wide : Bool) (s : State) : Host.Outcome State Fault Refusal := .next (issueAlu s .and c d a b wide)
def execOr (c d a b : Nat) (wide : Bool) (s : State) : Host.Outcome State Fault Refusal := .next (issueAlu s .or c d a b wide)
def execXor (c d a b : Nat) (wide : Bool) (s : State) : Host.Outcome State Fault Refusal := .next (issueAlu s .xor c d a b wide)
def execMov (c d a : Nat) (wide : Bool) (s : State) : Host.Outcome State Fault Refusal := .next (issueAlu s .mov c d a 0 wide)
def execSll (c d a b : Nat) (s : State) : Host.Outcome State Fault Refusal := .next (issue s c 4 (.alu .sll d a b))
def execSrl (c d a b : Nat) (s : State) : Host.Outcome State Fault Refusal := .next (issue s c 4 (.alu .srl d a b))
def execSra (c d a b : Nat) (s : State) : Host.Outcome State Fault Refusal := .next (issue s c 4 (.alu .sra d a b))
def execRol (c d a b : Nat) (s : State) : Host.Outcome State Fault Refusal := .next (issue s c 4 (.alu .rol d a b))
def execRor (c d a b : Nat) (s : State) : Host.Outcome State Fault Refusal := .next (issue s c 4 (.alu .ror d a b))
def execNeg (c d a : Nat) (s : State) : Host.Outcome State Fault Refusal := .next (issue s c 4 (.alu .neg d a 0))
def execAbs (c d a : Nat) (s : State) : Host.Outcome State Fault Refusal := .next (issue s c 4 (.alu .abs d a 0))
def execMul (c d a b : Nat) (s : State) : Host.Outcome State Fault Refusal := .next (issue s c 4 (.alu .mul d a b))
def execMulhs (c d a b : Nat) (s : State) : Host.Outcome State Fault Refusal := .next (issue s c 4 (.alu .mulhs d a b))
def execMulhu (c d a b : Nat) (s : State) : Host.Outcome State Fault Refusal := .next (issue s c 4 (.alu .mulhu d a b))
def execDiv (c d a b : Nat) (s : State) : Host.Outcome State Fault Refusal := .next (issue s c 4 (.alu .div d a b))
def execDivu (c d a b : Nat) (s : State) : Host.Outcome State Fault Refusal := .next (issue s c 4 (.alu .divu d a b))
def execRem (c d a b : Nat) (s : State) : Host.Outcome State Fault Refusal := .next (issue s c 4 (.alu .rem d a b))
def execRemu (c d a b : Nat) (s : State) : Host.Outcome State Fault Refusal := .next (issue s c 4 (.alu .remu d a b))

/-- The short form adds simm5, the low five bits of the field, to its destination (R44). -/
def execAddi (c d a : Nat) (imm : BitVec 12) (wide : Bool) (s : State) : Host.Outcome State Fault Refusal :=
  .next (issue s c (formLen wide) (if wide then .alui .add d a (sext imm) else .alui .add d d (sext (imm.setWidth 5))))
def execAndi (c d a : Nat) (imm : BitVec 12) (s : State) : Host.Outcome State Fault Refusal :=
  .next (issue s c 4 (.alui .and d a (sext imm)))
def execOri (c d a : Nat) (imm : BitVec 12) (s : State) : Host.Outcome State Fault Refusal :=
  .next (issue s c 4 (.alui .or d a (sext imm)))
def execXori (c d a : Nat) (imm : BitVec 12) (s : State) : Host.Outcome State Fault Refusal :=
  .next (issue s c 4 (.alui .xor d a (sext imm)))
def execSlli (c d a : Nat) (n : BitVec 6) (s : State) : Host.Outcome State Fault Refusal :=
  .next (issue s c 4 (.alui .sll d a (zext n)))
def execSrli (c d a : Nat) (n : BitVec 6) (s : State) : Host.Outcome State Fault Refusal :=
  .next (issue s c 4 (.alui .srl d a (zext n)))
def execSrai (c d a : Nat) (n : BitVec 6) (s : State) : Host.Outcome State Fault Refusal :=
  .next (issue s c 4 (.alui .sra d a (zext n)))
def execRori (c d a : Nat) (n : BitVec 6) (s : State) : Host.Outcome State Fault Refusal :=
  .next (issue s c 4 (.alui .ror d a (zext n)))
def execCati (c d a : Nat) (imm : BitVec 12) (s : State) : Host.Outcome State Fault Refusal :=
  .next (issue s c 4 (.alui .cat d a (zext imm)))
def execLeapc (c d : Nat) (imm : BitVec 12) (s : State) : Host.Outcome State Fault Refusal := .next (issue s c 4 (.leapc d imm))

def execCeq (c d a b : Nat) (wide : Bool) (s : State) : Host.Outcome State Fault Refusal := .next (issueAlu s .ceq c d a b wide)
def execCne (c d a b : Nat) (wide : Bool) (s : State) : Host.Outcome State Fault Refusal := .next (issueAlu s .cne c d a b wide)
def execClt (c d a b : Nat) (wide : Bool) (s : State) : Host.Outcome State Fault Refusal := .next (issueAlu s .clt c d a b wide)
def execCltu (c d a b : Nat) (wide : Bool) (s : State) : Host.Outcome State Fault Refusal := .next (issueAlu s .cltu c d a b wide)
def execCle (c d a b : Nat) (wide : Bool) (s : State) : Host.Outcome State Fault Refusal := .next (issueAlu s .cle c d a b wide)
def execCleu (c d a b : Nat) (wide : Bool) (s : State) : Host.Outcome State Fault Refusal := .next (issueAlu s .cleu c d a b wide)
def execSel (c d r a b : Nat) (s : State) : Host.Outcome State Fault Refusal := .next (issue s c 4 (.sel d r a b))
def execCeqi (c d a : Nat) (imm : BitVec 12) (s : State) : Host.Outcome State Fault Refusal :=
  .next (issue s c 4 (.alui .ceq d a (sext imm)))
def execCnei (c d a : Nat) (imm : BitVec 12) (s : State) : Host.Outcome State Fault Refusal :=
  .next (issue s c 4 (.alui .cne d a (sext imm)))
def execClti (c d a : Nat) (imm : BitVec 12) (s : State) : Host.Outcome State Fault Refusal :=
  .next (issue s c 4 (.alui .clt d a (sext imm)))
def execCltui (c d a : Nat) (imm : BitVec 12) (s : State) : Host.Outcome State Fault Refusal :=
  .next (issue s c 4 (.alui .cltu d a (sext imm)))
def execClei (c d a : Nat) (imm : BitVec 12) (s : State) : Host.Outcome State Fault Refusal :=
  .next (issue s c 4 (.alui .cle d a (sext imm)))
def execCleui (c d a : Nat) (imm : BitVec 12) (s : State) : Host.Outcome State Fault Refusal :=
  .next (issue s c 4 (.alui .cleu d a (sext imm)))
def execCgti (c d a : Nat) (imm : BitVec 12) (s : State) : Host.Outcome State Fault Refusal :=
  .next (issue s c 4 (.alui .cgt d a (sext imm)))
def execCgtui (c d a : Nat) (imm : BitVec 12) (s : State) : Host.Outcome State Fault Refusal :=
  .next (issue s c 4 (.alui .cgtu d a (sext imm)))

/-- Bytes of a load or store. -/
def modeLen : AddrMode → Nat
  | .short _ => 2
  | _ => 4

def execLd (c d a : Nat) (mode : AddrMode) (size : BitVec 3) (s : State) : Host.Outcome State Fault Refusal :=
  .next (issue s c (modeLen mode) (.load d a mode size))
def execSt (c d a : Nat) (mode : AddrMode) (size : BitVec 3) (s : State) : Host.Outcome State Fault Refusal :=
  .next (issue s c (modeLen mode) (.store d a mode size))
def execBz (c r : Nat) (off : BitVec 20) (wide : Bool) (s : State) : Host.Outcome State Fault Refusal :=
  .next (issue s c (formLen wide) (.branch false r off))
def execBnz (c r : Nat) (off : BitVec 20) (wide : Bool) (s : State) : Host.Outcome State Fault Refusal :=
  .next (issue s c (formLen wide) (.branch true r off))
def execBr (c : Nat) (off : BitVec 20) (s : State) : Host.Outcome State Fault Refusal := .next (issue s c 4 (.br off))
def execCall (c : Nat) (off : BitVec 20) (slide16 : Bool) (s : State) : Host.Outcome State Fault Refusal :=
  .next (issue s c 4 (.call off slide16))
def execCallr (c a : Nat) (slide16 : Bool) (s : State) : Host.Outcome State Fault Refusal :=
  .next (issue s c 4 (.callr a slide16))
def execJr (c a : Nat) (s : State) : Host.Outcome State Fault Refusal := .next (issue s c 4 (.jr a))
def execRet (c : Nat) (s : State) : Host.Outcome State Fault Refusal := .next (issue s c 2 .ret)
def execRep (c r : Nat) (wide : Bool) (s : State) : Host.Outcome State Fault Refusal := .next (issue s c (formLen wide) (.rep r))
def execRepi (c : Nat) (n : BitVec 6) (s : State) : Host.Outcome State Fault Refusal := .next (issue s c 4 (.repi (n.toNat + 1)))
def execIllegalInstruction (c : Nat) (s : State) : Host.Outcome State Fault Refusal := .next (illegalOp s c)
def execFetchFault (c : Nat) (s : State) : Host.Outcome State Fault Refusal := .next (fetchFaultOp s c)
def execWait (c : Nat) (s : State) : Host.Outcome State Fault Refusal := .next (issue s c 4 .wait)
def execWaitJob (c d : Nat) (s : State) : Host.Outcome State Fault Refusal := .next (issue s c 4 (.waitJob d))
def execWaitEnd (c : Nat) (s : State) : Host.Outcome State Fault Refusal := .next (waitEndOp s c)
def execFence (c : Nat) (s : State) : Host.Outcome State Fault Refusal := .next (issue s c 4 .fence)
def execHubcall (c d a : Nat) (n : BitVec 12) (s : State) : Host.Outcome State Fault Refusal :=
  .next (issue s c 4 (.hubcall d a n))
def execHubcallAnswer (c : Nat) (v : BitVec 64) (s : State) : Host.Outcome State Fault Refusal := .next (hubcallAnswerOp s c v)
def execHubcallTimeout (c : Nat) (s : State) : Host.Outcome State Fault Refusal := .next (hubcallTimeoutOp s c)
def execExcRet (c : Nat) (s : State) : Host.Outcome State Fault Refusal := .next (issue s c 4 .excRet)
def execCrr (c d : Nat) (n : BitVec 12) (s : State) : Host.Outcome State Fault Refusal := .next (issue s c 4 (.crr d n))
def execCrw (c : Nat) (n : BitVec 12) (a : Nat) (s : State) : Host.Outcome State Fault Refusal := .next (issue s c 4 (.crw n a))
def execPcrr (c d : Nat) (n : BitVec 12) (s : State) : Host.Outcome State Fault Refusal := .next (issue s c 4 (.pcrr d n))
def execPcrw (c : Nat) (n : BitVec 12) (a : Nat) (s : State) : Host.Outcome State Fault Refusal := .next (issue s c 4 (.pcrw n a))
def execIntoff (c d : Nat) (s : State) : Host.Outcome State Fault Refusal := .next (issue s c 4 (.intoff d))
def execInton (c : Nat) (s : State) : Host.Outcome State Fault Refusal := .next (issue s c 4 .inton)
def execMeasureLock (c a : Nat) (s : State) : Host.Outcome State Fault Refusal := .next (issue s c 4 (.pcrw 0x06C a))
def execCoreRelease (c : Nat) (s : State) : Host.Outcome State Fault Refusal := .next (coreReleaseOp s c)

end Sys2Proof.Machine
end

