-- ==== Sys2Proof/Machine/Debug.lean ====
section
/-! DEFINITION. Lantern's device-map access and the actions of its rights that lie outside the map (08_lifecycle_debug.md
R216, R217, R220). -/

namespace Sys2Proof.Machine

/-- The right that an action needs (R220); `none` where no right grants it: a gatekeeper, the resume of a Spoke, and what no
right reaches. -/
def debugRight : Config.Debug → Option Nat
  | .halt c => if isHub c then some 0 else if isSpoke c then some 2 else none
  | .step c => if isHub c then some 0 else if isSpoke c then some 2 else none
  | .readReg c _ => if isHub c then some 0 else if isSpoke c then some 2 else none
  | .resume c => if isHub c then some 0 else none
  | .reset c => if isSpoke c then some 2 else none
  | .sram _ => some 7
  | .otp w _ => if w / 32 = 6 then none else some 7
  | .operand _ _ => some 7

/-- The island that an action reaches is on. -/
def debugOn (s : State) : Config.Debug → Bool
  | .halt c => coreOn s c
  | .step c => coreOn s c
  | .readReg c _ => coreOn s c
  | .resume c => coreOn s c
  | .reset c => coreOn s c
  | .sram a => sramOn s a
  | .otp _ _ => domOn s 27
  | .operand w _ => wheelOn s w
where
  /-- The memory at an address has its power. -/
  sramOn (s : State) (a : Nat) : Bool :=
    match target a with
    | .sram => hubOn s
    | .bank b _ _ => bankOn s b
    | .wheel w _ => wheelOn s w
    | _ => false

/-- One instruction of a core that Lantern halted. -/
def debugStep (s : State) (c : Nat) : State :=
  if !(core s c).lnHalted then s
  else
    let s := modCore s c fun k => { k with lnHalted := false }
    let s := match fetchOp s c (core s c).pc with
      | some (len, op) => issue s c len op
      | none => fetchFaultOp s c
    modCore s c fun k => { k with lnHalted := true }

/-- An OTP word at one threshold (R185): the tight-1 threshold reads the solid ones. -/
def otpSweep (s : State) (w : Nat) (tight1 : Bool) : W32 :=
  let c := otpCell s w
  if tight1 then w32 (cellOnes s c) else w32 (cellOnes s c ||| cellMarg s c)

/-- A granted action: the data that it returns, and the state after it. -/
def debugAct (s : State) (write : Bool) (v : W32) : Config.Debug → W32 × State
  | .halt c => (0, modCore s c fun k => { k with lnHalted := true })
  | .resume c => (0, modCore s c fun k => { k with lnHalted := false })
  | .step c => (0, debugStep s c)
  | .reset c => (0, resetCore s c)
  | .readReg c r => (w32 ((rd s c (r / 2 % 32)).toNat >>> (32 * (r % 2))), s)
  | .sram a => if write then (0, wrBytes s a (leBytes 4 v.toNat)) else (w32 (rdMem s a 4), s)
  | .otp w t => (otpSweep s w t, s)
  | .operand w i => (w32 (wheelRead s hubA w (0x300000 + 4 * (i % 0x2000)) 4).1, s)

/-- An action at its address: refused without its right, lost in an island that is off. -/
def debugOp (s : State) (a : Nat) (write : Bool) (v : W32) (d : Config.Debug) : W32 × State :=
  match debugRight d with
  | none => (0, violate s lantern vLantern a)
  | some r =>
    if !bitOf (rightsNow s) r then (0, violate s lantern vLantern a)
    else if !debugOn s d then (0, offAccess s lantern a)
    else debugAct s write v d

/-- The action at an address, which can only be one that the device map gives to nothing (log 83). -/
def debugAt (a : Nat) : Option Config.Debug := if target a = .hole then Config.debugAction (BitVec.ofNat 40 a) else none

/-- An access of Lantern: one of those actions, or the device map. -/
def lanternAccess (s : State) (a : Nat) (write : Bool) (v : W32) : W32 × State :=
  match debugAt a with
  | some d => debugOp s a write v d
  | none =>
    if write then (0, busWrite s lantern a 4 v.toNat)
    else
      let (v, s) := busRead s lantern a 4
      (w32 v, s)

/-- LN_ACCESS (R217, R220): data in [95:64], address in [63:24], write in [1], go in [0]; the 96 bits shift out with a
read's data, with free data bits after a write (log 83). -/
def lnAccessOp (s : State) (dr : BitVec 96) : State :=
  if !lanternUp s then s
  else
    let s := { s with lc := { s.lc with ir := 0x11 } }
    let a := (dr.extractLsb' 24 40).toNat / 4 * 4
    let low := dr.toNat % 2 ^ 64
    if !dr.getLsbD 0 then emitOut s (.lantern 96 dr.toNat)
    else
      let (v, s) := lanternAccess s a (dr.getLsbD 1) (dr.extractLsb' 64 32)
      if dr.getLsbD 1 then
        let (w, s) := drawWord s
        emitOut s (.lantern 96 (w.toNat * 2 ^ 64 + low))
      else emitOut s (.lantern 96 (v.toNat * 2 ^ 64 + low))

def execLnAccess (dr : BitVec 96) (s : State) : Host.Outcome State Fault Refusal := .next (lnAccessOp s dr)

end Sys2Proof.Machine
end

