-- ==== Sys2Proof/Machine/Clock.lean ====
section
/-! DEFINITION. What passes with time while no command waits: one AON cycle of 40 ns (R397, R523), and what the ROM and the
shipped firmware do on their own. -/

namespace Sys2Proof.Machine

/-- The advance of peloton time in one AON cycle: 40 ns and the rate correction, in 2^-16 ns; half of it while a negative
correction is absorbed (R397, R404). -/
def timeTick (t : Timebase) (rate : W32) : Timebase :=
  let fine : Int := t.residue + rate.toInt * 2621440
  let full := (2621440 + fine / 2 ^ 40).toNat
  let absorbed := min t.slow (full / 2)
  { t with now := t.now + (full - absorbed), slow := t.slow - absorbed, residue := (fine % 2 ^ 40).toNat }

/-- Cycles of core c in one AON cycle (R62, R63, R523). -/
def cyclesPerTick (s : State) (c : Nat) : Nat :=
  if isSpoke c then [16, 24, 32, 40, 48].getD (wheelStep s (c / 16)) 16 else if isGk c then 16 else 32

/-- `CYCLE` of every released core whose clock no freeze stopped (R447, R523). -/
def cycleTick (s : State) : State :=
  s.cores.foldl (fun (s : State) e =>
    let k := core s e.1
    if k.run ≠ .reset && !k.frozen && coreOn s e.1 then
      setCore s e.1 { k with cycle := k.cycle + BitVec.ofNat 64 (cyclesPerTick s e.1) }
    else s) s

/-- Cranks whose running context waits in `SYNCS` (R126, R133). -/
def crankTick (s : State) : State :=
  s.cranks.foldl (fun s e => syncsTick s e.1 (cyclesPerTick s (16 * e.1))) s

/-- A brake is over: FCS_A_N rises (R268, R269). -/
def brakeTick (s : State) : State :=
  [0, 1, 2, 3].foldl (fun s p =>
    if (port s p).brake then emitOut (setPort s p { port s p with brake := false }) (.flashSelect p false) else s) s

/-- Drip refills 4 words per µs (R520). -/
def dripTick (s : State) : State := if dripRefills s && s.ticks % 25 = 0 then dripFill 4 s else s

/-- One AON cycle; while the device is held, nothing but the model's own clock advances. -/
def tickOp (s : State) : State :=
  let s := { s with ticks := s.ticks + 1 }
  if s.boot.phase = .held then s
  else
    let s := { s with time := timeTick s.time (reg s (aPt 0x014)) }
    let s := dripTick (brakeTick (settleDomains (crankTick (cycleTick s))))
    let s := if s.lc.challengeAsked then challengeReqOp s else s
    shippedTick (servicesTick (waitingChunks (updTick (romStep s))))

end Sys2Proof.Machine
end

