-- ==== Sys2Proof/Machine/Dispatch.lean ====
section
/-! DEFINITION. One arm per command: each calls the meaning of its row of the operation table. -/

namespace Sys2Proof.Machine

/-- What a command does to everything but the queue of waiting commands. -/
def exec (i : Instr) (s : State) : Host.Outcome State Fault Refusal :=
  match i with
  | .add c d a b wide => Sys2Proof.Machine.execAdd c d a b wide s
  | .sub c d a b wide => Sys2Proof.Machine.execSub c d a b wide s
  | .and c d a b wide => Sys2Proof.Machine.execAnd c d a b wide s
  | .or c d a b wide => Sys2Proof.Machine.execOr c d a b wide s
  | .xor c d a b wide => Sys2Proof.Machine.execXor c d a b wide s
  | .mov c d a wide => Sys2Proof.Machine.execMov c d a wide s
  | .sll c d a b => Sys2Proof.Machine.execSll c d a b s
  | .srl c d a b => Sys2Proof.Machine.execSrl c d a b s
  | .sra c d a b => Sys2Proof.Machine.execSra c d a b s
  | .rol c d a b => Sys2Proof.Machine.execRol c d a b s
  | .ror c d a b => Sys2Proof.Machine.execRor c d a b s
  | .neg c d a => Sys2Proof.Machine.execNeg c d a s
  | .abs c d a => Sys2Proof.Machine.execAbs c d a s
  | .mul c d a b => Sys2Proof.Machine.execMul c d a b s
  | .mulhs c d a b => Sys2Proof.Machine.execMulhs c d a b s
  | .mulhu c d a b => Sys2Proof.Machine.execMulhu c d a b s
  | .div c d a b => Sys2Proof.Machine.execDiv c d a b s
  | .divu c d a b => Sys2Proof.Machine.execDivu c d a b s
  | .rem c d a b => Sys2Proof.Machine.execRem c d a b s
  | .remu c d a b => Sys2Proof.Machine.execRemu c d a b s
  | .addi c d a imm wide => Sys2Proof.Machine.execAddi c d a imm wide s
  | .andi c d a imm => Sys2Proof.Machine.execAndi c d a imm s
  | .ori c d a imm => Sys2Proof.Machine.execOri c d a imm s
  | .xori c d a imm => Sys2Proof.Machine.execXori c d a imm s
  | .slli c d a n => Sys2Proof.Machine.execSlli c d a n s
  | .srli c d a n => Sys2Proof.Machine.execSrli c d a n s
  | .srai c d a n => Sys2Proof.Machine.execSrai c d a n s
  | .rori c d a n => Sys2Proof.Machine.execRori c d a n s
  | .cati c d a imm => Sys2Proof.Machine.execCati c d a imm s
  | .leapc c d imm => Sys2Proof.Machine.execLeapc c d imm s
  | .ceq c d a b wide => Sys2Proof.Machine.execCeq c d a b wide s
  | .cne c d a b wide => Sys2Proof.Machine.execCne c d a b wide s
  | .clt c d a b wide => Sys2Proof.Machine.execClt c d a b wide s
  | .cltu c d a b wide => Sys2Proof.Machine.execCltu c d a b wide s
  | .cle c d a b wide => Sys2Proof.Machine.execCle c d a b wide s
  | .cleu c d a b wide => Sys2Proof.Machine.execCleu c d a b wide s
  | .sel c d r a b => Sys2Proof.Machine.execSel c d r a b s
  | .ceqi c d a imm => Sys2Proof.Machine.execCeqi c d a imm s
  | .cnei c d a imm => Sys2Proof.Machine.execCnei c d a imm s
  | .clti c d a imm => Sys2Proof.Machine.execClti c d a imm s
  | .cltui c d a imm => Sys2Proof.Machine.execCltui c d a imm s
  | .clei c d a imm => Sys2Proof.Machine.execClei c d a imm s
  | .cleui c d a imm => Sys2Proof.Machine.execCleui c d a imm s
  | .cgti c d a imm => Sys2Proof.Machine.execCgti c d a imm s
  | .cgtui c d a imm => Sys2Proof.Machine.execCgtui c d a imm s
  | .ld c d a mode size => Sys2Proof.Machine.execLd c d a mode size s
  | .st c d a mode size => Sys2Proof.Machine.execSt c d a mode size s
  | .bz c r off wide => Sys2Proof.Machine.execBz c r off wide s
  | .bnz c r off wide => Sys2Proof.Machine.execBnz c r off wide s
  | .br c off => Sys2Proof.Machine.execBr c off s
  | .call c off slide16 => Sys2Proof.Machine.execCall c off slide16 s
  | .callr c a slide16 => Sys2Proof.Machine.execCallr c a slide16 s
  | .jr c a => Sys2Proof.Machine.execJr c a s
  | .ret c => Sys2Proof.Machine.execRet c s
  | .rep c r wide => Sys2Proof.Machine.execRep c r wide s
  | .repi c n => Sys2Proof.Machine.execRepi c n s
  | .illegalInstruction c => Sys2Proof.Machine.execIllegalInstruction c s
  | .fetchFault c => Sys2Proof.Machine.execFetchFault c s
  | .wait c => Sys2Proof.Machine.execWait c s
  | .waitJob c d => Sys2Proof.Machine.execWaitJob c d s
  | .waitEnd c => Sys2Proof.Machine.execWaitEnd c s
  | .fence c => Sys2Proof.Machine.execFence c s
  | .hubcall c d a n => Sys2Proof.Machine.execHubcall c d a n s
  | .hubcallAnswer c v => Sys2Proof.Machine.execHubcallAnswer c v s
  | .hubcallTimeout c => Sys2Proof.Machine.execHubcallTimeout c s
  | .excRet c => Sys2Proof.Machine.execExcRet c s
  | .crr c d n => Sys2Proof.Machine.execCrr c d n s
  | .crw c n a => Sys2Proof.Machine.execCrw c n a s
  | .pcrr c d n => Sys2Proof.Machine.execPcrr c d n s
  | .pcrw c n a => Sys2Proof.Machine.execPcrw c n a s
  | .intoff c d => Sys2Proof.Machine.execIntoff c d s
  | .inton c => Sys2Proof.Machine.execInton c s
  | .measureLock c a => Sys2Proof.Machine.execMeasureLock c a s
  | .interruptEntry c => Sys2Proof.Machine.execInterruptEntry c s
  | .timerCompareFire c => Sys2Proof.Machine.execTimerCompareFire c s
  | .coreRelease c => Sys2Proof.Machine.execCoreRelease c s
  | .pelotonTimeReached c => Sys2Proof.Machine.execPelotonTimeReached c s
  | .lockstepMismatch c => Sys2Proof.Machine.execLockstepMismatch c s
  | .spokeReset m w spoke => Sys2Proof.Machine.execSpokeReset m w spoke s
  | .handoverWrite m bank v => Sys2Proof.Machine.execHandoverWrite m bank v s
  | .bankWipeDone bank => Sys2Proof.Machine.execBankWipeDone bank s
  | .dmaStarved bank dma => Sys2Proof.Machine.execDmaStarved bank dma s
  | .wdmaGo m spoke => Sys2Proof.Machine.execWdmaGo m spoke s
  | .wdmaBeat w => Sys2Proof.Machine.execWdmaBeat w s
  | .wdmaDone spoke => Sys2Proof.Machine.execWdmaDone spoke s
  | .bcastWrite m off size v => Sys2Proof.Machine.execBcastWrite m off size v s
  | .ctxClaim m w => Sys2Proof.Machine.execCtxClaim m w s
  | .crankGrant w => Sys2Proof.Machine.execCrankGrant w s
  | .ctxRelease m w => Sys2Proof.Machine.execCtxRelease m w s
  | .cmdHi m w x v => Sys2Proof.Machine.execCmdHi m w x v s
  | .notify w x => Sys2Proof.Machine.execNotify w x s
  | .yieldpt w x => Sys2Proof.Machine.execYieldpt w x s
  | .mode w x => Sys2Proof.Machine.execMode w x s
  | .syncs w x => Sys2Proof.Machine.execSyncs w x s
  | .accclr w x => Sys2Proof.Machine.execAccclr w x s
  | .setsel w x => Sys2Proof.Machine.execSetsel w x s
  | .macw w x => Sys2Proof.Machine.execMacw w x s
  | .accldw w x => Sys2Proof.Machine.execAccldw w x s
  | .accstw w x => Sys2Proof.Machine.execAccstw w x s
  | .carry w x => Sys2Proof.Machine.execCarry w x s
  | .macl w x => Sys2Proof.Machine.execMacl w x s
  | .lq w x => Sys2Proof.Machine.execLq w x s
  | .lld w x => Sys2Proof.Machine.execLld w x s
  | .lst w x => Sys2Proof.Machine.execLst w x s
  | .movb w x => Sys2Proof.Machine.execMovb w x s
  | .selb w x => Sys2Proof.Machine.execSelb w x s
  | .declassify w x => Sys2Proof.Machine.execDeclassify w x s
  | .pairv w x => Sys2Proof.Machine.execPairv w x s
  | .verdict w x => Sys2Proof.Machine.execVerdict w x s
  | .yieldOverrun w => Sys2Proof.Machine.execYieldOverrun w s
  | .crankWipeDone w x zero => Sys2Proof.Machine.execCrankWipeDone w x zero s
  | .sAreaTransfer w => Sys2Proof.Machine.execSAreaTransfer w s
  | .laneClaim m l => Sys2Proof.Machine.execLaneClaim m l s
  | .laneGrant l => Sys2Proof.Machine.execLaneGrant l s
  | .laneRelease m l => Sys2Proof.Machine.execLaneRelease m l s
  | .laneWipeDone l => Sys2Proof.Machine.execLaneWipeDone l s
  | .init m l alg => Sys2Proof.Machine.execInit m l alg s
  | .absorbSlot m l pad block => Sys2Proof.Machine.execAbsorbSlot m l pad block s
  | .absorbHold m l => Sys2Proof.Machine.execAbsorbHold m l s
  | .finish m l outLen dest => Sys2Proof.Machine.execFinish m l outLen dest s
  | .save m l => Sys2Proof.Machine.execSave m l s
  | .restore m l => Sys2Proof.Machine.execRestore m l s
  | .exportWrapped m l => Sys2Proof.Machine.execExportWrapped m l s
  | .importWrapped m l => Sys2Proof.Machine.execImportWrapped m l s
  | .laneData m l size v => Sys2Proof.Machine.execLaneData m l size v s
  | .declaredLengthWrite m l v => Sys2Proof.Machine.execDeclaredLengthWrite m l v s
  | .laneOpDone l => Sys2Proof.Machine.execLaneOpDone l s
  | .slotAlloc m attr => Sys2Proof.Machine.execSlotAlloc m attr s
  | .slotFree m arg0 => Sys2Proof.Machine.execSlotFree m arg0 s
  | .slotInfo m arg0 => Sys2Proof.Machine.execSlotInfo m arg0 s
  | .xfer m arg0 arg1 => Sys2Proof.Machine.execXfer m arg0 arg1 s
  | .unwrapBegin m arg0 arg1 arg2 => Sys2Proof.Machine.execUnwrapBegin m arg0 arg1 arg2 s
  | .unwrapEnd m => Sys2Proof.Machine.execUnwrapEnd m s
  | .chFeed m v => Sys2Proof.Machine.execChFeed m v s
  | .chamberCmdDone m => Sys2Proof.Machine.execChamberCmdDone m s
  | .slot0Load => Sys2Proof.Machine.execSlot0Load s
  | .read m addr => Sys2Proof.Machine.execRead m addr s
  | .program m addr data => Sys2Proof.Machine.execProgram m addr data s
  | .lock m g => Sys2Proof.Machine.execLock m g s
  | .sealCalc m g => Sys2Proof.Machine.execSealCalc m g s
  | .genUds m => Sys2Proof.Machine.execGenUds m s
  | .repair m row => Sys2Proof.Machine.execRepair m row s
  | .otpCommandDone weak => Sys2Proof.Machine.execOtpCommandDone weak s
  | .pumpIdleOff => Sys2Proof.Machine.execPumpIdleOff s
  | .sensingComplete => Sys2Proof.Machine.execSensingComplete s
  | .lcRequest m v => Sys2Proof.Machine.execLcRequest m v s
  | .transitionStep => Sys2Proof.Machine.execTransitionStep s
  | .eraseFault block => Sys2Proof.Machine.execEraseFault block s
  | .idcode => Sys2Proof.Machine.execIdcode s
  | .sample => Sys2Proof.Machine.execSample s
  | .extest => Sys2Proof.Machine.execExtest s
  | .lnUid => Sys2Proof.Machine.execLnUid s
  | .lnMailbox write off v => Sys2Proof.Machine.execLnMailbox write off v s
  | .lnAccess dr => Sys2Proof.Machine.execLnAccess dr s
  | .bypass ir => Sys2Proof.Machine.execBypass ir s
  | .lanternEscape kind => Sys2Proof.Machine.execLanternEscape kind s
  | .lnChallengeReq m => Sys2Proof.Machine.execLnChallengeReq m s
  | .challengeExpiry => Sys2Proof.Machine.execChallengeExpiry s
  | .certClaim m v => Sys2Proof.Machine.execCertClaim m v s
  | .certSubmit m => Sys2Proof.Machine.execCertSubmit m s
  | .certCheck => Sys2Proof.Machine.execCertCheck s
  | .certTimeout => Sys2Proof.Machine.execCertTimeout s
  | .lnAuthGrant m v => Sys2Proof.Machine.execLnAuthGrant m v s
  | .lnClose m => Sys2Proof.Machine.execLnClose m s
  | .porstNRise straps => Sys2Proof.Machine.execPorstNRise straps s
  | .porstNAssert => Sys2Proof.Machine.execPorstNAssert s
  | .deviceReset => Sys2Proof.Machine.execDeviceReset s
  | .tamperN => Sys2Proof.Machine.execTamperN s
  | .supplyTrip rail => Sys2Proof.Machine.execSupplyTrip rail s
  | .supplyRelease rail => Sys2Proof.Machine.execSupplyRelease rail s
  | .vddAonLow => Sys2Proof.Machine.execVddAonLow s
  | .vddAonPowerUp => Sys2Proof.Machine.execVddAonPowerUp s
  | .setImages m p epoch => Sys2Proof.Machine.execSetImages m p epoch s
  | .setRecovery m p epoch => Sys2Proof.Machine.execSetRecovery m p epoch s
  | .setGo m p epoch => Sys2Proof.Machine.execSetGo m p epoch s
  | .clearGo m p epoch => Sys2Proof.Machine.execClearGo m p epoch s
  | .hold m p => Sys2Proof.Machine.execHold m p s
  | .platformRelease p => Sys2Proof.Machine.execPlatformRelease p s
  | .delayDone p => Sys2Proof.Machine.execDelayDone p s
  | .powerGoodStable p => Sys2Proof.Machine.execPowerGoodStable p s
  | .powerGoodFall n => Sys2Proof.Machine.execPowerGoodFall n s
  | .pctlAlertFall n => Sys2Proof.Machine.execPctlAlertFall n s
  | .pctlCfgWrite m n v => Sys2Proof.Machine.execPctlCfgWrite m n v s
  | .auxTxdata m v => Sys2Proof.Machine.execAuxTxdata m v s
  | .auditBlock p addr data entryHere => Sys2Proof.Machine.execAuditBlock p addr data entryHere s
  | .auditEntryArrival p => Sys2Proof.Machine.execAuditEntryArrival p s
  | .start m p => Sys2Proof.Machine.execStart m p s
  | .quarantinedClear m p => Sys2Proof.Machine.execQuarantinedClear m p s
  | .hostTransactionStart p => Sys2Proof.Machine.execHostTransactionStart p s
  | .hostDecision p opcode addr modeByte early => Sys2Proof.Machine.execHostDecision p opcode addr modeByte early s
  | .hostTransactionEnd p bytes => Sys2Proof.Machine.execHostTransactionEnd p bytes s
  | .ownRead m p k v => Sys2Proof.Machine.execOwnRead m p k v s
  | .ownWrite m p k v => Sys2Proof.Machine.execOwnWrite m p k v s
  | .ownNoData m p k v => Sys2Proof.Machine.execOwnNoData m p k v s
  | .ownPoll m p k v => Sys2Proof.Machine.execOwnPoll m p k v s
  | .ownCmdStart p k => Sys2Proof.Machine.execOwnCmdStart p k s
  | .ownCmdDone p k status data => Sys2Proof.Machine.execOwnCmdDone p k status data s
  | .ownPollTimeout p k status => Sys2Proof.Machine.execOwnPollTimeout p k status s
  | .quietOpen p => Sys2Proof.Machine.execQuietOpen p s
  | .quietClose p => Sys2Proof.Machine.execQuietClose p s
  | .sweepBlock p data => Sys2Proof.Machine.execSweepBlock p data s
  | .portBootDone m p => Sys2Proof.Machine.execPortBootDone m p s
  | .swap m p => Sys2Proof.Machine.execSwap m p s
  | .swapApply p => Sys2Proof.Machine.execSwapApply p s
  | .copyActive m p => Sys2Proof.Machine.execCopyActive m p s
  | .copyDone p => Sys2Proof.Machine.execCopyDone p s
  | .tlogPop m p => Sys2Proof.Machine.execTlogPop m p s
  | .gkReset m p => Sys2Proof.Machine.execGkReset m p s
  | .gkMailboxIn m p hi => Sys2Proof.Machine.execGkMailboxIn m p hi s
  | .gkMailboxOut m p hi => Sys2Proof.Machine.execGkMailboxOut m p hi s
  | .inTaken m p => Sys2Proof.Machine.execInTaken m p s
  | .gkBootDoneMsg p => Sys2Proof.Machine.execGkBootDoneMsg p s
  | .openWindow p tag ms => Sys2Proof.Machine.execOpenWindow p tag ms s
  | .closeWindow p tag => Sys2Proof.Machine.execCloseWindow p tag s
  | .updateWindowExpiry p => Sys2Proof.Machine.execUpdateWindowExpiry p s
  | .intervalEnd p => Sys2Proof.Machine.execIntervalEnd p s
  | .configRequest f off write v => Sys2Proof.Machine.execConfigRequest f off write v s
  | .perstN => Sys2Proof.Machine.execPerstN s
  | .flr f => Sys2Proof.Machine.execFlr f s
  | .barAccessFault write off size => Sys2Proof.Machine.execBarAccessFault write off size s
  | .spdmRequest code param => Sys2Proof.Machine.execSpdmRequest code param s
  | .query => Sys2Proof.Machine.execQuery s
  | .keyProg stream key => Sys2Proof.Machine.execKeyProg stream key s
  | .kSetGo stream => Sys2Proof.Machine.execKSetGo stream s
  | .kSetStop stream => Sys2Proof.Machine.execKSetStop stream s
  | .funcVecWrite m f v => Sys2Proof.Machine.execFuncVecWrite m f v s
  | .funcEnable m f en => Sys2Proof.Machine.execFuncEnable m f en s
  | .queueEnable m q => Sys2Proof.Machine.execQueueEnable m q s
  | .queueDisable m q => Sys2Proof.Machine.execQueueDisable m q s
  | .queueOff q => Sys2Proof.Machine.execQueueOff q s
  | .qgroupAliasWrite m off v => Sys2Proof.Machine.execQgroupAliasWrite m off v s
  | .doorbell f index v => Sys2Proof.Machine.execDoorbell f index v s
  | .entryFetch q entry => Sys2Proof.Machine.execEntryFetch q entry s
  | .payloadFetch q ok data => Sys2Proof.Machine.execPayloadFetch q ok data s
  | .jobDispatch q c => Sys2Proof.Machine.execJobDispatch q c s
  | .jobWindowStore m off size v => Sys2Proof.Machine.execJobWindowStore m off size v s
  | .jobCompletion c writeOk => Sys2Proof.Machine.execJobCompletion c writeOk s
  | .jobTimeout c => Sys2Proof.Machine.execJobTimeout c s
  | .qfBootDone m => Sys2Proof.Machine.execQfBootDone m s
  | .queueCreate q ctx => Sys2Proof.Machine.execQueueCreate q ctx s
  | .queueDestroy q => Sys2Proof.Machine.execQueueDestroy q s
  | .queueSet groups index quantum wheelMask => Sys2Proof.Machine.execQueueSet groups index quantum wheelMask s
  | .funcSet f en base count => Sys2Proof.Machine.execFuncSet f en base count s
  | .verify c => Sys2Proof.Machine.execVerify c s
  | .appraise c => Sys2Proof.Machine.execAppraise c s
  | .refsetLoad c => Sys2Proof.Machine.execRefsetLoad c s
  | .policySet c => Sys2Proof.Machine.execPolicySet c s
  | .ticketKeys c => Sys2Proof.Machine.execTicketKeys c s
  | .recordStatus c => Sys2Proof.Machine.execRecordStatus c s
  | .ticket c => Sys2Proof.Machine.execTicket c s
  | .keyRelease c => Sys2Proof.Machine.execKeyRelease c s
  | .derive c => Sys2Proof.Machine.execDerive c s
  | .sign c => Sys2Proof.Machine.execSign c s
  | .rcvStatus tr seq target => Sys2Proof.Machine.execRcvStatus tr seq target s
  | .rcvData tr seq target index data => Sys2Proof.Machine.execRcvData tr seq target index data s
  | .rcvEnd tr seq target => Sys2Proof.Machine.execRcvEnd tr seq target s
  | .rcvAbort tr seq target => Sys2Proof.Machine.execRcvAbort tr seq target s
  | .rcvTimeout target => Sys2Proof.Machine.execRcvTimeout target s
  | .linkModeWrite m x v => Sys2Proof.Machine.execLinkModeWrite m x v s
  | .linkUp x => Sys2Proof.Machine.execLinkUp x s
  | .blockLockLoss x => Sys2Proof.Machine.execBlockLockLoss x s
  | .helloTimeout x => Sys2Proof.Machine.execHelloTimeout x s
  | .helloInterval x => Sys2Proof.Machine.execHelloInterval x s
  | .hello x f => Sys2Proof.Machine.execHello x f s
  | .delayReq x f t => Sys2Proof.Machine.execDelayReq x f t s
  | .delayResp x f t => Sys2Proof.Machine.execDelayResp x f t s
  | .time x f t => Sys2Proof.Machine.execTime x f t s
  | .rollCall x f => Sys2Proof.Machine.execRollCall x f s
  | .rollAnswer x f => Sys2Proof.Machine.execRollAnswer x f s
  | .roster x f => Sys2Proof.Machine.execRoster x f s
  | .pacerAssign x f => Sys2Proof.Machine.execPacerAssign x f s
  | .topoChange x f => Sys2Proof.Machine.execTopoChange x f s
  | .rcvMsg x f => Sys2Proof.Machine.execRcvMsg x f s
  | .imageQuery x f => Sys2Proof.Machine.execImageQuery x f s
  | .imageOffer x f => Sys2Proof.Machine.execImageOffer x f s
  | .cpTxGo m k v => Sys2Proof.Machine.execCpTxGo m k v s
  | .cpTxDone k => Sys2Proof.Machine.execCpTxDone k s
  | .rxFull m x => Sys2Proof.Machine.execRxFull m x s
  | .txFullClear m x => Sys2Proof.Machine.execTxFullClear m x s
  | .syncIntervalTick => Sys2Proof.Machine.execSyncIntervalTick s
  | .holdover => Sys2Proof.Machine.execHoldover s
  | .rollInterval => Sys2Proof.Machine.execRollInterval s
  | .rollWait => Sys2Proof.Machine.execRollWait s
  | .ptSet m hi => Sys2Proof.Machine.execPtSet m hi s
  | .armFire => Sys2Proof.Machine.execArmFire s
  | .updOffer tr f => Sys2Proof.Machine.execUpdOffer tr f s
  | .updAnswer tr f => Sys2Proof.Machine.execUpdAnswer tr f s
  | .updChunk tr f => Sys2Proof.Machine.execUpdChunk tr f s
  | .updStatus tr => Sys2Proof.Machine.execUpdStatus tr s
  | .updReport x f => Sys2Proof.Machine.execUpdReport x f s
  | .updArm x f => Sys2Proof.Machine.execUpdArm x f s
  | .updAbort x f => Sys2Proof.Machine.execUpdAbort x f s
  | .updTimeout => Sys2Proof.Machine.execUpdTimeout s
  | .forwardResend x => Sys2Proof.Machine.execForwardResend x s
  | .armWait => Sys2Proof.Machine.execArmWait s
  | .activation => Sys2Proof.Machine.execActivation s
  | .freeze => Sys2Proof.Machine.execFreeze s
  | .unfreeze m v => Sys2Proof.Machine.execUnfreeze m v s
  | .recordArrival island => Sys2Proof.Machine.execRecordArrival island s
  | .recordStore => Sys2Proof.Machine.execRecordStore s
  | .fsFreeze m => Sys2Proof.Machine.execFsFreeze m s
  | .fsThaw m => Sys2Proof.Machine.execFsThaw m s
  | .mergeEnd => Sys2Proof.Machine.execMergeEnd s
  | .freezeTimeout => Sys2Proof.Machine.execFreezeTimeout s
  | .fsRelease m v => Sys2Proof.Machine.execFsRelease m v s
  | .commit m => Sys2Proof.Machine.execCommit m s
  | .commitDone m release => Sys2Proof.Machine.execCommitDone m release s
  | .droppedClr m => Sys2Proof.Machine.execDroppedClr m s
  | .fsSwGo m => Sys2Proof.Machine.execFsSwGo m s
  | .pdReqWrite m v => Sys2Proof.Machine.execPdReqWrite m v s
  | .domainOn d => Sys2Proof.Machine.execDomainOn d s
  | .domainOff d => Sys2Proof.Machine.execDomainOff d s
  | .domainFault d => Sys2Proof.Machine.execDomainFault d s
  | .wheelFreqWrite m j v => Sys2Proof.Machine.execWheelFreqWrite m j v s
  | .relockDone w => Sys2Proof.Machine.execRelockDone w s
  | .clockFault island => Sys2Proof.Machine.execClockFault island s
  | .wheelPark w => Sys2Proof.Machine.execWheelPark w s
  | .wheelUnpark w => Sys2Proof.Machine.execWheelUnpark w s
  | .wheelWarmWrite m v => Sys2Proof.Machine.execWheelWarmWrite m v s
  | .governorRequest => Sys2Proof.Machine.execGovernorRequest s
  | .governorDecision => Sys2Proof.Machine.execGovernorDecision s
  | .admissionGrant => Sys2Proof.Machine.execAdmissionGrant s
  | .recomputeEnd => Sys2Proof.Machine.execRecomputeEnd s
  | .currentCeilingWrite m v => Sys2Proof.Machine.execCurrentCeilingWrite m v s
  | .active m => Sys2Proof.Machine.execActive m s
  | .low m => Sys2Proof.Machine.execLow m s
  | .standby m => Sys2Proof.Machine.execStandby m s
  | .deep m => Sys2Proof.Machine.execDeep m s
  | .powerSequenceDone => Sys2Proof.Machine.execPowerSequenceDone s
  | .wakeTime => Sys2Proof.Machine.execWakeTime s
  | .pwrWake cause pin => Sys2Proof.Machine.execPwrWake cause pin s
  | .entdaa addr => Sys2Proof.Machine.execEntdaa addr s
  | .setdasa addr => Sys2Proof.Machine.execSetdasa addr s
  | .setaasa => Sys2Proof.Machine.execSetaasa s
  | .enec events => Sys2Proof.Machine.execEnec events s
  | .disec events => Sys2Proof.Machine.execDisec events s
  | .rstdaa => Sys2Proof.Machine.execRstdaa s
  | .setmwl n => Sys2Proof.Machine.execSetmwl n s
  | .setmrl n => Sys2Proof.Machine.execSetmrl n s
  | .getmwl => Sys2Proof.Machine.execGetmwl s
  | .getmrl => Sys2Proof.Machine.execGetmrl s
  | .getpid => Sys2Proof.Machine.execGetpid s
  | .getbcr => Sys2Proof.Machine.execGetbcr s
  | .getdcr => Sys2Proof.Machine.execGetdcr s
  | .getstatus => Sys2Proof.Machine.execGetstatus s
  | .getmxds => Sys2Proof.Machine.execGetmxds s
  | .i3cPrivateWrite data => Sys2Proof.Machine.execI3cPrivateWrite data s
  | .i3cPrivateRead => Sys2Proof.Machine.execI3cPrivateRead s
  | .txGo m v => Sys2Proof.Machine.execTxGo m v s
  | .rxFullClear m => Sys2Proof.Machine.execRxFullClear m s
  | .selftest m => Sys2Proof.Machine.execSelftest m s
  | .selftestEnd pass => Sys2Proof.Machine.execSelftestEnd pass s
  | .healthFail => Sys2Proof.Machine.execHealthFail s
  | .dripData m => Sys2Proof.Machine.execDripData m s
  | .registerWrite m addr v => Sys2Proof.Machine.execRegisterWrite m addr v s
  | .jobBufferWipeDone c => Sys2Proof.Machine.execJobBufferWipeDone c s
  | .blockLockAcquired x => Sys2Proof.Machine.execBlockLockAcquired x s
  | .powerGoodRise n => Sys2Proof.Machine.execPowerGoodRise n s
  | .auxTxDone => Sys2Proof.Machine.execAuxTxDone s
  | .badFrame x f fcsOk => Sys2Proof.Machine.execBadFrame x f fcsOk s
  | .accessAcknowledged c w => Sys2Proof.Machine.execAccessAcknowledged c w s

end Sys2Proof.Machine
end

