-- ==== Sys2Proof/Safety.lean ====
section
/-! DEFINITION. What a safe step is, and the shapes of the frames that statements use. -/

namespace Sys2Proof.Machine

/-- The step answers a next state. -/
def StepSafe (s : State) : Prop := ∃ s', step s = .next s'

/-- Core c can issue an instruction of `len` bytes at its pc: it runs, its clock does, and the fetch is allowed (R28). -/
def CanIssue (s : State) (c len : Nat) : Prop := mayIssue s c = true ∧ fetchOk c (pcOf s c) len = true

/-- A short form names only k0 to w15 (R43). -/
def CodesFit (wide : Bool) (rs : List Nat) : Prop := ∀ r ∈ rs, r < if wide then 32 else 24

/-- Nothing but core c's own record differs. -/
structure OnlyCore (s t : State) (c : Nat) : Prop where
  rest : t = { s with cores := t.cores }
  others : ∀ c', c' ≠ c → core t c' = core s c'

/-- Register d of core c takes v (k0 discards it) and the program counter goes to `pc`; every other register, in the
visible window or outside it, every other field of the core and all else stay. -/
structure RegAndPc (s t : State) (c d : Nat) (v pc : W64) : Prop where
  only : OnlyCore s t c
  value : rd t c d = if d = 0 then 0 else v
  others : ∀ r, r < 32 → r ≠ d → rd t c r = rd s c r
  hidden : ∀ i, (d < 8 ∨ i ≠ physReg c (core s c) (d - 8)) → smGet (core t c).window i 0 = smGet (core s c).window i 0
  fields : core t c = { core s c with pc, kregs := (core t c).kregs, window := (core t c).window }

/-- The core takes exceptions now: its handler is enabled, none is active, and the window slides without a spill. -/
def EntryOpen (c : Nat) (k : Core) : Prop := excEn k = true ∧ excActive k = false ∧ k.wp + 48 ≤ k.bot + fileSize c

/-- Core c's record after entry to the handler (R56): the exception registers, the slide by 24 with its frame record, and the
handler's address. -/
def enteredCore (c : Nat) (k : Core) (info : W32) (pc fpc : W64) (addr : Option W64) : Core :=
  setRecord c
    { k with excInfo := info, excPc := pc, excFpc := fpc, excAddr := addr.getD k.excAddr, wp := k.wp + 24,
             pc := (k.excBase &&& 0xFFFFFFFE).setWidth 64 }
    (k.wp + 24) (some (mkRecord 2 pc))

/-- The state after entry to the handler: only core c changed. -/
def Enters (s t : State) (c : Nat) (info : W32) (pc fpc : W64) (addr : Option W64) : Prop :=
  OnlyCore s t c ∧ core t c = enteredCore c (core s c) info pc fpc addr

/-- Core c stands still in run state `r` past its instruction, without its token; the governor may have seen it go. -/
def GatedAs (s t : State) (c : Nat) (r : RunState) : Prop :=
  t = { s with cores := t.cores, gov := t.gov } ∧ (∀ c', c' ≠ c → core t c' = core s c') ∧
  core t c = { core s c with pc := (core s c).pc + 4, run := r, holds := false,
                             tokenC0 := if (core s c).holds then false else (core s c).tokenC0 }

/-- Context x of Wheel w runs, the head of its FIFO is the legal command k with operation `op`, and `rest` follows. -/
structure CrankHead (s : State) (w x op : Nat) (k : CrankCmd) (rest : List W64) : Prop where
  first : ∃ v, (ctx s w x).fifo = v :: rest ∧ crankCmd v = k
  isOp : k.op = op
  ready : ctxReady s w x = true
  runs : running s w x = true
  fields : crankFieldsOk k = true
  legal : crankStateOk (ctx s w x) op = true
  full : (ctx s w x).overflow = []

/-- Only Wheel w's Crank changed, and of its contexts only x: the command left the FIFO, was counted, and did `f`. -/
structure CrankDid (s t : State) (w x : Nat) (rest : List W64) (f : Ctx → Ctx) : Prop where
  frame : t = { s with cranks := t.cranks }
  wheels : ∀ v, v ≠ w → crank t v = crank s v
  otherCtx : ctx t w (1 - x) = ctx s w (1 - x)
  did : ∃ age, ctx t w x =
    { f { ctx s w x with fifo := rest } with completed := (ctx s w x).completed + 1, macAge := age }

/-- Master m holds lane l, which works, has taken all that was queued, and may take its next command. -/
structure LaneMine (s : State) (m l : Nat) : Prop where
  user : laneUser m l = true
  holds : holdsLane s m l = true
  powered : laneOn s l = true
  works : laneGo s l = true
  awake : isHubLane l = true ∨ parked s (l / 2) = false
  asked : isHubLane l = true ∨ (lane s l).requested = true
  state : (lane s l).state = .ready ∨ (lane s l).state = .finished
  empty : (lane s l).queue = []

/-- Only lane l changed. -/
structure LaneDid (s t : State) (l : Nat) (k : Lane) : Prop where
  frame : t = { s with lanes := t.lanes }
  others : ∀ j, j ≠ l → lane t j = lane s j
  did : lane t l = k

/-- Master m may give the Chamber a command. -/
def ChamberOpen (s : State) (m : Nat) : Prop := domOn s 26 = true ∧ isCore m = true ∧ (chBank s m).busy = false

/-- Spoke c runs a job of a service whose entry names its operation `op` and is well formed: format 1, the unlisted bytes of
`ARGS` zero, a payload exactly where the operation has one (R356, R358). Its reads of the job buffer reach the memory: no
island is off, no bank refuses, no wipe runs. -/
structure ServiceRuns (s : State) (c service op : Nat) (body : Bool) (used : List (Nat × Nat)) (j : Job) : Prop where
  job : jobOf s c = some j
  spoke : isSpoke c = true
  runs : (core s c).run = .running
  clocked : (core s c).frozen = false
  service : j.service = service
  isOp : j.entry.op = op
  reads : bankReach s c (jobBuffer c + 32) (96 + j.entry.payloadLen) = s
  format : j.entry.payloadLen ≠ 0 → field (jobPayload s c j) 4 2 = 1
  reserved : argsZero (jobArgs s c) used = true
  payload : decide (j.entry.payloadLen ≠ 0) = body

/-- A frame of type `n` for the member arrives on port x, is delivered, and the shipped Hub-B has read it: `v` (R387, R388). -/
structure FrameHeard (s : State) (x : Nat) (f : Frame) (n : Nat) (v : State) : Prop where
  type : f.ftype.toNat = n
  mine : f.dst = uid s ∨ f.dst = 0
  single : f.dst ≠ broadcast
  taken : (receive s x f).2 = true
  up : hubBUp (receive s x f).1 = true
  read : v = consume (receive s x f).1 x

end Sys2Proof.Machine
end

