-- ==== Sys2Proof/WellFormed.lean ====
section
/-! DEFINITION. Well-formed commands: every operand names something that the device has. -/

namespace Sys2Proof

/-! ### What an operand may name -/

/-- A Spoke (R444). -/
def spokeId (c : Nat) : Bool := c < 0x200

/-- A Spoke, a Hub core or a gatekeeper (R444). -/
def coreId (c : Nat) : Bool := c < 0x200 || c = 0x200 || c = 0x202 || (0x210 ≤ c && c < 0x214)

/-- A master of R444: a core, a Wheel's DMA engine, a function, the queue fabric's DMA, a chain port, Lantern. -/
def masterId (m : Nat) : Bool :=
  coreId m || (0x280 ≤ m && m < 0x2A0) || (0x300 ≤ m && m < 0x400) || [0x400, 0x410, 0x411, 0x420].contains m

/-- A register code of a long form, or of a short one, which cannot name w16 to w23 (R42, R43). -/
def regCode (wide : Bool) (r : Nat) : Bool := r < (if wide then 32 else 24)

/-- The registers of a two-operand form; the short form's destination is its first source (R44). -/
def threeOk (d a b : Nat) (wide : Bool) : Bool := [d, a, b].all (regCode wide) && (wide || a = d)

/-- An immediate that five bits hold (R44). -/
def fits5 (imm : BitVec 12) : Bool := (imm.setWidth 5).signExtend 12 = imm

/-- w0 to w7, which three bits name (R43). -/
def low8 (r : Nat) : Bool := 8 ≤ r && r < 16

/-- The registers, the mode and the size of a load or store (R43, R47, R48). -/
def addrOk (d a : Nat) (mode : AddrMode) (size : BitVec 3) : Bool :=
  match mode with
  | .short _ => low8 d && low8 a && size = 6
  | .index b _ => [d, a, b].all (regCode true)
  | .offset _ | .postInc | .preDec => [d, a].all (regCode true)

/-- The register and offset of a branch; the short form has w0 to w7 and nine bits of offset (R43, R84). -/
def branchOk (r : Nat) (off : BitVec 20) (wide : Bool) : Bool :=
  if wide then regCode true r else low8 r && (off.setWidth 9).signExtend 20 = off

/-- A Wheel, a Crank context, a lane (64 to 67 are the Hub's), a bank (64 and up are pool banks). -/
def wheelId (w : Nat) : Bool := w < 32
def ctxId (x : Nat) : Bool := x < 2
def laneId (l : Nat) : Bool := l < 68
def bankId (b : Nat) : Bool := b < 192

/-- What an acknowledgement names: a Wheel, an ordinary access, or a queue broadcast. -/
def ackPlace (w : Nat) : Bool := w < 34

/-- A flash port or platform, one of its two own-command slots, a PCTL pin. -/
def portId (p : Nat) : Bool := p < 4
def slot2 (k : Nat) : Bool := k < 2
def pinId (n : Nat) : Bool := n < 12

/-- A PCIe function, a queue (R3). -/
def funcId (f : Nat) : Bool := f < 256
def queueId (q : Nat) : Bool := q < 32768

/-- A chain port, a transmit slot, a recovery transport. -/
def chainPort (x : Nat) : Bool := x < 2
def slotId (k : Nat) : Bool := k < 4
def transport (tr : Nat) : Bool := tr < 4

/-- A domain of R17, a monitored rail. -/
def domainId (d : Nat) : Bool := d < 31
def railId (r : Nat) : Bool := r < 4

/-- A naturally aligned access size. -/
def lane8 (n : Nat) : Bool := [1, 2, 4, 8].contains n

/-- The hop count is one byte and the payload fits a frame (R384). -/
def frameOk (f : Frame) : Bool := f.hops < 256 && f.payload.length ≤ 4096

/-- The command is well-formed. -/
def Instr.wellFormed : Instr → Bool
  | .add c d a b wide => coreId c && threeOk d a b wide
  | .sub c d a b wide => coreId c && threeOk d a b wide
  | .and c d a b wide => coreId c && threeOk d a b wide
  | .or c d a b wide => coreId c && threeOk d a b wide
  | .xor c d a b wide => coreId c && threeOk d a b wide
  | .mov c d a wide => coreId c && regCode wide d && regCode wide a
  | .sll c d a b => coreId c && regCode true d && regCode true a && regCode true b
  | .srl c d a b => coreId c && regCode true d && regCode true a && regCode true b
  | .sra c d a b => coreId c && regCode true d && regCode true a && regCode true b
  | .rol c d a b => coreId c && regCode true d && regCode true a && regCode true b
  | .ror c d a b => coreId c && regCode true d && regCode true a && regCode true b
  | .neg c d a => coreId c && regCode true d && regCode true a
  | .abs c d a => coreId c && regCode true d && regCode true a
  | .mul c d a b => coreId c && regCode true d && regCode true a && regCode true b
  | .mulhs c d a b => coreId c && regCode true d && regCode true a && regCode true b
  | .mulhu c d a b => coreId c && regCode true d && regCode true a && regCode true b
  | .div c d a b => coreId c && regCode true d && regCode true a && regCode true b
  | .divu c d a b => coreId c && regCode true d && regCode true a && regCode true b
  | .rem c d a b => coreId c && regCode true d && regCode true a && regCode true b
  | .remu c d a b => coreId c && regCode true d && regCode true a && regCode true b
  | .addi c d a imm wide => coreId c && regCode wide d && regCode wide a && (wide || (a = d && fits5 imm))
  | .andi c d a _ => coreId c && regCode true d && regCode true a
  | .ori c d a _ => coreId c && regCode true d && regCode true a
  | .xori c d a _ => coreId c && regCode true d && regCode true a
  | .slli c d a _ => coreId c && regCode true d && regCode true a
  | .srli c d a _ => coreId c && regCode true d && regCode true a
  | .srai c d a _ => coreId c && regCode true d && regCode true a
  | .rori c d a _ => coreId c && regCode true d && regCode true a
  | .cati c d a _ => coreId c && regCode true d && regCode true a
  | .leapc c d _ => coreId c && regCode true d
  | .ceq c d a b wide => coreId c && threeOk d a b wide
  | .cne c d a b wide => coreId c && threeOk d a b wide
  | .clt c d a b wide => coreId c && threeOk d a b wide
  | .cltu c d a b wide => coreId c && threeOk d a b wide
  | .cle c d a b wide => coreId c && threeOk d a b wide
  | .cleu c d a b wide => coreId c && threeOk d a b wide
  | .sel c d r a b => coreId c && [d, r, a, b].all (regCode true)
  | .ceqi c d a _ => coreId c && regCode true d && regCode true a
  | .cnei c d a _ => coreId c && regCode true d && regCode true a
  | .clti c d a _ => coreId c && regCode true d && regCode true a
  | .cltui c d a _ => coreId c && regCode true d && regCode true a
  | .clei c d a _ => coreId c && regCode true d && regCode true a
  | .cleui c d a _ => coreId c && regCode true d && regCode true a
  | .cgti c d a _ => coreId c && regCode true d && regCode true a
  | .cgtui c d a _ => coreId c && regCode true d && regCode true a
  | .ld c d a md size => coreId c && addrOk d a md size
  | .st c d a md size => coreId c && addrOk d a md size
  | .bz c r off wide => coreId c && branchOk r off wide
  | .bnz c r off wide => coreId c && branchOk r off wide
  | .br c _ => coreId c
  | .call c _ _ => coreId c
  | .callr c a _ => coreId c && regCode true a
  | .jr c a => coreId c && regCode true a
  | .ret c => coreId c
  | .rep c r wide => coreId c && regCode wide r
  | .repi c _ => coreId c
  | .illegalInstruction c => coreId c
  | .fetchFault c => coreId c
  | .wait c => coreId c
  | .waitJob c d => coreId c && regCode true d
  | .waitEnd c => coreId c
  | .fence c => coreId c
  | .hubcall c d a _ => coreId c && regCode true d && regCode true a
  | .hubcallAnswer c _ => coreId c
  | .hubcallTimeout c => coreId c
  | .excRet c => coreId c
  | .crr c d _ => coreId c && regCode true d
  | .crw c _ a => coreId c && regCode true a
  | .pcrr c d _ => coreId c && regCode true d
  | .pcrw c _ a => coreId c && regCode true a
  | .intoff c d => coreId c && regCode true d
  | .inton c => coreId c
  | .measureLock c a => coreId c && regCode true a
  | .interruptEntry c => coreId c
  | .timerCompareFire c => coreId c
  | .coreRelease c => coreId c
  | .pelotonTimeReached c => coreId c
  | .lockstepMismatch c => coreId c
  | .spokeReset m w i => masterId m && wheelId w && i < 16
  | .handoverWrite m bank _ => masterId m && bankId bank
  | .bankWipeDone bank => bankId bank
  | .dmaStarved bank dma => bankId bank && masterId dma
  | .wdmaGo m spoke => masterId m && spokeId spoke
  | .wdmaBeat w => wheelId w
  | .wdmaDone spoke => spokeId spoke
  | .bcastWrite m off size _ => masterId m && lane8 size && off < 0x1000000 && off % size = 0
  | .ctxClaim m w => masterId m && wheelId w
  | .crankGrant w => wheelId w
  | .ctxRelease m w => masterId m && wheelId w
  | .cmdHi m w x _ => masterId m && wheelId w && ctxId x
  | .notify w x => wheelId w && ctxId x
  | .yieldpt w x => wheelId w && ctxId x
  | .mode w x => wheelId w && ctxId x
  | .syncs w x => wheelId w && ctxId x
  | .accclr w x => wheelId w && ctxId x
  | .setsel w x => wheelId w && ctxId x
  | .macw w x => wheelId w && ctxId x
  | .accldw w x => wheelId w && ctxId x
  | .accstw w x => wheelId w && ctxId x
  | .carry w x => wheelId w && ctxId x
  | .macl w x => wheelId w && ctxId x
  | .lq w x => wheelId w && ctxId x
  | .lld w x => wheelId w && ctxId x
  | .lst w x => wheelId w && ctxId x
  | .movb w x => wheelId w && ctxId x
  | .selb w x => wheelId w && ctxId x
  | .declassify w x => wheelId w && ctxId x
  | .pairv w x => wheelId w && ctxId x
  | .verdict w x => wheelId w && ctxId x
  | .yieldOverrun w => wheelId w
  | .crankWipeDone w x _ => wheelId w && ctxId x
  | .sAreaTransfer w => wheelId w
  | .laneClaim m l => masterId m && laneId l
  | .laneGrant l => laneId l
  | .laneRelease m l => masterId m && laneId l
  | .laneWipeDone l => laneId l
  | .init m l _ => masterId m && laneId l
  | .absorbSlot m l _ _ => masterId m && laneId l
  | .absorbHold m l => masterId m && laneId l
  | .finish m l _ _ => masterId m && laneId l
  | .save m l => masterId m && laneId l
  | .restore m l => masterId m && laneId l
  | .exportWrapped m l => masterId m && laneId l
  | .importWrapped m l => masterId m && laneId l
  | .laneData m l size _ => masterId m && laneId l && lane8 size
  | .declaredLengthWrite m l _ => masterId m && laneId l
  | .laneOpDone l => laneId l
  | .slotAlloc m _ => masterId m
  | .slotFree m _ => masterId m
  | .slotInfo m _ => masterId m
  | .xfer m _ _ => masterId m
  | .unwrapBegin m _ _ _ => masterId m
  | .unwrapEnd m => masterId m
  | .chFeed m _ => masterId m
  | .chamberCmdDone m => masterId m
  | .slot0Load => true
  | .read m _ => masterId m
  | .program m _ _ => masterId m
  | .lock m _ => masterId m
  | .sealCalc m _ => masterId m
  | .genUds m => masterId m
  | .repair m _ => masterId m
  | .otpCommandDone _ => true
  | .pumpIdleOff => true
  | .sensingComplete => true
  | .lcRequest m _ => masterId m
  | .transitionStep => true
  | .eraseFault block => block < 16
  | .idcode => true
  | .sample => true
  | .extest => true
  | .lnUid => true
  | .lnMailbox _ _ _ => true
  | .lnAccess _ => true
  | .bypass _ => true
  | .lanternEscape kind => kind < 3
  | .lnChallengeReq m => masterId m
  | .challengeExpiry => true
  | .certClaim m _ => masterId m
  | .certSubmit m => masterId m
  | .certCheck => true
  | .certTimeout => true
  | .lnAuthGrant m _ => masterId m
  | .lnClose m => masterId m
  | .porstNRise _ => true
  | .porstNAssert => true
  | .deviceReset => true
  | .tamperN => true
  | .supplyTrip rail => railId rail
  | .supplyRelease rail => railId rail
  | .vddAonLow => true
  | .vddAonPowerUp => true
  | .setImages m p _ => masterId m && portId p
  | .setRecovery m p _ => masterId m && portId p
  | .setGo m p _ => masterId m && portId p
  | .clearGo m p _ => masterId m && portId p
  | .hold m p => masterId m && portId p
  | .platformRelease p => portId p
  | .delayDone p => portId p
  | .powerGoodStable p => portId p
  | .powerGoodFall n => pinId n
  | .pctlAlertFall n => pinId n
  | .pctlCfgWrite m n _ => masterId m && pinId n
  | .auxTxdata m _ => masterId m
  | .auditBlock p addr data _ => portId p && data.length = 4096 && addr.toNat % 4096 = 0
  | .auditEntryArrival p => portId p
  | .start m p => masterId m && portId p
  | .quarantinedClear m p => masterId m && portId p
  | .hostTransactionStart p => portId p
  | .hostDecision p _ _ _ _ => portId p
  | .hostTransactionEnd p bytes => portId p && bytes < 2 ^ 32
  | .ownRead m p k _ => masterId m && portId p && slot2 k
  | .ownWrite m p k _ => masterId m && portId p && slot2 k
  | .ownNoData m p k _ => masterId m && portId p && slot2 k
  | .ownPoll m p k _ => masterId m && portId p && slot2 k
  | .ownCmdStart p k => portId p && slot2 k
  | .ownCmdDone p k _ data => portId p && slot2 k && data.length ≤ 4096
  | .ownPollTimeout p k _ => portId p && slot2 k
  | .quietOpen p => portId p
  | .quietClose p => portId p
  | .sweepBlock p data => portId p && data.length = 4096
  | .portBootDone m p => masterId m && portId p
  | .swap m p => masterId m && portId p
  | .swapApply p => portId p
  | .copyActive m p => masterId m && portId p
  | .copyDone p => portId p
  | .tlogPop m p => masterId m && portId p
  | .gkReset m p => masterId m && portId p
  | .gkMailboxIn m p _ => masterId m && portId p
  | .gkMailboxOut m p _ => masterId m && portId p
  | .inTaken m p => masterId m && portId p
  | .gkBootDoneMsg p => portId p
  | .openWindow p _ _ => portId p
  | .closeWindow p _ => portId p
  | .updateWindowExpiry p => portId p
  | .intervalEnd p => portId p
  | .configRequest f off _ _ => funcId f && off < 0x1000 && off % 4 = 0
  | .perstN => true
  | .flr f => funcId f
  | .barAccessFault _ off size => off < 0x10000 && size ≤ 8
  | .spdmRequest _ _ => true
  | .query => true
  | .keyProg stream _ => stream < 9
  | .kSetGo stream => stream < 9
  | .kSetStop stream => stream < 9
  | .funcVecWrite m f _ => masterId m && funcId f
  | .funcEnable m f _ => masterId m && funcId f
  | .queueEnable m q => masterId m && queueId q
  | .queueDisable m q => masterId m && queueId q
  | .queueOff q => queueId q
  | .qgroupAliasWrite m off _ => masterId m && off < 0x2000 && off % 4 = 0
  | .doorbell f index _ => funcId f && index < 0x10000
  | .entryFetch q entry => queueId q && entry.length = 64
  | .payloadFetch q _ data => queueId q && data.length ≤ 8192
  | .jobDispatch q c => queueId q && spokeId c
  | .jobWindowStore m off size _ => spokeId m && lane8 size && off < 0x4000 && off % size = 0
  | .jobCompletion c _ => spokeId c
  | .jobTimeout c => spokeId c
  | .qfBootDone m => masterId m
  | .queueCreate q ctx => queueId q && ctx.length = 16
  | .queueDestroy q => queueId q
  | .queueSet _ index _ _ => index < 16
  | .funcSet f _ base count => funcId f && base < 0x1000 && count < 0x1000
  | .verify c => spokeId c
  | .appraise c => spokeId c
  | .refsetLoad c => spokeId c
  | .policySet c => spokeId c
  | .ticketKeys c => spokeId c
  | .recordStatus c => spokeId c
  | .ticket c => spokeId c
  | .keyRelease c => spokeId c
  | .derive c => spokeId c
  | .sign c => spokeId c
  | .rcvStatus tr _ target => transport tr && target < 256
  | .rcvData tr _ target index data => transport tr && target < 256 && index < 0x10000 && data.length ≤ 4096
  | .rcvEnd tr _ target => transport tr && target < 256
  | .rcvAbort tr _ target => transport tr && target < 256
  | .rcvTimeout target => target < 256
  | .linkModeWrite m x _ => masterId m && chainPort x
  | .linkUp x => chainPort x
  | .blockLockLoss x => chainPort x
  | .helloTimeout x => chainPort x
  | .helloInterval x => chainPort x
  | .hello x f => chainPort x && frameOk f
  | .delayReq x f _ => chainPort x && frameOk f
  | .delayResp x f _ => chainPort x && frameOk f
  | .time x f _ => chainPort x && frameOk f
  | .rollCall x f => chainPort x && frameOk f
  | .rollAnswer x f => chainPort x && frameOk f
  | .roster x f => chainPort x && frameOk f
  | .pacerAssign x f => chainPort x && frameOk f
  | .topoChange x f => chainPort x && frameOk f
  | .rcvMsg x f => chainPort x && frameOk f
  | .imageQuery x f => chainPort x && frameOk f
  | .imageOffer x f => chainPort x && frameOk f
  | .cpTxGo m k _ => masterId m && slotId k
  | .cpTxDone k => slotId k
  | .rxFull m x => masterId m && chainPort x
  | .txFullClear m x => masterId m && chainPort x
  | .syncIntervalTick => true
  | .holdover => true
  | .rollInterval => true
  | .rollWait => true
  | .ptSet m _ => masterId m
  | .armFire => true
  | .updOffer tr f => transport tr && frameOk f
  | .updAnswer tr f => transport tr && frameOk f
  | .updChunk tr f => transport tr && frameOk f
  | .updStatus tr => transport tr
  | .updReport x f => chainPort x && frameOk f
  | .updArm x f => chainPort x && frameOk f
  | .updAbort x f => chainPort x && frameOk f
  | .updTimeout => true
  | .forwardResend x => chainPort x
  | .armWait => true
  | .activation => true
  | .freeze => true
  | .unfreeze m _ => masterId m
  | .recordArrival island => island < 47
  | .recordStore => true
  | .fsFreeze m => masterId m
  | .fsThaw m => masterId m
  | .mergeEnd => true
  | .freezeTimeout => true
  | .fsRelease m _ => masterId m
  | .commit m => masterId m
  | .commitDone m _ => masterId m
  | .droppedClr m => masterId m
  | .fsSwGo m => masterId m
  | .pdReqWrite m _ => masterId m
  | .domainOn d => domainId d
  | .domainOff d => domainId d
  | .domainFault d => domainId d
  | .wheelFreqWrite m j _ => masterId m && j < 4
  | .relockDone w => wheelId w
  | .clockFault island => island < 47
  | .wheelPark w => wheelId w
  | .wheelUnpark w => wheelId w
  | .wheelWarmWrite m _ => masterId m
  | .governorRequest => true
  | .governorDecision => true
  | .admissionGrant => true
  | .recomputeEnd => true
  | .currentCeilingWrite m _ => masterId m
  | .active m => masterId m
  | .low m => masterId m
  | .standby m => masterId m
  | .deep m => masterId m
  | .powerSequenceDone => true
  | .wakeTime => true
  | .pwrWake cause pin => cause < 28 && pinId pin
  | .entdaa _ => true
  | .setdasa _ => true
  | .setaasa => true
  | .enec _ => true
  | .disec _ => true
  | .rstdaa => true
  | .setmwl n => n < 0x10000
  | .setmrl n => n < 0x10000
  | .getmwl => true
  | .getmrl => true
  | .getpid => true
  | .getbcr => true
  | .getdcr => true
  | .getstatus => true
  | .getmxds => true
  | .i3cPrivateWrite data => data.length ≤ 256
  | .i3cPrivateRead => true
  | .txGo m _ => masterId m
  | .rxFullClear m => masterId m
  | .selftest m => masterId m
  | .selftestEnd _ => true
  | .healthFail => true
  | .dripData m => masterId m
  | .registerWrite m addr _ => masterId m && addr < 2 ^ 41 && addr % 4 = 0
  | .jobBufferWipeDone c => spokeId c
  | .blockLockAcquired x => chainPort x
  | .powerGoodRise n => pinId n
  | .auxTxDone => true
  | .badFrame x f _ => chainPort x && frameOk f
  | .accessAcknowledged c w => coreId c && ackPlace w

end Sys2Proof
end

