-- ==== Sys2Proof/Certificates/Slice0/Obligations.lean ====
section
/-! DEFINITION. The statements for the provers. -/

open Sys2Proof Sys2Proof.Machine

/-! ### The queue -/

/-- A step takes the command at the front of the queue and runs it with the queue's rest. -/
def Obligations.StepRunsFrontCommand : Prop :=
  ∀ (s : State) (i : Instr) (rest : List Instr), s.pending = i :: rest → step s = exec i { s with pending := rest }

/-- On an empty queue the block idles for one AON cycle (log 2): always a next state; while the device is held by `PORST_N` or a
supply, only the model's own clock advances. -/
def Obligations.EmptyQueuePassesOneCycle : Prop :=
  ∀ s : State, s.pending = [] →
    ∃ t, step s = .next t ∧ (s.boot.phase = .held → t = { s with ticks := s.ticks + 1 })

/-! ### Spoke instructions: arithmetic, logic, compares (R69 to R75) -/

/-- The register forms of the arithmetic and logic instructions write their result, the next pc, and nothing else; k0 discards
the result. A division by zero is here where `ARITH_TRAP_EN` is 0.
The immediate forms, `LEAPC` and `SEL`. -/
def Obligations.ArithmeticCompletes : Prop :=
  (∀ (s : State) (c d a b : Nat) (wide : Bool), d < 32 →
      let A := rd s c a
      let B := rd s c b
      let gives := fun (i : Instr) (len : Nat) (v : W64) =>
        ∃ t, exec i s = .next t ∧ RegAndPc s t c d v (pcOf s c + BitVec.ofNat 64 len)
      (CanIssue s c (formLen wide) → CodesFit wide [d, a, b] → (wide = true ∨ a = d) →
        gives (.add c d a b wide) (formLen wide) (A + B) ∧
        gives (.sub c d a b wide) (formLen wide) (A - B) ∧
        gives (.and c d a b wide) (formLen wide) (A &&& B) ∧
        gives (.or c d a b wide) (formLen wide) (A ||| B) ∧
        gives (.xor c d a b wide) (formLen wide) (A ^^^ B)) ∧
      (CanIssue s c (formLen wide) → CodesFit wide [d, a] → gives (.mov c d a wide) (formLen wide) A) ∧
      (CanIssue s c 4 →
        gives (.sll c d a b) 4 (if B.toNat < 64 then A <<< B.toNat else 0) ∧
        gives (.srl c d a b) 4 (if B.toNat < 64 then A >>> B.toNat else 0) ∧
        gives (.sra c d a b) 4 (if B.toNat < 64 then A.sshiftRight B.toNat else if A.toInt < 0 then -1 else 0) ∧
        gives (.rol c d a b) 4 (A <<< (B.toNat % 64) ||| A >>> (64 - B.toNat % 64)) ∧
        gives (.ror c d a b) 4 (A >>> (B.toNat % 64) ||| A <<< (64 - B.toNat % 64)) ∧
        gives (.neg c d a) 4 (-A) ∧
        gives (.abs c d a) 4 (BitVec.ofInt 64 A.toInt.natAbs) ∧
        gives (.mul c d a b) 4 (BitVec.ofInt 64 (A.toInt * B.toInt)) ∧
        gives (.mulhs c d a b) 4 (BitVec.ofInt 64 (A.toInt * B.toInt / 2 ^ 64)) ∧
        gives (.mulhu c d a b) 4 (BitVec.ofNat 64 (A.toNat * B.toNat / 2 ^ 64))) ∧
      (CanIssue s c 4 → (B ≠ 0 ∨ bitOf (core s c).ctrl 0 = false) →
        gives (.div c d a b) 4 (if B = 0 then -1 else BitVec.ofInt 64 (A.toInt.tdiv B.toInt)) ∧
        gives (.divu c d a b) 4 (if B = 0 then -1 else BitVec.ofNat 64 (A.toNat / B.toNat)) ∧
        gives (.rem c d a b) 4 (if B = 0 then A else BitVec.ofInt 64 (A.toInt.tmod B.toInt)) ∧
        gives (.remu c d a b) 4 (if B = 0 then A else BitVec.ofNat 64 (A.toNat % B.toNat)))) ∧
  (∀ (s : State) (c d a b r : Nat) (imm : BitVec 12) (n : BitVec 6) (wide : Bool), d < 32 →
      let A := rd s c a
      let gives := fun (i : Instr) (len : Nat) (v : W64) =>
        ∃ t, exec i s = .next t ∧ RegAndPc s t c d v (pcOf s c + BitVec.ofNat 64 len)
      (CanIssue s c (formLen wide) → CodesFit wide [d, a] → (wide = true ∨ (a = d ∧ fits5 imm = true)) →
        gives (.addi c d a imm wide) (formLen wide) (A + imm.signExtend 64)) ∧
      (CanIssue s c 4 →
        gives (.andi c d a imm) 4 (A &&& imm.signExtend 64) ∧
        gives (.ori c d a imm) 4 (A ||| imm.signExtend 64) ∧
        gives (.xori c d a imm) 4 (A ^^^ imm.signExtend 64) ∧
        gives (.slli c d a n) 4 (A <<< n.toNat) ∧
        gives (.srli c d a n) 4 (A >>> n.toNat) ∧
        gives (.srai c d a n) 4 (A.sshiftRight n.toNat) ∧
        gives (.rori c d a n) 4 (A >>> n.toNat ||| A <<< (64 - n.toNat)) ∧
        gives (.cati c d a imm) 4 (A <<< 12 ||| imm.setWidth 64) ∧
        gives (.leapc c d imm) 4 (pcOf s c + imm.signExtend 64) ∧
        gives (.sel c d r a b) 4 (if rd s c r = 0 then rd s c b else A)))

/-- A compare writes 1 or 0, signed as two's complement or unsigned, by its condition. -/
def Obligations.ComparesWriteTruth : Prop :=
  ∀ (s : State) (c d a b : Nat) (imm : BitVec 12) (wide : Bool), d < 32 →
    let A := rd s c a
    let B := rd s c b
    let I : W64 := imm.signExtend 64
    let gives := fun (i : Instr) (len : Nat) (p : Prop) =>
      ∃ t v, exec i s = .next t ∧ RegAndPc s t c d v (pcOf s c + BitVec.ofNat 64 len) ∧ ((p ∧ v = 1) ∨ (¬ p ∧ v = 0))
    (CanIssue s c (formLen wide) → CodesFit wide [d, a, b] → (wide = true ∨ a = d) →
      gives (.ceq c d a b wide) (formLen wide) (A = B) ∧
      gives (.cne c d a b wide) (formLen wide) (A ≠ B) ∧
      gives (.clt c d a b wide) (formLen wide) (A.toInt < B.toInt) ∧
      gives (.cltu c d a b wide) (formLen wide) (A.toNat < B.toNat) ∧
      gives (.cle c d a b wide) (formLen wide) (A.toInt ≤ B.toInt) ∧
      gives (.cleu c d a b wide) (formLen wide) (A.toNat ≤ B.toNat)) ∧
    (CanIssue s c 4 →
      gives (.ceqi c d a imm) 4 (A = I) ∧
      gives (.cnei c d a imm) 4 (A ≠ I) ∧
      gives (.clti c d a imm) 4 (A.toInt < I.toInt) ∧
      gives (.cltui c d a imm) 4 (A.toNat < I.toNat) ∧
      gives (.clei c d a imm) 4 (A.toInt ≤ I.toInt) ∧
      gives (.cleui c d a imm) 4 (A.toNat ≤ I.toNat) ∧
      gives (.cgti c d a imm) 4 (I.toInt < A.toInt) ∧
      gives (.cgtui c d a imm) 4 (I.toNat < A.toNat))

/-! ### Spoke instructions: memory, control flow, windows (R33 to R36, R47, R48, R76 to R84) -/

/-- Loads and stores in every addressing mode: the access at the effective address, after the base update and the step over the
instruction; in a Spoke's own scratch a load writes only its destination and the base, a store only the base and its bytes. -/
def Obligations.LoadsAndStoresComplete : Prop :=
  ∀ (s : State) (c d a : Nat) (mode : AddrMode) (size : BitVec 3), d < 32 → a < 32 →
    let n := sizeBytes size
    let ea := effAddr s c a mode n
    let s1 := advance (baseUpdate s c a mode n) c (modeLen mode)
    let at' := scratchBase c + ea.toNat
    CanIssue s c (modeLen mode) → ea.toNat < 2 ^ 40 → ea.toNat % n = 0 →
      (size ≠ 7 → (autoMod mode = true → d ≠ a) →
        ∃ t, exec (.ld c d a mode size) s = .next t ∧
          t = wr (dataRead s1 c ea.toNat n).2 c d (loadExt size (dataRead s1 c ea.toNat n).1) ∧
          (isSpoke c = true → ea.toNat < 0x10000 →
            OnlyCore s t c ∧ pcOf t c = pcOf s c + BitVec.ofNat 64 (modeLen mode) ∧
            rd t c d = (if d = 0 then 0 else loadExt size (rdMem s at' n)) ∧
            ∀ r, r < 32 → r ≠ d → (autoMod mode = true → r ≠ a) → rd t c r = rd s c r)) ∧
      (size.toNat % 2 = 0 →
        ∃ t, exec (.st c d a mode size) s = .next t ∧
          t = dataWrite s1 c ea.toNat n ((rd s c d).toNat % 2 ^ (8 * n)) ∧
          (isSpoke c = true → ea.toNat < 0x10000 →
            t = { s with cores := t.cores, mem := t.mem } ∧ (∀ c', c' ≠ c → core t c' = core s c') ∧
            pcOf t c = pcOf s c + BitVec.ofNat 64 (modeLen mode) ∧
            rdMem t at' n = (rd s c d).toNat % 2 ^ (8 * n) ∧
            (∀ b, b < at' ∨ at' + n ≤ b → rdByte t b = rdByte s b) ∧
            ∀ r, r < 32 → (autoMod mode = true → r ≠ a) → rd t c r = rd s c r))

/-- Branches and jumps move only the program counter. -/
def Obligations.BranchesMoveOnlyThePc : Prop :=
  ∀ (s : State) (c r a : Nat) (off : BitVec 20) (wide : Bool),
    let here := pcOf s c
    let rel := here + off.signExtend 64 * 2
    (CanIssue s c (formLen wide) →
      exec (.bz c r off wide) s = .next (setPc s c (if rd s c r = 0 then rel else here + BitVec.ofNat 64 (formLen wide))) ∧
      exec (.bnz c r off wide) s = .next (setPc s c (if rd s c r = 0 then here + BitVec.ofNat 64 (formLen wide) else rel))) ∧
    (CanIssue s c 4 →
      exec (.br c off) s = .next (setPc s c rel) ∧
      ((rd s c a).toNat % 2 = 0 → exec (.jr c a) s = .next (setPc s c (rd s c a))))

/-- `CALL` and `CALLR` whose window fits the file slide it up, leave a frame record with the slide and the return address, and
jump; the caller's registers stay in the file.
`RET` with a frame record slides the window back by the recorded amount, uses the record up and jumps to its address. -/
def Obligations.CallsAndReturnsMoveTheWindow : Prop :=
  (∀ (s : State) (c a : Nat) (off : BitVec 20) (slide16 : Bool),
      let k := core s c
      let d := if slide16 then 16 else 8
      let after := fun (target : W64) => setRecord c { k with wp := k.wp + d, pc := target } (k.wp + d)
        (some (mkRecord (if slide16 then 1 else 0) (k.pc + 4)))
      let shifted := fun (t : State) => ∀ r, r < 24 - d → rd t c (8 + r) = rd s c (8 + d + r)
      CanIssue s c 4 → k.wp + d + 24 ≤ k.bot + fileSize c →
        (∃ t, exec (.call c off slide16) s = .next t ∧ OnlyCore s t c ∧ core t c = after (k.pc + off.signExtend 64 * 2) ∧
          shifted t) ∧
        ((rd s c a).toNat % 2 = 0 →
          ∃ t, exec (.callr c a slide16) s = .next t ∧ OnlyCore s t c ∧ core t c = after (rd s c a) ∧ shifted t)) ∧
  (∀ (s : State) (c : Nat) (r : W64),
      let k := core s c
      let d := if recSlide r = 1 then 16 else 8
      CanIssue s c 2 → recordAt c k k.wp = some r → recSlide r < 2 → k.bot + d ≤ k.wp →
        ∃ t, exec (.ret c) s = .next t ∧ OnlyCore s t c ∧
          core t c = { setRecord c k k.wp none with wp := k.wp - d, pc := recTarget r })

/-- A call and the return that meets its record: back at the instruction after the call, the window and every visible register
as before the call, when the windows between fit the file. -/
def Obligations.CallThenReturnRestores : Prop :=
  ∀ (s t u : State) (c : Nat) (off : BitVec 20) (slide16 : Bool),
    let k := core s c
    let d := if slide16 then 16 else 8
    CanIssue s c 4 → k.wp + d + 24 ≤ k.bot + fileSize c → k.bot ≤ k.wp → (k.pc + 4).toNat < 2 ^ 40 → k.pc.toNat % 2 = 0 →
    exec (.call c off slide16) s = .next t → CanIssue t c 2 → exec (.ret c) t = .next u →
      pcOf u c = k.pc + 4 ∧ (core u c).wp = k.wp ∧ ∀ r, r < 32 → rd u c r = rd s c r

/-! ### Spoke instructions: repeat prefixes, waiting, control registers, exceptions -/

/-- `REP` and `REPI` over an `ADD d, d, b` in memory run it as often as they say while no interrupt may be taken; `REP` counts
its register down to zero; the program counter ends past both. -/
def Obligations.RepeatsRunTheirCount : Prop :=
  ∀ (s : State) (c r d b l : Nat) (n : BitVec 6) (wide : Bool), r < 32 → d < 32 → b < 32 → r ≠ 0 → d ≠ 0 → r ≠ d → r ≠ b → d ≠ b →
    intTakable c (core s c) = false → (l = 2 ∨ l = 4) → (l = 2 → d < 24 ∧ b < 24) →
    (CanIssue s c (formLen wide) → CodesFit wide [r] →
      fetchOp s c (pcOf s c + BitVec.ofNat 64 (formLen wide)) = some (l, .alu .add d d b) →
      ∃ t, exec (.rep c r wide) s = .next t ∧ OnlyCore s t c ∧ rd t c r = 0 ∧ rd t c d = rd s c d + rd s c r * rd s c b ∧
        pcOf t c = pcOf s c + BitVec.ofNat 64 (formLen wide + l) ∧ ∀ q, q < 32 → q ≠ r → q ≠ d → rd t c q = rd s c q) ∧
    (CanIssue s c 4 → fetchOp s c (pcOf s c + 4) = some (l, .alu .add d d b) →
      ∃ t, exec (.repi c n) s = .next t ∧ OnlyCore s t c ∧
        rd t c d = rd s c d + BitVec.ofNat 64 (n.toNat + 1) * rd s c b ∧
        pcOf t c = pcOf s c + BitVec.ofNat 64 (4 + l) ∧ ∀ q, q < 32 → q ≠ d → rd t c q = rd s c q)

/-- `WAIT`, `WAIT.JOB` and `HUBCALL` step over themselves, return the core's token and stop its clock; a `WAIT.JOB` first ends
the Spoke's job, a `HUBCALL` hands the Hub its request.
`FENCE` holds the core while an earlier access is unacknowledged, and the last acknowledgement releases it.
The ends of waits: the answer or the time-out of a `HUBCALL` puts its value in the register and asks for readmission; the
token that has come lets the core run. -/
def Obligations.WaitsAndFencesEnd : Prop :=
  (∀ (s : State) (c d a : Nat) (n : BitVec 12), CanIssue s c 4 →
      (intReady (core s c) = false →
        (∃ t, exec (.wait c) s = .next t ∧ GatedAs s t c .wait) ∧
        (isSpoke c = true → jobOf s c = none → ∃ t, exec (.waitJob c d) s = .next t ∧ GatedAs s t c (.waitJob d))) ∧
      (isSpoke c = true → jobOf s c ≠ none →
        exec (.waitJob c d) s = .next (wakeCore (gate (endJob s c 0) c 4 (.waitJob d)) c)) ∧
      (isHub c = false →
        ∃ t u, exec (.hubcall c d a n) s = .next t ∧ GatedAs s u c (.hubcall d) ∧
          t = { u with cores := t.cores, out := s.out ++ [.hubInt "HUBCALL" c] } ∧
          (∀ c', c' ≠ c → core t c' = core u c') ∧ core t c = { core u c with hubRequest := some (n, rd s c a) })) ∧
  (∀ (s : State) (c w : Nat), let k := core s c
      (CanIssue s c 4 →
        ∃ t, exec (.fence c) s = .next t ∧ OnlyCore s t c ∧
          core t c = { k with pc := k.pc + 4, run := if k.unacked = 0 then k.run else .fence }) ∧
      (k.unacked ≠ 0 → w = 32 →
        ∃ t, exec (.accessAcknowledged c w) s = .next t ∧ OnlyCore s t c ∧
          core t c = { k with unacked := k.unacked - 1, run := if k.run = .fence ∧ k.unacked = 1 then .running else k.run })) ∧
  (∀ (s : State) (c d : Nat) (v : W64), d < 32 → (core s c).frozen = false →
      (isCore c = true → (core s c).run = .hubcall d →
        (∃ t, exec (.hubcallAnswer c v) s = .next t ∧ t = { s with cores := t.cores, gov := t.gov } ∧
          rd t c d = (if d = 0 then 0 else v) ∧ (core t c).hubRequest = none ∧
          (core t c).run = (if isSpoke c then .readmitting else .granted)) ∧
        (recordsWaiting s (coreIsland c) < 4 →
          ∃ t, exec (.hubcallTimeout c) s = .next t ∧ t = { s with cores := t.cores, gov := t.gov, fs := t.fs } ∧
            t.fs.raised = s.fs.raised ++ [(coreIsland c, { source := c, rtype := 0x011, payload := [w32 c] })] ∧
            rd t c d = (if d = 0 then 0 else -1) ∧ (core t c).run = (if isSpoke c then .readmitting else .granted))) ∧
      ((core s c).run = .granted → coreOn s c = true → (isSpoke c = true → wheelRuns s (c / 16) = true) →
        ∃ t, exec (.waitEnd c) s = .next t ∧ OnlyCore s t c ∧ core t c = { core s c with run := .running }))

/-- `CRR` reads a control register, a captured high half included; `CRW` changes what the register's access rule lets it.
The Hub cores' own control registers, their interrupt enable, and the lock that closes the measurement registers. -/
def Obligations.ControlRegisterAccessCompletes : Prop :=
  (∀ (s : State) (c d a : Nat) (n : BitVec 12), d < 32 → CanIssue s c 4 →
      let k := core s c
      let v := (rd s c a).setWidth 32
      let at' := fun (m : Nat) => BitVec.ofNat 12 m
      let high := isPairLo (n.toNat - 1) = true ∧ n.toNat ≠ 0
      let value := if high then (shadow s c (2 ^ 40 + n.toNat)).getD (crValue c k n.toNat) else crValue c k n.toNat
      let leaves := fun (i : Instr) (k' : Core) => ∃ t, exec i s = .next t ∧ OnlyCore s t c ∧ core t c = { k' with pc := k.pc + 4 }
      (∃ t, exec (.crr c d n) s = .next t ∧ t = { s with cores := t.cores, shadows := t.shadows } ∧
        rd t c d = (if d = 0 then 0 else value.setWidth 64) ∧ pcOf t c = k.pc + 4 ∧
        ∀ r, r < 32 → r ≠ d → rd t c r = rd s c r) ∧
      leaves (.crw c (at' 0x001) a) { k with ctrl := v &&& 3 } ∧
      leaves (.crw c (at' 0x004) a) { k with excPc := k.excPc.extractLsb' 32 32 ++ v } ∧
      leaves (.crw c (at' 0x005) a) { k with excPc := v ++ k.excPc.extractLsb' 0 32 } ∧
      leaves (.crw c (at' 0x00A) a) { k with excBase := v } ∧
      leaves (.crw c (at' 0x00C) a) { k with intEnable := v } ∧
      leaves (.crw c (at' 0x00D) a) { k with intPending := k.intPending &&& ~~~v } ∧
      leaves (.crw c (at' 0x000) a) k) ∧
  (∀ (s : State) (c d a : Nat) (n : BitVec 12), d < 32 → CanIssue s c 4 → isHub c = true →
      let k := core s c
      let v := (rd s c a).setWidth 32
      let next := advance s c 4
      (∃ t, exec (.pcrr c d n) s = .next t ∧ RegAndPc s t c d ((pcrRead s c n.toNat).setWidth 64) (k.pc + 4)) ∧
      exec (.pcrw c 0x040 a) s = .next (setHub next c { hub s c with wheelGroupMask := v }) ∧
      (c = hubA → s.boot.measureLock = false →
        exec (.pcrw c 0x070 a) s = .next { next with boot := { s.boot with bootInfo := v &&& 0x00FF0FFD } }) ∧
      (s.boot.measureLock = true → 0x060 ≤ n.toNat → n.toNat < 0x06C → exec (.pcrw c n a) s = .next next) ∧
      (c = hubA → v.getLsbD 0 = true →
        exec (.measureLock c a) s = .next { next with boot := { s.boot with measureLock := true } }) ∧
      (∃ t, exec (.intoff c d) s = .next t ∧ OnlyCore s t c ∧ (core t c).hubIntEnable = false ∧
        rd t c d = (if d = 0 then 0 else if k.hubIntEnable then 1 else 0) ∧ pcOf t c = k.pc + 4) ∧
      (∃ t, exec (.inton c) s = .next t ∧ OnlyCore s t c ∧ core t c = { k with pc := k.pc + 4, hubIntEnable := true }))

/-- What takes an exception enters the handler with the cause, the program counters and, for address faults, the address:
reserved encodings, fetches outside the memory, interrupts.
`EXC_RET` from a handler's frame slides the window back by 24, clears `EXC_ACTIVE` and resumes at `EXC_PC`. -/
def Obligations.ExceptionsEnterAndReturn : Prop :=
  (∀ (s : State) (c len : Nat), mayIssue s c = true → EntryOpen c (core s c) →
      let pc := pcOf s c
      (fetchOp s c pc = some (len, .reserved false) → (len = 2 ∨ len = 4) →
        ∃ t, exec (.illegalInstruction c) s = .next t ∧
          Enters s t c (excInfoWord 0x01 0 (len = 4) false 0) pc pc none) ∧
      (fetchOp s c pc = none →
        ∃ t, exec (.fetchFault c) s = .next t ∧ Enters s t c (excInfoWord 0x05 0 false false 0) pc pc (some pc)) ∧
      (intTakable c (core s c) = true →
        ∃ t, exec (.interruptEntry c) s = .next t ∧
          Enters s t c (excInfoWord (0x10 + lowestInt (core s c)) 0 false false 0) pc pc none)) ∧
  (∀ (s : State) (c : Nat) (r : W64), CanIssue s c 4 →
      let k := core s c
      recordAt c k k.wp = some r → recSlide r = 2 → k.excPc.toNat % 2 = 0 → k.bot + 24 ≤ k.wp →
        ∃ t, exec (.excRet c) s = .next t ∧ OnlyCore s t c ∧
          core t c = { setRecord c k k.wp none with wp := k.wp - 24, pc := k.excPc, excInfo := k.excInfo &&& 0xFFDFFFFF })

/-- Instructions that fault on their operands enter the handler too and write no register: misaligned and too large addresses,
division by zero with the trap enabled, odd targets, a return without a record. -/
def Obligations.FaultingInstructionsTrap : Prop :=
  ∀ (s : State) (c d a b : Nat) (imm : BitVec 12) (size : BitVec 3), EntryOpen c (core s c) →
    let pc := pcOf s c
    let ea := rd s c a + imm.signExtend 64
    (CanIssue s c 4 →
      (size ≠ 7 → 2 ^ 40 ≤ ea.toNat →
        ∃ t, exec (.ld c d a (.offset imm) size) s = .next t ∧ Enters s t c (excInfoWord 0x06 0 true false 0) pc pc (some ea)) ∧
      (size.toNat % 2 = 0 → ea.toNat < 2 ^ 40 → ea.toNat % sizeBytes size ≠ 0 →
        ∃ t, exec (.st c d a (.offset imm) size) s = .next t ∧ Enters s t c (excInfoWord 0x02 0 true false 0) pc pc (some ea)) ∧
      (rd s c b = 0 → bitOf (core s c).ctrl 0 = true →
        ∃ t, exec (.div c d a b) s = .next t ∧ Enters s t c (excInfoWord 0x04 0 true false 0) pc pc none) ∧
      ((rd s c a).toNat % 2 = 1 →
        ∃ t, exec (.jr c a) s = .next t ∧ Enters s t c (excInfoWord 0x02 0 true false 0) pc pc (some (rd s c a)))) ∧
    (CanIssue s c 2 → recordAt c (core s c) (core s c).wp = none →
      ∃ t, exec (.ret c) s = .next t ∧ Enters s t c (excInfoWord 0x03 1 false false 0) pc pc none)

/-- The timer compare sets `INT_TIMER` once; a release starts a core at its vector in the state of reset, Hub-B where Hub-A has
released it; the ROM starts with Hub-A, the shipped firmware with Hub-B (log 61), and the shipped program with a gatekeeper whose
scratch holds it (log 60). A Spoke reset by Hub-A is in that state too, with its release condition from the Hub cleared; the
release time sets its condition. -/
def Obligations.CoreEventsComplete : Prop :=
  ∀ (s : State) (c w i : Nat), let k := core s c
    (isCore c = true → coreOn s c = true → k.run = .running → k.frozen = false → k.timerArmed = true →
      k.timerCmp.toNat ≤ k.cycle.toNat → (isSpoke c = true → parked s (c / 16) = false) →
      ∃ t, exec (.timerCompareFire c) s = .next t ∧ OnlyCore s t c ∧
        core t c = { k with timerArmed := false, intPending := k.intPending ||| 0x10 }) ∧
    (isSpoke c = true → coreOn s c = true → k.run = .reset → k.frozen = false → relReady s c = true →
      ∃ t, exec (.coreRelease c) s = .next t ∧ t = { s with cores := t.cores, gov := t.gov } ∧
        (∀ c', c' ≠ c → core t c' = core s c') ∧
        core t c = { coreReset c with resetCount := k.resetCount, run := .admitting,
                                      pc := (reg s (vectorAddr c) &&& 0xFFFE).setWidth 64 }) ∧
    (isGk c = true → coreOn s c = true → k.run = .reset → k.frozen = false → relReady s c = true →
      ∃ t, exec (.coreRelease c) s = .next (if gkShipped s (c - 0x210) then gkStart t (c - 0x210) else t) ∧
        t = { s with cores := t.cores } ∧ (∀ c', c' ≠ c → core t c' = core s c') ∧
        core t c = { coreReset c with resetCount := k.resetCount, run := .running,
                                      pc := (reg s (vectorAddr c) &&& 0xFFFE).setWidth 64 }) ∧
    (hubOn s = true → (core s hubA).run = .reset → (core s hubA).frozen = false →
      ∃ t, exec (.coreRelease hubA) s = .next (romStart t) ∧ t = { s with cores := t.cores } ∧
        (∀ c', c' ≠ hubA → core t c' = core s c') ∧
        core t hubA = { coreReset hubA with resetCount := (core s hubA).resetCount, run := .running, pc := 0 }) ∧
    (hubOn s = true → (core s hubB).run = .reset → (core s hubB).frozen = false → s.boot.hubBGo = true →
      ∃ t, exec (.coreRelease hubB) s = .next (firmwareStart t) ∧ t = { s with cores := t.cores } ∧
        (∀ c', c' ≠ hubB → core t c' = core s c') ∧
        core t hubB = { coreReset hubB with resetCount := (core s hubB).resetCount, run := .running, pc := s.boot.hubBVector } ∧
        (s.boot.rom ≠ .left → firmwareStart t = t)) ∧
    (hubOn s = true → s.boot.hubBGo = false → exec (.coreRelease hubB) s = .next s) ∧
    (wheelOn s w = true → i < 16 →
      ∃ t, exec (.spokeReset hubA w i) s = .next t ∧ (core t (16 * w + i)).run = .reset ∧
        (∀ r, rd t (16 * w + i) r = 0) ∧ (∀ n, smGet (core t (16 * w + i)).window n 0 = 0) ∧
        (core t (16 * w + i)).wp = 0 ∧ (core t (16 * w + i)).bot = 0 ∧ (core t (16 * w + i)).records = [] ∧
        (core t (16 * w + i)).spilled = 0 ∧ (core t (16 * w + i)).spilledRecords = 0 ∧
        regB t (relStatusAddr (16 * w + i)) 2 = false) ∧
    (isSpoke c = true → coreOn s c = true → regPair s (relTimeAddr c) ≤ nowNs s →
      exec (.pelotonTimeReached c) s = .next (setRegB s (relStatusAddr c) 3 true))

/-! ### Wheels, banks, Wheel DMA, broadcasts (R19, R24, R93 to R117) -/

/-- A handover by the owner or Hub-A to a valid owner writes the owner register's bits, remembers the previous owner and the
writer, clears a shared bank's `SHARE`, and starts a wipe if it asks for one; while a wipe runs it is refused as busy.
A handover by anyone but the owner, the previous owner and Hub-A is a violation and leaves the bank alone. A write of a pool
bank's owner register wakes its Wheel if that is parked.
The end of a wipe leaves every byte of the bank zero and every other byte alone; a starved DMA request is marked once. -/
def Obligations.BanksChangeHands : Prop :=
  (∀ (s : State) (m b : Nat) (v : W32), b < 192 → bankExists s b = true → bankRegOn s b = true →
      (m = bankOwner s b ∨ m = hubA) → m < 2048 →
      let wakes := fun (t : State) => t.gov = if b < 64 then s.gov else (wakeWheel s (poolWheel b) false).gov
      (wiping s b = false → validOwner s b (fld v 0 11) = true → fld v 0 11 ≠ bankOwner s b →
        ∃ t, exec (.handoverWrite m b v) s = .next t ∧ t = { s with regs := t.regs, gov := t.gov } ∧ wakes t ∧
          reg t (ownerAddr b) = v &&& ownerBits b ∧ regF t (statusAddr b) 0 11 = bankOwner s b ∧
          regF t (statusAddr b) 18 11 = m ∧ regF t (statusAddr b) 29 3 = 1 ∧ wiping t b = v.getLsbD 13 ∧
          (b < 64 → reg t (shareAddr b) = 0)) ∧
      (wiping s b = true →
        ∃ t, exec (.handoverWrite m b v) s = .next t ∧ t = { s with regs := t.regs, gov := t.gov } ∧ wakes t ∧
          bankOwner t b = bankOwner s b ∧ regF t (statusAddr b) 29 3 = 3 ∧ wiping t b = true)) ∧
  (∀ (s : State) (m b : Nat) (v : W32), bankExists s b = true → bankRegOn s b = true →
      m ≠ bankOwner s b → m ≠ hubA → m ≠ regF s (statusAddr b) 0 11 →
        ∃ t, exec (.handoverWrite m b v) s = .next t ∧ t = { s with fw := t.fw, gov := t.gov } ∧
          t.gov = (if b < 64 then s.gov else (wakeWheel s (poolWheel b) false).gov) ∧
          t.fw.pending = s.fw.pending ++ [{ master := m, kind := 5, addr := ownerAddr b, resetCount := resetCountOf s m }]) ∧
  (∀ (s : State) (b dma : Nat), b < 192 →
      (wiping s b = true →
        ∃ t, exec (.bankWipeDone b) s = .next t ∧ t = { s with mem := t.mem, regs := t.regs } ∧ wiping t b = false ∧
          bankOwner t b = bankOwner s b ∧
          (∀ a, bankBase b ≤ a → a < bankBase b + bankSize b → rdByte t a = 0) ∧
          (∀ a, a < bankBase b ∨ bankBase b + bankSize b ≤ a → rdByte t a = rdByte s a)) ∧
      (8 ≤ b → bankOn s b = true → b ∉ s.starved → recordsWaiting s (bankIsland b) < 4 →
        ∃ t, exec (.dmaStarved b dma) s = .next t ∧ t = { s with regs := t.regs, fs := t.fs, starved := s.starved ++ [b] } ∧
          regB t (statusAddr b) 16 = true ∧
          t.fs.raised = s.fs.raised ++ [(bankIsland b,
            { source := dma, rtype := 0x014, payload := [w32 (if b < 64 then b else poolIdx b), w32 dma] })]))

/-- Wheel DMA: `GO` starts a valid transfer and marks an invalid one; a beat of the slot at the rotation pointer copies its
bytes as they stood, through an alias by setting or clearing bits, and touches no other byte; the end clears `BUSY` and interrupts
the Spoke. -/
def Obligations.WheelDmaMovesItsBytes : Prop :=
  ∀ (s : State) (c : Nat), isSpoke c = true → wheelOn s (c / 16) = true → parked s (c / 16) = false →
    (wdmaBusy s c = false → wdmaValid s c = true → wdmaLen s c ≠ 0 →
      ∃ t, exec (.wdmaGo c c) s = .next t ∧ t = { s with regs := t.regs, wdma := t.wdma } ∧ wdmaBusy t c = true ∧
        smGet t.wdma c {} = { moved := 0, starter := c }) ∧
    (wdmaBusy s c = false → wdmaValid s c = false →
      ∃ t, exec (.wdmaGo c c) s = .next t ∧ t = { s with regs := t.regs } ∧ wdmaBusy t c = false ∧
        regB t (wdmaAddr c 0x14) 2 = true ∧ regF t (wdmaAddr c 0x14) 4 2 = 1) ∧
    (let moved := (smGet s.wdma c {}).moved
     let src := regPair s (wdmaAddr c 0) + moved
     let dst := regPair s (wdmaAddr c 8) + moved
     let n := if src % 64 = 0 ∧ dst % 64 = 0 ∧ moved + 64 ≤ wdmaLen s c then 64 else 8
     let plain := fun (a : Nat) => ((bankAt a).map fun e => e.2.2).getD a
     let view : Nat := ((bankAt dst).map fun e => e.2.1).getD 0
     wdmaActive s c = true → smGet s.wdmaNext (c / 16) 0 = c % 16 → wdmaGrants s c src false = true →
      wdmaGrants s c dst true = true → endpointOn s c src = true → endpointOn s c dst = true →
      wdmaScratchBusy s c src = false → wdmaScratchBusy s c dst = false → src % 8 = 0 → dst % 8 = 0 →
      (∀ b, bankOf src = some b ∨ bankOf dst = some b → wiping s b = false) →
      ∃ t, exec (.wdmaBeat (c / 16)) s = .next t ∧
        t = { s with mem := t.mem, wdma := t.wdma, wdmaNext := t.wdmaNext, starved := t.starved } ∧
        (∀ i, 8 * i < n → rdMem t (plain dst + 8 * i) 8 =
          let old := rdMem s (plain dst + 8 * i) 8
          let v := rdMem s (plain src + 8 * i) 8
          (if view = 0 then v else if view = 1 then old ||| v else old &&& (2 ^ 64 - 1 - v) : Nat)) ∧
        (∀ a, a < plain dst ∨ plain dst + n ≤ a → rdByte t a = rdByte s a) ∧ (smGet t.wdma c {}).moved = moved + n) ∧
    (wdmaBusy s c = true → wdmaLen s c ≤ (smGet s.wdma c {}).moved →
      exec (.wdmaDone c) s = .next (interrupt (setRegB s (wdmaAddr c 0x14) 1 false) c 0x13))

/-- A Hub core's broadcast to one selected Wheel whose Spoke stands still writes that Spoke's scratch, marks the Wheel as pending
and counts an unacknowledged access; the mark stays until the last broadcast outstanding in the Wheel is acknowledged. -/
def Obligations.BroadcastsReachTheGroup : Prop :=
  ∀ (s : State) (m w off size : Nat) (v : W64), isHub m = true → w < 32 →
    (groupWheels s m = [w] → wheelOn s w = true → parked s w = false → off < 0x100000 →
      spokeStopped s (16 * w + off / 0x10000) = true → size ∈ [1, 2, 4, 8] → off % size = 0 →
      ∃ t, exec (.bcastWrite m off size v) s = .next t ∧
        t = { s with mem := t.mem, hubs := t.hubs, cores := t.cores } ∧
        rdMem t (aWheel w off) size = v.toNat % 2 ^ (8 * size) ∧
        (∀ a, a < aWheel w off ∨ aWheel w off + size ≤ a → rdByte t a = rdByte s a) ∧
        (hub t m).bcastPending = (hub s m).bcastPending ||| w32 (2 ^ w) ∧
        smGet (hub t m).bcastOut w 0 = smGet (hub s m).bcastOut w 0 + 1 ∧
        (core t m).unacked = (core s m).unacked + 1) ∧
    ((core s m).unacked ≠ 0 →
      ∃ t, exec (.accessAcknowledged m w) s = .next t ∧ t = { s with hubs := t.hubs, cores := t.cores } ∧
        (hub t m).bcastPending = (if smGet (hub s m).bcastOut w 0 ≤ 1 then (hub s m).bcastPending &&& ~~~(w32 (2 ^ w))
          else (hub s m).bcastPending) ∧
        smGet (hub t m).bcastOut w 0 = smGet (hub s m).bcastOut w 0 - 1 ∧
        (core t m).unacked = (core s m).unacked - 1)

/-- A register write by a master: Hub SRAM and banks take the word from those that may write them, an address that nothing
answers and a register that is not granted are violations, an island that is off only leaves a record. -/
def Obligations.RegisterWritesGoThroughTheMap : Prop :=
  ∀ (s : State) (m a b : Nat) (v : W32), isFunc m = false → a % 4 = 0 →
    let bytesOnly := fun (t : State) => rdMem t a 4 = v.toNat ∧ ∀ x, x < a ∨ a + 4 ≤ x → rdByte t x = rdByte s x
    let refused := fun (kind : Nat) (t : State) => t = { s with fw := t.fw } ∧
      t.fw.pending = s.fw.pending ++ [{ master := m, kind, addr := a, resetCount := resetCountOf s m }]
    (0x10000000 ≤ a → a < 0x10400000 → isHub m = true → hubOn s = true →
      ∃ t, exec (.registerWrite m a v) s = .next t ∧ t = { s with mem := t.mem } ∧ bytesOnly t) ∧
    (a = 0x100000000 + 0x40000 * b + a % 0x40000 → b < 64 → bankOn s b = true → wiping s b = false →
      (bankOwner s b = m →
        ∃ t, exec (.registerWrite m a v) s = .next t ∧ t = { s with mem := t.mem, bankNext := t.bankNext } ∧ bytesOnly t ∧
          (isCore m = true → smGet t.bankNext b 0 = m + 1)) ∧
      (bankGrants s m b true false = false → m ≠ lantern →
        ∃ t, exec (.registerWrite m a v) s = .next t ∧ refused 1 t)) ∧
    (target a = .hole → m ≠ lantern → ∃ t, exec (.registerWrite m a v) s = .next t ∧ refused 2 t) ∧
    (m = hubA → a = aPwr 0x114 →
      ∃ t, exec (.registerWrite m a v) s = .next t ∧ t = { s with regs := t.regs } ∧ reg t a = (reg s a &&& 0xFFFF0000) ||| (v &&& 0xFFFF))

/-! ### Cranks (R119 to R146) -/

/-- Word mode commands on the accumulator, with their taint: `ACCCLR`, `SETSEL`, `MACW`, `ACCLDW`, `ACCSTW`, `CARRY`.
Block and control commands: `MOVB`, `SELB`, `SYNCS`, `NOTIFY`, `YIELDPT`, `MODE`. -/
def Obligations.CrankPublicCommandsComplete : Prop :=
  (∀ (s : State) (w x : Nat) (k : CrankCmd) (rest : List W64), x < 2 →
      let c := ctx s w x
      let does := fun (i : Instr) (f : Ctx → Ctx) => ∃ t, exec i s = .next t ∧ CrankDid s t w x rest f
      (CrankHead s w x 0x05 k rest → c.laneMode = false →
        does (.accclr w x) fun c => { c with acc := 0, taintAcc := false }) ∧
      (CrankHead s w x 0x05 k rest → c.laneMode = true →
        does (.accclr w x) fun c => { c with laneAcc := [], temps := [], taintLane := false }) ∧
      (CrankHead s w x 0x06 k rest →
        does (.setsel w x) fun c => { c with sel := areaDw c k.xa, taintSel := c.taintSel || inS k.xa }) ∧
      (CrankHead s w x 0x08 k rest →
        does (.macw w x) fun c =>
          let shifted : BitVec 640 := match k.flags / 8 % 4 with
            | 0 => c.acc
            | 1 => c.acc >>> 64
            | 2 => c.acc >>> 256
            | _ => c.acc <<< 64
          let prod : BitVec 640 := BitVec.ofNat 640 (area256 c k.xa * (areaDw c k.ya).toNat)
          { c with acc := if k.flags.testBit 5 then shifted - prod else shifted + prod,
                   taintAcc := c.taintAcc || inS k.xa || inS k.ya }) ∧
      (CrankHead s w x 0x09 k rest →
        does (.accldw w x) fun c =>
          { c with acc := BitVec.ofNat 640 (area256 c k.xa), taintAcc := c.taintAcc || inS k.xa }) ∧
      (CrankHead s w x 0x0A k rest → (c.taintAcc = false ∨ inS k.dst = true) →
        does (.accstw w x) fun c =>
          setAreaDws c k.dst ((List.range (k.n + 1)).map fun i => c.acc.extractLsb' (64 * i) 64)) ∧
      (CrankHead s w x 0x0B k rest → (c.taintAcc = false ∨ inS k.dst = true) →
        does (.carry w x) fun c => setAreaDw c k.dst (if c.acc.getLsbD k.n then 1 else 0))) ∧
  (∀ (s : State) (w x : Nat) (k : CrankCmd) (rest : List W64), x < 2 →
      let c := ctx s w x
      let does := fun (i : Instr) (f : Ctx → Ctx) => ∃ t, exec i s = .next t ∧ CrankDid s t w x rest f
      (CrankHead s w x 0x18 k rest → (inS k.xa = false ∨ inS k.dst = true) →
        does (.movb w x) fun c => setAreaDws c k.dst (areaDws c k.xa k.n)) ∧
      (CrankHead s w x 0x19 k rest →
        does (.selb w x) fun c =>
          setAreaDws c k.dst (areaDws c (if c.sel.getLsbD (k.n % 64) then k.ya else k.xa) (k.n / 64))) ∧
      (CrankHead s w x 0x04 k rest → k.n ≤ c.sXferCount → does (.syncs w x) id) ∧
      (CrankHead s w x 0x01 k rest →
        ∃ t u, exec (.notify w x) s = .next t ∧ CrankDid s u w x rest id ∧ t = interrupt u c.holder 0x10) ∧
      (CrankHead s w x 0x02 k rest → canPreempt s w x = false → does (.yieldpt w x) id) ∧
      (CrankHead s w x 0x03 k rest → canPreempt s w x = false → (k.flags = 1 ∧ 14 ≤ c.tokens ∨ k.flags = 0 ∧ c.tokens ≤ 10) →
        does (.mode w x) fun c => { c with laneMode := k.flags = 1 }))

/-- Lane mode commands, lane by lane: `MACL`, `LQ`, `LLD`, `LST`. -/
def Obligations.CrankLaneCommandsComplete : Prop :=
  ∀ (s : State) (w x : Nat) (k : CrankCmd) (rest : List W64), x < 2 →
    let c := ctx s w x
    let st := k.flags % 8
    let does := fun (i : Instr) (p : Ctx → Ctx → Prop) =>
      ∃ t c', exec i s = .next t ∧ CrankDid s t w x rest (fun _ => c') ∧ p { c with fifo := rest } c'
    let X := fun (i : Nat) => if k.flags.testBit 4 then temp c i else areaElem c k.xa st i
    let Y := fun (i : Nat) => if k.flags.testBit 3 then areaElem c k.ya 0 0 else areaElem c k.ya st i
    (CrankHead s w x 0x10 k rest →
      does (.macl w x) fun c c' =>
        c' = { c with laneAcc := c'.laneAcc, macAge := c'.macAge,
                      taintLane := c.taintLane || (!k.flags.testBit 4 && inS k.xa) || inS k.ya } ∧
        ∀ i, i < 16 → laneAcc c' i =
          if k.flags.testBit 5 then laneAcc c i - BitVec.ofNat 80 ((X i).toNat * (Y i).toNat)
          else laneAcc c i + BitVec.ofNat 80 ((X i).toNat * (Y i).toNat)) ∧
    (CrankHead s w x 0x11 k rest →
      does (.lq w x) fun c c' =>
        c' = { c with temps := c'.temps, taintLane := c.taintLane || inS k.ya } ∧
        ∀ i, i < 16 → temp c' i = (laneAcc c i).setWidth 32 * areaElem c k.ya 0 0) ∧
    (CrankHead s w x 0x12 k rest →
      does (.lld w x) fun c c' =>
        c' = { c with laneAcc := c'.laneAcc, taintLane := c.taintLane || inS k.xa } ∧
        ∀ i, i < 16 → laneAcc c' i =
          if k.flags.testBit 5 then (areaElem c k.xa st i).signExtend 80 else (areaElem c k.xa st i).setWidth 80) ∧
    (CrankHead s w x 0x13 k rest → (c.taintLane = false ∨ inS k.dst = true) →
      does (.lst w x) fun c c' =>
        c' = { c with area := c'.area } ∧
        ∀ i, i < 16 → areaElem c' k.dst st i = (laneAcc c i).extractLsb' (if k.flags.testBit 4 then 32 else 0) 32)

/-- The paired verification of a signing job: `PAIRV` clears everything but the signature, `VERDICT` compares, `DECLASSIFY`
copies to P only after a pass on the same range. -/
def Obligations.CrankPairedVerifyCompletes : Prop :=
  ∀ (s : State) (w x : Nat) (k : CrankCmd) (rest : List W64), x < 2 →
    let c := ctx s w x
    let does := fun (i : Instr) (f : Ctx → Ctx) => ∃ t, exec i s = .next t ∧ CrankDid s t w x rest f
    (CrankHead s w x 0x1B k rest →
      does (.pairv w x) fun c =>
        { c with acc := 0, laneAcc := [], temps := [], sel := 0, taintAcc := false, taintLane := false, taintSel := false,
                 area := c.area.filter fun e => e.1 < 2048 || (k.xa ≤ e.1 && e.1 < k.xa + k.n),
                 range := some (k.xa, k.n), verifyPhase := true }) ∧
    (CrankHead s w x 0x1C k rest →
      does (.verdict w x) fun c => { c with verdict := if areaDws c k.xa k.n = areaDws c k.ya k.n then 1 else 2 }) ∧
    (CrankHead s w x 0x1A k rest →
      c.sign = true → c.verifyPhase = true → c.verdict = 1 → c.range = some (k.xa, k.n) →
      ∃ t u, exec (.declassify w x) s = .next t ∧
        CrankDid s u w x rest (fun c => { setAreaDws c k.dst (areaDws c k.xa k.n) with declassified := true }) ∧
        t = { u with fabric := { s.fabric with jobs := t.fabric.jobs } } ∧ (∀ m, m ≠ c.holder → jobRec t m = jobRec s m) ∧
        jobRec t c.holder = (jobRec s c.holder).map fun j =>
          if c.job = some j.number then { j with declassified := true } else j)

/-- No command moves tainted values from S to P: a store that would ends the context in `ERROR` with code 3 and a violation of
its holder, and the areas stay as they were. -/
def Obligations.CrankTaintStopsLeaks : Prop :=
  ∀ (s : State) (w x : Nat) (k : CrankCmd) (rest : List W64), x < 2 →
    let c := ctx s w x
    let stops := fun (i : Instr) => ∃ t, exec i s = .next t ∧ t.fw.pending = s.fw.pending ++
        [{ master := c.holder, kind := 3, addr := aWheel w 0x308000, resetCount := resetCountOf s c.holder }] ∧
      (ctx t w x).state = .error ∧ (ctx t w x).errCode = 3 ∧ (ctx t w x).area = c.area ∧ t.mem = s.mem
    (CrankHead s w x 0x0A k rest → c.taintAcc = true → inS k.dst = false → stops (.accstw w x)) ∧
    (CrankHead s w x 0x0B k rest → c.taintAcc = true → inS k.dst = false → stops (.carry w x)) ∧
    (CrankHead s w x 0x13 k rest → c.taintLane = true → inS k.dst = false → stops (.lst w x)) ∧
    (CrankHead s w x 0x18 k rest → inS k.xa = true → inS k.dst = false → stops (.movb w x))

/-- Contexts are claimed, granted A before B, used by their holder, released and wiped; a long run is noted once. A grant goes
to a claim of the highest class; between a Spoke and a Hub core of equal class either may win (R10), by a free value. -/
def Obligations.CrankContextsAreHeldAndWiped : Prop :=
  ∀ (s v' : State) (m w x : Nat) (v : W32) (cl : Claim) (t : Xfer), x < 2 → wheelOn s w = true → parked s w = false →
    let k := crank s w
    let c := ctx s w x
    (crankUser m w = true → heldCtx s m w = none → (∀ c ∈ k.claims, c.master ≠ m) →
      exec (.ctxClaim m w) s =
        .next (setCrank s w { k with claims := k.claims ++ [{ master := m, cls := classOf s m, sign := signOf s m }] })) ∧
    (k.a.state = .free → pickClaim s k.claims k.rotate = (some cl, v') →
      (∀ d ∈ k.claims, cl.cls ≤ d.cls) ∧ (v' = s ∨ v' = { s with draws := s.draws + 1 }) ∧
      ∃ u, exec (.crankGrant w) s = .next (interrupt u cl.master 0x10) ∧ u = { v' with cranks := u.cranks } ∧
        crank u w = { k with claims := k.claims.filter (fun d => d.master ≠ cl.master), rotate := cl.master + 1,
                             a := { state := .waiting, holder := cl.master, job := jobNumber s cl.master, cls := cl.cls,
                                    sign := cl.sign } }) ∧
    (heldCtx s m w = some x → c.state ≠ .error → c.fifo.length < 64 → c.requested = true →
      exec (.cmdHi m w x v) s = .next (setCtx s w x { c with fifo := c.fifo ++ [v ++ c.cmdLo] })) ∧
    (heldCtx s m w = some x →
      ∃ u, exec (.ctxRelease m w) s = .next u ∧ (ctx u w x).state = .wiping ∧ (ctx u w x).area = [] ∧ (ctx u w x).acc = 0 ∧
        (ctx u w x).fifo = [] ∧ (ctx u w x).tokens = c.tokens ∧ u.mem = s.mem) ∧
    (c.state = .wiping →
      ∃ u, exec (.crankWipeDone w x true) s = .next u ∧ u = { s with cranks := u.cranks, gov := u.gov } ∧
        ctx u w x = { ({} : Ctx) with completed := c.completed, errCode := c.errCode, errIndex := c.errIndex,
                                      sXferCount := c.sXferCount }) ∧
    (takeXfer w s.chamber.xfers = some (t, []) → t.wheel = w → t.ctx = x → xferAccepted s t = true →
      ∃ u, exec (.sAreaTransfer w) s = .next u ∧ u = { s with cranks := u.cranks, chamber := u.chamber } ∧
        u.chamber.xfers = [] ∧ (chBank u t.master).code = 0 ∧ (ctx u w x).sXferCount = c.sXferCount + 1 ∧
        (ctx u w x).acc = c.acc) ∧
    (running s w 0 = true → x = 0 → canPreempt s w 0 = true → yieldWarn s w < k.sinceYield → k.overrunLogged = false →
      recordsWaiting s w < 4 →
      ∃ u, exec (.yieldOverrun w) s = .next u ∧ u = { s with cranks := u.cranks, fs := u.fs } ∧
        crank u w = { k with overrunLogged := true } ∧
        u.fs.raised = s.fs.raised ++ [(w, { source := c.holder, rtype := 0x020, payload := [w32 c.holder] })])

/-! ### Cassette lanes and the Chamber (R153 to R179) -/

/-- The lane commands that start, feed and length a message.
Context images: `SAVE` at a block boundary of an untainted context, `RESTORE` of a well-formed image, and the wrapped forms
under the device context key. -/
def Obligations.LaneMessagesAndImagesComplete : Prop :=
  (∀ (s : State) (m l size : Nat) (alg : BitVec 4) (pad : BitVec 8) (block : Bool) (v : W64), LaneMine s m l →
      let k := lane s l
      (algValid alg.toNat = true → ∃ t, exec (.init m l alg) s = .next t ∧ LaneDid s t l
        { k with state := .ready, alg := alg.toNat, started := true, midstate := algInit alg.toNat, buffer := [], absorbed := 0,
                 declared := 0, taint := false, deriveOk := true, matchP := false, matchN := false, err := 0 }) ∧
      (k.started = true → k.declared = 0 → size ∈ [1, 2, 4, 8] →
        ∃ t, exec (.laneData m l size v) s = .next t ∧ LaneDid s t l (laneFeed k (leBytes size v.toNat))) ∧
      (k.absorbed = 0 → ∃ t, exec (.declaredLengthWrite m l v) s = .next t ∧ LaneDid s t l { k with declared := v }) ∧
      (k.started = true → k.declared = 0 → (block = true → k.buffer = []) → domOn s 26 = true →
        useCheck s m k.slot (useDigest + useDerive) (isHubLane l && romWrite s m) = 0 →
        ∃ t, exec (.absorbSlot m l pad block) s = .next t ∧ LaneDid s t l
          (laneFeed { k with taint := true,
                             deriveOk := k.deriveOk && decide (attrUsage (slot s k.slot).attr &&& useDerive ≠ 0) }
            (slotPadded k.alg (slotBytes s k.slot) pad block))) ∧
      (k.started = true → k.declared = 0 →
        ∃ t, exec (.absorbHold m l) s = .next t ∧ LaneDid s t l
          (laneFeed { k with taint := k.taint || k.holdTaint, deriveOk := k.deriveOk && k.holdDerive } k.hold))) ∧
  (∀ (s s' : State) (m l : Nat) (key : List Byte) (ws : List W32), LaneMine s m l →
      let k := lane s l
      let im := imageBytes k.ctxImage 256
      let wrapped := imageBytes k.wrapImage 304
      let plain := gcmCrypt key (slice wrapped 16 12) (slice wrapped 32 256)
      (k.started = true → k.buffer = [] → k.taint = false →
        ∃ t, exec (.save m l) s = .next t ∧ LaneDid s t l { k with ctxImage := imageMap (laneImage k) }) ∧
      (imageOk im = true → ∃ t, exec (.restore m l) s = .next t ∧ LaneDid s t l (laneLoad k im false true)) ∧
      (k.started = true → k.buffer = [] → contextKey s = some key → dripTake s 3 = some (ws, s') →
        ∃ t, exec (.exportWrapped m l) s = .next t ∧ t = { s' with lanes := t.lanes } ∧
          slice (imageBytes (lane t l).wrapImage 304) 16 12 = fitBytes 12 (wordBytes ws)) ∧
      (contextKey s = some key → gcmTag key (slice wrapped 16 12) (wrapped.take 16) (slice wrapped 32 256) = slice wrapped 288 16 →
        wrapped.take 16 = wrapHead s l (field plain 2 1) →
        ∃ t, exec (.importWrapped m l) s = .next t ∧
          LaneDid s t l (laneLoad k plain ((field plain 3 1).testBit 0) ((field plain 3 1).testBit 1))))

/-- `FINISH` runs until its end, which delivers the output by its destination: a readable result only where the context is
untainted (its bytes past a shorter output keep their values, log 80); a tainted one is a violation and leaves no result; the
holding register, a reserved slot, and the comparison with `EXPECTED`. -/
def Obligations.LaneDeliversItsDigest : Prop :=
  ∀ (s : State) (m l : Nat) (outLen : BitVec 8) (dest : BitVec 2) (w : W32),
    let k := lane s l
    let out := laneOutput k (fld w 8 8)
    (LaneMine s m l → k.started = true → 1 ≤ outLen.toNat → outLen.toNat ≤ 64 →
      ∃ t, exec (.finish m l outLen dest) s = .next t ∧
        LaneDid s t l { k with state := .busy, finishing := some (laneWord 4 0 0 outLen.toNat 0 dest.toNat) }) ∧
    (k.finishing = some w → laneGo s l = true → k.state = .busy → k.queue = [] →
      (core s k.holder).stalled = false → (k.declared = 0 ∨ k.declared.toNat ≤ k.absorbed) →
      let ends := fun (k' : Lane) (chamber : Bool) => ∃ t u, exec (.laneOpDone l) s = .next t ∧ t = laneInt u l k.holder ∧
        u = { s with lanes := u.lanes, chamber := if chamber then u.chamber else s.chamber } ∧
        lane t l = { k' with state := .finished, started := false, finishing := none } ∧
        (chamber = true → (slot t k.slot).state = .loaded ∧ (slot t k.slot).attr = (slot s k.slot).attr ∧
          (slot t k.slot).key = fitBytes (attrLen (slot s k.slot).attr) out)
      (fld w 0 2 = 0 → k.taint = false → ends { k with result := out ++ k.result.drop out.length } false) ∧
      (fld w 0 2 = 0 → k.taint = true →
        ∃ t, exec (.laneOpDone l) s = .next t ∧ (lane t l).state = .error ∧ (lane t l).err = 8 ∧
          (lane t l).result = k.result ∧ t.fw.pending = s.fw.pending ++
            [{ master := k.holder, kind := 3, addr := laneAddr l 0x100, resetCount := resetCountOf s k.holder }]) ∧
      (fld w 0 2 = 1 → ends { k with hold := out, holdTaint := k.taint, holdDerive := k.deriveOk } false) ∧
      (fld w 0 2 = 2 → deriveOkFor s l out.length = true →
        ends { k with hold := out, holdTaint := k.taint, holdDerive := k.deriveOk } true) ∧
      (fld w 0 2 = 3 →
        let e := (List.range out.length).map fun i => smGet k.expected i 0
        let c := { k with matchP := decide (out = e), matchN := isHubLane l && decide (out = e.map fun b => 0xFF ^^^ b) }
        ends (if k.taint then c else { c with result := out ++ k.result.drop out.length }) false))

/-- Lanes are claimed, granted, released and wiped: of a hold only the registers that R157 does not list survive its end (log 80);
a grant goes to a claim of the highest class, between a Spoke and a Hub core of equal class either may win (R10). -/
def Obligations.LanesAreHeldAndWiped : Prop :=
  ∀ (s v : State) (m l : Nat) (c : Claim), let k := lane s l
    let kept : Lane := { claims := k.claims, rotate := k.rotate, slot := k.slot, err := k.err, ctxImage := k.ctxImage,
                         wrapImage := k.wrapImage }
    (laneUser m l = true → laneOn s l = true → (isHubLane l = true ∨ parked s (l / 2) = false) → k.state = .free →
      (∀ j ∈ laneGroup l, holdsLane s m j = false ∧ ∀ c ∈ (lane s j).claims, c.master ≠ m) →
      ∃ t, exec (.laneClaim m l) s = .next t ∧
        LaneDid s t l { k with claims := k.claims ++ [{ master := m, cls := classOf s m, sign := signOf s m }] }) ∧
    (pickClaim s k.claims k.rotate = (some c, v) → k.state = .free → laneOn s l = true →
      (∀ d ∈ k.claims, c.cls ≤ d.cls) ∧ (v = s ∨ v = { s with draws := s.draws + 1 }) ∧
      ∃ t u, exec (.laneGrant l) s = .next t ∧ t = laneInt u l c.master ∧ u = { v with lanes := u.lanes } ∧
        lane t l = { kept with state := .ready, holder := c.master, cls := c.cls, sign := c.sign, rotate := c.master + 1,
                               claims := k.claims.filter fun d => d.master ≠ c.master }) ∧
    (LaneMine s m l →
      ∃ t, exec (.laneRelease m l) s = .next t ∧ t = { s with lanes := t.lanes, gov := t.gov } ∧
        lane t l = { kept with state := .wiping, holder := k.holder, cls := k.cls, sign := k.sign, admitted := k.admitted }) ∧
    (k.state = .wiping →
      ∃ t, exec (.laneWipeDone l) s = .next t ∧ t = { s with lanes := t.lanes, gov := t.gov } ∧ lane t l = kept)

/-- The Chamber's slot commands: allocation, freeing, information; the end of a command; the device secret in slot 0. -/
def Obligations.ChamberSlotsComplete : Prop :=
  ∀ (s : State) (m i : Nat) (a : W32),
    let b := chBank s m
    (ChamberOpen s m → attrOk s m a = true → findRun s (attrSlots a) = some i →
      ∃ t, exec (.slotAlloc m a) s = .next t ∧ t = { s with chamber := t.chamber } ∧
        chBank t m = { b with arg0 := a, busy := true, code := 0, result := w32 i, resultHi := 0 } ∧
        slot t i = { state := .reserved, attr := a, head := i, allocBy := m, allocJob := jobNumber s m }) ∧
    (ChamberOpen s m → i < 65536 → (slot s i).head = i → (slot s i).state ≠ .empty → mayUse s m i false = true →
      ∃ t, exec (.slotFree m (w32 i)) s = .next t ∧ t = { s with chamber := t.chamber } ∧
        slot t i = {} ∧ (chBank t m).code = 0) ∧
    (ChamberOpen s m → i < 65536 → isHead s i = true →
      ∃ t, exec (.slotInfo m (w32 i)) s = .next t ∧ t = { s with chamber := t.chamber } ∧
        chBank t m = { b with arg0 := w32 i, busy := true, code := 0, result := (slot s i).attr,
                              resultHi := match (slot s i).state with
                                | .empty => 0
                                | .reserved => 1
                                | .loaded => 2 } ∧
        t.chamber.slots = s.chamber.slots) ∧
    ((∀ x ∈ s.chamber.xfers, x.master ≠ m) →
      ∃ t, exec (.chamberCmdDone m) s = .next t ∧ t = { s with chamber := t.chamber } ∧ chBank t m = { b with busy := false }) ∧
    (domOn s 26 = true → s.otp.slot0Waiting = true → s.otp.command = none →
      ∃ t, exec .slot0Load s = .next t ∧
        t = { s with otp := { s.otp with slot0Waiting := false }, regs := t.regs, chamber := t.chamber, fs := t.fs } ∧
        otpBusy t = false ∧
        (slot t 0).state = .loaded ∧ (slot t 0).key = deviceSecret s ∧ attrUsage (slot t 0).attr = useDerive)

/-- Keys move inside the device: to a Crank's S area by `XFER`, out of a wrapped key by the unwrap buffer; a use that the
attributes do not allow is a violation and moves nothing. -/
def Obligations.ChamberKeysMoveByRight : Prop :=
  ∀ (s : State) (m i : Nat) (arg1 arg2 v : W32) (u : UnwrapBuf) (p : List Byte), ChamberOpen s m →
    let a0 := w32 i
    let free := ∀ x ∈ s.chamber.unwraps, x.master ≠ m
    (isSpoke m = true → fld arg1 16 5 = 0 → i < 65536 → i ≠ 2 → useCheck s m i useCrank (romWrite s m) = 0 →
      8 * fld arg1 0 11 + (slot s i).key.length ≤ 16384 →
      ∃ t, exec (.xfer m a0 arg1) s = .next t ∧ t = { s with chamber := t.chamber } ∧ t.chamber.slots = s.chamber.slots ∧
        t.chamber.xfers = s.chamber.xfers ++
          [{ master := m, wheel := m / 16, ctx := b2n (arg1.getLsbD 11), index := fld arg1 0 11, key := (slot s i).key,
             job := jobNumber s m }]) ∧
    (isSpoke m = true → fld arg1 16 5 = 0 → i < 65536 → useCheck s m i useCrank (romWrite s m) = cUseViolation →
      ∃ t, exec (.xfer m a0 arg1) s = .next t ∧ t.chamber.xfers = s.chamber.xfers ∧ t.fw.pending = s.fw.pending ++
        [{ master := m, kind := 4, addr := aCh 0, resetCount := resetCountOf s m }]) ∧
    (i < 65536 → attrOk s m arg1 = true → 16 ≤ arg2.toNat → arg2.toNat ≤ 4104 → arg2.toNat % 8 = 0 →
      useCheck s m i useWrap (romWrite s m) = 0 → s.chamber.unwraps.length < 4 → free →
      ∃ t, exec (.unwrapBegin m a0 arg1 arg2) s = .next t ∧ t = { s with chamber := t.chamber } ∧
        t.chamber.slots = s.chamber.slots ∧ t.chamber.unwraps = s.chamber.unwraps ++
          [{ master := m, kek := i, attr := arg1, length := arg2.toNat, fed := [], job := jobNumber s m }]) ∧
    (s.chamber.unwraps = [u] → u.master = m → u.fed.length + 4 ≤ 4104 →
      ∃ t, exec (.chFeed m v) s = .next t ∧ t = { s with chamber := t.chamber } ∧
        t.chamber.unwraps = [{ u with fed := u.fed ++ leBytes 4 v.toNat }]) ∧
    (s.chamber.unwraps = [u] → u.master = m → u.fed.length = u.length → (slot s u.kek).state = .loaded →
      kwpUnwrap (fitBytes 32 (slot s u.kek).key) u.fed = some p → p.length = attrLen u.attr →
      findRun s (attrSlots u.attr) = some i →
      ∃ t, exec (.unwrapEnd m) s = .next t ∧ t = { s with chamber := t.chamber } ∧ t.chamber.unwraps = [] ∧
        (slot t i).state = .loaded ∧ (slot t i).key = p ∧ (slot t i).attr = u.attr ∧ (chBank t m).result = w32 i)

/-! ### Fuses, life cycle, Lantern (R183 to R228, R521, R522) -/

/-- Hub-A's commands to the idle fuse controller: one that passes the checks is latched with its address and data and runs, with
the pump on if it programs; any other only leaves its code.
The end of a fuse command: a read delivers the decoded word; programming adds exactly the word's bits and no other word
changes; `BUSY` stays where the load of slot 0 still waits; the idle pump goes off; sensing latches the life-cycle wires by the
vote of the three copies. -/
def Obligations.FuseCommandsComplete : Prop :=
  (∀ (s : State) (addr : BitVec 10) (g : BitVec 5) (row : BitVec 7) (data : W32), domOn s 27 = true → otpBusy s = false →
      let oldA := (reg s (aOtp 0x004)).toNat
      let oldD := reg s (aOtp 0x008)
      let starts := fun (c : Instr) (op a : Nat) (d : W32) =>
        (otpRefusal s op a d = 0 → ∃ t, exec c s = .next t ∧
          t = { s with regs := t.regs, fs := t.fs, otp := { s.otp with command := some { op, addr := a, data := d },
                                                                        pumpOn := s.otp.pumpOn || isProgramming op } } ∧
          otpBusy t = true ∧ (isProgramming op = true → regB t (aOtp 0x010) 29 = true)) ∧
        (otpRefusal s op a d ≠ 0 → ∃ t, exec c s = .next t ∧ t = { s with regs := t.regs, fs := t.fs } ∧ otpBusy t = false ∧
          regF t (aOtp 0x010) 0 8 = otpRefusal s op a d)
      starts (.read hubA addr) 1 addr.toNat oldD ∧ starts (.program hubA addr data) 2 addr.toNat data ∧
      starts (.lock hubA g) 3 (32 * g.toNat) oldD ∧ starts (.sealCalc hubA g) 4 (32 * g.toNat) oldD ∧
      starts (.genUds hubA) 5 oldA oldD ∧ starts (.repair hubA row) 6 (8 * row.toNat) oldD) ∧
  (∀ (s : State) (weak : BitVec 39) (cmd : OtpCmd),
      let w := otpReadWord s cmd.addr
      let cell := otpCell s cmd.addr
      let target := otpTarget cmd.addr cmd.data
      let sensed := senseArray s
      (domOn s 27 = true → s.otp.command = some cmd → cmd.op = 1 → w.2.2 = 0 → w.2.1 ≠ rUncorrectable →
        ∃ t, exec (.otpCommandDone weak) s = .next t ∧ t = { s with regs := t.regs, otp := { s.otp with command := none } } ∧
          reg t (aOtp 0x00C) = w.1 ∧ regF t (aOtp 0x010) 8 4 = w.2.1 ∧ regF t (aOtp 0x010) 0 8 = 0 ∧
          otpBusy t = s.otp.slot0Waiting) ∧
      (domOn s 27 = true → s.otp.command = some cmd → cmd.op = 2 → weak &&& target = 0 →
        ∃ t, exec (.otpCommandDone weak) s = .next t ∧
          t = { s with regs := t.regs, otp := { s.otp with command := none, cells := t.otp.cells, marginal := t.otp.marginal } } ∧
          cellOnes t cell = cellOnes s cell ||| target.toNat ∧
          (∀ c, c ≠ cell → cellOnes t c = cellOnes s c ∧ cellMarg t c = cellMarg s c) ∧
          regF t (aOtp 0x010) 0 8 = 0 ∧ otpBusy t = s.otp.slot0Waiting) ∧
      (s.otp.command = none →
        ∃ t, exec .pumpIdleOff s = .next t ∧ t = { s with regs := t.regs, otp := { s.otp with pumpOn := false } } ∧
          regB t (aOtp 0x010) 29 = false) ∧
      (s.boot.phase = .sensing → domOn s 27 = true → (∀ n ∈ [1, 2, 3, 4], inProgress sensed n = false) →
        exec .sensingComplete s = .next (settleDomains { latchLifecycle sensed with
          boot := { (latchLifecycle sensed).boot with phase := .up } }) ∧
        lcState (latchLifecycle sensed) =
          lcVote (lcDecode (crit sensed 0)) (lcDecode (crit sensed 1)) (lcDecode (crit sensed 2))))

/-- A request with the key either begins its transition or only answers a code; a transition's step programs its word and its
mark with the pump on, after which the step counts as done (that its pulses succeed is the model's choice, log 82); a block that
failed its erase is remembered and recorded. -/
def Obligations.TransitionsAdvanceByMarkedSteps : Prop :=
  ∀ (s : State) (v : W32) (n a target block : Nat),
    let code := lcRefusal s (fld v 0 3)
    let sealsRead := otpLogWords s 0x431 [63, 95, 127, 159, 191, 223]
    let answered := setRegF (if fld v 0 3 = 2 ∧ (code = 0 ∨ code = 4) then sealsRead else s) (aLc 0x008) 0 8 code
    (domOn s 27 = true → fld v 16 16 = 0x5A7E → code = 0 →
      exec (.lcRequest hubA v) s = .next { answered with
        lc := { s.lc with transition := some { target := fld v 0 3, step := 0 }, eraseFailed := [] } }) ∧
    (domOn s 27 = true → fld v 16 16 = 0x5A7E → code ≠ 0 → exec (.lcRequest hubA v) s = .next answered) ∧
    (domOn s 27 = true → fld v 16 16 ≠ 0x5A7E → exec (.lcRequest hubA v) s = .next s) ∧
    (s.lc.transition = some { target, step := n } → domOn s 27 = true → 1 ≤ target → target ≤ 4 →
      (n, a) ∈ [(5, 0), (6, 1), (7, 2)] →
      ∃ t, exec .transitionStep s = .next t ∧
        t = { s with regs := t.regs, otp := { s.otp with cells := t.otp.cells, marginal := t.otp.marginal, pumpOn := true },
                     lc := { s.lc with transition := some { target, step := nextStep target n } } } ∧
        stepDone t target n = true ∧ otpData t a &&& lcCode target = lcCode target) ∧
    (s.lc.transition = some { target, step := 3 } → 3 ≤ target → block < 16 →
      exec (.eraseFault block) s = .next (emit { s with lc := { s.lc with
          eraseFailed := s.lc.eraseFailed ++ [0x00F00000 + 0x10000 * block] } }
        islOtp 0x431 0x050 [w32 (0x00F00000 + 0x10000 * block)]))

/-- Lantern's instructions: each loads the instruction register and shifts out its register, `BYPASS` that of a listed code; the
mailbox reaches what Lantern may read and write, any other access is its violation (the layout of its 48 bits, of the boundary
register and of the debug actions is the model's, log 83); the escapes select, deselect and reset the port.
Challenges, certificates and sessions: what each event leaves of the challenge, the buffer, the session and the result. -/
def Obligations.LanternCompletes : Prop :=
  (∀ (s : State) (ir : BitVec 5) (off : BitVec 15) (v : W32) (dr : BitVec 96), lanternUp s = true →
      let at4 := (dr.extractLsb' 24 40).toNat / 4 * 4
      let load := fun (i : BitVec 5) => { s with lc := { s.lc with ir := i } }
      let scanned := fun (u : State) (i : BitVec 5) => emitOut { u with draws := s.draws + 1 } (.lantern Config.boundaryLength
        (Config.boundaryValue (pctlWord (load i)) (fwpWord (load i)) (Config.freeWord s.draws).toNat % 2 ^ Config.boundaryLength))
      let mailed := fun (u : State) (data : W32) (w : Bool) =>
        emitOut u (.lantern 48 (data.toNat * 2 ^ 16 + off.toNat * 2 + b2n w))
      let mailedFree := fun (u : State) => mailed { u with draws := u.draws + 1 } (Config.freeWord u.draws) true
      let accessed := fun (u : State) (data : W32) => emitOut u (.lantern 96 (data.toNat * 2 ^ 64 + dr.toNat % 2 ^ 64))
      exec .idcode s = .next (emitOut (load 0x01) (.lantern 32 idcodeValue)) ∧
      exec .lnUid s = .next (emitOut (load 0x08) (.lantern 128 (leNat (otpBytes s 32 4)))) ∧
      (ir.toNat ∉ [0x01, 0x02, 0x03, 0x08, 0x10, 0x11] → exec (.bypass ir) s = .next (emitOut (load ir) (.lantern 1 0))) ∧
      (∀ p ∈ [((0x01 : BitVec 5), Instr.idcode), (0x02, .sample), (0x03, .extest), (0x08, .lnUid), (0x10, .lnMailbox false 0 0),
          (0x11, .lnAccess 0)], exec (.bypass p.1) s = exec p.2 s) ∧
      (bitOf (rightsNow s) 6 = true →
        exec .sample s = .next (scanned (load 0x02) 0x02) ∧
        exec .extest s = .next (scanned { load 0x03 with
          lc := { (load 0x03).lc with extest := Config.boundaryIn s.draws % 2 ^ Config.boundaryLength } } 0x03)) ∧
      (bitOf (rightsNow s) 6 = false →
        exec .sample s = .next (violate (load 0x02) lantern vLantern 0) ∧
        exec .extest s = .next (violate (load 0x03) lantern vLantern 0)) ∧
      (domOn s 27 = true →
        (lcMayRead s lantern off.toNat = true → exec (.lnMailbox false off v) s =
          .next (mailed (load 0x10) (lcRead s off.toNat) false)) ∧
        (lcMayRead s lantern off.toNat = false → exec (.lnMailbox false off v) s =
          .next (mailed (violate (load 0x10) lantern vLantern (aLc off.toNat)) 0 false)) ∧
        (lcMayWrite s lantern off.toNat = true → exec (.lnMailbox true off v) s =
          .next (mailedFree (lcWriteOp (load 0x10) lantern off.toNat v))) ∧
        (lcMayWrite s lantern off.toNat = false → exec (.lnMailbox true off v) s =
          .next (mailedFree (violate (load 0x10) lantern vLantern (aLc off.toNat))))) ∧
      ((dr.getLsbD 0 = false → exec (.lnAccess dr) s = .next (emitOut (load 0x11) (.lantern 96 dr.toNat))) ∧
        (dr.getLsbD 0 = true → dr.getLsbD 1 = false → target at4 = .sram → lanternMay s lantern 1 = true → hubOn s = true →
          exec (.lnAccess dr) s = .next (accessed (load 0x11) (w32 (rdMem s at4 4)))) ∧
        (dr.getLsbD 0 = true → dr.getLsbD 1 = true → target at4 ≠ .hole →
          let u := busWrite (load 0x11) lantern at4 4 (dr.extractLsb' 64 32).toNat
          exec (.lnAccess dr) s = .next (accessed { u with draws := u.draws + 1 } (Config.freeWord u.draws))) ∧
        (dr.getLsbD 0 = true → dr.getLsbD 1 = false → target at4 = .hole →
          let r := match debugAt at4 with
            | none => (0, violate (load 0x11) lantern vLantern at4)
            | some d => debugOp (load 0x11) at4 false (dr.extractLsb' 64 32) d
          exec (.lnAccess dr) s = .next (accessed r.2 r.1))) ∧
      exec (.lanternEscape 0) s = .next s ∧
      exec (.lanternEscape 1) s = .next { s with lc := { s.lc with selected := false } } ∧
      exec (.lanternEscape 2) s = .next (load 1)) ∧
  (∀ (s : State) (m : Nat) (v : W32) (r : W32), domOn s 27 = true →
      let kind := leNat (certBytes s 2 1)
      let ended := fun (t : State) (code : Nat) => reg t (aLc 0x06C) = w32 code ∧ certHolder t = 0 ∧ t.lc.certPending = false ∧
        t.lc.certBuffer = [] ∧ t.lc.certChallenge = none ∧ t.lc.challenge = s.lc.challenge
      ((m = lantern ∨ m = 0x300) → domOn s 28 = true → healthFailed s = false → 8 ≤ s.drip.pool.length →
        exec (.lnChallengeReq m) s = .next { s with
          drip := { s.drip with pool := s.drip.pool.drop 8 },
          lc := { s.lc with challenge := some (wordBytes (s.drip.pool.take 8)), challengeAsked := false } }) ∧
      exec .challengeExpiry s = .next { s with lc := { s.lc with challenge := none } } ∧
      ((m = lantern ∨ m = 0x300) → certHolder s = 0 → fld v 0 2 = certSource m →
        exec (.certClaim m v) s = .next (setReg s (aLc 0x060) (w32 (certSource m)))) ∧
      ((m = lantern ∨ m = 0x300) → certHolder s = certSource m → s.lc.certPending = false → s.lc.session = none →
        exec (.certSubmit m) s = .next (hubInt { s with lc := { s.lc with
          certPending := true, certFrom := certSource m, certChallenge := s.lc.challenge, challenge := none } } "INT_CERT")) ∧
      (s.lc.certPending = true → hubOn s = true → powerTarget s = 0 → crank0Free s = true →
        (certCode s = 0 → kind = 1 → s.lc.session = none →
          ∃ t, exec .certCheck s = .next t ∧ ended t 0 ∧ t.lc.session = some (w32 (leNat (certBytes s 4 4))) ∧
            t.lc.transition = s.lc.transition) ∧
        (certCode s = 0 → kind ≠ 1 →
          ∃ t, exec .certCheck s = .next t ∧ ended t 0 ∧ t.lc.session = s.lc.session ∧
            t.lc.transition = some { target := leNat (certBytes s 8 1), step := 0 }) ∧
        (certCode s ≠ 0 →
          ∃ t, exec .certCheck s = .next t ∧ ended t (certCode s) ∧ t.lc.session = s.lc.session ∧
            t.lc.transition = s.lc.transition)) ∧
      (s.lc.certPending = true →
        ∃ t, exec .certTimeout s = .next t ∧ ended t 0x18 ∧ t.lc.session = s.lc.session ∧ t.lc.transition = s.lc.transition) ∧
      (inRom s = true → s.lc.session = none → hubRight v = false →
        exec (.lnAuthGrant hubA v) s = .next { s with lc := { s.lc with session := some v } }) ∧
      ((m = hubA ∨ m = lantern) → s.lc.session = some r →
        (hubRight r = false →
          ∃ t, exec (.lnClose m) s = .next t ∧ t = { s with cores := t.cores, lc := { s.lc with session := none } } ∧
            ∀ c, core t c = { core s c with lnHalted := false }) ∧
        (hubRight r = true → domOn s 26 = true →
          ∃ t, exec (.lnClose m) s = .next t ∧ t.lc = { s.lc with session := none } ∧ t.chamber.deriveCtx = 0 ∧
            ∀ i, 4 ≤ i → slot t i = {})))

/-! ### Resets and supplies (R229, R440 to R443, R460, R487 to R489) -/

/-- While PORST_N is low, or a monitor holds, everything but Flowstone, the fuse array, the pins and the device flash is at its
reset value; the events that begin such a hold. (A fuse command or transition step under way stops at a free place, log 81.)
The last hold goes: the device records its start and begins to sense; only `PORST_N` rising latches the straps. The mark's
cause 3 at the first rise after VDD_AON came up is the model's reading (log 71). -/
def Obligations.HoldsClearAndReleaseTheDevice : Prop :=
  (∀ (s : State) (rail : Nat),
      let cleared := fun (t : State) => t.boot.phase = .held ∧ t.cores = [] ∧ t.ports = [] ∧ t.platforms = [] ∧ t.lc = {} ∧
        t.pwr = {} ∧ t.gov = {} ∧ t.time = {} ∧ t.fw = {} ∧ t.pins = s.pins ∧ t.flash = s.flash ∧
        (s.otp.command = none → s.lc.transition = none → t.otp.cells = s.otp.cells ∧ t.otp.marginal = s.otp.marginal)
      let regsKept := fun (t : State) => ∀ a, reg t a = if porstKeeps a then reg s a else regReset a
      (s.boot.porstLow = false →
        ∃ t, exec .porstNAssert s = .next t ∧ cleared t ∧ regsKept t ∧ t.fs = s.fs ∧ t.boot.porstLow = true ∧
          t.boot.railHolds = s.boot.railHolds) ∧
      (rail < 3 → rail ∉ s.boot.railHolds →
        ∃ t, exec (.supplyTrip rail) s = .next t ∧ cleared t ∧ regsKept t ∧ t.fs = s.fs ∧
          t.boot.railHolds = s.boot.railHolds ++ [rail]) ∧
      (3 ∉ s.boot.railHolds →
        ∃ t, exec .vddAonLow s = .next t ∧ cleared t ∧ regsKept t ∧ t.fs = s.fs ∧
          t.boot.railHolds = s.boot.railHolds ++ [3]) ∧
      ∃ t, exec .vddAonPowerUp s = .next t ∧ cleared t ∧ t.fs = {} ∧ t.boot.porstLow = true ∧ t.boot.railHolds = [] ∧
        t.boot.straps = 0 ∧ fsWr t = 0 ∧ fsRd t = 0) ∧
  (∀ (s : State) (straps : BitVec 2) (rail : Nat), s.boot.phase = .held →
      let cause := if s.boot.aonUp then 3 else 1
      (s.boot.porstLow = true → s.boot.railHolds = [] →
        let b := { s.boot with porstLow := false, straps }
        exec (.porstNRise straps) s = .next (settleDomains { resetMark { s with boot := b } cause with
          boot := { b with phase := .sensing, aonUp := false } })) ∧
      (s.boot.porstLow = false → s.boot.railHolds = [rail] →
        let b := { s.boot with railHolds := [] }
        exec (.supplyRelease rail) s = .next (settleDomains { resetMark { s with boot := b } cause with
          boot := { b with phase := .sensing, aonUp := false } })))

/-- A device reset, however it begins, holds every platform under a new epoch, ends sessions, transitions and challenges, resets
every core and forgets every freeze, keeps the fuses, the ceiling and the certificate registers, and senses again; a Hub pair's
mismatch also leaves its escalation record last, whose address is a free value (log 78). -/
def Obligations.DeviceResetsRestart : Prop :=
  ∀ (s : State) (c : Nat), s.boot.phase ≠ .held →
    let restarted := fun (t : State) => t.boot.phase = .sensing ∧ t.cores = [] ∧ t.fw = {} ∧ t.lc.session = none ∧
      t.lc.transition = none ∧ t.lc.challenge = none ∧ t.lc.certPending = s.lc.certPending ∧
      t.lc.certBuffer = s.lc.certBuffer ∧ t.pwr.current = 0 ∧ t.pwr.seq = none ∧ t.gov.general = 0 ∧
      (s.otp.command = none → s.lc.transition = none → t.otp.cells = s.otp.cells) ∧ reg t (aPwr 0x100) = reg s (aPwr 0x100) ∧
      ∀ p, p < 4 → released t p = false ∧ epoch t p = (epoch s p + 1) % 256
    (∃ t, exec .deviceReset s = .next t ∧ restarted t) ∧
    (∃ t, exec .tamperN s = .next t ∧ restarted t ∧ exec .deviceReset (emit s islAon 0x430 0x0F3 []) = .next t) ∧
    (isHub c = true → hubOn s = true → (core s c).run ≠ .reset →
      ∃ t lo hi, exec (.lockstepMismatch c) s = .next t ∧ restarted t ∧
        t.fs.arrived.getLast? = some (islAon, { source := 0x43F, rtype := 0x0F2, payload := [w32 c, 7, lo, hi], time := nowUs32 s }))

/-! ### Power domains and power states (R17 to R19, R470 to R472, R480 to R483) -/

/-- Domains follow their requests: a write of `PD_REQ`, the ends of a start and of a stop, a failed start. -/
def Obligations.DomainsFollowTheirRequests : Prop :=
  ∀ (s : State) (d : Nat) (v : W32),
    (s.pwr.seq = none →
      exec (.pdReqWrite hubA v) s = .next (settleDomains (setReg s (aPwr 0x020) (pdReqValue s v)))) ∧
    (s.pwr.seq ≠ none → exec (.pdReqWrite hubA v) s = .next { s with pwr := { s.pwr with latchedReq := some v } }) ∧
    (d < 30 → domState s d = .starting → wanted s d = true →
      ∃ t, exec (.domainOn d) s = .next t ∧ domState t d = .on ∧
        ∀ i ∈ domIslands d, regB t (aPwr (0x060 + 4 * (i / 32))) (i % 32) = true) ∧
    (d < 30 → domState s d = .stopping → wanted s d = false →
      ∃ t, exec (.domainOff d) s = .next t ∧ domState t d = .off ∧ (d = 26 → t.chamber = {}) ∧
        (d < 16 → ∀ a, aWheel (2 * d) 0 ≤ a → a < aWheel (2 * d + 2) 0 → rdByte t a = 0)) ∧
    (16 ≤ d → domState s d = .starting →
      exec (.domainFault d) s = .next (emit (changeDom s d .off) islAon 0x430 0x085 [w32 d])) ∧
    (d < 16 → domState s d = .starting →
      ∃ t, exec (.domainFault d) s = .next t ∧ domState t d = .off ∧ t.mem = s.mem ∧ t.cores = s.cores)

/-- Power-state requests: the running state at once, a deeper one by a sequence that clears the requests of its domains, none
while a sequence runs; the sequence's end; wake events and the exits they cause. -/
def Obligations.PowerStatesAreEnteredAndLeft : Prop :=
  ∀ (s : State) (cause pin : Nat) (q : PowerSeq),
    let enters := fun (c : Instr) (target : Nat) (ds : List Nat) => ∃ t, exec c s = .next t ∧
      t.pwr.seq = some { target } ∧ t.pwr.current = 0 ∧ (∀ d ∈ ds, wanted t d = false)
    (s.pwr.seq = none → lcState s ≠ 4 → s.lc.transition = none →
      exec (.active hubA) s = .next (setRegF s (aPwr 0x000) 16 2 0) ∧
      (s.pwr.current = 0 → enters (.low hubA) 1 (List.range 16) ∧
        (debugLevel s ≠ 2 → enters (.standby hubA) 2 (List.range 18 ++ [22, 23, 24, 25, 27, 28])) ∧
        enters (.deep hubA) 3 (List.range 31))) ∧
    (s.pwr.seq ≠ none → ∀ c ∈ [Instr.active hubA, .low hubA, .standby hubA, .deep hubA],
      exec c s = .next (emit (setRegF s (aPwr 0x000) 24 3 3) islAon 0x430 0x0F4 [3])) ∧
    (s.pwr.seq = some q → seqEnded (settleDomains s) q.target = true → s.pwr.latchedReq = none →
      ∃ t, exec .powerSequenceDone s = .next t ∧ t.pwr.current = q.target ∧ t.pwr.seq = none ∧
        regF t (aPwr 0x000) 16 2 = q.target % 4 ∧ (q.target = 2 → t.pwr.hubRetention = true)) ∧
    (regB s (aPwr 0x008) 3 = true → regPair s (aPwr 0x010) ≤ nowNs s → (powerTarget s = 2 ∨ powerTarget s = 3) →
      exec .wakeTime s = .next { s with pwr := { s.pwr with wakes := s.pwr.wakes ++ [(3, 0)] } }) ∧
    ((cause, pin) ∈ s.pwr.wakes → s.pwr.seq = none → cause < 32 →
      (s.pwr.current = 2 →
        ∃ t, exec (.pwrWake cause pin) s = .next t ∧ t.pwr.current = 0 ∧ t.pwr.hubRetention = false ∧ t.pwr.wakes = [] ∧
          reg t (aPwr 0x00C) = w32 (2 ^ cause) ∧
          (∀ c, isHub c = true → (core s c).run = .wait → (core t c).run = .granted)) ∧
      (s.pwr.current = 3 → ∃ t, exec (.pwrWake cause pin) s = .next t ∧ t.boot.phase = .sensing ∧ t.pwr.current = 0))

/-! ### The governor and the Wheel clocks (R22, R25, R469, R473 to R479) -/

/-- Requests reach the governor in order, a decision grants them within the accounts, grants reach their units, and the ceiling
only goes down. -/
def Obligations.TokensAreGrantedWithinTheAccounts : Prop :=
  ∀ (s : State) (r : Request) (rest : List Request) (v : W32),
    (s.gov.raised = r :: rest →
      exec .governorRequest s = .next { s with
        gov := { s.gov with raised := rest, waiting := s.gov.waiting ++ [{ r with raisedAt := s.ticks }] } }) ∧
    (s.gov.recompute = false →
      ∃ t, exec .governorDecision s = .next t ∧ t.gov.raised = s.gov.raised ∧
        (s.gov.reserve ≤ 24 → t.gov.reserve ≤ 24) ∧
        (s.gov.general ≤ generalPool s → t.gov.general ≤ generalPool s)) ∧
    (s.gov.granted = r :: rest → parked s (r.work.wheel.getD 0) = false →
      (∀ c, r.work = .spoke c → (core s c).run = .admitting →
        exec .admissionGrant s = .next (modCore { s with gov := { s.gov with granted := rest } } c fun k =>
          { k with holds := true, tokenC0 := r.class0, run := .running })) ∧
      (∀ w x, r.work = .ctx w x →
        exec .admissionGrant s = .next (setCtx { s with gov := { s.gov with granted := rest } } w x
          { ctx s w x with admitted := true, tokens := r.tokens })) ∧
      (∀ l, r.work = .lane l →
        exec .admissionGrant s = .next (setLane { s with gov := { s.gov with granted := rest } } l
          { lane s l with admitted := true }))) ∧
    (s.gov.recompute = true →
      exec .recomputeEnd s = .next { s with gov := { s.gov with
        recompute := s.gov.recomputeJoined, recomputeJoined := false, appliedCeiling := ceiling s } }) ∧
    (fld v 0 11 ≤ ceiling s → 160 ≤ fld v 0 11 →
      ∃ t, exec (.currentCeilingWrite hubA v) s = .next t ∧ ceiling t = fld v 0 11 ∧ t.gov.recompute = true ∧
        t.gov.appliedCeiling = s.gov.appliedCeiling) ∧
    (ceiling s < fld v 0 11 ∨ fld v 0 11 < 160 → exec (.currentCeilingWrite hubA v) s = .next s)

/-- Wheel clocks: a frequency step stops a running Wheel until it has relocked; an idle Wheel parks and returns its base; a paid
base starts it; a lost clock is recorded. -/
def Obligations.WheelClocksFollowTheirWork : Prop :=
  ∀ (s : State) (w : Nat) (v : W32), w < 32 →
    let lockAddr := aPwr (0x060 + 4 * (w / 32))
    (∃ t, exec (.wheelFreqWrite hubA (w / 8) v) s = .next t ∧
      (fld v (4 * (w % 8)) 3 ≤ 4 → wheelStep t w = fld v (4 * (w % 8)) 3) ∧
      (4 < fld v (4 * (w % 8)) 3 → wheelStep t w = wheelStep s w) ∧
      (fld v (4 * (w % 8)) 3 ≤ 4 → fld v (4 * (w % 8)) 3 ≠ wheelStep s w → wheelOn s w = true → parked s w = false →
        wheelRuns t w = false)) ∧
    (w ∈ s.pwr.relocking → wheelOn s w = true → parked s w = false →
      ∃ t, exec (.relockDone w) s = .next t ∧ wheelRuns t w = true ∧ regB t lockAddr w = true) ∧
    (regB s lockAddr w = true →
      exec (.clockFault w) s = .next (emit (setLock s w false) islAon 0x430 0x084 [w32 w])) ∧
    (wheelOn s w = true → parked s w = false → warm s w = false → holdsWork s w true = false → holdsWork s w false = false →
      (∀ r ∈ s.gov.raised ++ s.gov.waiting ++ s.gov.granted, r.work.wheel ≠ some w) →
      ∃ t, exec (.wheelPark w) s = .next t ∧ parked t w = true ∧ base t w = .none ∧
        (base s w = .general → t.gov.general = s.gov.general - 2) ∧ (base s w = .reserve → t.gov.reserve = s.gov.reserve - 2)) ∧
    (wheelOn s w = true → parked s w = true → base s w ≠ .none →
      exec (.wheelUnpark w) s = .next (setLock (setParked s w false) w true)) ∧
    (∃ t, exec (.wheelWarmWrite hubA v) s = .next t ∧ t = { s with regs := t.regs, gov := t.gov } ∧ reg t (aPwr 0x040) = v ∧
      (bitOf v w = true → wheelOn s w = true → parked s w = true → baseAsked t w = true))

/-! ### Platforms and pins (R248 to R257, R260, R311, R505 to R508) -/

/-- A platform is verified under its epoch, released when every condition holds, and held: a hold ends its verification and
advances the epoch. Its reset outputs are low while it is held and high impedance once it is released.
Power-good and alert inputs, pin configuration, recovery attempts and the auxiliary transmitter. -/
def Obligations.PlatformsAndPinsComplete : Prop :=
  (∀ (s : State) (p : Nat) (ep : BitVec 8), p < 4 →
      let heldAnew := fun (t : State) => released t p = false ∧ platStatus t p 0 = false ∧ platStatus t p 1 = false ∧
        epoch t p = (epoch s p + 1) % 256 ∧ (plat t p).delayDone = false ∧ (port t p).txn = none
      (ep.toNat = epoch s p →
        (quarantined s p = false →
          exec (.setImages hubA p ep) s = .next (setRegF (setPlatStatus s p 0 true) (aPlat p 0x018) 4 4 0) ∧
          exec (.setRecovery hubA p ep) s = .next (setPlatStatus s p 1 true)) ∧
        (quarantined s p = true → exec (.setImages hubA p ep) s = .next s ∧ exec (.setRecovery hubA p ep) s = .next s) ∧
        exec (.setGo hubA p ep) s = .next (setPlatStatus s p 4 true) ∧
        ∃ t, exec (.clearGo hubA p ep) s = .next t ∧ t = { s with regs := t.regs, platforms := t.platforms } ∧
          platStatus t p 4 = false) ∧
      (ep.toNat ≠ epoch s p → ∀ c ∈ [Instr.setImages hubA p ep, .setRecovery hubA p ep, .setGo hubA p ep, .clearGo hubA p ep],
        exec c s = .next (setPlatStatus s p 11 true)) ∧
      (∃ t, exec (.hold hubA p) s = .next t ∧ heldAnew t ∧
        (s.boot.phase = .up → extestOn s = false → ∀ n, n < 12 → pctlFunc s n = 1 → pctlPlatform s n = p → pctlDrive t n = .low)) ∧
      (regB s (aPlat p 0x000) 0 = true → released s p = false → releaseConds s p = true → portOn s p = true →
        s.boot.phase = .up → s.lc.transition = none →
        ∃ t, exec (.platformRelease p) s = .next t ∧ released t p = true ∧
          (extestOn s = false → ∀ n, n < 12 → pctlFunc s n = 1 → pctlPlatform s n = p → pctlDrive t n = .highZ) ∧
          (gkShipped s p = false → t = { s with regs := t.regs, platforms := t.platforms, fs := t.fs } ∧
            platStatus t p 9 = true ∧ regB t (aPort p 0x0B0) 0 = false)) ∧
      ((releaseConds s p = false ∨ portOn s p = false) → exec (.platformRelease p) s = .next s) ∧
      (otherConds s p = true → exec (.delayDone p) s = .next (setPlat s p { plat s p with delayDone := true })) ∧
      (otherConds s p = false → exec (.delayDone p) s = .next s)) ∧
  (∀ (s : State) (p n : Nat) (v : W32), p < 4 → n < 12 →
      let up := setPin s n (!pctlInvert s n)
      (pctlFunc s n = 3 → pctlPlatform s n = p →
        ((pgPins s p).all (pgGood up) = true → (plat s p).pgStable = false →
          exec (.powerGoodRise n) s = .next (setPlat up p { plat s p with pgCounting := true })) ∧
        (released s p = true →
          ∃ t, exec (.powerGoodFall n) s = .next t ∧ released t p = false ∧ epoch t p = (epoch s p + 1) % 256 ∧
            (plat t p).pgStable = false ∧ pinLevel t n = pctlInvert s n)) ∧
      ((plat s p).pgCounting = true →
        exec (.powerGoodStable p) s = .next (setPlat s p { plat s p with pgCounting := false, pgStable := true })) ∧
      (pctlFunc s n = 5 → regB s (aPwr 0x008) (16 + n) = false →
        exec (.pctlAlertFall n) s = .next (hubInt (setRegB (setPin s n false) (aPlat 0 0x140) n true) "INT_PCTL" n)) ∧
      (fld v 0 4 ≤ 5 → reg s (aPctlCfg n) &&& 0x13F ≠ v &&& 0x13F →
        ((released s (pctlPlatform s n) = true ∨ released s (fld v 4 2) = true) →
          exec (.pctlCfgWrite hubA n v) s = .next (setRegB s (aPlat 0 0x140) 16 true)) ∧
        (released s (pctlPlatform s n) = false → released s (fld v 4 2) = false →
          ∃ t, exec (.pctlCfgWrite hubA n v) s = .next t ∧ t = { s with regs := t.regs, platforms := t.platforms } ∧
            reg t (aPctlCfg n) = v &&& 0x113F)) ∧
      (let r := reg s (aPlat p 0x018)
       (fld r 4 4 ≠ fld r 0 4 →
        exec (.start hubA p) s = .next (emit (setRegF s (aPlat p 0x018) 4 4 (fld r 4 4 + 1)) islAon 0x430 0x0B1
          [w32 p, w32 (fld r 8 3), w32 (fld r 4 4 + 1)])) ∧
       (fld r 4 4 = fld r 0 4 →
        exec (.start hubA p) s = .next (emit (setRegB s (aPlat p 0x018) 15 true) islAon 0x430 0x0B4 [w32 p]))) ∧
      (∃ t, exec (.quarantinedClear hubA p) s = .next t ∧ t = { s with regs := t.regs } ∧ quarantined t p = false ∧
        regF t (aPlat p 0x018) 4 4 = 0) ∧
      (regB s (aPlat 0 0x148) 8 = false → regF s (aPlat 0 0x144) 0 2 = 1 →
        exec (.auxTxdata hubA v) s =
          .next (emitOut (setRegB s (aPlat 0 0x148) 8 true) (.uart (BitVec.ofNat 8 (fld v 0 8))))) ∧
      exec .auxTxDone s = .next (setRegB s (aPlat 0 0x148) 8 false))

/-! ### Flash ports (R258 to R306) -/

/-- A host transaction is taken, decided by the active bank or the static table, and ends: a denied change is braked, a
transaction on a braked or busy bus is discarded and reads as 1, a substituted read passes no byte, an end before the decision
waits for it, a logged one leaves an entry.
A block that the host reads while the audit is armed is compared with its table entry: a mismatch is recorded and holds the
platform; a sweep that mismatches is recorded and goes on. -/
def Obligations.HostTransactionsAreDecidedAndAudited : Prop :=
  (∀ (s : State) (p bytes : Nat) (opcode modeByte : Byte) (addr : W32) (x : HostTxn), portOn s p = true →
      let k := port s p
      let op := opcode.toNat
      let b := activeBank s p
      let e := entryActs (reg s (opAddr p b op))
      (released s p = true → k.txn = none →
        (∀ o, k.owner = some o → exec (.hostTransactionStart p) s = .next (portRecord
          (setRegB (setPort s p { k with txn := some { kind := 2 } }) (aPort p 0x008) 6 true) p 0x0A2
          (reg s (aPort p (0x044 + 0x20 * o))).toNat)) ∧
        (k.owner = none → k.brake = false → exec (.hostTransactionStart p) s =
          .next (emitOut (setPort s p { k with txn := some {} }) (.flashSelect p true))) ∧
        (k.owner = none → k.brake = true → exec (.hostTransactionStart p) s = .next (portRecord
          (setRegB (setPort s p { k with txn := some { kind := 1 } }) (aPort p 0x008) 7 true) p 0x0A1 k.brakeAddr))) ∧
      (released s p = false → exec (.hostTransactionStart p) s = .next s) ∧
      (k.txn = some x → x.kind = 0 → x.decided = false → x.ended = some bytes →
        ∃ t, exec (.hostDecision p opcode addr modeByte false) s = .next t ∧ (port t p).txn = none ∧ t.mem = s.mem) ∧
      (k.txn = some x → x.kind = 0 → x.decided = false → x.ended = none → contRead s p = false →
        ∃ t y, exec (.hostDecision p opcode addr modeByte false) s = .next t ∧
          t = { s with ports := t.ports, regs := t.regs } ∧ (port t p).txn = some y ∧ y.decided = true ∧ y.opcode = op ∧
          (staticNow s p = false → y.entry = e ∧ y.addr = wrapAddr s p e addr.toNat ∧
            y.denied = (decideBank s p b e (wrapAddr s p e addr.toNat)).denied) ∧
          (staticNow s p = true → y.entry = opDefault op ∧ y.denied = (decideStatic (opDefault op)).denied)) ∧
      (k.txn = some x → x.ended = none →
        (x.kind = 0 → x.decided = false → exec (.hostTransactionEnd p bytes) s =
          .next (setPort s p { k with txn := some { x with ended := some bytes } })) ∧
        (x.kind ≠ 0 → ∃ t, exec (.hostTransactionEnd p bytes) s = .next t ∧ (port t p).txn = none ∧ t.mem = s.mem ∧
          t.out = s.out ++ [.hostData p true 0 bytes] ∧ (port t p).brake = k.brake) ∧
        (x.kind = 0 → x.decided = true →
          let passed := passedBytes s p x bytes
          ∃ t last, exec (.hostTransactionEnd p bytes) s = .next t ∧ (port t p).txn = none ∧
            (port t p).brake = (k.brake || isBraked x) ∧ t.mem = s.mem ∧
            t.out = s.out ++ [if bitOf x.entry 12 then .hostData p false bytes 0 else .hostData p true passed (bytes - passed), last] ∧
            (isBraked x = false → last = .flashSelect p false) ∧ (x.substituted = true → passed = 0) ∧
            (x.logged = true → k.tlog.length < 256 → (port t p).tlog.length = k.tlog.length + 1) ∧
            (x.logged = false → (port t p).tlog = k.tlog)))) ∧
  (∀ (s u : State) (p i : Nat) (addr : W32) (data entry : List Byte), portOn s p = true → data.length = 4096 →
      let n := min 32768 (reg s (aPort p 0x0AC)).toNat
      let pos := (reg s (aPort p 0x084)).toNat % n
      let cmd := sweepCmd s p ((reg s (aPort p 0x0A8)).toNat + 4096 * pos)
      let swept := emitOut (sweepCharge s p (readTime cmd)) (.flash cmd)
      let mismatch := fun (t : State) => released t p = false ∧ platStatus t p 10 = true ∧ epoch t p = (epoch s p + 1) % 256
      (released s p = true → platStatus s p 9 = true → auditIndex s p addr.toNat = some i → deliversBlock s p addr.toNat = true →
        (auditEntry s p i = (some entry, u) →
          (entry = sha256 data → exec (.auditBlock p addr data true) s = .next u) ∧
          (entry ≠ sha256 data → ∃ t, exec (.auditBlock p addr data true) s = .next t ∧ mismatch t)) ∧
        exec (.auditBlock p addr data false) s = .next (setPort s p
          { port s p with pendingAudits := (port s p).pendingAudits ++ [(addr.toNat, sha256 data)] })) ∧
      (∀ rest, (port s p).pendingAudits = (addr.toNat, sha256 data) :: rest → auditIndex s p addr.toNat = some i →
        auditEntry (setPort s p { port s p with pendingAudits := rest }) p i = (some entry, u) →
        (entry = sha256 data → exec (.auditEntryArrival p) s = .next u) ∧
        (entry ≠ sha256 data → ∃ t, exec (.auditEntryArrival p) s = .next t ∧ mismatch t)) ∧
      (regB s (aPort p 0x080) 8 = true → busFree s p = true → ownBusy s p 0 = false → ownBusy s p 1 = false → 0 < n →
        powerTarget s < 2 → sweepMay s p (readTime cmd) = true → auditEntry swept p pos = (some entry, u) →
        ∃ t, exec (.sweepBlock p data) s = .next t ∧ t = { u with regs := t.regs, fs := t.fs } ∧
          (reg t (aPort p 0x084)).toNat = (pos + 1) % n ∧
          (entry = sha256 data → t.fs = u.fs ∧ reg t (aPort p 0x008) = reg u (aPort p 0x008)) ∧
          (entry ≠ sha256 data → regB t (aPort p 0x008) 5 = true ∧ released t p = released u p)))

/-- Own commands: `GO` with legal parameters makes a slot busy; the command starts on a free bus, the slots in turn, in the
slot's protocol and clock, and moves exactly its bytes; a poll runs until its masked status is zero or its time is over; a quiet
window opens and closes the bus. -/
def Obligations.OwnCommandsMoveFlashData : Prop :=
  ∀ (s : State) (p k : Nat) (v : W32) (status : Byte) (data : List Byte), portOn s p = true → k < 2 →
    let kind := ownKind s p k
    let n := ownLen s p k
    let a := ownBuf s p k
    let st := port s p
    let ends := fun (t : State) => (port t p).owner = none ∧ ownBusy t p k = false ∧ regB t (aOwn p k 0x054) 1 = true
    (ownBusy s p k = false →
      ∀ g ∈ [(Instr.ownRead hubB p k v, 0), (.ownWrite hubB p k v, 1), (.ownNoData hubB p k v, 2), (.ownPoll hubB p k v, 3)],
        let u := plainWrite s (aOwn p k 0x040) (setFld (setFld v 8 2 g.2) 31 1 1)
        ownParamsOk u p k = true →
          exec g.1 s = .next (setReg u (aOwn p k 0x054) (setFld (reg s (aOwn p k 0x054)) 0 1 1))) ∧
    (ownBusy s p k = true → (ownBusy s p (1 - k) = false ∨ st.lastSlot ≠ k) → st.owner = none → busFree s p = true →
      powerTarget s < 2 →
      (ownParamsOk s p k = false → ∃ t, exec (.ownCmdStart p k) s = .next t ∧ t = { s with regs := t.regs } ∧
        ownBusy t p k = false ∧ regB t (aOwn p k 0x054) 2 = true ∧ regF t (aOwn p k 0x054) 4 2 = 1) ∧
      (ownParamsOk s p k = true → (kind ≠ 1 ∨ (0x10000000 ≤ a ∧ a + n ≤ 0x10400000 ∧ hubOn s = true)) →
        let cfg := reg s (aPort p (0x020 + 4 * k))
        let c : FlashCmd :=
          { port := p, cs := k, opcode := regF s (aOwn p k 0x040) 0 8,
            addr := if kind = 3 ∨ (kind = 2 ∧ n ≠ 1) then none else some (reg s (aOwn p k 0x044)).toNat,
            proto := if kind = 3 then 0 else fld cfg 4 2, addr4 := bitOf cfg 21, clkDiv := regF s (aPort p 0x028) 0 5,
            dummy := if kind = 0 then fld cfg 16 5 else 0, read := if kind = 0 then n else if kind = 3 then 1 else 0,
            bytes := if kind = 1 then rdBytes s a n else [] }
        ∃ t, exec (.ownCmdStart p k) s = .next t ∧ t = { s with ports := t.ports, out := s.out ++ [.flash c], flashGen := t.flashGen } ∧
          port t p = { st with owner := some k, lastSlot := k } ∧ (∀ q, q ≠ p → port t q = port s q))) ∧
    (st.owner = some k →
      (kind = 0 → 0x10000000 ≤ a → a + n ≤ 0x10400000 → hubOn s = true → bankOf a = none → data.length = n →
        ∃ t, exec (.ownCmdDone p k status data) s = .next t ∧
          t = { s with mem := t.mem, regs := t.regs, ports := t.ports } ∧ ends t ∧ rdBytes t a n = data ∧
          ∀ x, x < a ∨ a + n ≤ x → rdByte t x = rdByte s x) ∧
      (kind = 1 ∨ kind = 2 →
        ∃ t, exec (.ownCmdDone p k status data) s = .next t ∧ t = { s with regs := t.regs, ports := t.ports } ∧ ends t) ∧
      (kind = 3 → status.toNat &&& regF s (aOwn p k 0x040) 16 8 ≠ 0 → exec (.ownCmdDone p k status data) s = .next s) ∧
      (kind = 3 → status.toNat &&& regF s (aOwn p k 0x040) 16 8 = 0 →
        ∃ t, exec (.ownCmdDone p k status data) s = .next t ∧ t = { s with regs := t.regs, ports := t.ports } ∧ ends t ∧
          regF t (aOwn p k 0x054) 8 8 = status.toNat) ∧
      (kind = 3 →
        ∃ t, exec (.ownPollTimeout p k status) s = .next t ∧ t = { s with regs := t.regs, ports := t.ports } ∧ ends t ∧
          regF t (aOwn p k 0x054) 8 8 = status.toNat)) ∧
    (∀ pin, quietPin s p = some pin →
      (regB s (aPort p 0x004) 3 = true →
        exec (.quietOpen p) s = .next (setRegB (setPin s pin false) (aPort p 0x008) 1 true)) ∧
      (regB s (aPort p 0x008) 1 = true → (st.owner = none ∨ (st.owner = some k ∧ (kind = 1 ∨ kind = 2))) →
        exec (.quietClose p) s = .next (setRegB (setPin s pin true) (aPort p 0x008) 1 false))) ∧
    ∃ t, exec (.portBootDone hubA p) s = .next t ∧ t = { s with regs := t.regs } ∧ regB t (aPort p 0x0B0) 0 = true ∧
      platStatus t p 9 = false

/-- The rule tables change only through the shadow: the owner's swap waits for the bus and exchanges the banks; a copy makes the
shadow equal to the active bank; a write by anyone else is ignored and marked.
The gatekeeper: its log, its mailboxes, its reset, and the messages of the shipped program, which is one program that a
gatekeeper may run (log 60); it takes a message and starts a change when no swap of its own is pending. -/
def Obligations.RuleTablesAndGatekeepersComplete : Prop :=
  (∀ (s : State) (p : Nat), portOn s p = true →
      let owner := tableOwner s p
      let b := activeBank s p
      exec (.swap owner p) s = .next (setRegB s (aPort p 0x3004) 1 true) ∧
      exec (.copyActive owner p) s = .next (setRegB s (aPort p 0x3004) 2 true) ∧
      (∀ m, m ≠ owner → portMayWrite m p 0x3008 = true →
        exec (.swap m p) s = .next (writeIgnored s p) ∧ exec (.copyActive m p) s = .next (writeIgnored s p)) ∧
      (regB s (aPort p 0x3004) 1 = true → (port s p).txn = none → (port s p).brake = false → copyBusy s p = false →
        (gkShipped s p = false →
          ∃ t, exec (.swapApply p) s = .next t ∧ t = { s with regs := t.regs, cores := t.cores, gov := t.gov } ∧
            activeBank t p = 1 - b ∧ regB t (aPort p 0x3004) 1 = false ∧
            regF t (aPort p 0x3004) 16 16 = (regF s (aPort p 0x3004) 16 16 + 1) % 65536) ∧
        (gkRuns s p = true → gkShipped s p = true → (port s p).gk.todo = [] → (port s p).mail = false →
          ∃ t, exec (.swapApply p) s = .next t ∧ activeBank t p = 1 - b ∧ regB t (aPort p 0x3004) 1 = false ∧
            (port t p).gk = { (port s p).gk with reply := none, waiting := false } ∧
            ((port s p).gk.reply ≠ none → regB t (aPort p 0x3230) 2 = true))) ∧
      (copyBusy s p = true →
        ∃ t, exec (.copyDone p) s = .next t ∧ t = { s with regs := t.regs } ∧ copyBusy t p = false ∧ activeBank t p = b ∧
          (∀ n, n < 256 → reg t (opAddr p (1 - b) n) = reg s (opAddr p b n) ∧
            reg t (aPort p (0x2000 + 0x400 * (1 - b) + 4 * n)) = reg s (aPort p (0x2000 + 0x400 * b + 4 * n))) ∧
          reg t (aPort p (0x2800 + 4 * (1 - b))) = reg s (aPort p (0x2800 + 4 * b)))) ∧
  (∀ (s : State) (p : Nat) (hi ms : W32) (tag : BitVec 8), portOn s p = true →
      let k := port s p
      let g := gkId p
      (coreStopped s g = false → gkShipped s p = false →
        exec (.tlogPop g p) s = .next (setPort s p { k with tlog := k.tlog.drop 1 })) ∧
      (coreStopped s g = true → exec (.tlogPop hubA p) s = .next (setPort s p { k with tlog := k.tlog.drop 1 })) ∧
      (∃ t, exec (.gkReset hubA p) s = .next t ∧ (core t g).run = .reset ∧ (core t g).pc = 0 ∧
        (core t g).resetCount = ((core s g).resetCount + 1) % 4 ∧ (port t p).gk = {} ∧ (port t p).scratch = k.scratch) ∧
      (∀ m, isHub m = true → gkReady s p = false →
        ∃ t, exec (.gkMailboxIn m p hi) s = .next t ∧ reg t (aPort p 0x3224) = hi ∧ (port t p).mail = true ∧
          regB t (aPort p 0x3230) 0 = false ∧ (k.mail = true → regB t (aPort p 0x3230) 1 = true)) ∧
      exec (.gkMailboxOut g p hi) s =
        .next (hubInt (setRegB (setReg s (aPort p 0x322C) hi) (aPort p 0x3230) 2 true) "GK_OUT_READY" p) ∧
      exec (.inTaken g p) s = .next (setRegB (setPort s p { k with mail := false }) (aPort p 0x3230) 0 true) ∧
      (gkReady s p = true → tableOwner s p = g → k.gk.todo = [] →
        let taken := fun (t : State) => t = { s with regs := t.regs, ports := t.ports, cores := t.cores, gov := t.gov } ∧
          (port t p).mail = false ∧ regB t (aPort p 0x3230) 0 = true ∧ regB t (aPort p 0x3004) 1 = true
        (k.gk.lockdown = false →
          ∃ t, exec (.gkBootDoneMsg p) s = .next t ∧ taken t ∧
            (port t p).gk = { k.gk with lockdown := true, reply := some 1, waiting := true } ∧
            regB t (aPort p 0x0B0) 0 = true ∧ platStatus t p 9 = false) ∧
        (k.gk.lockdown = true → k.gk.window = none → tagUsed s p tag.toNat = true →
          ∃ t, exec (.openWindow p tag ms) s = .next t ∧ taken t ∧
            (port t p).gk = { k.gk with window := some tag.toNat, windowMs := min ms.toNat (gkScratch s p 0xD010),
                                        reply := some 2, waiting := true } ∧
            regB t (aPort p 0x004) 0 = false) ∧
        (k.gk.window = some tag.toNat →
          (∃ t, exec (.closeWindow p tag) s = .next t ∧ taken t ∧
            (port t p).gk = { k.gk with window := none, windowMs := 0, reply := some 3, waiting := true } ∧
            regB t (aPort p 0x004) 0 = true) ∧
          ∃ t, exec (.updateWindowExpiry p) s = .next t ∧ t = { s with regs := t.regs, ports := t.ports } ∧
            (port t p).gk = { k.gk with window := none, windowMs := 0, reply := none, waiting := true } ∧
            regB t (aPort p 0x3004) 1 = true ∧ regB t (aPort p 0x004) 0 = true) ∧
        (k.gk.limited = [] → k.mail = false →
          ∃ t, exec (.intervalEnd p) s = .next t ∧ t = { s with ports := t.ports } ∧
            port t p = { k with scratch := smDrop k.scratch 0xE800 0xF000 } ∧ ∀ q, q ≠ p → port t q = port s q)) ∧
      (gkRuns s p = true → gkShipped s p = true → k.gk.waiting = true → k.gk.window ≠ none →
        exec (.updateWindowExpiry p) s =
          .next (setPort s p { k with gk := { k.gk with todo := k.gk.todo ++ [.closeWindow none] } })))

/-! ### PCIe, I3C, entropy (R323 to R329, R509 to R511, R520) -/

/-- The PCIe controller: configuration requests before and after it is ready, faulty BAR accesses, the SPDM responder, IDE keys
inside a session, resets of functions. SPDM and IDE_KM codes are those of the standards, which the model presumes (log 24). -/
def Obligations.PcieRequestsAreAnswered : Prop :=
  ∀ (s : State) (f off size stream : Nat) (v : W32) (code param : BitVec 8) (key : BitVec 256), pcieOn s = true → f < 256 →
    let word := off / 4 * 4
    let km := fun (ks : SMap (BitVec 256)) (go : List Nat) => { s.fabric with ideKeys := ks, ideGo := go }
    (bootDone s = false → cfgReady s = false → ∀ write, exec (.configRequest f off write v) s = .next (emitOut s (.pcie 1 0))) ∧
    (cfgReady s = true →
      exec (.configRequest f off false v) s = .next (emitOut s (.pcie 0 (cfgRead s f word))) ∧
      (word ≠ cfgCommand → word ≠ cfgMsix → ∃ t, exec (.configRequest f off true v) s = .next t ∧
        t = { s with fabric := t.fabric, out := s.out ++ [.pcie 0 0] } ∧ smGet (func t f).config word 0 = v) ∧
      (word = cfgCommand → ∃ t, exec (.configRequest f off true v) s = .next t ∧ (func t f).busMaster = v.getLsbD 2)) ∧
    ((size ≠ 4 ∧ size ≠ 8 ∨ off % size ≠ 0) → (func s 0).frozen = false →
      exec (.barAccessFault true off size) s = .next (emit s islPcie 0x435 0x073 []) ∧
      exec (.barAccessFault false off size) s = .next (emitOut (emit s islPcie 0x435 0x073 []) (.pcie 2 0))) ∧
    (code.toNat ∉ spdmCodes → exec (.spdmRequest code param) s = .next (emitOut s (.spdm 0x7F [code]))) ∧
    (code.toNat = spdmMeasure → ∃ t, exec (.spdmRequest code param) s = .next t ∧ t = { s with out := t.out } ∧
      ∃ rest, t.out = s.out ++ [.spdm 0x60 (measurements s param.toNat ++ rest)]) ∧
    (s.fabric.spdm = true →
      exec .query s = .next (emitOut s (.spdm 0x01 [9])) ∧
      (stream < 9 → exec (.keyProg stream key) s = .next (emitOut { s with
        fabric := km (smIns (smDel s.fabric.ideKeys stream) stream key) s.fabric.ideGo } (.spdm 0x03 [0]))) ∧
      (hasKey s stream = true → exec (.kSetGo stream) s = .next (emitOut { s with
        fabric := km s.fabric.ideKeys (s.fabric.ideGo.filter (· ≠ stream) ++ [stream]) } (.spdm 0x06 [0]))) ∧
      exec (.kSetStop stream) s = .next (emitOut { s with
        fabric := km s.fabric.ideKeys (s.fabric.ideGo.filter (· ≠ stream)) } (.spdm 0x06 [0]))) ∧
    (s.fabric.spdm = false → ∀ c ∈ [Instr.query, .keyProg stream key, .kSetGo stream, .kSetStop stream],
      exec c s = .next (emitOut s (.spdm 0x7F []))) ∧
    (∃ t, exec (.flr f) s = .next t ∧ fState t f ≠ stOn ∧ (func t f).busMaster = false ∧ (func t f).msixEnabled = false ∧
      (func t f).frozen = (func s f).frozen) ∧
    ∃ t, exec .perstN s = .next t ∧ t.fabric.vectors = [] ∧ t.fabric.spdm = false ∧ t.fabric.ideKeys = [] ∧
      ∀ g, g < 256 → fState t g ≠ stOn ∧ (func t g).busMaster = false

/-- The I3C target: each common command code, private transfers, the packets of recovery and update messages (their form is
log 90's), and the two doors of its buffers. -/
def Obligations.I3cCommandsComplete : Prop :=
  ∀ (s : State) (addr : BitVec 7) (ev : BitVec 8) (n : Nat) (v : W32) (data : List Byte),
    let said := fun (t : State) (b : Option (List Byte)) => t.out = s.out ++ [.i3c b]
    (i3cUp s = true →
      (i3cAssigned s = false →
        ∀ p ∈ [(Instr.entdaa addr, addr.toNat), (.setdasa addr, addr.toNat), (.setaasa, s.i3c.staticAddr % 128)],
          ∃ t, exec p.1 s = .next t ∧ t = { s with regs := t.regs, out := t.out } ∧ said t (some []) ∧ i3cAssigned t = true ∧
            regF t (aI3c 0x004) 16 7 = p.2) ∧
      (i3cAssigned s = true → ∀ c ∈ [Instr.entdaa addr, .setdasa addr, .setaasa], exec c s = .next (emitOut s (.i3c none))) ∧
      (∃ t, exec .rstdaa s = .next t ∧ said t (some []) ∧ i3cAssigned t = false ∧
        t.i3c.staticAddr = regF s (aI3c 0x000) 16 7 ∧ t.i3c.instId = regF s (aI3c 0x000) 8 4) ∧
      (ev.getLsbD 0 = true →
        (∃ t, exec (.enec ev) s = .next t ∧ said t (some []) ∧ ibiEn t = true ∧
          (i3cAssigned s = true → i3cTxGo s = true → t.i3c.ibiPending = true)) ∧
        ∃ t, exec (.disec ev) s = .next t ∧ said t (some []) ∧ ibiEn t = false ∧ t.i3c.ibiPending = false) ∧
      (8 ≤ n → n ≤ 256 →
        exec (.setmwl n) s = .next (emitOut { s with i3c := { s.i3c with maxWrite := n } } (.i3c (some []))) ∧
        exec (.setmrl n) s = .next (emitOut { s with i3c := { s.i3c with maxRead := n } } (.i3c (some [])))) ∧
      (∀ p ∈ [(Instr.getmwl, beBytes 2 s.i3c.maxWrite), (.getmrl, beBytes 2 s.i3c.maxRead), (.getpid, i3cPid s),
          (.getbcr, [0x06]), (.getdcr, [0x00]), (.getstatus, i3cStatus s), (.getmxds, [0, 0])],
        exec p.1 s = .next (emitOut s (.i3c (some p.2)))) ∧
      (i3cRxFull s = false → s.i3c.maxWrite ≤ 256 →
        ∃ t, t.i3c.rx = data.take s.i3c.maxWrite ∧ i3cRxFull t = true ∧ t.out = s.out ++ [.i3c (some []), .hubInt "INT_I3C" 0] ∧
          t.mem = s.mem ∧
          (rcvServer s = 0 ∨ i3cPacket t = none → exec (.i3cPrivateWrite data) s = .next t) ∧
          ∀ h b, rcvServer s ≠ 0 → i3cPacket t = some (h, b) → (h.getD 3 0).getLsbD 7 = true → field b 0 1 % 128 = 0x7E →
            chunkWaits s 1 (slice b 3 16) = false →
            let w := setRegB { t with i3c := { t.i3c with header := h, message := b } } (aI3c 0x010) 31 false
            exec (.i3cPrivateWrite data) s =
              .next (if (h.getD 3 0).getLsbD 6 then hostMessage w 1 (slice b 3 16) (b.drop 19) else w)) ∧
      (i3cRxFull s = true → exec (.i3cPrivateWrite data) s = .next (emitOut s (.i3c none))) ∧
      (i3cTxGo s = true →
        ∃ t, exec .i3cPrivateRead s = .next t ∧ said t (some (i3cMessage s)) ∧ i3cTxGo t = false ∧
          t.i3c.ibiPending = false) ∧
      (i3cTxGo s = false → exec .i3cPrivateRead s = .next (emitOut s (.i3c none)))) ∧
    (i3cUp s = false → ∀ c ∈ [Instr.rstdaa, .enec ev, .disec ev, .setmwl n, .setmrl n, .getmwl, .getpid, .getstatus,
        .i3cPrivateWrite data, .i3cPrivateRead],
      exec c s = .next (emitOut s (.i3c none))) ∧
    (hubOn s = true →
      (∃ t, exec (.txGo hubB v) s = .next t ∧ i3cTxGo t = true ∧ regF t (aI3c 0x014) 0 9 = fld v 0 9 ∧
        (ibiEn s = true → i3cAssigned s = true → t.i3c.ibiPending = true)) ∧
      exec (.rxFullClear hubB) s = .next (setRegB s (aI3c 0x010) 31 false))

/-- Drip: its self-test, a failing health test, and a word for a Hub core: the pool's first, or zero marked empty. -/
def Obligations.EntropyComesFromThePool : Prop :=
  ∀ (s : State) (m : Nat) (w : W32) (rest : List W32), domOn s 28 = true →
    (∃ t, exec (.selftest hubA) s = .next t ∧ t = { s with regs := t.regs, drip := { s.drip with testing := true } } ∧
      regB t (aDrip 0x004) 8 = false) ∧
    (s.drip.testing = true →
      (∃ t, exec (.selftestEnd true) s = .next t ∧ t = { s with regs := t.regs, drip := { s.drip with testing := false } } ∧
        regB t (aDrip 0x004) 8 = true ∧ healthFailed t = false) ∧
      ∃ t, exec (.selftestEnd false) s = .next t ∧ t = { s with regs := t.regs, drip := { s.drip with testing := false } } ∧
        ((reg s (aDrip 0x00C)).toNat < 2 ^ 32 - 1 → reg t (aDrip 0x00C) = reg s (aDrip 0x00C) + 1)) ∧
    (∃ t, exec .healthFail s = .next t ∧ t = { s with regs := t.regs, drip := { s.drip with pool := [] } } ∧
      healthFailed t = true) ∧
    (isHub m = true →
      (healthFailed s = false → s.drip.pool = w :: rest → exec (.dripData m) s =
        .next (emitOut { s with drip := { s.drip with pool := rest } } (.readData m (w.setWidth 64)))) ∧
      (healthFailed s = true → exec (.dripData m) s =
        .next (emitOut (setRegB s (aDrip 0x004) 9 true) (.readData m 0))))

/-! ### The queue fabric (R329 to R355) -/

/-- Functions and queues follow their enables: vector ranges that overlap are refused, a legal queue turns on empty, a queue that
is disabled stops and is off once nothing is in flight; doorbells move the tail and head they name. -/
def Obligations.QueuesFollowTheirEnables : Prop :=
  ∀ (s : State) (m f q index off : Nat) (v : W32), qfOn s = true → isHub m = true → f < 256 → queueExists s q = true → q ≠ 0 →
    (fState s f = stOff →
      exec (.funcEnable m f true) s = .next (setFState (setRegB s (aFunc f) 0 true) f stOn) ∧
      (fld v 16 12 = 0 → fld v 0 12 ≤ 4096 →
        exec (.funcVecWrite m f v) s = .next (setReg s (aFunc f + 4) (v &&& 0x0FFF0FFF)))) ∧
    (qState s q = stOff →
      let u := setQf s q 4 31 1 1
      (enableOk u q = true → ∃ t, exec (.queueEnable m q) s = .next t ∧ t = { s with regs := t.regs } ∧ qState t q = stOn ∧
        qSqHead t q = 0 ∧ qSqTail t q = 0 ∧ qCqTail t q = 0 ∧ qPhase t q = 1 ∧ qInflight t q = qInflight s q) ∧
      (enableOk u q = false → ∃ t, exec (.queueEnable m q) s = .next t ∧ t = { s with regs := t.regs } ∧ qState t q = stOff ∧
        regF t (aQctx q 11) 24 8 = 0x20)) ∧
    (qState s q = stOn → fetched s q = [] →
      ∃ t, exec (.queueDisable m q) s = .next t ∧
        t = { s with regs := t.regs, fabric := { s.fabric with fetched := t.fabric.fetched } } ∧ fetched t q = [] ∧
        qState t q = stStopping) ∧
    (qState s q = stStopping → qInflight s q = 0 →
      ∃ t, exec (.queueOff q) s = .next t ∧ qState t q = stOff ∧ qSqHead t q = 0 ∧ qw t q 13 = 0) ∧
    (off < 0x2000 → off % 64 = 0x1C → fld v 0 8 ≠ 0 → (∀ g, (hub s m).queueGroupMask.getLsbD g = decide (g = q / 128)) →
      q % 128 = off / 64 →
      ∃ t, exec (.qgroupAliasWrite m off v) s = .next t ∧ t = { s with regs := t.regs, hubs := t.hubs, cores := t.cores } ∧
        fld (qw t q 7) 0 8 = fld v 0 8 ∧ (core t m).unacked = (core s m).unacked + 1) ∧
    (domOn s 17 = true → bootDone s = true → (func s f).frozen = false →
      ((∀ o ∈ liveQueues s, qFunc s o ≠ f ∨ qDbIndex s o ≠ index) →
        exec (.doorbell f index v) s =
          .next (setRegF s (aFunc f) 16 16 (min 0xFFFF (regF s (aFunc f) 16 16 + 1)))) ∧
      (liveQueues s = [q] → qFunc s q = f → qDbIndex s q = index → qInternal s q = false → v &&& 0x70007000 = 0 →
        bitOf v 15 = true → fld v 0 12 < 2 ^ qSqLog s q → bitOf v 31 = false →
        ∃ t, exec (.doorbell f index v) s = .next t ∧ t = { s with regs := t.regs } ∧ qSqTail t q = fld v 0 12 ∧
          qSqHead t q = qSqHead s q))

/-- A job's way: its entry is fetched, its payload checked, it is placed on an eligible Spoke with its buffer written, it ends or
is timed out, its completion is posted in order, its buffer is wiped; the admin entries end with their answers.
The admin entries that Hub-B serves: each takes effect and ends the entry at the head of the admin queue. -/
def Obligations.JobsAndAdminEntriesComplete : Prop :=
  (∀ (s : State) (q c : Nat) (b : List Byte) (e : Entry) (j : Job) (g : Nat),
      let fab := fun (l : List Entry) => smSet s.fabric.fetched q [] l
      (mayFetch s q = true → entryOk b = true → fetched s q = [] →
        ∃ t, exec (.entryFetch q b) s = .next t ∧
          t = { s with regs := t.regs, fabric := { s.fabric with fetched := t.fabric.fetched } } ∧ fetched t q = [entryOf b] ∧
          qInflight t q = (qInflight s q + 1) % 256) ∧
      (fetched s q = [e] → e.payload = none → e.payloadLen ≤ b.length → field (b.take e.payloadLen) 0 4 = e.payloadLen →
        field (b.take e.payloadLen) 6 2 = 0 →
        exec (.payloadFetch q true b) s = .next { s with
          fabric := { s.fabric with fetched := fab [{ e with payload := some (b.take e.payloadLen) }] } }) ∧
      (fetched s q = [e] → qfOn s = true → jobReady s q = true → outranked s q = false → spokeAllowed s q c = true →
        jobCost e ≤ (qw s q 12).toNat → bankOf (jobBuffer c) = some g → bankGrants s qfDma g true false = true →
        bankOn s g = true → wiping s g = false → qClass s q ≠ 0 → e.raw.length = 64 →
        ∃ t, exec (.jobDispatch q c) s = .next t ∧ fetched t q = [] ∧
          (jobOf t c).map (fun x => (x.queue, x.entry)) = some (q, e) ∧ (core t c).run = .readmitting ∧
          rdBytes t (jobBuffer c) 64 = e.raw) ∧
      (qfOn s = true → jobOf s c = some j → bankOf (jobBuffer c) = some g → bankGrants s qfDma g true false = true →
        bankOn s g = true → wiping s g = false →
        ∀ (off size : Nat) (v : W64), 64 ≤ off → off + size ≤ 16384 → size ∈ [1, 2, 4, 8] →
        ∃ t, exec (.jobWindowStore c off size v) s = .next t ∧
          t = { s with mem := t.mem, starved := t.starved, fabric := { s.fabric with jobs := t.fabric.jobs } } ∧
          rdMem t (jobBuffer c + off) size = v.toNat % 2 ^ (8 * size) ∧
          ∀ x, x < jobBuffer c + off ∨ jobBuffer c + off + size ≤ x → rdByte t x = rdByte s x) ∧
      (jobOf s c = some j → j.timedOut = false →
        ∃ t, exec (.jobTimeout c) s = .next t ∧ (jobOf t c).map Job.timedOut = some true ∧ regB t (aQf 0x008) 1 = true) ∧
      (jobRec s c = some j → j.ended.isSome = true → wipesPending s c = false → qfOn s = true → c ∉ s.fabric.wiping →
        0 < qInflight s j.queue →
        ∃ t, exec (.jobCompletion c true) s = .next t ∧ t.fabric.wiping = s.fabric.wiping ++ [c] ∧
          qInflight t j.queue = qInflight s j.queue - 1) ∧
      (jobRec s c = some j → c ∈ s.fabric.wiping →
        ∃ t, exec (.jobBufferWipeDone c) s = .next t ∧ jobRec t c = none ∧ c ∉ t.fabric.wiping ∧
          (bankOf (jobBuffer c) = some g → bankGrants s qfDma g true false = true → bankOn s g = true → wiping s g = false →
            j.highWater ≤ 16384 →
            (∀ a, jobBuffer c ≤ a → a < jobBuffer c + j.highWater → rdByte t a = 0) ∧
            ∀ a, a < jobBuffer c ∨ jobBuffer c + j.highWater ≤ a → rdByte t a = rdByte s a)) ∧
      (qfOn s = true → ∃ t, exec (.qfBootDone hubA) s = .next t ∧ t = { s with regs := t.regs } ∧ bootDone t = true)) ∧
  (∀ (s : State) (q f base count index : Nat) (words : List W32) (groups : BitVec 256) (quantum mask : W32) (e : Entry)
      (rest : List Entry), hubBUp s = true → fetched s 0 = e :: rest →
      let ended := fun (t : State) => fetched t 0 = rest ∧ qInflight t 0 = qInflight s 0 - 1
      let u := ctxWriteOp ([0, 1, 2, 3, 5, 6, 7, 8].foldl (fun s i => ctxWriteOp s hubB q i (words.getD i 0)) s) hubB q 4
        (words.getD 4 0 ||| 0x80000000)
      (e.op = 1 → serviceOk s words = true → q ≠ 0 → queueExists s q = true → qState s q = stOff → qState u q = stOn →
        ∃ t, exec (.queueCreate q words) s = .next t ∧ ended t ∧ qState t q = stOn) ∧
      (e.op = 2 → q ≠ 0 → queueExists s q = true → qState s q = stOn → fetched s q = [] →
        ∃ t, exec (.queueDestroy q) s = .next t ∧ ended t ∧ qState t q = stStopping) ∧
      (e.op = 3 → index < 128 → fld quantum 0 8 ≠ 0 →
        ∃ t, exec (.queueSet groups index quantum mask) s = .next t ∧ ended t ∧
          ∀ g, groups.getLsbD g = true → queueExists s (128 * g) = true →
            fld (qw t (128 * g + index) 7) 0 8 = fld quantum 0 8 ∧ qw t (128 * g + index) 8 = mask) ∧
      (e.op = 4 → f < 256 → base + count ≤ 4096 → count ≤ 2048 → fState s f = stOff →
        ∃ t, exec (.funcSet f true base count) s = .next t ∧ ended t ∧ fState t f = stOn) ∧
      (e.op = 4 → 4096 < base + count → exec (.funcSet f true base count) s =
        .next (completeEntry (setFetched s 0 rest) 0 e 0x09 1 0 [])))

/-! ### The trust services (R356 to R381) -/

/-- Each service ends its job with the result that its rules give, in the job buffer with its trailer; a signature that does not
verify never leaves. -/
def Obligations.ServicesAnswerTheirJobs : Prop :=
  ∀ (s s' : State) (c : Nat) (j : Job) (ws : List W32),
    let args := jobArgs s c
    let body := jobBody s c j
    let ends := fun (i : Instr) (u : State) (e : SvcEnd) => exec i s = .next (svcFinish u c j e)
    (ServiceRuns s c 1 1 true [(0, 2)] j →
      let alg := field args 0 1
      let mode := field args 1 1
      let n := field body 4 4
      let key := slice body 8 (algKeyLen alg)
      let sig := slice body (8 + algKeyLen alg) (algSigLen alg)
      let msg := slice body (8 + algKeyLen alg + algSigLen alg) n
      algModeOk alg mode = true → field body 0 2 = algKeyLen alg → field body 2 2 = algSigLen alg →
      (mode = 1 → n = algModeLen alg) → body.length = 8 + algKeyLen alg + algSigLen alg + n →
      (inputCheck alg key sig = 0 → ends (.verify c) s
        (svcOk (leBytes 8 (if Config.verifies alg (mode = 1) key msg sig = true then 0 else 1)))) ∧
      (inputCheck alg key sig ≠ 0 → ends (.verify c) s (svcReject (inputCheck alg key sig)))) ∧
    (∀ (e : Evidence) (set : List Byte), ServiceRuns s c 2 1 true [(0, 6)] j → field args 4 2 = 0xFFFF →
      evidenceOf body = .inl e → reachSet s c (field args 0 4) j.group = s →
      findSet s c (field args 0 4) j.group = some set → field set 10 1 = e.meas →
      inputCheck e.alg e.key e.sig = 0 →
      ends (.appraise c) s (svcOk (leBytes 2 (appraisal set e).1 ++ leBytes 2 (appraisal set e).2 ++
        leBytes 4 (field args 0 4) ++ leBytes 2 (field set 8 2) ++ leBytes 2 0xFFFF ++ zeros 4 ++
        sha384 (evidenceRegs e).flatten ++ slice e.statement 4 16))) ∧
    (ServiceRuns s c 2 2 true [(0, 6), (8, 4)] j → j.func = 0 → field args 5 1 = 1 → hubBUp s = true →
      field args 8 4 = 0 → body.length ≤ 65536 →
      ends (.refsetLoad c) { s with svc := { s.svc with staging := smSet s.svc.staging (field args 0 4) [] body } } (svcOk [])) ∧
    (∀ ps, ServiceRuns s c 2 3 true [] j → policyOf body = .inl ps → hubBUp s = true →
      ends (.policySet c) (hubBRecord { s with svc := { s.svc with policies := smSet s.svc.policies j.group [] ps } } 0x0C3
        [w32 j.group]) (svcOk [])) ∧
    (∀ ec pq, ServiceRuns s c 2 4 false [] j → ticketKeysOf s j.group = some (ec, pq) →
      ends (.ticketKeys c) s (svcOk (fitBytes 96 (Config.publicKey 2 ec) ++ fitBytes 1952 (Config.publicKey 8 pq)))) ∧
    (∀ b, ServiceRuns s c 2 5 false [(0, 2)] j → field args 0 2 ≤ 255 → reachRecord s c j.group (field args 0 2) = s →
      recordOf s c j.group (field args 0 2) = some b →
      ends (.recordStatus c) s (svcOk (b.drop 8))) ∧
    (∀ rec ec pq, ServiceRuns s c 3 1 false [(0, 2), (16, 16)] j → field args 0 2 ≤ 255 →
      reachRecord s c j.group (field args 0 2) = s →
      freshRecord s c j.group (field args 0 2) 1 (slice args 16 16) = some rec → ticketKeysOf s j.group = some (ec, pq) →
      hubBUp s = true → dripTake s 8 = some (ws, s') →
      let u := { s' with svc := { s'.svc with ticketSeq := s'.svc.ticketSeq + 1 } }
      let payload := ticketPayload u (qTag u j.queue) u.svc.ticketSeq rec
      let a := coseSign 2 35 ec payload (wordBytes ws)
      let b := coseSign 8 49 pq payload (wordBytes ws)
      let r := if (a.2 && b.2) = true then (u, svcOk (cborHead 4 2 ++ a.1 ++ b.1)) else selfCheckFailed u c
      ends (.ticket c) r.1 r.2) ∧
    (∀ rec p, ServiceRuns s c 4 1 true [(0, 4), (16, 16)] j →
      let i := field args 2 2
      let r := field args 0 2
      let work := slice args 16 16
      body.length = 1216 → r ≤ 255 → checkRecipient (slice body 0 1184) (slice body 1184 32) = 0 →
      reachRecord s c j.group r = s →
      policyFor (smGet s.svc.policies j.group []) i (field ((recordOf s c j.group r).getD []) 12 4) = some p →
      freshRecord s c j.group r p.maxAge work = some rec → field rec 8 1 = 0 → (p.refsetId = 0 ∨ p.refsetId = field rec 12 4) →
      slice rec 88 32 = sha256 body → slice rec 88 32 ≠ zeros 32 → keyUsable s j i (useCrank ||| useDerive) = true →
      8 ≤ (slot s i).key.length → (slot s i).key.length ≤ 64 → hubBUp s = true → dripTake s 8 = some (ws, s') →
      ends (.keyRelease c) s' (svcOk (release (slot s i).key (slice body 0 1184) (slice body 1184 32) work i (wordBytes ws)))) ∧
    (∀ k, ServiceRuns s c 5 1 true [(0, 8)] j →
      let alg := field args 2 1
      let n := field args 3 1
      let a := w32 (field args 4 4)
      let salt := field body 0 2
      let info := field body 2 2
      (alg = 1 ∨ alg = 2) → body.length = 4 + salt + info → keyUsable s j (field args 0 2) useDerive = true →
      attrOk s c a = true → attrGroup a = true → attrOwner a % 256 = j.group → attrLen a = n → n % 8 = 0 → n ≤ algDigest alg →
      attrLifetime a = 1 → findRun s 1 = some k →
      let key := hkdf alg (slice body 4 salt) (slotBytes s (field args 0 2)) (slice body (4 + salt) info) n
      ends (.derive c) (putExtent s k { state := .loaded, attr := a, key, allocBy := c, allocJob := some j.number })
        (svcOk (leBytes 8 k))) ∧
    (ServiceRuns s c 6 1 true [(0, 4)] j →
      let i := field args 0 2
      let alg := field args 2 1
      let pre := field args 3 1 = 1
      let sig := fitBytes (algSigLen alg) (Config.signature alg pre (slot s i).key body (wordBytes ws))
      algModeOk alg (field args 3 1) = true → (pre → body.length = algModeLen alg) → keyUsable s j i useCrank = true →
      attrType (slot s i).attr = signType alg → signType alg ≠ 9 → hubBUp s = true → dripTake s 8 = some (ws, s') →
      let r := if Config.verifies alg pre (Config.publicKey alg (slot s i).key) body sig = true then (s', svcOk sig)
        else selfCheckFailed s' c
      ends (.sign c) r.1 r.2) ∧
    (∀ (e : SvcEnd) (b : Nat), jobOf s c = some j → bankOf (jobBuffer c) = some b → bankOn s b = true →
      bankGrants s qfDma b true false = true → wiping s b = false → e.result.length ≤ 16256 →
      let t := svcFinish s c j e
      rdBytes t (jobBuffer c + 128) e.result.length = e.result ∧
      rdBytes t (jobBuffer c + 64) 16 = leBytes 4 128 ++ leBytes 4 e.result.length ++ leBytes 1 e.status ++
        leBytes 1 e.svc ++ zeros 6)

/-! ### Chain ports (R382 to R391, R407) -/

/-- Links: mode writes, block lock, HELLOs and their absence, the rise of a link, frames that fail their check.
Frames move: a frame for the member lands in the receive ring; a transmit slot sends its buffer on the chosen up port and a
tunnelled hop hands frames over one at a time. -/
def Obligations.LinksCarryFrames : Prop :=
  (∀ (s : State) (m x : Nat) (v : W32) (f : Frame), x < 2 → chainOn s = true →
      let state := aChain x 0x004
      (isHub m = true → (cport s x).frozen = false → fld v 0 2 ≠ 3 → fld v 0 2 ≠ linkMode s x →
        ∃ t, exec (.linkModeWrite m x v) s = .next t ∧ linkMode t x = fld v 0 2 ∧ linkIsUp t x = false) ∧
      (portRuns s x = true →
        ((linkMode s x = 2 ∨ blockLock s x = true) → regB s state 2 = true → pelotonId s ≠ 0 → 3 ≤ (cport s x).delays →
          linkIsUp s x = false → ∃ t, exec (.linkUp x) s = .next t ∧ linkIsUp t x = true) ∧
        ((cport s x).delays < 3 → exec (.linkUp x) s = .next s) ∧
        (linkMode s x = 1 →
          exec (.blockLockAcquired x) s = .next (setRegB s state 0 true) ∧
          (∃ t, exec (.blockLockLoss x) s = .next t ∧ blockLock t x = false ∧ linkIsUp t x = false) ∧
          ∃ t, exec (.helloInterval x) s = .next t ∧ t = { s with chain := { s.chain with seq := (s.chain.seq + 1) % 65536 }, out := t.out } ∧
            t.out = s.out ++ [.frame x { ftype := 0x01, dirUp := x = 0, hops := 0, seq := BitVec.ofNat 16 s.chain.seq, src := uid s,
                                          dst := 0, pelotonId := pelotonId s, payload := leBytes 4 (wheelDisable s).toNat }]) ∧
        (∃ t, exec (.helloTimeout x) s = .next t ∧ regB t state 2 = false ∧ linkIsUp t x = false) ∧
        (f.ftype = 0x01 → f.pelotonId ≠ pelotonId s →
          ∃ t, exec (.hello x f) s = .next t ∧ regB t state 3 = true ∧ linkIsUp t x = false) ∧
        (f.ftype = 0x01 → f.pelotonId = pelotonId s → f.src ≠ uid s → linkIsUp s x = false →
          ∃ t, exec (.hello x f) s = .next t ∧ t = { s with regs := t.regs, chain := { s.chain with ports := t.chain.ports } } ∧
            regB t state 2 = true ∧ regB t state 3 = false ∧ (cport t x).neighbour = some f.src) ∧
        exec (.badFrame x f false) s = .next (bump s (aChain x 0x048)) ∧
        (f.ftype.toNat ∉ frameTypes → exec (.badFrame x f true) s = .next (bump s (aChain x 0x04C))))) ∧
  (∀ (s : State) (m x k b : Nat) (v : W32) (f : Frame), x < 2 → chainOn s = true →
      let head := regF s (aChain x 0x03C) 0 6
      let slots := regF s (aChain x 0x038) 0 6
      let a := regPair s (aChain x 0x030) + 8192 * head
      let ctrl := aTx k 0x10C
      let src := regPair s (aTx k 0x100)
      let n := regF s (aTx k 0x108) 0 13
      (frameTaken s x f = true → linkIsUp s x = true → f.dst = 0 → head + 1 < slots → slots ≤ 32 →
        regF s (aChain x 0x040) 0 6 ≠ head + 1 → chainGrants s x a (frameBytes f).length true = true →
        bankAt a = some (b, 0, a) → a % 0x20000 + (frameBytes f).length ≤ 0x20000 → bankOn s b = true → wiping s b = false →
        ∀ c ∈ [((0x31 : BitVec 8), Instr.imageQuery x f), (0x32, .imageOffer x f)], f.ftype = c.1 →
          ∃ t, exec c.2 s = .next t ∧ rdBytes t a (frameBytes f).length = frameBytes f ∧
            regF t (aChain x 0x03C) 0 6 = head + 1 ∧
            ∀ y, y < a ∨ a + (frameBytes f).length ≤ y → rdByte t y = rdByte s y) ∧
      (∀ w : State, FrameHeard s x f 0x31 w → portRuns w x = true → linkMode w x = 1 →
        ∃ t, exec (.imageQuery x f) s = .next t ∧ (heldImage w (slice f.payload 0 48) = none → t = w) ∧
          ∀ r, heldImage w (slice f.payload 0 48) = some r → ∃ g,
            t = { w with chain := { w.chain with seq := t.chain.seq }, out := w.out ++ [.frame x g] } ∧
            g.ftype = 0x32 ∧ g.payload = slice f.payload 0 48 ++ leBytes 4 r) ∧
      (isHub m = true → k < 4 → regB s ctrl 0 = false → fld v 8 2 ≠ 0 →
        (48 ≤ n → n ≤ 4156 → ∃ t, exec (.cpTxGo m k v) s = .next t ∧ t = { s with regs := t.regs } ∧ regB t ctrl 0 = true) ∧
        (n < 48 ∨ 4156 < n → ∃ t, exec (.cpTxGo m k v) s = .next t ∧ t = { s with regs := t.regs } ∧ regB t ctrl 0 = false ∧
          regB t ctrl 2 = true ∧ regF t ctrl 4 2 = 1)) ∧
      (k < 4 → regB s ctrl 0 = true → ([0, 1].filter fun x => regB s ctrl (8 + x) && linkIsUp s x) = [x] → portRuns s x = true →
        linkMode s x = 1 → chainGrants s x src n false = true → bankAt src = some (b, 0, src) →
        src % 0x20000 + n ≤ 0x20000 → bankOn s b = true → wiping s b = false →
        ∃ t, exec (.cpTxDone k) s = .next t ∧ regB t ctrl 0 = false ∧ regB t ctrl 1 = true ∧ t.mem = s.mem ∧
          t.out = s.out ++ [.frame x (stamp s x (frameOf (rdBytes s src n)))]) ∧
      ((cport s x).tunWait = [] → exec (.txFullClear 0x300 x) s = .next (setRegB s (aChain x 0x200) 0 false)) ∧
      (∀ g rest, (cport s x).tunWait = g :: rest → regB s (aChain x 0x200) 31 = false →
        ∃ t, exec (.txFullClear 0x300 x) s = .next t ∧ (cport t x).tunTx = frameBytes g ∧ (cport t x).tunWait = rest ∧
          regB t (aChain x 0x200) 0 = true) ∧
      (portRuns s x = true → linkMode s x = 2 →
        (tunFrame (tunBytes s x) = none → exec (.rxFull 0x300 x) s = .next (bump s (aChain x 0x048))) ∧
        (tunFrame (tunBytes s x) = some f → exec (.rxFull 0x300 x) s = .next (frameArrives s x f s.time.now))))

/-! ### Peloton time and membership (R392 to R408) -/

/-- Link delay, time sync, the arm compare and the pacer's set. What a `TIME` leaves of the rate is a free value (log 5).
Roll calls, answers, rosters and the pacer, as the shipped Hub-B runs them (log 61). -/
def Obligations.PelotonKeepsTimeAndRoster : Prop :=
  (∀ (s : State) (x t1 t4 : Nat) (f : Frame) (hi : W32), x < 2 →
      let rtt := ((t4 : Int) - t1 - (timeField f.payload 10 - timeField f.payload 0)).toNat
      let v := pair64 (reg s (aPt 0x020)) hi
      (f.ftype = 0x02 → frameTaken s x f = true → linkMode s x = 1 →
        ∃ t g, exec (.delayReq x f t4) s = .next t ∧ t = { s with chain := { s.chain with seq := t.chain.seq }, out := s.out ++ [.frame x g] } ∧
          g.ftype = 0x03 ∧ g.payload = timeBytes t4 ++ timeBytes s.time.now) ∧
      (f.ftype = 0x03 → frameTaken s x f = true → (cport s x).reqSent = some t1 →
        ∃ t, exec (.delayResp x f t4) s = .next t ∧ t = { s with regs := t.regs, chain := { s.chain with ports := t.chain.ports } } ∧
          (cport t x).delays = (cport s x).delays + 1 ∧ (cport t x).reqSent = none ∧
          reg t (aChain x 0x024) = w32 (rtt / 65536) ∧ reg t (aChain x 0x020) = w32 (rtt * 1000 / 131072)) ∧
      (f.ftype = 0x04 → timeAccepted s x f = false → exec (.time x f t4) s = .next s) ∧
      (f.ftype = 0x04 → timeAccepted s x f = true →
        ∃ t, exec (.time x f t4) s = .next t ∧ t.time.accepted = min 8 (s.time.accepted + 1) ∧ t.mem = s.mem ∧
          ptState t = if s.time.accepted + 1 < 8 then ptSyncing else ptLocked) ∧
      (∃ t, exec .syncIntervalTick s = .next t ∧ t.time = s.time ∧ t.mem = s.mem ∧
        (portRuns s x = true → (cport t x).reqSent = some s.time.now)) ∧
      (ptState s = ptSyncing ∨ ptState s = ptLocked →
        exec .holdover s = .next (emit (setPtState { s with time := { s.time with accepted := 0, heldAt := s.time.now } } ptHoldover)
          islAon 0x430 0x0D7 [])) ∧
      (isPacer s = true → nowNs s ≤ v → ∃ t, exec (.ptSet hubB hi) s = .next t ∧ t.time = { s.time with now := v * 65536 }) ∧
      (isPacer s = false ∨ v < nowNs s → exec (.ptSet hubB hi) s = .next s) ∧
      (regB s (aPt 0x038) 0 = true → regPair s (aPt 0x030) ≤ nowNs s → regB s (aPwr 0x008) 2 = false →
        exec .armFire s = .next (hubInt (setRegB (setRegB s (aPt 0x038) 1 true) (aPt 0x038) 0 false) "PT_FIRE")) ∧
      (regB s (aPt 0x038) 0 = false ∨ nowNs s < regPair s (aPt 0x030) → exec .armFire s = .next s)) ∧
  (∀ (s v : State) (x : Nat) (f : Frame),
      let epoch := field f.payload 0 8
      let us := (List.range ((f.payload.length - 32) / 16)).map fun i => BitVec.ofNat 128 (field f.payload (32 + 16 * i) 16)
      (FrameHeard s x f 0x10 v →
        ∃ t, exec (.rollCall x f) s = .next t ∧
          t.chain.caller = (v.chain.caller && !decide (f.src.toNat < (uid v).toNat)) ∧
          (v.chain.heardCaller = none → t.chain.heardCaller = some f.src ∧ t.chain.answered = some epoch)) ∧
      (FrameHeard s x f 0x11 v → v.chain.collecting = true → f.dst = uid v → epoch = v.chain.epoch → f.payload.length = 64 →
        (cport v x).neighbour ≠ some f.src →
        exec (.rollAnswer x f) s = .next { v with chain := { v.chain with
          answers := v.chain.answers.filter (fun a => a.1 ≠ f.src) ++ [(f.src, f.payload)] } }) ∧
      (FrameHeard s x f 0x12 v → field f.payload 4 2 = 0 → field f.payload 0 2 = us.length →
        ∃ t, exec (.roster x f) s = .next t ∧ t.chain.roster = us ∧ t.chain.rosterParts = [] ∧
          pacerUid t = BitVec.ofNat 128 (field f.payload 8 16)) ∧
      (FrameHeard s x f 0x13 v → f.dst = uid v → ∃ t, exec (.pacerAssign x f) s = .next t ∧ isPacer t = true) ∧
      (FrameHeard s x f 0x14 v →
        (v.chain.caller = true → ∃ t, exec (.topoChange x f) s = .next t ∧ t.chain.epoch = v.chain.epoch + 1 ∧
          t.chain.collecting = true) ∧
        (v.chain.caller = false → exec (.topoChange x f) s = .next v)) ∧
      (hubBUp s = true →
        (s.chain.caller = true → ∃ t, exec .rollInterval s = .next t ∧ t.chain.epoch = s.chain.epoch + 1 ∧
          t.chain.collecting = true ∧ t.chain.answers = []) ∧
        (s.chain.caller = false → s.chain.missed = 0 →
          ∃ t, exec .rollInterval s = .next t ∧ t = { s with chain := { s.chain with
              missed := 1, heardAge := s.chain.heardAge + 1, heardCaller := t.chain.heardCaller } } ∧
            (s.chain.heardAge = 0 → t.chain.heardCaller = s.chain.heardCaller) ∧
            (1 ≤ s.chain.heardAge → t.chain.heardCaller = none)) ∧
        (s.chain.collecting = true →
          ∃ t, exec .rollWait s = .next t ∧ t.chain.collecting = false ∧ t.chain.roster = positions s)))

/-! ### Recovery (R316 to R321) and update (R419 to R431) -/

/-- Recovery requests are answered: status with the code of a past end, a first header chunk, a chunk of the manifest in order,
the wrong sender, order, target or length, the end of a whole image, an abort, a timeout, a message on the chain. -/
def Obligations.RecoveryRequestsAreAnswered : Prop :=
  ∀ (s : State) (tr t x index : Nat) (seq : BitVec 8) (data : List Byte) (f : Frame),
    let q := seq.toNat
    let k := rcvTarget s t
    let p := f.payload
    (rcvServer s ≠ 0 → rcvEnabled s tr = true → t ≤ 4 → (rcvServer s = 1 → t = 0) →
      exec (.rcvStatus tr seq t) s =
        .next (setRcvTarget (respond s tr 0x81 q (rcvState s t).num k.code k.next) t { k with code := 0 }) ∧
      (data.length ≠ 4096 →
        exec (.rcvData tr seq t index data) s = .next (respond s tr 0x82 q (rcvState s t).num rcFormat k.next)) ∧
      (data.length = 4096 →
        (rcvState s t = .idle → exec (.rcvData tr seq t index data) s = .next (respond s tr 0x82 q 0 rcTarget k.next)) ∧
        (rcvState s t = .listen → index = 0 →
          exec (.rcvData tr seq t index data) s = .next (respond (setHeaderBuf s tr t data) tr 0x82 q 1 0 1)) ∧
        (k.state = .claimed → k.claimant ≠ some tr →
          exec (.rcvData tr seq t index data) s = .next (respond s tr 0x82 q 2 rcBusy k.next)) ∧
        (k.state = .claimed → k.claimant = some tr → index ≠ k.next →
          exec (.rcvData tr seq t index data) s = .next (respond s tr 0x82 q 2 rcSequence k.next)) ∧
        (k.state = .claimed → k.claimant = some tr → index = k.next →
          (k.container ++ data).length < zManifestEnd (k.container ++ data) →
          exec (.rcvData tr seq t index data) s =
            .next (respond (setRcvTarget s t { k with container := k.container ++ data, next := k.next + 1 })
              tr 0x82 q 2 0 (k.next + 1)))) ∧
      (k.claimant = some tr →
        (t ≠ 0 → (rcvPlatform s t k.container).2 = 0 →
          exec (.rcvEnd tr seq t) s = .next (rcvAnswer (setRcvTarget (rcvPlatform s t k.container).1 t {}) tr 3 q t 0)) ∧
        (t = 0 → k.state = .entering → (rcvCommit s k.container).2 = 0 →
          exec (.rcvEnd tr seq t) s = .next (respond (setRcvTarget (rcvCommit s k.container).1 t {}) tr 0x83 q 0 0 0)) ∧
        (∃ u, exec (.rcvAbort tr seq t) s = .next u ∧ (rcvTarget u t).claimant = none ∧ (rcvTarget u t).container = [] ∧
          (rcvTarget u t).code = 0)) ∧
      (k.claimant = none → exec (.rcvEnd tr seq t) s = .next (respond s tr 0x83 q (rcvState s t).num rcTarget k.next) ∧
        exec (.rcvAbort tr seq t) s = .next (respond s tr 0x84 q (rcvState s t).num rcTarget k.next))) ∧
    (rcvServer s ≠ 0 → k.claimant ≠ none →
      ∃ u, exec (.rcvTimeout t) s = .next u ∧ (rcvTarget u t).claimant = none ∧ (rcvTarget u t).code = rcTimeout) ∧
    (k.claimant = none → exec (.rcvTimeout t) s = .next s) ∧
    ∀ u, f.ftype = 0x30 → receive s x f = (u, true) → rcvServer u ≠ 0 →
      (10 ≤ p.length → p.length = 10 + field p 8 2 → field p 3 1 ≠ 0 → rcvEnabled u (2 + x) = true →
        exec (.rcvMsg x f) s =
          .next (respond (consume u x) (2 + x) (field p 0 1 % 128 + 0x80) (field p 1 1) 0 rcFormat 0)) ∧
      (10 ≤ p.length → p.length = 10 + field p 8 2 → field p 3 1 = 0 →
        exec (.rcvMsg x f) s =
          .next (rcvRequest (consume u x) (2 + x) (field p 0 1) (field p 1 1) (field p 2 1) (field p 4 4) (p.drop 10))) ∧
      (p.length ≠ 10 + field p 8 2 → exec (.rcvMsg x f) s = .next (bump (consume u x) (aChain x 0x04C)))

/-- Offers, chunks and status as the shipped Hub firmware serves them on PF0 and I3C (log 61). -/
def Obligations.UpdatesAreOfferedAndStaged : Prop :=
  ∀ (s : State) (tr : Nat) (f : Frame) (u : FwSet), tr < 2 → rcvServer s = 2 →
    let p := f.payload
    let q := f.seq.toNat % 256
    let offered : FwSet := { digest := slice p 0 48, manifestDigest := slice p 52 48, rollback := field p 48 4, floor := 0 }
    let held := fun (m : List Byte) => m = s.upd.active.manifestDigest ∨ ∃ c, s.upd.claim = some c ∧ c.manifestDigest = m
    let answers := fun (code : Nat) => exec (.updOffer tr f) s = .next (respond s tr 0x90 q s.upd.state.num code 0)
    exec (.updStatus tr) s = .next (respond s tr 0x92 0 s.upd.state.num 0 (updNext s)) ∧
    (p.length ≠ 104 → answers ucHdrFail) ∧
    (p.length = 104 →
      (s.upd.firstStartDone = false ∨ s.upd.state = .armed → answers ucNotReady) ∧
      (s.upd.firstStartDone = true → s.upd.state ≠ .armed →
        (held offered.manifestDigest → answers ucSame) ∧
        (¬held offered.manifestDigest →
          (offered.rollback ≤ s.upd.active.rollback → answers ucOlder) ∧
          (s.upd.active.rollback < offered.rollback →
            (offered.digest ∈ s.upd.withdrawn → answers ucWithdrawn) ∧
            (offered.digest ∉ s.upd.withdrawn → s.upd.state ≠ .conflict → s.upd.candidate = none →
              (s.upd.claim = some u → offered.rollback < u.rollback → answers ucBusy) ∧
              (s.upd.claim = none ∨ (s.upd.claim = some u ∧ u.rollback ≤ offered.rollback) →
                let state := if s.upd.state = .idle then .claiming else s.upd.state
                let candidate : UpdCandidate := { tr, set := offered, total := field p 100 4, header := [] }
                exec (.updOffer tr f) s =
                  .next (respond { s with upd := { s.upd with candidate := some candidate, state } } tr 0x90 q state.num 0
                    0))))))) ∧
    (s.upd.candidate = none → s.upd.claim = some u → s.upd.source = tr → s.upd.state = .staging → s.upd.built = false →
      u.digest.take 8 = p.take 8 → p.length = 4108 →
      let c := s.upd.container ++ slice p 12 4096
      let next := s.upd.container.length / 4096
      (field p 8 4 ≠ next → exec (.updChunk tr f) s = .next (respond s tr 0x91 q 2 0 next)) ∧
      let v := hubStore s (chunkAddr next) (slice p 12 4096)
      (field p 8 4 = next → busFree s 0 = false ∨ chunkRoom s = false → exec (.updChunk tr f) s = .next s) ∧
      (field p 8 4 = next → busFree s 0 = true → chunkRoom s = true → c.length < zManifestEnd c →
        exec (.updChunk tr f) s = .next (respond { v with upd := { s.upd with container := c } } tr 0x91 q 2 0 (next + 1)) ∧
        (∀ b, bankOf (chunkAddr next) = some b → bankOn s b = true → bankGrants s hubB b true false = true → wiping s b = false →
          rdBytes v (chunkAddr next) 4096 = slice p 12 4096))) ∧
    (s.upd.candidate = none → s.upd.claim = none →
      exec (.updChunk tr f) s = .next (respond s tr 0x91 q s.upd.state.num ucNotReady 0))

/-- Answers, reports, arms and aborts on the chain, as the shipped Hub firmware takes them (log 61).
What time and the arm bring: a source that stops, forwarding again, the end of the arm wait, activation (log 61). -/
def Obligations.UpdatesRunOnTheChain : Prop :=
  (∀ (s v : State) (x : Nat) (f : Frame) (u : FwSet),
      let p := f.payload
      let digest := slice p 0 48
      (FrameHeard s x f 0x21 v →
        (digest ≠ fitBytes 48 (heldSet v).digest → exec (.updAnswer (2 + x) f) s = .next v) ∧
        (digest = fitBytes 48 (heldSet v).digest →
          ∃ t, exec (.updAnswer (2 + x) f) s = .next t ∧ smGet t.upd.lastAnswer x none = some (field p 48 1) ∧
            (field p 48 1 ≠ ucAccept → smGet t.upd.forward x none = none))) ∧
      (FrameHeard s x f 0x23 v →
        (isPacer v = false → exec (.updReport x f) s = .next v) ∧
        (isPacer v = true →
          (field p 48 1 ≠ rpFailed →
            ∃ t, exec (.updReport x f) s = .next t ∧ (f.src, digest, field p 48 1) ∈ t.upd.reports) ∧
          (field p 48 1 = rpFailed → v.upd.armedAny = false → v.upd.state ≠ .armed →
            ∃ t, exec (.updReport x f) s = .next t ∧ digest ∈ t.upd.withdrawn ∧ ∀ r ∈ t.upd.reports, r.2.1 ≠ digest))) ∧
      (FrameHeard s x f 0x24 v →
        (f.src ≠ pacerUid v → exec (.updArm x f) s = .next v) ∧
        (f.src = pacerUid v → isPacer v = false → digest ≠ fitBytes 48 v.upd.active.digest → v.upd.claim = some u →
          fitBytes 48 u.digest = digest → v.upd.state = .staged → nowNs v < field p 48 8 →
          ∃ t, exec (.updArm x f) s = .next t ∧ t.upd.state = .armed ∧ t.upd.armTime = some (field p 48 8) ∧
            regPair t (aPt 0x030) = field p 48 8 ∧ regB t (aPt 0x038) 0 = true ∧ t.mem = v.mem)) ∧
      (FrameHeard s x f 0x25 v →
        (f.src ≠ pacerUid v ∨ v.upd.state = .armed → exec (.updAbort x f) s = .next v) ∧
        (f.src = pacerUid v → v.upd.state ≠ .armed → v.upd.claim = some u →
          ∃ t, exec (.updAbort x f) s = .next t ∧ t = { v with upd := t.upd } ∧ t.upd.withdrawn = v.upd.withdrawn ++ [digest] ∧
            (u.digest = digest → t.upd.claim = none ∧ t.upd.state = .idle) ∧
            (u.digest ≠ digest → t.upd.claim = v.upd.claim ∧ t.upd.state = v.upd.state)))) ∧
  (∀ (s : State) (x next sent : Nat) (u : FwSet) (r : BitVec 128 × List Byte × Nat), hubBUp s = true →
      (s.upd.candidate = none → s.upd.claim = some u → s.upd.state = .staging → s.upd.built = false →
        ∃ t, exec .updTimeout s = .next t ∧ t.upd.claim = none ∧ t.upd.state = .idle ∧ t.mem = s.mem) ∧
      (s.upd.candidate = none → s.upd.claim = none → exec .updTimeout s = .next s) ∧
      (smGet s.upd.forward x none = some (next, sent) →
        ∃ t, exec (.forwardResend x) s = .next t ∧ t.mem = s.mem ∧
          smGet t.upd.forward x none = some (next, max next (min (sendable s) (next + 64)))) ∧
      (smGet s.upd.forward x none = none → exec (.forwardResend x) s = .next s) ∧
      (isPacer s = true → s.upd.armedAny = false → s.upd.state ≠ .armed →
        (s.upd.reports.find? fun r => r.2.2 = rpStaged) = some r →
        ∃ t, exec .armWait s = .next t ∧ r.2.1 ∈ t.upd.withdrawn ∧ ∀ r' ∈ t.upd.reports, r'.2.1 ≠ r.2.1) ∧
      (isPacer s = false ∨ s.upd.armedAny = true → exec .armWait s = .next s) ∧
      (s.upd.state ≠ .armed ∨ regB s (aPt 0x038) 1 = false → exec .activation s = .next s) ∧
      (s.upd.state = .armed → regB s (aPt 0x038) 1 = true →
        (wheelIdle s ≠ all32 →
          let v := { s with upd := { s.upd with activating := true, late := false } }
          exec .activation s = .next (if qfOn s then setReg v (aQf 0x010) 0 else v)) ∧
        (wheelIdle s = all32 → busFree s 0 = false → s.upd.delayed = false →
          ∃ t, exec .activation s = .next t ∧ t.upd.delayed = true ∧ t.upd.activating = true ∧ t.upd.state = .armed ∧
            t.mem = s.mem ∧ t.flash = s.flash ∧ t.hubs = s.hubs) ∧
        (wheelIdle s = all32 → busFree s 0 = true →
          ∃ t, exec .activation s = .next t ∧ t.boot.measureLock = false ∧ t.boot.bootInfo = 0 ∧ t.hubs = [] ∧
            (core t hubA).run = .running ∧ (core t hubB).run = .reset)))

/-! ### The firewall (R446 to R451) -/

/-- The oldest violation reaches the firewall: it freezes its master, closes Lantern's session, or is late, or finds it
frozen, or is a Hub core's or the queue fabric's and resets the device; an unfreeze needs a reset in between. -/
def Obligations.ViolationsFreezeTheirMaster : Prop :=
  ∀ (s : State) (v : Violation) (rest : List Violation) (w : W32),
    let m := fld w 0 11
    let s' := { s with fw := { s.fw with pending := rest } }
    (s.fw.pending = [] → exec .freeze s = .next s) ∧
    (s.fw.pending = v :: rest → v.addr < 2 ^ 64 →
      (isSpoke v.master = true ∨ isGk v.master = true ∨ isFunc v.master = true ∨ v.master = 0x410 ∨ v.master = 0x411 →
        isStale s v = false → isFrozen s v.master = false →
        ∃ t, exec .freeze s = .next t ∧ isFrozen t v.master = true ∧ resetSince t v.master = false ∧
          reg t (aFw 0x010) = w32 (v.kind <<< 24 + v.master) ∧ regPair t (aFw 0x014) = v.addr ∧ regB t (aFw 0x004) 0 = true ∧
          (isFunc v.master = true → t.cores = s.cores ∧ t.mem = s.mem)) ∧
      (v.master = lantern → isStale s v = false →
        ∃ t, exec .freeze s = .next t ∧ t.lc.session = none ∧ resetCountOf t lantern = resetCountOf s lantern + 1 ∧
          reg t (aFw 0x010) = w32 (v.kind <<< 24 + lantern) ∧ regPair t (aFw 0x014) = v.addr) ∧
      (v.master = lantern → isStale s v = true → exec .freeze s = .next s') ∧
      (isHub v.master = false → v.master ≠ qfDma → v.master ≠ lantern → isStale s v = true →
        ∃ t, exec .freeze s = .next t ∧ reg t (aFw 0x010) = w32 (v.kind <<< 24 + 1 <<< 20 + v.master) ∧ t.cores = s.cores ∧
          t.fabric.funcs = s.fabric.funcs ∧ t.chain = s.chain ∧
          t.fw.pending = rest ∧ regPair t (aFw 0x014) = v.addr) ∧
      (isHub v.master = false → v.master ≠ qfDma → isStale s v = false → isFrozen s v.master = true →
        exec .freeze s = .next s') ∧
      (isHub v.master = true ∨ v.master = qfDma →
        ∃ t, exec .freeze s = .next t ∧ t.boot.phase = .sensing ∧ t.cores = [] ∧ t.fw = {} ∧
          t.fs.arrived.getLast? = some (islAon, { source := 0x43F, rtype := 0x0F2,
                                                  payload := w32 v.master :: w32 v.kind :: words64 v.addr, time := nowUs32 s }))) ∧
    (hubOn s = true →
      (isFrozen s m = false → exec (.unfreeze hubA w) s = .next (setReg s (aFw 0x024) 1)) ∧
      (isFrozen s m = true → resetSince s m = false → exec (.unfreeze hubA w) s = .next (setReg s (aFw 0x024) 2)) ∧
      (isFrozen s m = true → resetSince s m = true →
        ∃ t, exec (.unfreeze hubA w) s = .next t ∧ isFrozen t m = false ∧ reg t (aFw 0x024) = 0 ∧ t.mem = s.mem ∧
          ∀ n, n ≠ m → isFrozen t n = isFrozen s n) ∧
      exec (.unfreeze hubB w) s = .next (violate s hubB vWindow (aFw 0x020)))

/-! ### Flowstone (R452 to R465) -/

/-- Records arrive with their time, wait in order, and are stored with a pad at the array's end; without room they are counted. -/
def Obligations.RecordsReachTheArray : Prop :=
  ∀ (s : State) (island i : Nat) (r : Record) (before rest : List (Nat × Record)) (rs : List Record),
    let here : Record := { r with time := nowUs32 s, lost := r.lost || s.fs.holdLost }
    let wr := fsWr s
    let lost := r.lost || fsFull s || s.fs.lostPending
    let bytes := fitBytes r.space (wordBytes (r.words lost))
    let stored := fun (t : State) (at' : Nat) =>
      rdBytes t (fsWindow + at') r.space = bytes ∧ fsWr t = (at' + r.space) % fsSize ∧ fsRd t = fsRd s ∧ fsFull t = false ∧
        t.fs.lostPending = false ∧ t.cores = s.cores
    (s.fs.raised = before ++ (island, r) :: rest → (∀ e ∈ before, e.1 ≠ island) →
      (fsFrozen s = false →
        exec (.recordArrival island) s = .next { s with fs := { s.fs with
          raised := before ++ rest, arrived := s.fs.arrived ++ [(island, here)], holdLost := false } }) ∧
      (fsFrozen s = true → fifoLevel s + r.space ≤ 4096 →
        exec (.recordArrival island) s = .next { s with fs := { s.fs with
          raised := before ++ rest, fifo := s.fs.fifo ++ [{ here with merged := true }], holdLost := false } })) ∧
    ((∀ e ∈ s.fs.raised, e.1 ≠ island) → exec (.recordArrival island) s = .next s) ∧
    (fsFrozen s = true → exec .recordStore s = .next s) ∧
    (fsFrozen s = false → s.fs.merging = false → s.fs.arrived = [] → exec .recordStore s = .next s) ∧
    (fsFrozen s = false → s.fs.merging = false → s.fs.arrived = (i, r) :: rest →
      (wr + r.space ≤ fsSize → fsDist s wr + r.space + 8 ≤ fsSize →
        ∃ t, exec .recordStore s = .next t ∧ t.fs.arrived = rest ∧ stored t wr ∧
          ∀ a, a < fsWindow + wr ∨ fsWindow + wr + r.space ≤ a → rdByte t a = rdByte s a) ∧
      (wr < fsSize → fsSize < wr + r.space → fsDist s wr + (fsSize - wr) + r.space + 8 ≤ fsSize →
        ∃ t, exec .recordStore s = .next t ∧ t.fs.arrived = rest ∧ stored t 0) ∧
      (wr + r.space ≤ fsSize → fsSize < fsDist s wr + r.space + 8 →
        ∃ t, exec .recordStore s = .next t ∧ t.fs.arrived = rest ∧ t.mem = s.mem ∧ fsFull t = true ∧ fsWr t = wr ∧
          reg t (aFs 0x00C) = if reg s (aFs 0x00C) = all32 then all32 else reg s (aFs 0x00C) + 1)) ∧
    (fsFrozen s = false → s.fs.merging = true → s.fs.fifo = r :: rs → wr + r.space ≤ fsSize →
      fsDist s wr + r.space + 8 ≤ fsSize →
      ∃ t, exec .recordStore s = .next t ∧ t.fs.fifo = rs ∧ t.fs.arrived = s.fs.arrived ∧ stored t wr)

/-- Freezes, thaws, the merge and its end, release, commits, the drop count and software's own records; a master that is no Hub
core is refused. -/
def Obligations.RecorderCommandsComplete : Prop :=
  ∀ (s : State) (m : Nat) (v : W32) (release : Bool),
    let other := if m = hubA then hubB else hubA
    let sum := (reg s (aFs 0x00C)).toNat + (reg s (aFs 0x02C)).toNat
    let thawed := fun (t : State) => fsFrozen t = false ∧ reg t (aFs 0x02C) = 0 ∧ reg t (aFs 0x00C) = w32 (min sum (2 ^ 32 - 1)) ∧
      t.fs.merging = !s.fs.fifo.isEmpty ∧ t.fs.fifo = s.fs.fifo ∧ t.mem = s.mem
    let inRing := v.toNat % 8 = 0 ∧ v.toNat < fsSize ∧ fsDist s v.toNat ≤ fsDist s (fsWr s)
    let h := smGet s.fs.swHeader m 0
    (isHub m = true →
      (∃ t, exec (.fsFreeze m) s = .next t ∧ regB t (aFs 0x000) (holdBit m) = true ∧ fsFrozen t = true ∧ t.fs.merging = false ∧
        t.fs.arrived = [] ∧ t.fs.raised = s.fs.raised ∧ t.mem = s.mem) ∧
      (fsFrozen s = false → exec (.fsThaw m) s = .next s) ∧
      (fsFrozen s = true → regB s (aFs 0x000) (holdBit other) = true →
        exec (.fsThaw m) s = .next (setRegB s (aFs 0x000) (holdBit m) false)) ∧
      (fsFrozen s = true → regB s (aFs 0x000) (holdBit other) = false → ∃ t, exec (.fsThaw m) s = .next t ∧ thawed t) ∧
      (¬inRing → exec (.fsRelease m v) s = .next (setReg s (aFs 0x018) 1)) ∧
      (inRing → commitActive s = true → exec (.fsRelease m v) s = .next (setReg s (aFs 0x018) 2)) ∧
      (inRing → commitActive s = false →
        exec (.fsRelease m v) s = .next (setReg (setReg s (aFs 0x008) v) (aFs 0x018) 0)) ∧
      (commitActive s = true → exec (.commit m) s = .next (setReg s (aFs 0x018) 2)) ∧
      (commitActive s = false →
        ∃ t, exec (.commit m) s = .next t ∧ commitActive t = true ∧ reg t (aFs 0x020) = reg s (aFs 0x008) ∧
          reg t (aFs 0x024) = reg s (aFs 0x004) ∧ reg t (aFs 0x018) = 0 ∧
          t = { s with regs := t.regs, out := s.out ++ [.hubInt "INT_FS_COMMIT" 0] }) ∧
      (commitActive s = false → exec (.commitDone m release) s = .next s) ∧
      (commitActive s = true →
        ∃ t, exec (.commitDone m release) s = .next t ∧ t = { s with regs := t.regs } ∧ commitActive t = false ∧
          reg t (aFs 0x008) = (if release then reg s (aFs 0x024) else reg s (aFs 0x008)) ∧ reg t (aFs 0x018) = 0) ∧
      exec (.droppedClr m) s = .next (setReg s (aFs 0x00C) 0) ∧
      (2 ≤ fld h 12 7 → fld h 12 7 ≤ 66 →
        exec (.fsSwGo m) s = .next (emit s islHub m (fld h 0 12)
          ((List.range (fld h 12 7 - 2)).map fun i => smGet s.fs.swData (m * 64 + i) 0))) ∧
      (fld h 12 7 < 2 ∨ 66 < fld h 12 7 → exec (.fsSwGo m) s = .next s)) ∧
    (isHub m = false → exec (.fsFreeze m) s = .next (violate s m vWindow (aFs 0x010)) ∧
      exec (.fsRelease m v) s = .next (violate s m vWindow (aFs 0x014))) ∧
    (s.fs.merging = true → s.fs.fifo = [] → exec .mergeEnd s = .next { s with fs := { s.fs with merging := false } }) ∧
    (s.fs.merging = false ∨ s.fs.fifo ≠ [] → exec .mergeEnd s = .next s) ∧
    (fsFrozen s = false → exec .freezeTimeout s = .next s) ∧
    (fsFrozen s = true → ∃ t, exec .freezeTimeout s = .next t ∧ thawed t ∧ regB t (aFs 0x000) 25 = true)

/-! ### Encodings (R41 to R48, R69 to R92) -/

/-- Every instruction of the core that has a 32-bit or a 16-bit form is read back from the word of that form, with every
operand at every value; bit 15 tells the two widths apart. -/
def Obligations.SpokeEncodingsRoundTrip : Prop :=
  ∀ op : SpokeOp,
    (longOk op = true → decodeLong (encodeLong op) = op ∧ (encodeLong op).getLsbD 15 = true) ∧
    (shortOk op = true → decodeShort (encodeShort op) = op ∧ (encodeShort op).getLsbD 15 = false)

/-- A word that decodes to an instruction is that instruction's own word: a reserved field that is not zero never decodes. -/
def Obligations.UnreservedWordsAreCanonical : Prop :=
  (∀ w : W32, w.getLsbD 15 = true → (∀ p, decodeLong w ≠ .reserved p) →
    longOk (decodeLong w) = true ∧ encodeLong (decodeLong w) = w) ∧
  (∀ h : BitVec 16, h.getLsbD 15 = false → (∀ p, decodeShort h ≠ .reserved p) →
    shortOk (decodeShort h) = true ∧ encodeShort (decodeShort h) = h)

/-! ### The whole machine -/

/-- After reset: nothing waits, the device is held, every register of the tables holds its reset value, memory reads zero and
is in its canonical form, every domain is off, every platform held, every core in reset. -/
def Obligations.ResetIsAsStated : Prop :=
  let r := State.reset
  r.pending = [] ∧ r.boot.phase = .held ∧ Memory.wf r.mem = true ∧ (∀ a, rdByte r a = 0) ∧ (∀ a, reg r a = regReset a) ∧
  (∀ d, domState r d = .off) ∧ (∀ p, p < 4 → released r p = false) ∧ (∀ c, core r c = coreReset c ∧ (core r c).run = .reset) ∧
  (∀ b, b < 192 → reg r (ownerAddr b) = 0x200) ∧
  reg r (aPwr 0x020) = 0x48000000 ∧ reg r (aPwr 0x100) = 1120 ∧ reg r (aPwr 0x114) = 100 ∧ reg r (aPt 0x010) = all32 ∧
  reg r (aPt 0x018) = 1000 ∧ reg r (aFs 0x028) = 1000 ∧ reg r (aQf 0x00C) = 20000 ∧ reg r (aQf 0x010) = 0 ∧
  reg r (aI3c 0x000) = 0x804C0000

/-- Memory keeps its canonical form: addresses strictly rising, no listed byte equal to zero. Every command and every cycle keeps
it, from every state, reached or not. -/
def Obligations.MemoryStaysCanonical : Prop :=
  ∀ s t : State, Memory.wf s.mem = true → step s = .next t → Memory.wf t.mem = true

/-- Every command completes from every state: none faults and none is refused, whatever its operands, also where its effect is to
be turned away (a trap, a violation, an answer with an error). The model's own consequence of the rules: the spec gives every row
of the table an effect. What each command does is in the statements above. -/
def Obligations.EveryCommandCompletes : Prop :=
  ∀ (i : Instr) (s : State), ∃ t, exec i s = .next t
end

