-- ==== Sys2Proof/Laws/Maps.lean ====
section
/-! SUPPORT. Maps with a default: what a read gives after each change, and that each change keeps the canonical form. -/

namespace Sys2Proof.Machine

variable {β : Type}

/-! ### Reads -/

theorem smGet_smDel_same (m : SMap β) (k : Nat) (d : β) : smGet (smDel m k) k d = d := by
  induction m with
  | nil => rfl
  | cons e m ih =>
    obtain ⟨j, v⟩ := e
    by_cases h : j = k
    · simp only [smDel, h, List.filter_cons] at ih ⊢
      simpa using ih
    · simpa [smDel, h, smGet, Ne.symm h] using ih

theorem smGet_smDel_other (m : SMap β) {k j : Nat} (h : j ≠ k) (d : β) : smGet (smDel m k) j d = smGet m j d := by
  induction m with
  | nil => rfl
  | cons e m ih =>
    obtain ⟨i, v⟩ := e
    by_cases hi : i = k
    · subst hi
      simpa [smDel, smGet, h] using ih
    · by_cases hj : j = i
      · simp [smDel, hi, smGet, hj]
      · simpa [smDel, hi, smGet, hj] using ih

theorem smGet_smIns_same (m : SMap β) (k : Nat) (d v : β) : smGet (smIns m k v) k d = v := by
  induction m with
  | nil => simp [smIns, smGet]
  | cons e m ih =>
    obtain ⟨j, w⟩ := e
    unfold smIns
    split
    · simp [smGet]
    · split
      · simp [smGet]
      · simp [smGet, *]

theorem smGet_smIns_other (m : SMap β) {k j : Nat} (h : j ≠ k) (d v : β) : smGet (smIns m k v) j d = smGet m j d := by
  induction m with
  | nil => simp [smIns, smGet, h]
  | cons e m ih =>
    obtain ⟨i, w⟩ := e
    unfold smIns
    split
    · simp [smGet, h]
    · split
      · next hk => subst hk; simp [smGet, h]
      · by_cases hj : j = i
        · simp [smGet, hj]
        · simpa [smGet, hj] using ih

@[simp] theorem smGet_smSet_same [DecidableEq β] (m : SMap β) (k : Nat) (d v : β) : smGet (smSet m k d v) k d = v := by
  unfold smSet
  split
  · next h => subst h; exact smGet_smDel_same m k v
  · exact smGet_smIns_same m k d v

theorem smGet_smSet_other [DecidableEq β] (m : SMap β) {k j : Nat} (h : j ≠ k) (d d' v : β) :
    smGet (smSet m k d v) j d' = smGet m j d' := by
  unfold smSet
  split
  · exact smGet_smDel_other m h d'
  · exact smGet_smIns_other m h d' v

theorem smGet_smDrop (m : SMap β) (lo hi k : Nat) (d : β) :
    smGet (smDrop m lo hi) k d = if lo ≤ k ∧ k < hi then d else smGet m k d := by
  induction m with
  | nil => simp [smDrop, smGet]
  | cons e m ih =>
    obtain ⟨j, v⟩ := e
    simp only [smDrop, List.filter_cons] at ih ⊢
    by_cases hj : k = j
    · subst hj
      by_cases hin : lo ≤ k ∧ k < hi
      · have hd : (decide (k < lo) || decide (hi ≤ k)) = false := by simp; omega
        simp only [hd, hin, and_self, if_true] at ih ⊢
        simpa using ih
      · have hd : (decide (k < lo) || decide (hi ≤ k)) = true := by simp; omega
        simp [hd, hin, smGet]
    · split
      · simp only [smGet, hj, if_false]
        exact ih
      · rw [ih]
        simp [smGet, hj]

/-! ### The canonical form -/

section
variable [DecidableEq β] {d : Nat → β}

theorem smWf_cons {k : Nat} {v : β} {m : SMap β} :
    smWf d ((k, v) :: m) = true ↔ (∀ e ∈ m, k < e.1) ∧ v ≠ d k ∧ smWf d m = true := by
  simp [smWf, and_assoc]

theorem smWf_filter (p : Nat × β → Bool) {m : SMap β} (h : smWf d m = true) : smWf d (m.filter p) = true := by
  induction m with
  | nil => rfl
  | cons e m ih =>
    obtain ⟨k, v⟩ := e
    obtain ⟨h1, h2, h3⟩ := smWf_cons.mp h
    rw [List.filter_cons]
    split
    · exact smWf_cons.mpr ⟨fun e he => h1 e (List.mem_of_mem_filter he), h2, ih h3⟩
    · exact ih h3

theorem smWf_smDel {m : SMap β} (k : Nat) (h : smWf d m = true) : smWf d (smDel m k) = true := smWf_filter _ h

theorem smWf_smDrop {m : SMap β} (lo hi : Nat) (h : smWf d m = true) : smWf d (smDrop m lo hi) = true := smWf_filter _ h

omit [DecidableEq β] in
theorem mem_smIns {m : SMap β} {k : Nat} {v : β} {e : Nat × β} (h : e ∈ smIns m k v) : e = (k, v) ∨ e ∈ m := by
  induction m with
  | nil => simpa [smIns] using h
  | cons x m ih =>
    obtain ⟨j, w⟩ := x
    unfold smIns at h
    split at h
    · simpa using h
    · split at h
      · rcases List.mem_cons.mp h with h | h
        · exact .inl h
        · exact .inr (List.mem_cons_of_mem _ h)
      · rcases List.mem_cons.mp h with h | h
        · exact .inr (h ▸ List.mem_cons_self)
        · exact (ih h).imp_right (List.mem_cons_of_mem _)

theorem smWf_smIns {m : SMap β} {k : Nat} {v : β} (hv : v ≠ d k) (h : smWf d m = true) : smWf d (smIns m k v) = true := by
  induction m with
  | nil => exact smWf_cons.mpr ⟨by simp, hv, rfl⟩
  | cons e m ih =>
    obtain ⟨j, w⟩ := e
    obtain ⟨h1, h2, h3⟩ := smWf_cons.mp h
    unfold smIns
    split
    · next hk =>
      refine smWf_cons.mpr ⟨fun e he => ?_, hv, h⟩
      rcases List.mem_cons.mp he with rfl | he
      · exact hk
      · exact lt_trans hk (h1 e he)
    · split
      · next hk => subst hk; exact smWf_cons.mpr ⟨h1, hv, h3⟩
      · next hlt hne =>
        refine smWf_cons.mpr ⟨fun e he => ?_, h2, ih h3⟩
        rcases mem_smIns he with rfl | he
        · have := Nat.lt_of_le_of_ne (Nat.not_lt.mp hlt) (Ne.symm hne)
          exact this
        · exact h1 e he

theorem smWf_smSet {m : SMap β} (k : Nat) (v : β) (h : smWf d m = true) : smWf d (smSet m k (d k) v) = true := by
  unfold smSet
  split
  · exact smWf_smDel k h
  · next hv => exact smWf_smIns hv h

omit [DecidableEq β] in
theorem smGet_of_lt {m : SMap β} {k : Nat} (h : ∀ e ∈ m, k < e.1) (x : β) : smGet m k x = x := by
  induction m with
  | nil => rfl
  | cons e m ih =>
    obtain ⟨j, v⟩ := e
    have hj : k ≠ j := Nat.ne_of_lt (h (j, v) List.mem_cons_self)
    simp only [smGet, hj, if_false]
    exact ih fun e he => h e (List.mem_cons_of_mem _ he)

/-- Canonical maps that read the same are the same data. -/
theorem smWf_ext {m n : SMap β} (hm : smWf d m = true) (hn : smWf d n = true)
    (h : ∀ k, smGet m k (d k) = smGet n k (d k)) : m = n := by
  induction m generalizing n with
  | nil =>
    cases n with
    | nil => rfl
    | cons e n =>
      obtain ⟨j, w⟩ := e
      exact absurd (by simpa [smGet] using (h j).symm) (smWf_cons.mp hn).2.1
  | cons e m ih =>
    obtain ⟨k, v⟩ := e
    obtain ⟨m1, m2, m3⟩ := smWf_cons.mp hm
    cases n with
    | nil => exact absurd (by simpa [smGet] using h k) m2
    | cons e n =>
      obtain ⟨j, w⟩ := e
      obtain ⟨n1, n2, n3⟩ := smWf_cons.mp hn
      have hkj : k = j := by
        rcases Nat.lt_trichotomy k j with hlt | heq | hgt
        · refine absurd ?_ m2
          have := h k
          rw [smGet, if_pos rfl, smGet_of_lt (m := (j, w) :: n)] at this
          · exact this
          · intro e he
            rcases List.mem_cons.mp he with rfl | he
            · exact hlt
            · exact lt_trans hlt (n1 e he)
        · exact heq
        · refine absurd ?_ n2
          have := h j
          rw [smGet_of_lt (m := (k, v) :: m), smGet, if_pos rfl] at this
          · exact this.symm
          · intro e he
            rcases List.mem_cons.mp he with rfl | he
            · exact hgt
            · exact lt_trans hgt (m1 e he)
      subst hkj
      have hv : v = w := by simpa [smGet] using h k
      subst hv
      congr 1
      refine ih m3 n3 fun i => ?_
      by_cases hi : i = k
      · subst hi; rw [smGet_of_lt m1, smGet_of_lt n1]
      · simpa [smGet, hi] using h i

end

end Sys2Proof.Machine
end

