-- ==== Sys2Proof/Laws/Memory.lean ====
section
/-! SUPPORT. Device memory: what a byte reads after each operation, and that every operation keeps the canonical form. -/

namespace Sys2Proof.Machine

/-! ### Reads -/

@[simp] theorem rdByte_wrByte_same (s : State) (a : Nat) (v : Byte) : rdByte (wrByte s a v) a = v := by
  simp [rdByte, wrByte]

theorem rdByte_wrByte_other (s : State) {a b : Nat} (h : b ≠ a) (v : Byte) : rdByte (wrByte s a v) b = rdByte s b := by
  simp [rdByte, wrByte, smGet_smSet_other _ h]

/-- A run of bytes written from `a` leaves every byte outside `[a, a + length)`. -/
theorem rdByte_wrBytes_other (bs : List Byte) (s : State) {a b : Nat} (h : b < a ∨ a + bs.length ≤ b) :
    rdByte (wrBytes s a bs) b = rdByte s b := by
  induction bs generalizing s a with
  | nil => rfl
  | cons x bs ih =>
    simp only [List.length_cons] at h
    rw [wrBytes, ih _ (by omega), rdByte_wrByte_other _ (by omega)]

theorem rdByte_wrBytes (bs : List Byte) (s : State) (a i : Nat) (h : i < bs.length) :
    rdByte (wrBytes s a bs) (a + i) = bs[i] := by
  induction bs generalizing s a i with
  | nil => simp at h
  | cons x bs ih =>
    cases i with
    | zero =>
      rw [wrBytes, rdByte_wrBytes_other _ _ (by omega)]
      simp
    | succ i =>
      have := ih (wrByte s a x) (a + 1) i (by simpa using h)
      rw [wrBytes, show a + (i + 1) = a + 1 + i by omega, this]
      simp

@[simp] theorem length_leBytes (n v : Nat) : (leBytes n v).length = n := by
  induction n generalizing v with
  | zero => rfl
  | succ n ih => simp [leBytes, ih]

theorem rdByte_wrMem_other (s : State) {a n b : Nat} (v : Nat) (h : b < a ∨ a + n ≤ b) :
    rdByte (wrMem s a n v) b = rdByte s b := rdByte_wrBytes_other _ _ (by simpa using h)

theorem rdBytes_congr {s t : State} (n a : Nat) (h : ∀ i < n, rdByte s (a + i) = rdByte t (a + i)) :
    rdBytes s a n = rdBytes t a n := by
  induction n generalizing a with
  | zero => rfl
  | succ n ih =>
    rw [rdBytes, rdBytes, show rdByte s a = rdByte t a from h 0 (by omega), ih (a + 1)]
    intro i hi
    have := h (i + 1) (by omega)
    rwa [show a + (i + 1) = a + 1 + i by omega] at this

theorem rdBytes_wrBytes (bs : List Byte) (s : State) (a : Nat) : rdBytes (wrBytes s a bs) a bs.length = bs := by
  induction bs generalizing s a with
  | nil => rfl
  | cons x bs ih =>
    have hx : rdByte (wrBytes (wrByte s a x) (a + 1) bs) a = x := by
      rw [rdByte_wrBytes_other _ _ (by omega)]; simp
    simp only [List.length_cons, wrBytes, rdBytes, hx, ih]

theorem leNat_leBytes (n v : Nat) : leNat (leBytes n v) = v % 2 ^ (8 * n) := by
  induction n generalizing v with
  | zero => simp [leBytes, leNat, Nat.mod_one]
  | succ n ih =>
    simp only [leBytes, leNat, ih, BitVec.toNat_ofNat]
    rw [show 2 ^ (8 * (n + 1)) = 256 * 2 ^ (8 * n) by rw [Nat.mul_add, pow_add]; ring, Nat.mod_mul]

/-- A value written is the value read. -/
theorem rdMem_wrMem (s : State) (a n v : Nat) : rdMem (wrMem s a n v) a n = v % 2 ^ (8 * n) := by
  have h := rdBytes_wrBytes (leBytes n v) s a
  rw [length_leBytes] at h
  rw [rdMem, wrMem, h, leNat_leBytes]

theorem rdByte_wipeMem (s : State) (lo hi a : Nat) : rdByte (wipeMem s lo hi) a = if lo ≤ a ∧ a < hi then 0 else rdByte s a := by
  simp only [rdByte, wipeMem, smGet_smDrop]

/-! ### The canonical form -/

theorem wrByte_wf {s : State} (a : Nat) (v : Byte) (h : Memory.wf s.mem = true) : Memory.wf (wrByte s a v).mem = true :=
  smWf_smSet (d := fun _ => (0 : Byte)) a v h

theorem wrBytes_wf (bs : List Byte) {s : State} (a : Nat) (h : Memory.wf s.mem = true) :
    Memory.wf (wrBytes s a bs).mem = true := by
  induction bs generalizing s a with
  | nil => exact h
  | cons x bs ih => exact ih _ (wrByte_wf a x h)

theorem wrMem_wf {s : State} (a n v : Nat) (h : Memory.wf s.mem = true) : Memory.wf (wrMem s a n v).mem = true :=
  wrBytes_wf _ _ h

theorem wipeMem_wf {s : State} (lo hi : Nat) (h : Memory.wf s.mem = true) : Memory.wf (wipeMem s lo hi).mem = true :=
  smWf_smDrop lo hi h

theorem reset_memory_wf : Memory.wf State.reset.mem = true := rfl

end Sys2Proof.Machine
end

