-- ==== Sys2Proof/Laws/Crypto.lean ====
section
/-! SUPPORT. Lengths of SHA-2 digests. -/

namespace Sys2Proof.Laws

open Sys2Proof.Machine

theorem length_sha2Rounds (p : Sha2) (l : List Nat) : ∀ st : List Nat × List Nat, st.1.length = 8 →
    (l.foldl (sha2Round p) st).1.length = 8 := by
  induction l with
  | nil => intro st h; exact h
  | cons i l ih => intro st _; exact ih _ rfl

theorem length_sha2Block (p : Sha2) (mid block : List Byte) : (sha2Block p mid block).length = 8 * (p.w / 8) := by
  have h := length_sha2Rounds p (List.range p.rounds) (beWords (p.w / 8) mid 8, beWords (p.w / 8) block 16) (by simp [beWords])
  simp only [sha2Block, List.length_flatMap, beBytes, List.length_reverse, length_leBytes]
  simp [beWords, List.length_zip]
  rw [← beWords, ← beWords, h]; simp

/-- A chaining value that is 32 bytes long stays so. -/
theorem length_algBlocks : ∀ (n : Nat) (mid bs : List Byte), mid.length = 32 → (algBlocks 1 n mid bs).1.length = 32
  | 0, _, _, h => h
  | n + 1, mid, bs, h => by
    unfold algBlocks
    split
    · exact h
    · exact length_algBlocks n _ _ (length_sha2Block sha256P _ _)

theorem length_sha256 (d : List Byte) : (sha256 d).length = 32 := by
  have h := length_algBlocks (d.length / algBlock 1) (algInit 1) d (by decide +kernel)
  have e : ∀ mid rest, mid.length = 32 → (algFinal 1 mid rest d.length 32).length = 32 := fun mid rest hm => by
    have := length_algBlocks ((algPad 1 rest d.length).length / algBlock 1) mid (algPad 1 rest d.length) hm
    simp [algFinal, algAbsorb, algDigest, algShake, this]
  exact e _ _ h

end Sys2Proof.Laws
end

