-- ==== Sys2Proof/Laws/State.lean ====
section
/-! SUPPORT. One lemma per field and per update of the state: an update leaves every field but its own. -/

namespace Sys2Proof.Machine


@[simp] theorem setReg_pending (s : State) (a : Nat) (v : W32) : (setReg s a v).pending = s.pending := rfl
@[simp] theorem setReg_draws (s : State) (a : Nat) (v : W32) : (setReg s a v).draws = s.draws := rfl
@[simp] theorem setReg_ticks (s : State) (a : Nat) (v : W32) : (setReg s a v).ticks = s.ticks := rfl
@[simp] theorem setReg_out (s : State) (a : Nat) (v : W32) : (setReg s a v).out = s.out := rfl
@[simp] theorem setReg_mem (s : State) (a : Nat) (v : W32) : (setReg s a v).mem = s.mem := rfl
@[simp] theorem setReg_flash (s : State) (a : Nat) (v : W32) : (setReg s a v).flash = s.flash := rfl
@[simp] theorem setReg_shadows (s : State) (a : Nat) (v : W32) : (setReg s a v).shadows = s.shadows := rfl
@[simp] theorem setReg_cores (s : State) (a : Nat) (v : W32) : (setReg s a v).cores = s.cores := rfl
@[simp] theorem setReg_hubs (s : State) (a : Nat) (v : W32) : (setReg s a v).hubs = s.hubs := rfl
@[simp] theorem setReg_wdma (s : State) (a : Nat) (v : W32) : (setReg s a v).wdma = s.wdma := rfl
@[simp] theorem setReg_wdmaNext (s : State) (a : Nat) (v : W32) : (setReg s a v).wdmaNext = s.wdmaNext := rfl
@[simp] theorem setReg_bankNext (s : State) (a : Nat) (v : W32) : (setReg s a v).bankNext = s.bankNext := rfl
@[simp] theorem setReg_starved (s : State) (a : Nat) (v : W32) : (setReg s a v).starved = s.starved := rfl
@[simp] theorem setReg_cranks (s : State) (a : Nat) (v : W32) : (setReg s a v).cranks = s.cranks := rfl
@[simp] theorem setReg_lanes (s : State) (a : Nat) (v : W32) : (setReg s a v).lanes = s.lanes := rfl
@[simp] theorem setReg_chamber (s : State) (a : Nat) (v : W32) : (setReg s a v).chamber = s.chamber := rfl
@[simp] theorem setReg_otp (s : State) (a : Nat) (v : W32) : (setReg s a v).otp = s.otp := rfl
@[simp] theorem setReg_lc (s : State) (a : Nat) (v : W32) : (setReg s a v).lc = s.lc := rfl
@[simp] theorem setReg_boot (s : State) (a : Nat) (v : W32) : (setReg s a v).boot = s.boot := rfl
@[simp] theorem setReg_platforms (s : State) (a : Nat) (v : W32) : (setReg s a v).platforms = s.platforms := rfl
@[simp] theorem setReg_ports (s : State) (a : Nat) (v : W32) : (setReg s a v).ports = s.ports := rfl
@[simp] theorem setReg_fabric (s : State) (a : Nat) (v : W32) : (setReg s a v).fabric = s.fabric := rfl
@[simp] theorem setReg_svc (s : State) (a : Nat) (v : W32) : (setReg s a v).svc = s.svc := rfl
@[simp] theorem setReg_rcv (s : State) (a : Nat) (v : W32) : (setReg s a v).rcv = s.rcv := rfl
@[simp] theorem setReg_chain (s : State) (a : Nat) (v : W32) : (setReg s a v).chain = s.chain := rfl
@[simp] theorem setReg_time (s : State) (a : Nat) (v : W32) : (setReg s a v).time = s.time := rfl
@[simp] theorem setReg_upd (s : State) (a : Nat) (v : W32) : (setReg s a v).upd = s.upd := rfl
@[simp] theorem setReg_fs (s : State) (a : Nat) (v : W32) : (setReg s a v).fs = s.fs := rfl
@[simp] theorem setReg_fw (s : State) (a : Nat) (v : W32) : (setReg s a v).fw = s.fw := rfl
@[simp] theorem setReg_gov (s : State) (a : Nat) (v : W32) : (setReg s a v).gov = s.gov := rfl
@[simp] theorem setReg_pwr (s : State) (a : Nat) (v : W32) : (setReg s a v).pwr = s.pwr := rfl
@[simp] theorem setReg_pins (s : State) (a : Nat) (v : W32) : (setReg s a v).pins = s.pins := rfl
@[simp] theorem setReg_i3c (s : State) (a : Nat) (v : W32) : (setReg s a v).i3c = s.i3c := rfl
@[simp] theorem setReg_drip (s : State) (a : Nat) (v : W32) : (setReg s a v).drip = s.drip := rfl

@[simp] theorem setRegF_pending (s : State) (a lo len v : Nat) : (setRegF s a lo len v).pending = s.pending := rfl
@[simp] theorem setRegF_draws (s : State) (a lo len v : Nat) : (setRegF s a lo len v).draws = s.draws := rfl
@[simp] theorem setRegF_ticks (s : State) (a lo len v : Nat) : (setRegF s a lo len v).ticks = s.ticks := rfl
@[simp] theorem setRegF_out (s : State) (a lo len v : Nat) : (setRegF s a lo len v).out = s.out := rfl
@[simp] theorem setRegF_mem (s : State) (a lo len v : Nat) : (setRegF s a lo len v).mem = s.mem := rfl
@[simp] theorem setRegF_flash (s : State) (a lo len v : Nat) : (setRegF s a lo len v).flash = s.flash := rfl
@[simp] theorem setRegF_shadows (s : State) (a lo len v : Nat) : (setRegF s a lo len v).shadows = s.shadows := rfl
@[simp] theorem setRegF_cores (s : State) (a lo len v : Nat) : (setRegF s a lo len v).cores = s.cores := rfl
@[simp] theorem setRegF_hubs (s : State) (a lo len v : Nat) : (setRegF s a lo len v).hubs = s.hubs := rfl
@[simp] theorem setRegF_wdma (s : State) (a lo len v : Nat) : (setRegF s a lo len v).wdma = s.wdma := rfl
@[simp] theorem setRegF_wdmaNext (s : State) (a lo len v : Nat) : (setRegF s a lo len v).wdmaNext = s.wdmaNext := rfl
@[simp] theorem setRegF_bankNext (s : State) (a lo len v : Nat) : (setRegF s a lo len v).bankNext = s.bankNext := rfl
@[simp] theorem setRegF_starved (s : State) (a lo len v : Nat) : (setRegF s a lo len v).starved = s.starved := rfl
@[simp] theorem setRegF_cranks (s : State) (a lo len v : Nat) : (setRegF s a lo len v).cranks = s.cranks := rfl
@[simp] theorem setRegF_lanes (s : State) (a lo len v : Nat) : (setRegF s a lo len v).lanes = s.lanes := rfl
@[simp] theorem setRegF_chamber (s : State) (a lo len v : Nat) : (setRegF s a lo len v).chamber = s.chamber := rfl
@[simp] theorem setRegF_otp (s : State) (a lo len v : Nat) : (setRegF s a lo len v).otp = s.otp := rfl
@[simp] theorem setRegF_lc (s : State) (a lo len v : Nat) : (setRegF s a lo len v).lc = s.lc := rfl
@[simp] theorem setRegF_boot (s : State) (a lo len v : Nat) : (setRegF s a lo len v).boot = s.boot := rfl
@[simp] theorem setRegF_platforms (s : State) (a lo len v : Nat) : (setRegF s a lo len v).platforms = s.platforms := rfl
@[simp] theorem setRegF_ports (s : State) (a lo len v : Nat) : (setRegF s a lo len v).ports = s.ports := rfl
@[simp] theorem setRegF_fabric (s : State) (a lo len v : Nat) : (setRegF s a lo len v).fabric = s.fabric := rfl
@[simp] theorem setRegF_svc (s : State) (a lo len v : Nat) : (setRegF s a lo len v).svc = s.svc := rfl
@[simp] theorem setRegF_rcv (s : State) (a lo len v : Nat) : (setRegF s a lo len v).rcv = s.rcv := rfl
@[simp] theorem setRegF_chain (s : State) (a lo len v : Nat) : (setRegF s a lo len v).chain = s.chain := rfl
@[simp] theorem setRegF_time (s : State) (a lo len v : Nat) : (setRegF s a lo len v).time = s.time := rfl
@[simp] theorem setRegF_upd (s : State) (a lo len v : Nat) : (setRegF s a lo len v).upd = s.upd := rfl
@[simp] theorem setRegF_fs (s : State) (a lo len v : Nat) : (setRegF s a lo len v).fs = s.fs := rfl
@[simp] theorem setRegF_fw (s : State) (a lo len v : Nat) : (setRegF s a lo len v).fw = s.fw := rfl
@[simp] theorem setRegF_gov (s : State) (a lo len v : Nat) : (setRegF s a lo len v).gov = s.gov := rfl
@[simp] theorem setRegF_pwr (s : State) (a lo len v : Nat) : (setRegF s a lo len v).pwr = s.pwr := rfl
@[simp] theorem setRegF_pins (s : State) (a lo len v : Nat) : (setRegF s a lo len v).pins = s.pins := rfl
@[simp] theorem setRegF_i3c (s : State) (a lo len v : Nat) : (setRegF s a lo len v).i3c = s.i3c := rfl
@[simp] theorem setRegF_drip (s : State) (a lo len v : Nat) : (setRegF s a lo len v).drip = s.drip := rfl

@[simp] theorem setRegB_pending (s : State) (a i : Nat) (v : Bool) : (setRegB s a i v).pending = s.pending := rfl
@[simp] theorem setRegB_draws (s : State) (a i : Nat) (v : Bool) : (setRegB s a i v).draws = s.draws := rfl
@[simp] theorem setRegB_ticks (s : State) (a i : Nat) (v : Bool) : (setRegB s a i v).ticks = s.ticks := rfl
@[simp] theorem setRegB_out (s : State) (a i : Nat) (v : Bool) : (setRegB s a i v).out = s.out := rfl
@[simp] theorem setRegB_mem (s : State) (a i : Nat) (v : Bool) : (setRegB s a i v).mem = s.mem := rfl
@[simp] theorem setRegB_flash (s : State) (a i : Nat) (v : Bool) : (setRegB s a i v).flash = s.flash := rfl
@[simp] theorem setRegB_shadows (s : State) (a i : Nat) (v : Bool) : (setRegB s a i v).shadows = s.shadows := rfl
@[simp] theorem setRegB_cores (s : State) (a i : Nat) (v : Bool) : (setRegB s a i v).cores = s.cores := rfl
@[simp] theorem setRegB_hubs (s : State) (a i : Nat) (v : Bool) : (setRegB s a i v).hubs = s.hubs := rfl
@[simp] theorem setRegB_wdma (s : State) (a i : Nat) (v : Bool) : (setRegB s a i v).wdma = s.wdma := rfl
@[simp] theorem setRegB_wdmaNext (s : State) (a i : Nat) (v : Bool) : (setRegB s a i v).wdmaNext = s.wdmaNext := rfl
@[simp] theorem setRegB_bankNext (s : State) (a i : Nat) (v : Bool) : (setRegB s a i v).bankNext = s.bankNext := rfl
@[simp] theorem setRegB_starved (s : State) (a i : Nat) (v : Bool) : (setRegB s a i v).starved = s.starved := rfl
@[simp] theorem setRegB_cranks (s : State) (a i : Nat) (v : Bool) : (setRegB s a i v).cranks = s.cranks := rfl
@[simp] theorem setRegB_lanes (s : State) (a i : Nat) (v : Bool) : (setRegB s a i v).lanes = s.lanes := rfl
@[simp] theorem setRegB_chamber (s : State) (a i : Nat) (v : Bool) : (setRegB s a i v).chamber = s.chamber := rfl
@[simp] theorem setRegB_otp (s : State) (a i : Nat) (v : Bool) : (setRegB s a i v).otp = s.otp := rfl
@[simp] theorem setRegB_lc (s : State) (a i : Nat) (v : Bool) : (setRegB s a i v).lc = s.lc := rfl
@[simp] theorem setRegB_boot (s : State) (a i : Nat) (v : Bool) : (setRegB s a i v).boot = s.boot := rfl
@[simp] theorem setRegB_platforms (s : State) (a i : Nat) (v : Bool) : (setRegB s a i v).platforms = s.platforms := rfl
@[simp] theorem setRegB_ports (s : State) (a i : Nat) (v : Bool) : (setRegB s a i v).ports = s.ports := rfl
@[simp] theorem setRegB_fabric (s : State) (a i : Nat) (v : Bool) : (setRegB s a i v).fabric = s.fabric := rfl
@[simp] theorem setRegB_svc (s : State) (a i : Nat) (v : Bool) : (setRegB s a i v).svc = s.svc := rfl
@[simp] theorem setRegB_rcv (s : State) (a i : Nat) (v : Bool) : (setRegB s a i v).rcv = s.rcv := rfl
@[simp] theorem setRegB_chain (s : State) (a i : Nat) (v : Bool) : (setRegB s a i v).chain = s.chain := rfl
@[simp] theorem setRegB_time (s : State) (a i : Nat) (v : Bool) : (setRegB s a i v).time = s.time := rfl
@[simp] theorem setRegB_upd (s : State) (a i : Nat) (v : Bool) : (setRegB s a i v).upd = s.upd := rfl
@[simp] theorem setRegB_fs (s : State) (a i : Nat) (v : Bool) : (setRegB s a i v).fs = s.fs := rfl
@[simp] theorem setRegB_fw (s : State) (a i : Nat) (v : Bool) : (setRegB s a i v).fw = s.fw := rfl
@[simp] theorem setRegB_gov (s : State) (a i : Nat) (v : Bool) : (setRegB s a i v).gov = s.gov := rfl
@[simp] theorem setRegB_pwr (s : State) (a i : Nat) (v : Bool) : (setRegB s a i v).pwr = s.pwr := rfl
@[simp] theorem setRegB_pins (s : State) (a i : Nat) (v : Bool) : (setRegB s a i v).pins = s.pins := rfl
@[simp] theorem setRegB_i3c (s : State) (a i : Nat) (v : Bool) : (setRegB s a i v).i3c = s.i3c := rfl
@[simp] theorem setRegB_drip (s : State) (a i : Nat) (v : Bool) : (setRegB s a i v).drip = s.drip := rfl

@[simp] theorem setPair_pending (s : State) (a v : Nat) : (setPair s a v).pending = s.pending := rfl
@[simp] theorem setPair_draws (s : State) (a v : Nat) : (setPair s a v).draws = s.draws := rfl
@[simp] theorem setPair_ticks (s : State) (a v : Nat) : (setPair s a v).ticks = s.ticks := rfl
@[simp] theorem setPair_out (s : State) (a v : Nat) : (setPair s a v).out = s.out := rfl
@[simp] theorem setPair_mem (s : State) (a v : Nat) : (setPair s a v).mem = s.mem := rfl
@[simp] theorem setPair_flash (s : State) (a v : Nat) : (setPair s a v).flash = s.flash := rfl
@[simp] theorem setPair_shadows (s : State) (a v : Nat) : (setPair s a v).shadows = s.shadows := rfl
@[simp] theorem setPair_cores (s : State) (a v : Nat) : (setPair s a v).cores = s.cores := rfl
@[simp] theorem setPair_hubs (s : State) (a v : Nat) : (setPair s a v).hubs = s.hubs := rfl
@[simp] theorem setPair_wdma (s : State) (a v : Nat) : (setPair s a v).wdma = s.wdma := rfl
@[simp] theorem setPair_wdmaNext (s : State) (a v : Nat) : (setPair s a v).wdmaNext = s.wdmaNext := rfl
@[simp] theorem setPair_bankNext (s : State) (a v : Nat) : (setPair s a v).bankNext = s.bankNext := rfl
@[simp] theorem setPair_starved (s : State) (a v : Nat) : (setPair s a v).starved = s.starved := rfl
@[simp] theorem setPair_cranks (s : State) (a v : Nat) : (setPair s a v).cranks = s.cranks := rfl
@[simp] theorem setPair_lanes (s : State) (a v : Nat) : (setPair s a v).lanes = s.lanes := rfl
@[simp] theorem setPair_chamber (s : State) (a v : Nat) : (setPair s a v).chamber = s.chamber := rfl
@[simp] theorem setPair_otp (s : State) (a v : Nat) : (setPair s a v).otp = s.otp := rfl
@[simp] theorem setPair_lc (s : State) (a v : Nat) : (setPair s a v).lc = s.lc := rfl
@[simp] theorem setPair_boot (s : State) (a v : Nat) : (setPair s a v).boot = s.boot := rfl
@[simp] theorem setPair_platforms (s : State) (a v : Nat) : (setPair s a v).platforms = s.platforms := rfl
@[simp] theorem setPair_ports (s : State) (a v : Nat) : (setPair s a v).ports = s.ports := rfl
@[simp] theorem setPair_fabric (s : State) (a v : Nat) : (setPair s a v).fabric = s.fabric := rfl
@[simp] theorem setPair_svc (s : State) (a v : Nat) : (setPair s a v).svc = s.svc := rfl
@[simp] theorem setPair_rcv (s : State) (a v : Nat) : (setPair s a v).rcv = s.rcv := rfl
@[simp] theorem setPair_chain (s : State) (a v : Nat) : (setPair s a v).chain = s.chain := rfl
@[simp] theorem setPair_time (s : State) (a v : Nat) : (setPair s a v).time = s.time := rfl
@[simp] theorem setPair_upd (s : State) (a v : Nat) : (setPair s a v).upd = s.upd := rfl
@[simp] theorem setPair_fs (s : State) (a v : Nat) : (setPair s a v).fs = s.fs := rfl
@[simp] theorem setPair_fw (s : State) (a v : Nat) : (setPair s a v).fw = s.fw := rfl
@[simp] theorem setPair_gov (s : State) (a v : Nat) : (setPair s a v).gov = s.gov := rfl
@[simp] theorem setPair_pwr (s : State) (a v : Nat) : (setPair s a v).pwr = s.pwr := rfl
@[simp] theorem setPair_pins (s : State) (a v : Nat) : (setPair s a v).pins = s.pins := rfl
@[simp] theorem setPair_i3c (s : State) (a v : Nat) : (setPair s a v).i3c = s.i3c := rfl
@[simp] theorem setPair_drip (s : State) (a v : Nat) : (setPair s a v).drip = s.drip := rfl

@[simp] theorem plainWrite_pending (s : State) (a : Nat) (v : W32) : (plainWrite s a v).pending = s.pending := rfl
@[simp] theorem plainWrite_draws (s : State) (a : Nat) (v : W32) : (plainWrite s a v).draws = s.draws := rfl
@[simp] theorem plainWrite_ticks (s : State) (a : Nat) (v : W32) : (plainWrite s a v).ticks = s.ticks := rfl
@[simp] theorem plainWrite_out (s : State) (a : Nat) (v : W32) : (plainWrite s a v).out = s.out := rfl
@[simp] theorem plainWrite_mem (s : State) (a : Nat) (v : W32) : (plainWrite s a v).mem = s.mem := rfl
@[simp] theorem plainWrite_flash (s : State) (a : Nat) (v : W32) : (plainWrite s a v).flash = s.flash := rfl
@[simp] theorem plainWrite_shadows (s : State) (a : Nat) (v : W32) : (plainWrite s a v).shadows = s.shadows := rfl
@[simp] theorem plainWrite_cores (s : State) (a : Nat) (v : W32) : (plainWrite s a v).cores = s.cores := rfl
@[simp] theorem plainWrite_hubs (s : State) (a : Nat) (v : W32) : (plainWrite s a v).hubs = s.hubs := rfl
@[simp] theorem plainWrite_wdma (s : State) (a : Nat) (v : W32) : (plainWrite s a v).wdma = s.wdma := rfl
@[simp] theorem plainWrite_wdmaNext (s : State) (a : Nat) (v : W32) : (plainWrite s a v).wdmaNext = s.wdmaNext := rfl
@[simp] theorem plainWrite_bankNext (s : State) (a : Nat) (v : W32) : (plainWrite s a v).bankNext = s.bankNext := rfl
@[simp] theorem plainWrite_starved (s : State) (a : Nat) (v : W32) : (plainWrite s a v).starved = s.starved := rfl
@[simp] theorem plainWrite_cranks (s : State) (a : Nat) (v : W32) : (plainWrite s a v).cranks = s.cranks := rfl
@[simp] theorem plainWrite_lanes (s : State) (a : Nat) (v : W32) : (plainWrite s a v).lanes = s.lanes := rfl
@[simp] theorem plainWrite_chamber (s : State) (a : Nat) (v : W32) : (plainWrite s a v).chamber = s.chamber := rfl
@[simp] theorem plainWrite_otp (s : State) (a : Nat) (v : W32) : (plainWrite s a v).otp = s.otp := rfl
@[simp] theorem plainWrite_lc (s : State) (a : Nat) (v : W32) : (plainWrite s a v).lc = s.lc := rfl
@[simp] theorem plainWrite_boot (s : State) (a : Nat) (v : W32) : (plainWrite s a v).boot = s.boot := rfl
@[simp] theorem plainWrite_platforms (s : State) (a : Nat) (v : W32) : (plainWrite s a v).platforms = s.platforms := rfl
@[simp] theorem plainWrite_ports (s : State) (a : Nat) (v : W32) : (plainWrite s a v).ports = s.ports := rfl
@[simp] theorem plainWrite_fabric (s : State) (a : Nat) (v : W32) : (plainWrite s a v).fabric = s.fabric := rfl
@[simp] theorem plainWrite_svc (s : State) (a : Nat) (v : W32) : (plainWrite s a v).svc = s.svc := rfl
@[simp] theorem plainWrite_rcv (s : State) (a : Nat) (v : W32) : (plainWrite s a v).rcv = s.rcv := rfl
@[simp] theorem plainWrite_chain (s : State) (a : Nat) (v : W32) : (plainWrite s a v).chain = s.chain := rfl
@[simp] theorem plainWrite_time (s : State) (a : Nat) (v : W32) : (plainWrite s a v).time = s.time := rfl
@[simp] theorem plainWrite_upd (s : State) (a : Nat) (v : W32) : (plainWrite s a v).upd = s.upd := rfl
@[simp] theorem plainWrite_fs (s : State) (a : Nat) (v : W32) : (plainWrite s a v).fs = s.fs := rfl
@[simp] theorem plainWrite_fw (s : State) (a : Nat) (v : W32) : (plainWrite s a v).fw = s.fw := rfl
@[simp] theorem plainWrite_gov (s : State) (a : Nat) (v : W32) : (plainWrite s a v).gov = s.gov := rfl
@[simp] theorem plainWrite_pwr (s : State) (a : Nat) (v : W32) : (plainWrite s a v).pwr = s.pwr := rfl
@[simp] theorem plainWrite_pins (s : State) (a : Nat) (v : W32) : (plainWrite s a v).pins = s.pins := rfl
@[simp] theorem plainWrite_i3c (s : State) (a : Nat) (v : W32) : (plainWrite s a v).i3c = s.i3c := rfl
@[simp] theorem plainWrite_drip (s : State) (a : Nat) (v : W32) : (plainWrite s a v).drip = s.drip := rfl

@[simp] theorem resetRegs_pending (s : State) (lo hi : Nat) : (resetRegs s lo hi).pending = s.pending := rfl
@[simp] theorem resetRegs_draws (s : State) (lo hi : Nat) : (resetRegs s lo hi).draws = s.draws := rfl
@[simp] theorem resetRegs_ticks (s : State) (lo hi : Nat) : (resetRegs s lo hi).ticks = s.ticks := rfl
@[simp] theorem resetRegs_out (s : State) (lo hi : Nat) : (resetRegs s lo hi).out = s.out := rfl
@[simp] theorem resetRegs_mem (s : State) (lo hi : Nat) : (resetRegs s lo hi).mem = s.mem := rfl
@[simp] theorem resetRegs_flash (s : State) (lo hi : Nat) : (resetRegs s lo hi).flash = s.flash := rfl
@[simp] theorem resetRegs_shadows (s : State) (lo hi : Nat) : (resetRegs s lo hi).shadows = s.shadows := rfl
@[simp] theorem resetRegs_cores (s : State) (lo hi : Nat) : (resetRegs s lo hi).cores = s.cores := rfl
@[simp] theorem resetRegs_hubs (s : State) (lo hi : Nat) : (resetRegs s lo hi).hubs = s.hubs := rfl
@[simp] theorem resetRegs_wdma (s : State) (lo hi : Nat) : (resetRegs s lo hi).wdma = s.wdma := rfl
@[simp] theorem resetRegs_wdmaNext (s : State) (lo hi : Nat) : (resetRegs s lo hi).wdmaNext = s.wdmaNext := rfl
@[simp] theorem resetRegs_bankNext (s : State) (lo hi : Nat) : (resetRegs s lo hi).bankNext = s.bankNext := rfl
@[simp] theorem resetRegs_starved (s : State) (lo hi : Nat) : (resetRegs s lo hi).starved = s.starved := rfl
@[simp] theorem resetRegs_cranks (s : State) (lo hi : Nat) : (resetRegs s lo hi).cranks = s.cranks := rfl
@[simp] theorem resetRegs_lanes (s : State) (lo hi : Nat) : (resetRegs s lo hi).lanes = s.lanes := rfl
@[simp] theorem resetRegs_chamber (s : State) (lo hi : Nat) : (resetRegs s lo hi).chamber = s.chamber := rfl
@[simp] theorem resetRegs_otp (s : State) (lo hi : Nat) : (resetRegs s lo hi).otp = s.otp := rfl
@[simp] theorem resetRegs_lc (s : State) (lo hi : Nat) : (resetRegs s lo hi).lc = s.lc := rfl
@[simp] theorem resetRegs_boot (s : State) (lo hi : Nat) : (resetRegs s lo hi).boot = s.boot := rfl
@[simp] theorem resetRegs_platforms (s : State) (lo hi : Nat) : (resetRegs s lo hi).platforms = s.platforms := rfl
@[simp] theorem resetRegs_ports (s : State) (lo hi : Nat) : (resetRegs s lo hi).ports = s.ports := rfl
@[simp] theorem resetRegs_fabric (s : State) (lo hi : Nat) : (resetRegs s lo hi).fabric = s.fabric := rfl
@[simp] theorem resetRegs_svc (s : State) (lo hi : Nat) : (resetRegs s lo hi).svc = s.svc := rfl
@[simp] theorem resetRegs_rcv (s : State) (lo hi : Nat) : (resetRegs s lo hi).rcv = s.rcv := rfl
@[simp] theorem resetRegs_chain (s : State) (lo hi : Nat) : (resetRegs s lo hi).chain = s.chain := rfl
@[simp] theorem resetRegs_time (s : State) (lo hi : Nat) : (resetRegs s lo hi).time = s.time := rfl
@[simp] theorem resetRegs_upd (s : State) (lo hi : Nat) : (resetRegs s lo hi).upd = s.upd := rfl
@[simp] theorem resetRegs_fs (s : State) (lo hi : Nat) : (resetRegs s lo hi).fs = s.fs := rfl
@[simp] theorem resetRegs_fw (s : State) (lo hi : Nat) : (resetRegs s lo hi).fw = s.fw := rfl
@[simp] theorem resetRegs_gov (s : State) (lo hi : Nat) : (resetRegs s lo hi).gov = s.gov := rfl
@[simp] theorem resetRegs_pwr (s : State) (lo hi : Nat) : (resetRegs s lo hi).pwr = s.pwr := rfl
@[simp] theorem resetRegs_pins (s : State) (lo hi : Nat) : (resetRegs s lo hi).pins = s.pins := rfl
@[simp] theorem resetRegs_i3c (s : State) (lo hi : Nat) : (resetRegs s lo hi).i3c = s.i3c := rfl
@[simp] theorem resetRegs_drip (s : State) (lo hi : Nat) : (resetRegs s lo hi).drip = s.drip := rfl

@[simp] theorem wrByte_pending (s : State) (a : Nat) (v : Byte) : (wrByte s a v).pending = s.pending := rfl
@[simp] theorem wrByte_draws (s : State) (a : Nat) (v : Byte) : (wrByte s a v).draws = s.draws := rfl
@[simp] theorem wrByte_ticks (s : State) (a : Nat) (v : Byte) : (wrByte s a v).ticks = s.ticks := rfl
@[simp] theorem wrByte_out (s : State) (a : Nat) (v : Byte) : (wrByte s a v).out = s.out := rfl
@[simp] theorem wrByte_flash (s : State) (a : Nat) (v : Byte) : (wrByte s a v).flash = s.flash := rfl
@[simp] theorem wrByte_regs (s : State) (a : Nat) (v : Byte) : (wrByte s a v).regs = s.regs := rfl
@[simp] theorem wrByte_shadows (s : State) (a : Nat) (v : Byte) : (wrByte s a v).shadows = s.shadows := rfl
@[simp] theorem wrByte_cores (s : State) (a : Nat) (v : Byte) : (wrByte s a v).cores = s.cores := rfl
@[simp] theorem wrByte_hubs (s : State) (a : Nat) (v : Byte) : (wrByte s a v).hubs = s.hubs := rfl
@[simp] theorem wrByte_wdma (s : State) (a : Nat) (v : Byte) : (wrByte s a v).wdma = s.wdma := rfl
@[simp] theorem wrByte_wdmaNext (s : State) (a : Nat) (v : Byte) : (wrByte s a v).wdmaNext = s.wdmaNext := rfl
@[simp] theorem wrByte_bankNext (s : State) (a : Nat) (v : Byte) : (wrByte s a v).bankNext = s.bankNext := rfl
@[simp] theorem wrByte_starved (s : State) (a : Nat) (v : Byte) : (wrByte s a v).starved = s.starved := rfl
@[simp] theorem wrByte_cranks (s : State) (a : Nat) (v : Byte) : (wrByte s a v).cranks = s.cranks := rfl
@[simp] theorem wrByte_lanes (s : State) (a : Nat) (v : Byte) : (wrByte s a v).lanes = s.lanes := rfl
@[simp] theorem wrByte_chamber (s : State) (a : Nat) (v : Byte) : (wrByte s a v).chamber = s.chamber := rfl
@[simp] theorem wrByte_otp (s : State) (a : Nat) (v : Byte) : (wrByte s a v).otp = s.otp := rfl
@[simp] theorem wrByte_lc (s : State) (a : Nat) (v : Byte) : (wrByte s a v).lc = s.lc := rfl
@[simp] theorem wrByte_boot (s : State) (a : Nat) (v : Byte) : (wrByte s a v).boot = s.boot := rfl
@[simp] theorem wrByte_platforms (s : State) (a : Nat) (v : Byte) : (wrByte s a v).platforms = s.platforms := rfl
@[simp] theorem wrByte_ports (s : State) (a : Nat) (v : Byte) : (wrByte s a v).ports = s.ports := rfl
@[simp] theorem wrByte_fabric (s : State) (a : Nat) (v : Byte) : (wrByte s a v).fabric = s.fabric := rfl
@[simp] theorem wrByte_svc (s : State) (a : Nat) (v : Byte) : (wrByte s a v).svc = s.svc := rfl
@[simp] theorem wrByte_rcv (s : State) (a : Nat) (v : Byte) : (wrByte s a v).rcv = s.rcv := rfl
@[simp] theorem wrByte_chain (s : State) (a : Nat) (v : Byte) : (wrByte s a v).chain = s.chain := rfl
@[simp] theorem wrByte_time (s : State) (a : Nat) (v : Byte) : (wrByte s a v).time = s.time := rfl
@[simp] theorem wrByte_upd (s : State) (a : Nat) (v : Byte) : (wrByte s a v).upd = s.upd := rfl
@[simp] theorem wrByte_fs (s : State) (a : Nat) (v : Byte) : (wrByte s a v).fs = s.fs := rfl
@[simp] theorem wrByte_fw (s : State) (a : Nat) (v : Byte) : (wrByte s a v).fw = s.fw := rfl
@[simp] theorem wrByte_gov (s : State) (a : Nat) (v : Byte) : (wrByte s a v).gov = s.gov := rfl
@[simp] theorem wrByte_pwr (s : State) (a : Nat) (v : Byte) : (wrByte s a v).pwr = s.pwr := rfl
@[simp] theorem wrByte_pins (s : State) (a : Nat) (v : Byte) : (wrByte s a v).pins = s.pins := rfl
@[simp] theorem wrByte_i3c (s : State) (a : Nat) (v : Byte) : (wrByte s a v).i3c = s.i3c := rfl
@[simp] theorem wrByte_drip (s : State) (a : Nat) (v : Byte) : (wrByte s a v).drip = s.drip := rfl

@[simp] theorem wipeMem_pending (s : State) (lo hi : Nat) : (wipeMem s lo hi).pending = s.pending := rfl
@[simp] theorem wipeMem_draws (s : State) (lo hi : Nat) : (wipeMem s lo hi).draws = s.draws := rfl
@[simp] theorem wipeMem_ticks (s : State) (lo hi : Nat) : (wipeMem s lo hi).ticks = s.ticks := rfl
@[simp] theorem wipeMem_out (s : State) (lo hi : Nat) : (wipeMem s lo hi).out = s.out := rfl
@[simp] theorem wipeMem_flash (s : State) (lo hi : Nat) : (wipeMem s lo hi).flash = s.flash := rfl
@[simp] theorem wipeMem_regs (s : State) (lo hi : Nat) : (wipeMem s lo hi).regs = s.regs := rfl
@[simp] theorem wipeMem_shadows (s : State) (lo hi : Nat) : (wipeMem s lo hi).shadows = s.shadows := rfl
@[simp] theorem wipeMem_cores (s : State) (lo hi : Nat) : (wipeMem s lo hi).cores = s.cores := rfl
@[simp] theorem wipeMem_hubs (s : State) (lo hi : Nat) : (wipeMem s lo hi).hubs = s.hubs := rfl
@[simp] theorem wipeMem_wdma (s : State) (lo hi : Nat) : (wipeMem s lo hi).wdma = s.wdma := rfl
@[simp] theorem wipeMem_wdmaNext (s : State) (lo hi : Nat) : (wipeMem s lo hi).wdmaNext = s.wdmaNext := rfl
@[simp] theorem wipeMem_bankNext (s : State) (lo hi : Nat) : (wipeMem s lo hi).bankNext = s.bankNext := rfl
@[simp] theorem wipeMem_starved (s : State) (lo hi : Nat) : (wipeMem s lo hi).starved = s.starved := rfl
@[simp] theorem wipeMem_cranks (s : State) (lo hi : Nat) : (wipeMem s lo hi).cranks = s.cranks := rfl
@[simp] theorem wipeMem_lanes (s : State) (lo hi : Nat) : (wipeMem s lo hi).lanes = s.lanes := rfl
@[simp] theorem wipeMem_chamber (s : State) (lo hi : Nat) : (wipeMem s lo hi).chamber = s.chamber := rfl
@[simp] theorem wipeMem_otp (s : State) (lo hi : Nat) : (wipeMem s lo hi).otp = s.otp := rfl
@[simp] theorem wipeMem_lc (s : State) (lo hi : Nat) : (wipeMem s lo hi).lc = s.lc := rfl
@[simp] theorem wipeMem_boot (s : State) (lo hi : Nat) : (wipeMem s lo hi).boot = s.boot := rfl
@[simp] theorem wipeMem_platforms (s : State) (lo hi : Nat) : (wipeMem s lo hi).platforms = s.platforms := rfl
@[simp] theorem wipeMem_ports (s : State) (lo hi : Nat) : (wipeMem s lo hi).ports = s.ports := rfl
@[simp] theorem wipeMem_fabric (s : State) (lo hi : Nat) : (wipeMem s lo hi).fabric = s.fabric := rfl
@[simp] theorem wipeMem_svc (s : State) (lo hi : Nat) : (wipeMem s lo hi).svc = s.svc := rfl
@[simp] theorem wipeMem_rcv (s : State) (lo hi : Nat) : (wipeMem s lo hi).rcv = s.rcv := rfl
@[simp] theorem wipeMem_chain (s : State) (lo hi : Nat) : (wipeMem s lo hi).chain = s.chain := rfl
@[simp] theorem wipeMem_time (s : State) (lo hi : Nat) : (wipeMem s lo hi).time = s.time := rfl
@[simp] theorem wipeMem_upd (s : State) (lo hi : Nat) : (wipeMem s lo hi).upd = s.upd := rfl
@[simp] theorem wipeMem_fs (s : State) (lo hi : Nat) : (wipeMem s lo hi).fs = s.fs := rfl
@[simp] theorem wipeMem_fw (s : State) (lo hi : Nat) : (wipeMem s lo hi).fw = s.fw := rfl
@[simp] theorem wipeMem_gov (s : State) (lo hi : Nat) : (wipeMem s lo hi).gov = s.gov := rfl
@[simp] theorem wipeMem_pwr (s : State) (lo hi : Nat) : (wipeMem s lo hi).pwr = s.pwr := rfl
@[simp] theorem wipeMem_pins (s : State) (lo hi : Nat) : (wipeMem s lo hi).pins = s.pins := rfl
@[simp] theorem wipeMem_i3c (s : State) (lo hi : Nat) : (wipeMem s lo hi).i3c = s.i3c := rfl
@[simp] theorem wipeMem_drip (s : State) (lo hi : Nat) : (wipeMem s lo hi).drip = s.drip := rfl

@[simp] theorem emitOut_pending (s : State) (o : Out) : (emitOut s o).pending = s.pending := rfl
@[simp] theorem emitOut_draws (s : State) (o : Out) : (emitOut s o).draws = s.draws := rfl
@[simp] theorem emitOut_ticks (s : State) (o : Out) : (emitOut s o).ticks = s.ticks := rfl
@[simp] theorem emitOut_mem (s : State) (o : Out) : (emitOut s o).mem = s.mem := rfl
@[simp] theorem emitOut_flash (s : State) (o : Out) : (emitOut s o).flash = s.flash := rfl
@[simp] theorem emitOut_regs (s : State) (o : Out) : (emitOut s o).regs = s.regs := rfl
@[simp] theorem emitOut_shadows (s : State) (o : Out) : (emitOut s o).shadows = s.shadows := rfl
@[simp] theorem emitOut_cores (s : State) (o : Out) : (emitOut s o).cores = s.cores := rfl
@[simp] theorem emitOut_hubs (s : State) (o : Out) : (emitOut s o).hubs = s.hubs := rfl
@[simp] theorem emitOut_wdma (s : State) (o : Out) : (emitOut s o).wdma = s.wdma := rfl
@[simp] theorem emitOut_wdmaNext (s : State) (o : Out) : (emitOut s o).wdmaNext = s.wdmaNext := rfl
@[simp] theorem emitOut_bankNext (s : State) (o : Out) : (emitOut s o).bankNext = s.bankNext := rfl
@[simp] theorem emitOut_starved (s : State) (o : Out) : (emitOut s o).starved = s.starved := rfl
@[simp] theorem emitOut_cranks (s : State) (o : Out) : (emitOut s o).cranks = s.cranks := rfl
@[simp] theorem emitOut_lanes (s : State) (o : Out) : (emitOut s o).lanes = s.lanes := rfl
@[simp] theorem emitOut_chamber (s : State) (o : Out) : (emitOut s o).chamber = s.chamber := rfl
@[simp] theorem emitOut_otp (s : State) (o : Out) : (emitOut s o).otp = s.otp := rfl
@[simp] theorem emitOut_lc (s : State) (o : Out) : (emitOut s o).lc = s.lc := rfl
@[simp] theorem emitOut_boot (s : State) (o : Out) : (emitOut s o).boot = s.boot := rfl
@[simp] theorem emitOut_platforms (s : State) (o : Out) : (emitOut s o).platforms = s.platforms := rfl
@[simp] theorem emitOut_ports (s : State) (o : Out) : (emitOut s o).ports = s.ports := rfl
@[simp] theorem emitOut_fabric (s : State) (o : Out) : (emitOut s o).fabric = s.fabric := rfl
@[simp] theorem emitOut_svc (s : State) (o : Out) : (emitOut s o).svc = s.svc := rfl
@[simp] theorem emitOut_rcv (s : State) (o : Out) : (emitOut s o).rcv = s.rcv := rfl
@[simp] theorem emitOut_chain (s : State) (o : Out) : (emitOut s o).chain = s.chain := rfl
@[simp] theorem emitOut_time (s : State) (o : Out) : (emitOut s o).time = s.time := rfl
@[simp] theorem emitOut_upd (s : State) (o : Out) : (emitOut s o).upd = s.upd := rfl
@[simp] theorem emitOut_fs (s : State) (o : Out) : (emitOut s o).fs = s.fs := rfl
@[simp] theorem emitOut_fw (s : State) (o : Out) : (emitOut s o).fw = s.fw := rfl
@[simp] theorem emitOut_gov (s : State) (o : Out) : (emitOut s o).gov = s.gov := rfl
@[simp] theorem emitOut_pwr (s : State) (o : Out) : (emitOut s o).pwr = s.pwr := rfl
@[simp] theorem emitOut_pins (s : State) (o : Out) : (emitOut s o).pins = s.pins := rfl
@[simp] theorem emitOut_i3c (s : State) (o : Out) : (emitOut s o).i3c = s.i3c := rfl
@[simp] theorem emitOut_drip (s : State) (o : Out) : (emitOut s o).drip = s.drip := rfl

@[simp] theorem hubInt_pending (s : State) (n : String) (a : Nat) : (hubInt s n a).pending = s.pending := rfl
@[simp] theorem hubInt_draws (s : State) (n : String) (a : Nat) : (hubInt s n a).draws = s.draws := rfl
@[simp] theorem hubInt_ticks (s : State) (n : String) (a : Nat) : (hubInt s n a).ticks = s.ticks := rfl
@[simp] theorem hubInt_mem (s : State) (n : String) (a : Nat) : (hubInt s n a).mem = s.mem := rfl
@[simp] theorem hubInt_flash (s : State) (n : String) (a : Nat) : (hubInt s n a).flash = s.flash := rfl
@[simp] theorem hubInt_regs (s : State) (n : String) (a : Nat) : (hubInt s n a).regs = s.regs := rfl
@[simp] theorem hubInt_shadows (s : State) (n : String) (a : Nat) : (hubInt s n a).shadows = s.shadows := rfl
@[simp] theorem hubInt_cores (s : State) (n : String) (a : Nat) : (hubInt s n a).cores = s.cores := rfl
@[simp] theorem hubInt_hubs (s : State) (n : String) (a : Nat) : (hubInt s n a).hubs = s.hubs := rfl
@[simp] theorem hubInt_wdma (s : State) (n : String) (a : Nat) : (hubInt s n a).wdma = s.wdma := rfl
@[simp] theorem hubInt_wdmaNext (s : State) (n : String) (a : Nat) : (hubInt s n a).wdmaNext = s.wdmaNext := rfl
@[simp] theorem hubInt_bankNext (s : State) (n : String) (a : Nat) : (hubInt s n a).bankNext = s.bankNext := rfl
@[simp] theorem hubInt_starved (s : State) (n : String) (a : Nat) : (hubInt s n a).starved = s.starved := rfl
@[simp] theorem hubInt_cranks (s : State) (n : String) (a : Nat) : (hubInt s n a).cranks = s.cranks := rfl
@[simp] theorem hubInt_lanes (s : State) (n : String) (a : Nat) : (hubInt s n a).lanes = s.lanes := rfl
@[simp] theorem hubInt_chamber (s : State) (n : String) (a : Nat) : (hubInt s n a).chamber = s.chamber := rfl
@[simp] theorem hubInt_otp (s : State) (n : String) (a : Nat) : (hubInt s n a).otp = s.otp := rfl
@[simp] theorem hubInt_lc (s : State) (n : String) (a : Nat) : (hubInt s n a).lc = s.lc := rfl
@[simp] theorem hubInt_boot (s : State) (n : String) (a : Nat) : (hubInt s n a).boot = s.boot := rfl
@[simp] theorem hubInt_platforms (s : State) (n : String) (a : Nat) : (hubInt s n a).platforms = s.platforms := rfl
@[simp] theorem hubInt_ports (s : State) (n : String) (a : Nat) : (hubInt s n a).ports = s.ports := rfl
@[simp] theorem hubInt_fabric (s : State) (n : String) (a : Nat) : (hubInt s n a).fabric = s.fabric := rfl
@[simp] theorem hubInt_svc (s : State) (n : String) (a : Nat) : (hubInt s n a).svc = s.svc := rfl
@[simp] theorem hubInt_rcv (s : State) (n : String) (a : Nat) : (hubInt s n a).rcv = s.rcv := rfl
@[simp] theorem hubInt_chain (s : State) (n : String) (a : Nat) : (hubInt s n a).chain = s.chain := rfl
@[simp] theorem hubInt_time (s : State) (n : String) (a : Nat) : (hubInt s n a).time = s.time := rfl
@[simp] theorem hubInt_upd (s : State) (n : String) (a : Nat) : (hubInt s n a).upd = s.upd := rfl
@[simp] theorem hubInt_fs (s : State) (n : String) (a : Nat) : (hubInt s n a).fs = s.fs := rfl
@[simp] theorem hubInt_fw (s : State) (n : String) (a : Nat) : (hubInt s n a).fw = s.fw := rfl
@[simp] theorem hubInt_gov (s : State) (n : String) (a : Nat) : (hubInt s n a).gov = s.gov := rfl
@[simp] theorem hubInt_pwr (s : State) (n : String) (a : Nat) : (hubInt s n a).pwr = s.pwr := rfl
@[simp] theorem hubInt_pins (s : State) (n : String) (a : Nat) : (hubInt s n a).pins = s.pins := rfl
@[simp] theorem hubInt_i3c (s : State) (n : String) (a : Nat) : (hubInt s n a).i3c = s.i3c := rfl
@[simp] theorem hubInt_drip (s : State) (n : String) (a : Nat) : (hubInt s n a).drip = s.drip := rfl

@[simp] theorem setCore_pending (s : State) (c : Nat) (k : Core) : (setCore s c k).pending = s.pending := rfl
@[simp] theorem setCore_draws (s : State) (c : Nat) (k : Core) : (setCore s c k).draws = s.draws := rfl
@[simp] theorem setCore_ticks (s : State) (c : Nat) (k : Core) : (setCore s c k).ticks = s.ticks := rfl
@[simp] theorem setCore_out (s : State) (c : Nat) (k : Core) : (setCore s c k).out = s.out := rfl
@[simp] theorem setCore_mem (s : State) (c : Nat) (k : Core) : (setCore s c k).mem = s.mem := rfl
@[simp] theorem setCore_flash (s : State) (c : Nat) (k : Core) : (setCore s c k).flash = s.flash := rfl
@[simp] theorem setCore_regs (s : State) (c : Nat) (k : Core) : (setCore s c k).regs = s.regs := rfl
@[simp] theorem setCore_shadows (s : State) (c : Nat) (k : Core) : (setCore s c k).shadows = s.shadows := rfl
@[simp] theorem setCore_hubs (s : State) (c : Nat) (k : Core) : (setCore s c k).hubs = s.hubs := rfl
@[simp] theorem setCore_wdma (s : State) (c : Nat) (k : Core) : (setCore s c k).wdma = s.wdma := rfl
@[simp] theorem setCore_wdmaNext (s : State) (c : Nat) (k : Core) : (setCore s c k).wdmaNext = s.wdmaNext := rfl
@[simp] theorem setCore_bankNext (s : State) (c : Nat) (k : Core) : (setCore s c k).bankNext = s.bankNext := rfl
@[simp] theorem setCore_starved (s : State) (c : Nat) (k : Core) : (setCore s c k).starved = s.starved := rfl
@[simp] theorem setCore_cranks (s : State) (c : Nat) (k : Core) : (setCore s c k).cranks = s.cranks := rfl
@[simp] theorem setCore_lanes (s : State) (c : Nat) (k : Core) : (setCore s c k).lanes = s.lanes := rfl
@[simp] theorem setCore_chamber (s : State) (c : Nat) (k : Core) : (setCore s c k).chamber = s.chamber := rfl
@[simp] theorem setCore_otp (s : State) (c : Nat) (k : Core) : (setCore s c k).otp = s.otp := rfl
@[simp] theorem setCore_lc (s : State) (c : Nat) (k : Core) : (setCore s c k).lc = s.lc := rfl
@[simp] theorem setCore_boot (s : State) (c : Nat) (k : Core) : (setCore s c k).boot = s.boot := rfl
@[simp] theorem setCore_platforms (s : State) (c : Nat) (k : Core) : (setCore s c k).platforms = s.platforms := rfl
@[simp] theorem setCore_ports (s : State) (c : Nat) (k : Core) : (setCore s c k).ports = s.ports := rfl
@[simp] theorem setCore_fabric (s : State) (c : Nat) (k : Core) : (setCore s c k).fabric = s.fabric := rfl
@[simp] theorem setCore_svc (s : State) (c : Nat) (k : Core) : (setCore s c k).svc = s.svc := rfl
@[simp] theorem setCore_rcv (s : State) (c : Nat) (k : Core) : (setCore s c k).rcv = s.rcv := rfl
@[simp] theorem setCore_chain (s : State) (c : Nat) (k : Core) : (setCore s c k).chain = s.chain := rfl
@[simp] theorem setCore_time (s : State) (c : Nat) (k : Core) : (setCore s c k).time = s.time := rfl
@[simp] theorem setCore_upd (s : State) (c : Nat) (k : Core) : (setCore s c k).upd = s.upd := rfl
@[simp] theorem setCore_fs (s : State) (c : Nat) (k : Core) : (setCore s c k).fs = s.fs := rfl
@[simp] theorem setCore_fw (s : State) (c : Nat) (k : Core) : (setCore s c k).fw = s.fw := rfl
@[simp] theorem setCore_gov (s : State) (c : Nat) (k : Core) : (setCore s c k).gov = s.gov := rfl
@[simp] theorem setCore_pwr (s : State) (c : Nat) (k : Core) : (setCore s c k).pwr = s.pwr := rfl
@[simp] theorem setCore_pins (s : State) (c : Nat) (k : Core) : (setCore s c k).pins = s.pins := rfl
@[simp] theorem setCore_i3c (s : State) (c : Nat) (k : Core) : (setCore s c k).i3c = s.i3c := rfl
@[simp] theorem setCore_drip (s : State) (c : Nat) (k : Core) : (setCore s c k).drip = s.drip := rfl

@[simp] theorem modCore_pending (s : State) (c : Nat) (f : Core → Core) : (modCore s c f).pending = s.pending := rfl
@[simp] theorem modCore_draws (s : State) (c : Nat) (f : Core → Core) : (modCore s c f).draws = s.draws := rfl
@[simp] theorem modCore_ticks (s : State) (c : Nat) (f : Core → Core) : (modCore s c f).ticks = s.ticks := rfl
@[simp] theorem modCore_out (s : State) (c : Nat) (f : Core → Core) : (modCore s c f).out = s.out := rfl
@[simp] theorem modCore_mem (s : State) (c : Nat) (f : Core → Core) : (modCore s c f).mem = s.mem := rfl
@[simp] theorem modCore_flash (s : State) (c : Nat) (f : Core → Core) : (modCore s c f).flash = s.flash := rfl
@[simp] theorem modCore_regs (s : State) (c : Nat) (f : Core → Core) : (modCore s c f).regs = s.regs := rfl
@[simp] theorem modCore_shadows (s : State) (c : Nat) (f : Core → Core) : (modCore s c f).shadows = s.shadows := rfl
@[simp] theorem modCore_hubs (s : State) (c : Nat) (f : Core → Core) : (modCore s c f).hubs = s.hubs := rfl
@[simp] theorem modCore_wdma (s : State) (c : Nat) (f : Core → Core) : (modCore s c f).wdma = s.wdma := rfl
@[simp] theorem modCore_wdmaNext (s : State) (c : Nat) (f : Core → Core) : (modCore s c f).wdmaNext = s.wdmaNext := rfl
@[simp] theorem modCore_bankNext (s : State) (c : Nat) (f : Core → Core) : (modCore s c f).bankNext = s.bankNext := rfl
@[simp] theorem modCore_starved (s : State) (c : Nat) (f : Core → Core) : (modCore s c f).starved = s.starved := rfl
@[simp] theorem modCore_cranks (s : State) (c : Nat) (f : Core → Core) : (modCore s c f).cranks = s.cranks := rfl
@[simp] theorem modCore_lanes (s : State) (c : Nat) (f : Core → Core) : (modCore s c f).lanes = s.lanes := rfl
@[simp] theorem modCore_chamber (s : State) (c : Nat) (f : Core → Core) : (modCore s c f).chamber = s.chamber := rfl
@[simp] theorem modCore_otp (s : State) (c : Nat) (f : Core → Core) : (modCore s c f).otp = s.otp := rfl
@[simp] theorem modCore_lc (s : State) (c : Nat) (f : Core → Core) : (modCore s c f).lc = s.lc := rfl
@[simp] theorem modCore_boot (s : State) (c : Nat) (f : Core → Core) : (modCore s c f).boot = s.boot := rfl
@[simp] theorem modCore_platforms (s : State) (c : Nat) (f : Core → Core) : (modCore s c f).platforms = s.platforms := rfl
@[simp] theorem modCore_ports (s : State) (c : Nat) (f : Core → Core) : (modCore s c f).ports = s.ports := rfl
@[simp] theorem modCore_fabric (s : State) (c : Nat) (f : Core → Core) : (modCore s c f).fabric = s.fabric := rfl
@[simp] theorem modCore_svc (s : State) (c : Nat) (f : Core → Core) : (modCore s c f).svc = s.svc := rfl
@[simp] theorem modCore_rcv (s : State) (c : Nat) (f : Core → Core) : (modCore s c f).rcv = s.rcv := rfl
@[simp] theorem modCore_chain (s : State) (c : Nat) (f : Core → Core) : (modCore s c f).chain = s.chain := rfl
@[simp] theorem modCore_time (s : State) (c : Nat) (f : Core → Core) : (modCore s c f).time = s.time := rfl
@[simp] theorem modCore_upd (s : State) (c : Nat) (f : Core → Core) : (modCore s c f).upd = s.upd := rfl
@[simp] theorem modCore_fs (s : State) (c : Nat) (f : Core → Core) : (modCore s c f).fs = s.fs := rfl
@[simp] theorem modCore_fw (s : State) (c : Nat) (f : Core → Core) : (modCore s c f).fw = s.fw := rfl
@[simp] theorem modCore_gov (s : State) (c : Nat) (f : Core → Core) : (modCore s c f).gov = s.gov := rfl
@[simp] theorem modCore_pwr (s : State) (c : Nat) (f : Core → Core) : (modCore s c f).pwr = s.pwr := rfl
@[simp] theorem modCore_pins (s : State) (c : Nat) (f : Core → Core) : (modCore s c f).pins = s.pins := rfl
@[simp] theorem modCore_i3c (s : State) (c : Nat) (f : Core → Core) : (modCore s c f).i3c = s.i3c := rfl
@[simp] theorem modCore_drip (s : State) (c : Nat) (f : Core → Core) : (modCore s c f).drip = s.drip := rfl

@[simp] theorem raiseInt_pending (s : State) (c v : Nat) : (raiseInt s c v).pending = s.pending := rfl
@[simp] theorem raiseInt_draws (s : State) (c v : Nat) : (raiseInt s c v).draws = s.draws := rfl
@[simp] theorem raiseInt_ticks (s : State) (c v : Nat) : (raiseInt s c v).ticks = s.ticks := rfl
@[simp] theorem raiseInt_out (s : State) (c v : Nat) : (raiseInt s c v).out = s.out := rfl
@[simp] theorem raiseInt_mem (s : State) (c v : Nat) : (raiseInt s c v).mem = s.mem := rfl
@[simp] theorem raiseInt_flash (s : State) (c v : Nat) : (raiseInt s c v).flash = s.flash := rfl
@[simp] theorem raiseInt_regs (s : State) (c v : Nat) : (raiseInt s c v).regs = s.regs := rfl
@[simp] theorem raiseInt_shadows (s : State) (c v : Nat) : (raiseInt s c v).shadows = s.shadows := rfl
@[simp] theorem raiseInt_hubs (s : State) (c v : Nat) : (raiseInt s c v).hubs = s.hubs := rfl
@[simp] theorem raiseInt_wdma (s : State) (c v : Nat) : (raiseInt s c v).wdma = s.wdma := rfl
@[simp] theorem raiseInt_wdmaNext (s : State) (c v : Nat) : (raiseInt s c v).wdmaNext = s.wdmaNext := rfl
@[simp] theorem raiseInt_bankNext (s : State) (c v : Nat) : (raiseInt s c v).bankNext = s.bankNext := rfl
@[simp] theorem raiseInt_starved (s : State) (c v : Nat) : (raiseInt s c v).starved = s.starved := rfl
@[simp] theorem raiseInt_cranks (s : State) (c v : Nat) : (raiseInt s c v).cranks = s.cranks := rfl
@[simp] theorem raiseInt_lanes (s : State) (c v : Nat) : (raiseInt s c v).lanes = s.lanes := rfl
@[simp] theorem raiseInt_chamber (s : State) (c v : Nat) : (raiseInt s c v).chamber = s.chamber := rfl
@[simp] theorem raiseInt_otp (s : State) (c v : Nat) : (raiseInt s c v).otp = s.otp := rfl
@[simp] theorem raiseInt_lc (s : State) (c v : Nat) : (raiseInt s c v).lc = s.lc := rfl
@[simp] theorem raiseInt_boot (s : State) (c v : Nat) : (raiseInt s c v).boot = s.boot := rfl
@[simp] theorem raiseInt_platforms (s : State) (c v : Nat) : (raiseInt s c v).platforms = s.platforms := rfl
@[simp] theorem raiseInt_ports (s : State) (c v : Nat) : (raiseInt s c v).ports = s.ports := rfl
@[simp] theorem raiseInt_fabric (s : State) (c v : Nat) : (raiseInt s c v).fabric = s.fabric := rfl
@[simp] theorem raiseInt_svc (s : State) (c v : Nat) : (raiseInt s c v).svc = s.svc := rfl
@[simp] theorem raiseInt_rcv (s : State) (c v : Nat) : (raiseInt s c v).rcv = s.rcv := rfl
@[simp] theorem raiseInt_chain (s : State) (c v : Nat) : (raiseInt s c v).chain = s.chain := rfl
@[simp] theorem raiseInt_time (s : State) (c v : Nat) : (raiseInt s c v).time = s.time := rfl
@[simp] theorem raiseInt_upd (s : State) (c v : Nat) : (raiseInt s c v).upd = s.upd := rfl
@[simp] theorem raiseInt_fs (s : State) (c v : Nat) : (raiseInt s c v).fs = s.fs := rfl
@[simp] theorem raiseInt_fw (s : State) (c v : Nat) : (raiseInt s c v).fw = s.fw := rfl
@[simp] theorem raiseInt_gov (s : State) (c v : Nat) : (raiseInt s c v).gov = s.gov := rfl
@[simp] theorem raiseInt_pwr (s : State) (c v : Nat) : (raiseInt s c v).pwr = s.pwr := rfl
@[simp] theorem raiseInt_pins (s : State) (c v : Nat) : (raiseInt s c v).pins = s.pins := rfl
@[simp] theorem raiseInt_i3c (s : State) (c v : Nat) : (raiseInt s c v).i3c = s.i3c := rfl
@[simp] theorem raiseInt_drip (s : State) (c v : Nat) : (raiseInt s c v).drip = s.drip := rfl

@[simp] theorem wr_pending (s : State) (c r : Nat) (v : W64) : (wr s c r v).pending = s.pending := rfl
@[simp] theorem wr_draws (s : State) (c r : Nat) (v : W64) : (wr s c r v).draws = s.draws := rfl
@[simp] theorem wr_ticks (s : State) (c r : Nat) (v : W64) : (wr s c r v).ticks = s.ticks := rfl
@[simp] theorem wr_out (s : State) (c r : Nat) (v : W64) : (wr s c r v).out = s.out := rfl
@[simp] theorem wr_mem (s : State) (c r : Nat) (v : W64) : (wr s c r v).mem = s.mem := rfl
@[simp] theorem wr_flash (s : State) (c r : Nat) (v : W64) : (wr s c r v).flash = s.flash := rfl
@[simp] theorem wr_regs (s : State) (c r : Nat) (v : W64) : (wr s c r v).regs = s.regs := rfl
@[simp] theorem wr_shadows (s : State) (c r : Nat) (v : W64) : (wr s c r v).shadows = s.shadows := rfl
@[simp] theorem wr_hubs (s : State) (c r : Nat) (v : W64) : (wr s c r v).hubs = s.hubs := rfl
@[simp] theorem wr_wdma (s : State) (c r : Nat) (v : W64) : (wr s c r v).wdma = s.wdma := rfl
@[simp] theorem wr_wdmaNext (s : State) (c r : Nat) (v : W64) : (wr s c r v).wdmaNext = s.wdmaNext := rfl
@[simp] theorem wr_bankNext (s : State) (c r : Nat) (v : W64) : (wr s c r v).bankNext = s.bankNext := rfl
@[simp] theorem wr_starved (s : State) (c r : Nat) (v : W64) : (wr s c r v).starved = s.starved := rfl
@[simp] theorem wr_cranks (s : State) (c r : Nat) (v : W64) : (wr s c r v).cranks = s.cranks := rfl
@[simp] theorem wr_lanes (s : State) (c r : Nat) (v : W64) : (wr s c r v).lanes = s.lanes := rfl
@[simp] theorem wr_chamber (s : State) (c r : Nat) (v : W64) : (wr s c r v).chamber = s.chamber := rfl
@[simp] theorem wr_otp (s : State) (c r : Nat) (v : W64) : (wr s c r v).otp = s.otp := rfl
@[simp] theorem wr_lc (s : State) (c r : Nat) (v : W64) : (wr s c r v).lc = s.lc := rfl
@[simp] theorem wr_boot (s : State) (c r : Nat) (v : W64) : (wr s c r v).boot = s.boot := rfl
@[simp] theorem wr_platforms (s : State) (c r : Nat) (v : W64) : (wr s c r v).platforms = s.platforms := rfl
@[simp] theorem wr_ports (s : State) (c r : Nat) (v : W64) : (wr s c r v).ports = s.ports := rfl
@[simp] theorem wr_fabric (s : State) (c r : Nat) (v : W64) : (wr s c r v).fabric = s.fabric := rfl
@[simp] theorem wr_svc (s : State) (c r : Nat) (v : W64) : (wr s c r v).svc = s.svc := rfl
@[simp] theorem wr_rcv (s : State) (c r : Nat) (v : W64) : (wr s c r v).rcv = s.rcv := rfl
@[simp] theorem wr_chain (s : State) (c r : Nat) (v : W64) : (wr s c r v).chain = s.chain := rfl
@[simp] theorem wr_time (s : State) (c r : Nat) (v : W64) : (wr s c r v).time = s.time := rfl
@[simp] theorem wr_upd (s : State) (c r : Nat) (v : W64) : (wr s c r v).upd = s.upd := rfl
@[simp] theorem wr_fs (s : State) (c r : Nat) (v : W64) : (wr s c r v).fs = s.fs := rfl
@[simp] theorem wr_fw (s : State) (c r : Nat) (v : W64) : (wr s c r v).fw = s.fw := rfl
@[simp] theorem wr_gov (s : State) (c r : Nat) (v : W64) : (wr s c r v).gov = s.gov := rfl
@[simp] theorem wr_pwr (s : State) (c r : Nat) (v : W64) : (wr s c r v).pwr = s.pwr := rfl
@[simp] theorem wr_pins (s : State) (c r : Nat) (v : W64) : (wr s c r v).pins = s.pins := rfl
@[simp] theorem wr_i3c (s : State) (c r : Nat) (v : W64) : (wr s c r v).i3c = s.i3c := rfl
@[simp] theorem wr_drip (s : State) (c r : Nat) (v : W64) : (wr s c r v).drip = s.drip := rfl

@[simp] theorem setDom_pending (s : State) (d : Nat) (v : DomState) : (setDom s d v).pending = s.pending := rfl
@[simp] theorem setDom_draws (s : State) (d : Nat) (v : DomState) : (setDom s d v).draws = s.draws := rfl
@[simp] theorem setDom_ticks (s : State) (d : Nat) (v : DomState) : (setDom s d v).ticks = s.ticks := rfl
@[simp] theorem setDom_out (s : State) (d : Nat) (v : DomState) : (setDom s d v).out = s.out := rfl
@[simp] theorem setDom_mem (s : State) (d : Nat) (v : DomState) : (setDom s d v).mem = s.mem := rfl
@[simp] theorem setDom_flash (s : State) (d : Nat) (v : DomState) : (setDom s d v).flash = s.flash := rfl
@[simp] theorem setDom_regs (s : State) (d : Nat) (v : DomState) : (setDom s d v).regs = s.regs := rfl
@[simp] theorem setDom_shadows (s : State) (d : Nat) (v : DomState) : (setDom s d v).shadows = s.shadows := rfl
@[simp] theorem setDom_cores (s : State) (d : Nat) (v : DomState) : (setDom s d v).cores = s.cores := rfl
@[simp] theorem setDom_hubs (s : State) (d : Nat) (v : DomState) : (setDom s d v).hubs = s.hubs := rfl
@[simp] theorem setDom_wdma (s : State) (d : Nat) (v : DomState) : (setDom s d v).wdma = s.wdma := rfl
@[simp] theorem setDom_wdmaNext (s : State) (d : Nat) (v : DomState) : (setDom s d v).wdmaNext = s.wdmaNext := rfl
@[simp] theorem setDom_bankNext (s : State) (d : Nat) (v : DomState) : (setDom s d v).bankNext = s.bankNext := rfl
@[simp] theorem setDom_starved (s : State) (d : Nat) (v : DomState) : (setDom s d v).starved = s.starved := rfl
@[simp] theorem setDom_cranks (s : State) (d : Nat) (v : DomState) : (setDom s d v).cranks = s.cranks := rfl
@[simp] theorem setDom_lanes (s : State) (d : Nat) (v : DomState) : (setDom s d v).lanes = s.lanes := rfl
@[simp] theorem setDom_chamber (s : State) (d : Nat) (v : DomState) : (setDom s d v).chamber = s.chamber := rfl
@[simp] theorem setDom_otp (s : State) (d : Nat) (v : DomState) : (setDom s d v).otp = s.otp := rfl
@[simp] theorem setDom_lc (s : State) (d : Nat) (v : DomState) : (setDom s d v).lc = s.lc := rfl
@[simp] theorem setDom_boot (s : State) (d : Nat) (v : DomState) : (setDom s d v).boot = s.boot := rfl
@[simp] theorem setDom_platforms (s : State) (d : Nat) (v : DomState) : (setDom s d v).platforms = s.platforms := rfl
@[simp] theorem setDom_ports (s : State) (d : Nat) (v : DomState) : (setDom s d v).ports = s.ports := rfl
@[simp] theorem setDom_fabric (s : State) (d : Nat) (v : DomState) : (setDom s d v).fabric = s.fabric := rfl
@[simp] theorem setDom_svc (s : State) (d : Nat) (v : DomState) : (setDom s d v).svc = s.svc := rfl
@[simp] theorem setDom_rcv (s : State) (d : Nat) (v : DomState) : (setDom s d v).rcv = s.rcv := rfl
@[simp] theorem setDom_chain (s : State) (d : Nat) (v : DomState) : (setDom s d v).chain = s.chain := rfl
@[simp] theorem setDom_time (s : State) (d : Nat) (v : DomState) : (setDom s d v).time = s.time := rfl
@[simp] theorem setDom_upd (s : State) (d : Nat) (v : DomState) : (setDom s d v).upd = s.upd := rfl
@[simp] theorem setDom_fs (s : State) (d : Nat) (v : DomState) : (setDom s d v).fs = s.fs := rfl
@[simp] theorem setDom_fw (s : State) (d : Nat) (v : DomState) : (setDom s d v).fw = s.fw := rfl
@[simp] theorem setDom_gov (s : State) (d : Nat) (v : DomState) : (setDom s d v).gov = s.gov := rfl
@[simp] theorem setDom_pins (s : State) (d : Nat) (v : DomState) : (setDom s d v).pins = s.pins := rfl
@[simp] theorem setDom_i3c (s : State) (d : Nat) (v : DomState) : (setDom s d v).i3c = s.i3c := rfl
@[simp] theorem setDom_drip (s : State) (d : Nat) (v : DomState) : (setDom s d v).drip = s.drip := rfl

@[simp] theorem setFunc_pending (s : State) (f : Nat) (k : Func) : (setFunc s f k).pending = s.pending := rfl
@[simp] theorem setFunc_draws (s : State) (f : Nat) (k : Func) : (setFunc s f k).draws = s.draws := rfl
@[simp] theorem setFunc_ticks (s : State) (f : Nat) (k : Func) : (setFunc s f k).ticks = s.ticks := rfl
@[simp] theorem setFunc_out (s : State) (f : Nat) (k : Func) : (setFunc s f k).out = s.out := rfl
@[simp] theorem setFunc_mem (s : State) (f : Nat) (k : Func) : (setFunc s f k).mem = s.mem := rfl
@[simp] theorem setFunc_flash (s : State) (f : Nat) (k : Func) : (setFunc s f k).flash = s.flash := rfl
@[simp] theorem setFunc_regs (s : State) (f : Nat) (k : Func) : (setFunc s f k).regs = s.regs := rfl
@[simp] theorem setFunc_shadows (s : State) (f : Nat) (k : Func) : (setFunc s f k).shadows = s.shadows := rfl
@[simp] theorem setFunc_cores (s : State) (f : Nat) (k : Func) : (setFunc s f k).cores = s.cores := rfl
@[simp] theorem setFunc_hubs (s : State) (f : Nat) (k : Func) : (setFunc s f k).hubs = s.hubs := rfl
@[simp] theorem setFunc_wdma (s : State) (f : Nat) (k : Func) : (setFunc s f k).wdma = s.wdma := rfl
@[simp] theorem setFunc_wdmaNext (s : State) (f : Nat) (k : Func) : (setFunc s f k).wdmaNext = s.wdmaNext := rfl
@[simp] theorem setFunc_bankNext (s : State) (f : Nat) (k : Func) : (setFunc s f k).bankNext = s.bankNext := rfl
@[simp] theorem setFunc_starved (s : State) (f : Nat) (k : Func) : (setFunc s f k).starved = s.starved := rfl
@[simp] theorem setFunc_cranks (s : State) (f : Nat) (k : Func) : (setFunc s f k).cranks = s.cranks := rfl
@[simp] theorem setFunc_lanes (s : State) (f : Nat) (k : Func) : (setFunc s f k).lanes = s.lanes := rfl
@[simp] theorem setFunc_chamber (s : State) (f : Nat) (k : Func) : (setFunc s f k).chamber = s.chamber := rfl
@[simp] theorem setFunc_otp (s : State) (f : Nat) (k : Func) : (setFunc s f k).otp = s.otp := rfl
@[simp] theorem setFunc_lc (s : State) (f : Nat) (k : Func) : (setFunc s f k).lc = s.lc := rfl
@[simp] theorem setFunc_boot (s : State) (f : Nat) (k : Func) : (setFunc s f k).boot = s.boot := rfl
@[simp] theorem setFunc_platforms (s : State) (f : Nat) (k : Func) : (setFunc s f k).platforms = s.platforms := rfl
@[simp] theorem setFunc_ports (s : State) (f : Nat) (k : Func) : (setFunc s f k).ports = s.ports := rfl
@[simp] theorem setFunc_svc (s : State) (f : Nat) (k : Func) : (setFunc s f k).svc = s.svc := rfl
@[simp] theorem setFunc_rcv (s : State) (f : Nat) (k : Func) : (setFunc s f k).rcv = s.rcv := rfl
@[simp] theorem setFunc_chain (s : State) (f : Nat) (k : Func) : (setFunc s f k).chain = s.chain := rfl
@[simp] theorem setFunc_time (s : State) (f : Nat) (k : Func) : (setFunc s f k).time = s.time := rfl
@[simp] theorem setFunc_upd (s : State) (f : Nat) (k : Func) : (setFunc s f k).upd = s.upd := rfl
@[simp] theorem setFunc_fs (s : State) (f : Nat) (k : Func) : (setFunc s f k).fs = s.fs := rfl
@[simp] theorem setFunc_fw (s : State) (f : Nat) (k : Func) : (setFunc s f k).fw = s.fw := rfl
@[simp] theorem setFunc_gov (s : State) (f : Nat) (k : Func) : (setFunc s f k).gov = s.gov := rfl
@[simp] theorem setFunc_pwr (s : State) (f : Nat) (k : Func) : (setFunc s f k).pwr = s.pwr := rfl
@[simp] theorem setFunc_pins (s : State) (f : Nat) (k : Func) : (setFunc s f k).pins = s.pins := rfl
@[simp] theorem setFunc_i3c (s : State) (f : Nat) (k : Func) : (setFunc s f k).i3c = s.i3c := rfl
@[simp] theorem setFunc_drip (s : State) (f : Nat) (k : Func) : (setFunc s f k).drip = s.drip := rfl

@[simp] theorem setVector_pending (s : State) (i : Nat) (v : Vector32) : (setVector s i v).pending = s.pending := rfl
@[simp] theorem setVector_draws (s : State) (i : Nat) (v : Vector32) : (setVector s i v).draws = s.draws := rfl
@[simp] theorem setVector_ticks (s : State) (i : Nat) (v : Vector32) : (setVector s i v).ticks = s.ticks := rfl
@[simp] theorem setVector_out (s : State) (i : Nat) (v : Vector32) : (setVector s i v).out = s.out := rfl
@[simp] theorem setVector_mem (s : State) (i : Nat) (v : Vector32) : (setVector s i v).mem = s.mem := rfl
@[simp] theorem setVector_flash (s : State) (i : Nat) (v : Vector32) : (setVector s i v).flash = s.flash := rfl
@[simp] theorem setVector_regs (s : State) (i : Nat) (v : Vector32) : (setVector s i v).regs = s.regs := rfl
@[simp] theorem setVector_shadows (s : State) (i : Nat) (v : Vector32) : (setVector s i v).shadows = s.shadows := rfl
@[simp] theorem setVector_cores (s : State) (i : Nat) (v : Vector32) : (setVector s i v).cores = s.cores := rfl
@[simp] theorem setVector_hubs (s : State) (i : Nat) (v : Vector32) : (setVector s i v).hubs = s.hubs := rfl
@[simp] theorem setVector_wdma (s : State) (i : Nat) (v : Vector32) : (setVector s i v).wdma = s.wdma := rfl
@[simp] theorem setVector_wdmaNext (s : State) (i : Nat) (v : Vector32) : (setVector s i v).wdmaNext = s.wdmaNext := rfl
@[simp] theorem setVector_bankNext (s : State) (i : Nat) (v : Vector32) : (setVector s i v).bankNext = s.bankNext := rfl
@[simp] theorem setVector_starved (s : State) (i : Nat) (v : Vector32) : (setVector s i v).starved = s.starved := rfl
@[simp] theorem setVector_cranks (s : State) (i : Nat) (v : Vector32) : (setVector s i v).cranks = s.cranks := rfl
@[simp] theorem setVector_lanes (s : State) (i : Nat) (v : Vector32) : (setVector s i v).lanes = s.lanes := rfl
@[simp] theorem setVector_chamber (s : State) (i : Nat) (v : Vector32) : (setVector s i v).chamber = s.chamber := rfl
@[simp] theorem setVector_otp (s : State) (i : Nat) (v : Vector32) : (setVector s i v).otp = s.otp := rfl
@[simp] theorem setVector_lc (s : State) (i : Nat) (v : Vector32) : (setVector s i v).lc = s.lc := rfl
@[simp] theorem setVector_boot (s : State) (i : Nat) (v : Vector32) : (setVector s i v).boot = s.boot := rfl
@[simp] theorem setVector_platforms (s : State) (i : Nat) (v : Vector32) : (setVector s i v).platforms = s.platforms := rfl
@[simp] theorem setVector_ports (s : State) (i : Nat) (v : Vector32) : (setVector s i v).ports = s.ports := rfl
@[simp] theorem setVector_svc (s : State) (i : Nat) (v : Vector32) : (setVector s i v).svc = s.svc := rfl
@[simp] theorem setVector_rcv (s : State) (i : Nat) (v : Vector32) : (setVector s i v).rcv = s.rcv := rfl
@[simp] theorem setVector_chain (s : State) (i : Nat) (v : Vector32) : (setVector s i v).chain = s.chain := rfl
@[simp] theorem setVector_time (s : State) (i : Nat) (v : Vector32) : (setVector s i v).time = s.time := rfl
@[simp] theorem setVector_upd (s : State) (i : Nat) (v : Vector32) : (setVector s i v).upd = s.upd := rfl
@[simp] theorem setVector_fs (s : State) (i : Nat) (v : Vector32) : (setVector s i v).fs = s.fs := rfl
@[simp] theorem setVector_fw (s : State) (i : Nat) (v : Vector32) : (setVector s i v).fw = s.fw := rfl
@[simp] theorem setVector_gov (s : State) (i : Nat) (v : Vector32) : (setVector s i v).gov = s.gov := rfl
@[simp] theorem setVector_pwr (s : State) (i : Nat) (v : Vector32) : (setVector s i v).pwr = s.pwr := rfl
@[simp] theorem setVector_pins (s : State) (i : Nat) (v : Vector32) : (setVector s i v).pins = s.pins := rfl
@[simp] theorem setVector_i3c (s : State) (i : Nat) (v : Vector32) : (setVector s i v).i3c = s.i3c := rfl
@[simp] theorem setVector_drip (s : State) (i : Nat) (v : Vector32) : (setVector s i v).drip = s.drip := rfl

@[simp] theorem setJob_pending (s : State) (c : Nat) (j : Option Job) : (setJob s c j).pending = s.pending := rfl
@[simp] theorem setJob_draws (s : State) (c : Nat) (j : Option Job) : (setJob s c j).draws = s.draws := rfl
@[simp] theorem setJob_ticks (s : State) (c : Nat) (j : Option Job) : (setJob s c j).ticks = s.ticks := rfl
@[simp] theorem setJob_out (s : State) (c : Nat) (j : Option Job) : (setJob s c j).out = s.out := rfl
@[simp] theorem setJob_mem (s : State) (c : Nat) (j : Option Job) : (setJob s c j).mem = s.mem := rfl
@[simp] theorem setJob_flash (s : State) (c : Nat) (j : Option Job) : (setJob s c j).flash = s.flash := rfl
@[simp] theorem setJob_regs (s : State) (c : Nat) (j : Option Job) : (setJob s c j).regs = s.regs := rfl
@[simp] theorem setJob_shadows (s : State) (c : Nat) (j : Option Job) : (setJob s c j).shadows = s.shadows := rfl
@[simp] theorem setJob_cores (s : State) (c : Nat) (j : Option Job) : (setJob s c j).cores = s.cores := rfl
@[simp] theorem setJob_hubs (s : State) (c : Nat) (j : Option Job) : (setJob s c j).hubs = s.hubs := rfl
@[simp] theorem setJob_wdma (s : State) (c : Nat) (j : Option Job) : (setJob s c j).wdma = s.wdma := rfl
@[simp] theorem setJob_wdmaNext (s : State) (c : Nat) (j : Option Job) : (setJob s c j).wdmaNext = s.wdmaNext := rfl
@[simp] theorem setJob_bankNext (s : State) (c : Nat) (j : Option Job) : (setJob s c j).bankNext = s.bankNext := rfl
@[simp] theorem setJob_starved (s : State) (c : Nat) (j : Option Job) : (setJob s c j).starved = s.starved := rfl
@[simp] theorem setJob_cranks (s : State) (c : Nat) (j : Option Job) : (setJob s c j).cranks = s.cranks := rfl
@[simp] theorem setJob_lanes (s : State) (c : Nat) (j : Option Job) : (setJob s c j).lanes = s.lanes := rfl
@[simp] theorem setJob_chamber (s : State) (c : Nat) (j : Option Job) : (setJob s c j).chamber = s.chamber := rfl
@[simp] theorem setJob_otp (s : State) (c : Nat) (j : Option Job) : (setJob s c j).otp = s.otp := rfl
@[simp] theorem setJob_lc (s : State) (c : Nat) (j : Option Job) : (setJob s c j).lc = s.lc := rfl
@[simp] theorem setJob_boot (s : State) (c : Nat) (j : Option Job) : (setJob s c j).boot = s.boot := rfl
@[simp] theorem setJob_platforms (s : State) (c : Nat) (j : Option Job) : (setJob s c j).platforms = s.platforms := rfl
@[simp] theorem setJob_ports (s : State) (c : Nat) (j : Option Job) : (setJob s c j).ports = s.ports := rfl
@[simp] theorem setJob_svc (s : State) (c : Nat) (j : Option Job) : (setJob s c j).svc = s.svc := rfl
@[simp] theorem setJob_rcv (s : State) (c : Nat) (j : Option Job) : (setJob s c j).rcv = s.rcv := rfl
@[simp] theorem setJob_chain (s : State) (c : Nat) (j : Option Job) : (setJob s c j).chain = s.chain := rfl
@[simp] theorem setJob_time (s : State) (c : Nat) (j : Option Job) : (setJob s c j).time = s.time := rfl
@[simp] theorem setJob_upd (s : State) (c : Nat) (j : Option Job) : (setJob s c j).upd = s.upd := rfl
@[simp] theorem setJob_fs (s : State) (c : Nat) (j : Option Job) : (setJob s c j).fs = s.fs := rfl
@[simp] theorem setJob_fw (s : State) (c : Nat) (j : Option Job) : (setJob s c j).fw = s.fw := rfl
@[simp] theorem setJob_gov (s : State) (c : Nat) (j : Option Job) : (setJob s c j).gov = s.gov := rfl
@[simp] theorem setJob_pwr (s : State) (c : Nat) (j : Option Job) : (setJob s c j).pwr = s.pwr := rfl
@[simp] theorem setJob_pins (s : State) (c : Nat) (j : Option Job) : (setJob s c j).pins = s.pins := rfl
@[simp] theorem setJob_i3c (s : State) (c : Nat) (j : Option Job) : (setJob s c j).i3c = s.i3c := rfl
@[simp] theorem setJob_drip (s : State) (c : Nat) (j : Option Job) : (setJob s c j).drip = s.drip := rfl

@[simp] theorem setCrank_pending (s : State) (w : Nat) (k : Crank) : (setCrank s w k).pending = s.pending := rfl
@[simp] theorem setCrank_draws (s : State) (w : Nat) (k : Crank) : (setCrank s w k).draws = s.draws := rfl
@[simp] theorem setCrank_ticks (s : State) (w : Nat) (k : Crank) : (setCrank s w k).ticks = s.ticks := rfl
@[simp] theorem setCrank_out (s : State) (w : Nat) (k : Crank) : (setCrank s w k).out = s.out := rfl
@[simp] theorem setCrank_mem (s : State) (w : Nat) (k : Crank) : (setCrank s w k).mem = s.mem := rfl
@[simp] theorem setCrank_flash (s : State) (w : Nat) (k : Crank) : (setCrank s w k).flash = s.flash := rfl
@[simp] theorem setCrank_regs (s : State) (w : Nat) (k : Crank) : (setCrank s w k).regs = s.regs := rfl
@[simp] theorem setCrank_shadows (s : State) (w : Nat) (k : Crank) : (setCrank s w k).shadows = s.shadows := rfl
@[simp] theorem setCrank_cores (s : State) (w : Nat) (k : Crank) : (setCrank s w k).cores = s.cores := rfl
@[simp] theorem setCrank_hubs (s : State) (w : Nat) (k : Crank) : (setCrank s w k).hubs = s.hubs := rfl
@[simp] theorem setCrank_wdma (s : State) (w : Nat) (k : Crank) : (setCrank s w k).wdma = s.wdma := rfl
@[simp] theorem setCrank_wdmaNext (s : State) (w : Nat) (k : Crank) : (setCrank s w k).wdmaNext = s.wdmaNext := rfl
@[simp] theorem setCrank_bankNext (s : State) (w : Nat) (k : Crank) : (setCrank s w k).bankNext = s.bankNext := rfl
@[simp] theorem setCrank_starved (s : State) (w : Nat) (k : Crank) : (setCrank s w k).starved = s.starved := rfl
@[simp] theorem setCrank_lanes (s : State) (w : Nat) (k : Crank) : (setCrank s w k).lanes = s.lanes := rfl
@[simp] theorem setCrank_chamber (s : State) (w : Nat) (k : Crank) : (setCrank s w k).chamber = s.chamber := rfl
@[simp] theorem setCrank_otp (s : State) (w : Nat) (k : Crank) : (setCrank s w k).otp = s.otp := rfl
@[simp] theorem setCrank_lc (s : State) (w : Nat) (k : Crank) : (setCrank s w k).lc = s.lc := rfl
@[simp] theorem setCrank_boot (s : State) (w : Nat) (k : Crank) : (setCrank s w k).boot = s.boot := rfl
@[simp] theorem setCrank_platforms (s : State) (w : Nat) (k : Crank) : (setCrank s w k).platforms = s.platforms := rfl
@[simp] theorem setCrank_ports (s : State) (w : Nat) (k : Crank) : (setCrank s w k).ports = s.ports := rfl
@[simp] theorem setCrank_fabric (s : State) (w : Nat) (k : Crank) : (setCrank s w k).fabric = s.fabric := rfl
@[simp] theorem setCrank_svc (s : State) (w : Nat) (k : Crank) : (setCrank s w k).svc = s.svc := rfl
@[simp] theorem setCrank_rcv (s : State) (w : Nat) (k : Crank) : (setCrank s w k).rcv = s.rcv := rfl
@[simp] theorem setCrank_chain (s : State) (w : Nat) (k : Crank) : (setCrank s w k).chain = s.chain := rfl
@[simp] theorem setCrank_time (s : State) (w : Nat) (k : Crank) : (setCrank s w k).time = s.time := rfl
@[simp] theorem setCrank_upd (s : State) (w : Nat) (k : Crank) : (setCrank s w k).upd = s.upd := rfl
@[simp] theorem setCrank_fs (s : State) (w : Nat) (k : Crank) : (setCrank s w k).fs = s.fs := rfl
@[simp] theorem setCrank_fw (s : State) (w : Nat) (k : Crank) : (setCrank s w k).fw = s.fw := rfl
@[simp] theorem setCrank_gov (s : State) (w : Nat) (k : Crank) : (setCrank s w k).gov = s.gov := rfl
@[simp] theorem setCrank_pwr (s : State) (w : Nat) (k : Crank) : (setCrank s w k).pwr = s.pwr := rfl
@[simp] theorem setCrank_pins (s : State) (w : Nat) (k : Crank) : (setCrank s w k).pins = s.pins := rfl
@[simp] theorem setCrank_i3c (s : State) (w : Nat) (k : Crank) : (setCrank s w k).i3c = s.i3c := rfl
@[simp] theorem setCrank_drip (s : State) (w : Nat) (k : Crank) : (setCrank s w k).drip = s.drip := rfl

@[simp] theorem setCtx_pending (s : State) (w x : Nat) (c : Ctx) : (setCtx s w x c).pending = s.pending := rfl
@[simp] theorem setCtx_draws (s : State) (w x : Nat) (c : Ctx) : (setCtx s w x c).draws = s.draws := rfl
@[simp] theorem setCtx_ticks (s : State) (w x : Nat) (c : Ctx) : (setCtx s w x c).ticks = s.ticks := rfl
@[simp] theorem setCtx_out (s : State) (w x : Nat) (c : Ctx) : (setCtx s w x c).out = s.out := rfl
@[simp] theorem setCtx_mem (s : State) (w x : Nat) (c : Ctx) : (setCtx s w x c).mem = s.mem := rfl
@[simp] theorem setCtx_flash (s : State) (w x : Nat) (c : Ctx) : (setCtx s w x c).flash = s.flash := rfl
@[simp] theorem setCtx_regs (s : State) (w x : Nat) (c : Ctx) : (setCtx s w x c).regs = s.regs := rfl
@[simp] theorem setCtx_shadows (s : State) (w x : Nat) (c : Ctx) : (setCtx s w x c).shadows = s.shadows := rfl
@[simp] theorem setCtx_cores (s : State) (w x : Nat) (c : Ctx) : (setCtx s w x c).cores = s.cores := rfl
@[simp] theorem setCtx_hubs (s : State) (w x : Nat) (c : Ctx) : (setCtx s w x c).hubs = s.hubs := rfl
@[simp] theorem setCtx_wdma (s : State) (w x : Nat) (c : Ctx) : (setCtx s w x c).wdma = s.wdma := rfl
@[simp] theorem setCtx_wdmaNext (s : State) (w x : Nat) (c : Ctx) : (setCtx s w x c).wdmaNext = s.wdmaNext := rfl
@[simp] theorem setCtx_bankNext (s : State) (w x : Nat) (c : Ctx) : (setCtx s w x c).bankNext = s.bankNext := rfl
@[simp] theorem setCtx_starved (s : State) (w x : Nat) (c : Ctx) : (setCtx s w x c).starved = s.starved := rfl
@[simp] theorem setCtx_lanes (s : State) (w x : Nat) (c : Ctx) : (setCtx s w x c).lanes = s.lanes := rfl
@[simp] theorem setCtx_chamber (s : State) (w x : Nat) (c : Ctx) : (setCtx s w x c).chamber = s.chamber := rfl
@[simp] theorem setCtx_otp (s : State) (w x : Nat) (c : Ctx) : (setCtx s w x c).otp = s.otp := rfl
@[simp] theorem setCtx_lc (s : State) (w x : Nat) (c : Ctx) : (setCtx s w x c).lc = s.lc := rfl
@[simp] theorem setCtx_boot (s : State) (w x : Nat) (c : Ctx) : (setCtx s w x c).boot = s.boot := rfl
@[simp] theorem setCtx_platforms (s : State) (w x : Nat) (c : Ctx) : (setCtx s w x c).platforms = s.platforms := rfl
@[simp] theorem setCtx_ports (s : State) (w x : Nat) (c : Ctx) : (setCtx s w x c).ports = s.ports := rfl
@[simp] theorem setCtx_fabric (s : State) (w x : Nat) (c : Ctx) : (setCtx s w x c).fabric = s.fabric := rfl
@[simp] theorem setCtx_svc (s : State) (w x : Nat) (c : Ctx) : (setCtx s w x c).svc = s.svc := rfl
@[simp] theorem setCtx_rcv (s : State) (w x : Nat) (c : Ctx) : (setCtx s w x c).rcv = s.rcv := rfl
@[simp] theorem setCtx_chain (s : State) (w x : Nat) (c : Ctx) : (setCtx s w x c).chain = s.chain := rfl
@[simp] theorem setCtx_time (s : State) (w x : Nat) (c : Ctx) : (setCtx s w x c).time = s.time := rfl
@[simp] theorem setCtx_upd (s : State) (w x : Nat) (c : Ctx) : (setCtx s w x c).upd = s.upd := rfl
@[simp] theorem setCtx_fs (s : State) (w x : Nat) (c : Ctx) : (setCtx s w x c).fs = s.fs := rfl
@[simp] theorem setCtx_fw (s : State) (w x : Nat) (c : Ctx) : (setCtx s w x c).fw = s.fw := rfl
@[simp] theorem setCtx_gov (s : State) (w x : Nat) (c : Ctx) : (setCtx s w x c).gov = s.gov := rfl
@[simp] theorem setCtx_pwr (s : State) (w x : Nat) (c : Ctx) : (setCtx s w x c).pwr = s.pwr := rfl
@[simp] theorem setCtx_pins (s : State) (w x : Nat) (c : Ctx) : (setCtx s w x c).pins = s.pins := rfl
@[simp] theorem setCtx_i3c (s : State) (w x : Nat) (c : Ctx) : (setCtx s w x c).i3c = s.i3c := rfl
@[simp] theorem setCtx_drip (s : State) (w x : Nat) (c : Ctx) : (setCtx s w x c).drip = s.drip := rfl

@[simp] theorem setLane_pending (s : State) (l : Nat) (k : Lane) : (setLane s l k).pending = s.pending := rfl
@[simp] theorem setLane_draws (s : State) (l : Nat) (k : Lane) : (setLane s l k).draws = s.draws := rfl
@[simp] theorem setLane_ticks (s : State) (l : Nat) (k : Lane) : (setLane s l k).ticks = s.ticks := rfl
@[simp] theorem setLane_out (s : State) (l : Nat) (k : Lane) : (setLane s l k).out = s.out := rfl
@[simp] theorem setLane_mem (s : State) (l : Nat) (k : Lane) : (setLane s l k).mem = s.mem := rfl
@[simp] theorem setLane_flash (s : State) (l : Nat) (k : Lane) : (setLane s l k).flash = s.flash := rfl
@[simp] theorem setLane_regs (s : State) (l : Nat) (k : Lane) : (setLane s l k).regs = s.regs := rfl
@[simp] theorem setLane_shadows (s : State) (l : Nat) (k : Lane) : (setLane s l k).shadows = s.shadows := rfl
@[simp] theorem setLane_cores (s : State) (l : Nat) (k : Lane) : (setLane s l k).cores = s.cores := rfl
@[simp] theorem setLane_hubs (s : State) (l : Nat) (k : Lane) : (setLane s l k).hubs = s.hubs := rfl
@[simp] theorem setLane_wdma (s : State) (l : Nat) (k : Lane) : (setLane s l k).wdma = s.wdma := rfl
@[simp] theorem setLane_wdmaNext (s : State) (l : Nat) (k : Lane) : (setLane s l k).wdmaNext = s.wdmaNext := rfl
@[simp] theorem setLane_bankNext (s : State) (l : Nat) (k : Lane) : (setLane s l k).bankNext = s.bankNext := rfl
@[simp] theorem setLane_starved (s : State) (l : Nat) (k : Lane) : (setLane s l k).starved = s.starved := rfl
@[simp] theorem setLane_cranks (s : State) (l : Nat) (k : Lane) : (setLane s l k).cranks = s.cranks := rfl
@[simp] theorem setLane_chamber (s : State) (l : Nat) (k : Lane) : (setLane s l k).chamber = s.chamber := rfl
@[simp] theorem setLane_otp (s : State) (l : Nat) (k : Lane) : (setLane s l k).otp = s.otp := rfl
@[simp] theorem setLane_lc (s : State) (l : Nat) (k : Lane) : (setLane s l k).lc = s.lc := rfl
@[simp] theorem setLane_boot (s : State) (l : Nat) (k : Lane) : (setLane s l k).boot = s.boot := rfl
@[simp] theorem setLane_platforms (s : State) (l : Nat) (k : Lane) : (setLane s l k).platforms = s.platforms := rfl
@[simp] theorem setLane_ports (s : State) (l : Nat) (k : Lane) : (setLane s l k).ports = s.ports := rfl
@[simp] theorem setLane_fabric (s : State) (l : Nat) (k : Lane) : (setLane s l k).fabric = s.fabric := rfl
@[simp] theorem setLane_svc (s : State) (l : Nat) (k : Lane) : (setLane s l k).svc = s.svc := rfl
@[simp] theorem setLane_rcv (s : State) (l : Nat) (k : Lane) : (setLane s l k).rcv = s.rcv := rfl
@[simp] theorem setLane_chain (s : State) (l : Nat) (k : Lane) : (setLane s l k).chain = s.chain := rfl
@[simp] theorem setLane_time (s : State) (l : Nat) (k : Lane) : (setLane s l k).time = s.time := rfl
@[simp] theorem setLane_upd (s : State) (l : Nat) (k : Lane) : (setLane s l k).upd = s.upd := rfl
@[simp] theorem setLane_fs (s : State) (l : Nat) (k : Lane) : (setLane s l k).fs = s.fs := rfl
@[simp] theorem setLane_fw (s : State) (l : Nat) (k : Lane) : (setLane s l k).fw = s.fw := rfl
@[simp] theorem setLane_gov (s : State) (l : Nat) (k : Lane) : (setLane s l k).gov = s.gov := rfl
@[simp] theorem setLane_pwr (s : State) (l : Nat) (k : Lane) : (setLane s l k).pwr = s.pwr := rfl
@[simp] theorem setLane_pins (s : State) (l : Nat) (k : Lane) : (setLane s l k).pins = s.pins := rfl
@[simp] theorem setLane_i3c (s : State) (l : Nat) (k : Lane) : (setLane s l k).i3c = s.i3c := rfl
@[simp] theorem setLane_drip (s : State) (l : Nat) (k : Lane) : (setLane s l k).drip = s.drip := rfl

@[simp] theorem setPort_pending (s : State) (p : Nat) (k : Port) : (setPort s p k).pending = s.pending := rfl
@[simp] theorem setPort_draws (s : State) (p : Nat) (k : Port) : (setPort s p k).draws = s.draws := rfl
@[simp] theorem setPort_ticks (s : State) (p : Nat) (k : Port) : (setPort s p k).ticks = s.ticks := rfl
@[simp] theorem setPort_out (s : State) (p : Nat) (k : Port) : (setPort s p k).out = s.out := rfl
@[simp] theorem setPort_mem (s : State) (p : Nat) (k : Port) : (setPort s p k).mem = s.mem := rfl
@[simp] theorem setPort_flash (s : State) (p : Nat) (k : Port) : (setPort s p k).flash = s.flash := rfl
@[simp] theorem setPort_regs (s : State) (p : Nat) (k : Port) : (setPort s p k).regs = s.regs := rfl
@[simp] theorem setPort_shadows (s : State) (p : Nat) (k : Port) : (setPort s p k).shadows = s.shadows := rfl
@[simp] theorem setPort_cores (s : State) (p : Nat) (k : Port) : (setPort s p k).cores = s.cores := rfl
@[simp] theorem setPort_hubs (s : State) (p : Nat) (k : Port) : (setPort s p k).hubs = s.hubs := rfl
@[simp] theorem setPort_wdma (s : State) (p : Nat) (k : Port) : (setPort s p k).wdma = s.wdma := rfl
@[simp] theorem setPort_wdmaNext (s : State) (p : Nat) (k : Port) : (setPort s p k).wdmaNext = s.wdmaNext := rfl
@[simp] theorem setPort_bankNext (s : State) (p : Nat) (k : Port) : (setPort s p k).bankNext = s.bankNext := rfl
@[simp] theorem setPort_starved (s : State) (p : Nat) (k : Port) : (setPort s p k).starved = s.starved := rfl
@[simp] theorem setPort_cranks (s : State) (p : Nat) (k : Port) : (setPort s p k).cranks = s.cranks := rfl
@[simp] theorem setPort_lanes (s : State) (p : Nat) (k : Port) : (setPort s p k).lanes = s.lanes := rfl
@[simp] theorem setPort_chamber (s : State) (p : Nat) (k : Port) : (setPort s p k).chamber = s.chamber := rfl
@[simp] theorem setPort_otp (s : State) (p : Nat) (k : Port) : (setPort s p k).otp = s.otp := rfl
@[simp] theorem setPort_lc (s : State) (p : Nat) (k : Port) : (setPort s p k).lc = s.lc := rfl
@[simp] theorem setPort_boot (s : State) (p : Nat) (k : Port) : (setPort s p k).boot = s.boot := rfl
@[simp] theorem setPort_platforms (s : State) (p : Nat) (k : Port) : (setPort s p k).platforms = s.platforms := rfl
@[simp] theorem setPort_fabric (s : State) (p : Nat) (k : Port) : (setPort s p k).fabric = s.fabric := rfl
@[simp] theorem setPort_svc (s : State) (p : Nat) (k : Port) : (setPort s p k).svc = s.svc := rfl
@[simp] theorem setPort_rcv (s : State) (p : Nat) (k : Port) : (setPort s p k).rcv = s.rcv := rfl
@[simp] theorem setPort_chain (s : State) (p : Nat) (k : Port) : (setPort s p k).chain = s.chain := rfl
@[simp] theorem setPort_time (s : State) (p : Nat) (k : Port) : (setPort s p k).time = s.time := rfl
@[simp] theorem setPort_upd (s : State) (p : Nat) (k : Port) : (setPort s p k).upd = s.upd := rfl
@[simp] theorem setPort_fs (s : State) (p : Nat) (k : Port) : (setPort s p k).fs = s.fs := rfl
@[simp] theorem setPort_fw (s : State) (p : Nat) (k : Port) : (setPort s p k).fw = s.fw := rfl
@[simp] theorem setPort_gov (s : State) (p : Nat) (k : Port) : (setPort s p k).gov = s.gov := rfl
@[simp] theorem setPort_pwr (s : State) (p : Nat) (k : Port) : (setPort s p k).pwr = s.pwr := rfl
@[simp] theorem setPort_pins (s : State) (p : Nat) (k : Port) : (setPort s p k).pins = s.pins := rfl
@[simp] theorem setPort_i3c (s : State) (p : Nat) (k : Port) : (setPort s p k).i3c = s.i3c := rfl
@[simp] theorem setPort_drip (s : State) (p : Nat) (k : Port) : (setPort s p k).drip = s.drip := rfl

@[simp] theorem setPlat_pending (s : State) (p : Nat) (k : Platform) : (setPlat s p k).pending = s.pending := rfl
@[simp] theorem setPlat_draws (s : State) (p : Nat) (k : Platform) : (setPlat s p k).draws = s.draws := rfl
@[simp] theorem setPlat_ticks (s : State) (p : Nat) (k : Platform) : (setPlat s p k).ticks = s.ticks := rfl
@[simp] theorem setPlat_out (s : State) (p : Nat) (k : Platform) : (setPlat s p k).out = s.out := rfl
@[simp] theorem setPlat_mem (s : State) (p : Nat) (k : Platform) : (setPlat s p k).mem = s.mem := rfl
@[simp] theorem setPlat_flash (s : State) (p : Nat) (k : Platform) : (setPlat s p k).flash = s.flash := rfl
@[simp] theorem setPlat_regs (s : State) (p : Nat) (k : Platform) : (setPlat s p k).regs = s.regs := rfl
@[simp] theorem setPlat_shadows (s : State) (p : Nat) (k : Platform) : (setPlat s p k).shadows = s.shadows := rfl
@[simp] theorem setPlat_cores (s : State) (p : Nat) (k : Platform) : (setPlat s p k).cores = s.cores := rfl
@[simp] theorem setPlat_hubs (s : State) (p : Nat) (k : Platform) : (setPlat s p k).hubs = s.hubs := rfl
@[simp] theorem setPlat_wdma (s : State) (p : Nat) (k : Platform) : (setPlat s p k).wdma = s.wdma := rfl
@[simp] theorem setPlat_wdmaNext (s : State) (p : Nat) (k : Platform) : (setPlat s p k).wdmaNext = s.wdmaNext := rfl
@[simp] theorem setPlat_bankNext (s : State) (p : Nat) (k : Platform) : (setPlat s p k).bankNext = s.bankNext := rfl
@[simp] theorem setPlat_starved (s : State) (p : Nat) (k : Platform) : (setPlat s p k).starved = s.starved := rfl
@[simp] theorem setPlat_cranks (s : State) (p : Nat) (k : Platform) : (setPlat s p k).cranks = s.cranks := rfl
@[simp] theorem setPlat_lanes (s : State) (p : Nat) (k : Platform) : (setPlat s p k).lanes = s.lanes := rfl
@[simp] theorem setPlat_chamber (s : State) (p : Nat) (k : Platform) : (setPlat s p k).chamber = s.chamber := rfl
@[simp] theorem setPlat_otp (s : State) (p : Nat) (k : Platform) : (setPlat s p k).otp = s.otp := rfl
@[simp] theorem setPlat_lc (s : State) (p : Nat) (k : Platform) : (setPlat s p k).lc = s.lc := rfl
@[simp] theorem setPlat_boot (s : State) (p : Nat) (k : Platform) : (setPlat s p k).boot = s.boot := rfl
@[simp] theorem setPlat_ports (s : State) (p : Nat) (k : Platform) : (setPlat s p k).ports = s.ports := rfl
@[simp] theorem setPlat_fabric (s : State) (p : Nat) (k : Platform) : (setPlat s p k).fabric = s.fabric := rfl
@[simp] theorem setPlat_svc (s : State) (p : Nat) (k : Platform) : (setPlat s p k).svc = s.svc := rfl
@[simp] theorem setPlat_rcv (s : State) (p : Nat) (k : Platform) : (setPlat s p k).rcv = s.rcv := rfl
@[simp] theorem setPlat_chain (s : State) (p : Nat) (k : Platform) : (setPlat s p k).chain = s.chain := rfl
@[simp] theorem setPlat_time (s : State) (p : Nat) (k : Platform) : (setPlat s p k).time = s.time := rfl
@[simp] theorem setPlat_upd (s : State) (p : Nat) (k : Platform) : (setPlat s p k).upd = s.upd := rfl
@[simp] theorem setPlat_fs (s : State) (p : Nat) (k : Platform) : (setPlat s p k).fs = s.fs := rfl
@[simp] theorem setPlat_fw (s : State) (p : Nat) (k : Platform) : (setPlat s p k).fw = s.fw := rfl
@[simp] theorem setPlat_gov (s : State) (p : Nat) (k : Platform) : (setPlat s p k).gov = s.gov := rfl
@[simp] theorem setPlat_pwr (s : State) (p : Nat) (k : Platform) : (setPlat s p k).pwr = s.pwr := rfl
@[simp] theorem setPlat_pins (s : State) (p : Nat) (k : Platform) : (setPlat s p k).pins = s.pins := rfl
@[simp] theorem setPlat_i3c (s : State) (p : Nat) (k : Platform) : (setPlat s p k).i3c = s.i3c := rfl
@[simp] theorem setPlat_drip (s : State) (p : Nat) (k : Platform) : (setPlat s p k).drip = s.drip := rfl

@[simp] theorem setPin_pending (s : State) (n : Nat) (v : Bool) : (setPin s n v).pending = s.pending := rfl
@[simp] theorem setPin_draws (s : State) (n : Nat) (v : Bool) : (setPin s n v).draws = s.draws := rfl
@[simp] theorem setPin_ticks (s : State) (n : Nat) (v : Bool) : (setPin s n v).ticks = s.ticks := rfl
@[simp] theorem setPin_out (s : State) (n : Nat) (v : Bool) : (setPin s n v).out = s.out := rfl
@[simp] theorem setPin_mem (s : State) (n : Nat) (v : Bool) : (setPin s n v).mem = s.mem := rfl
@[simp] theorem setPin_flash (s : State) (n : Nat) (v : Bool) : (setPin s n v).flash = s.flash := rfl
@[simp] theorem setPin_regs (s : State) (n : Nat) (v : Bool) : (setPin s n v).regs = s.regs := rfl
@[simp] theorem setPin_shadows (s : State) (n : Nat) (v : Bool) : (setPin s n v).shadows = s.shadows := rfl
@[simp] theorem setPin_cores (s : State) (n : Nat) (v : Bool) : (setPin s n v).cores = s.cores := rfl
@[simp] theorem setPin_hubs (s : State) (n : Nat) (v : Bool) : (setPin s n v).hubs = s.hubs := rfl
@[simp] theorem setPin_wdma (s : State) (n : Nat) (v : Bool) : (setPin s n v).wdma = s.wdma := rfl
@[simp] theorem setPin_wdmaNext (s : State) (n : Nat) (v : Bool) : (setPin s n v).wdmaNext = s.wdmaNext := rfl
@[simp] theorem setPin_bankNext (s : State) (n : Nat) (v : Bool) : (setPin s n v).bankNext = s.bankNext := rfl
@[simp] theorem setPin_starved (s : State) (n : Nat) (v : Bool) : (setPin s n v).starved = s.starved := rfl
@[simp] theorem setPin_cranks (s : State) (n : Nat) (v : Bool) : (setPin s n v).cranks = s.cranks := rfl
@[simp] theorem setPin_lanes (s : State) (n : Nat) (v : Bool) : (setPin s n v).lanes = s.lanes := rfl
@[simp] theorem setPin_chamber (s : State) (n : Nat) (v : Bool) : (setPin s n v).chamber = s.chamber := rfl
@[simp] theorem setPin_otp (s : State) (n : Nat) (v : Bool) : (setPin s n v).otp = s.otp := rfl
@[simp] theorem setPin_lc (s : State) (n : Nat) (v : Bool) : (setPin s n v).lc = s.lc := rfl
@[simp] theorem setPin_boot (s : State) (n : Nat) (v : Bool) : (setPin s n v).boot = s.boot := rfl
@[simp] theorem setPin_platforms (s : State) (n : Nat) (v : Bool) : (setPin s n v).platforms = s.platforms := rfl
@[simp] theorem setPin_ports (s : State) (n : Nat) (v : Bool) : (setPin s n v).ports = s.ports := rfl
@[simp] theorem setPin_fabric (s : State) (n : Nat) (v : Bool) : (setPin s n v).fabric = s.fabric := rfl
@[simp] theorem setPin_svc (s : State) (n : Nat) (v : Bool) : (setPin s n v).svc = s.svc := rfl
@[simp] theorem setPin_rcv (s : State) (n : Nat) (v : Bool) : (setPin s n v).rcv = s.rcv := rfl
@[simp] theorem setPin_chain (s : State) (n : Nat) (v : Bool) : (setPin s n v).chain = s.chain := rfl
@[simp] theorem setPin_time (s : State) (n : Nat) (v : Bool) : (setPin s n v).time = s.time := rfl
@[simp] theorem setPin_upd (s : State) (n : Nat) (v : Bool) : (setPin s n v).upd = s.upd := rfl
@[simp] theorem setPin_fs (s : State) (n : Nat) (v : Bool) : (setPin s n v).fs = s.fs := rfl
@[simp] theorem setPin_fw (s : State) (n : Nat) (v : Bool) : (setPin s n v).fw = s.fw := rfl
@[simp] theorem setPin_gov (s : State) (n : Nat) (v : Bool) : (setPin s n v).gov = s.gov := rfl
@[simp] theorem setPin_pwr (s : State) (n : Nat) (v : Bool) : (setPin s n v).pwr = s.pwr := rfl
@[simp] theorem setPin_i3c (s : State) (n : Nat) (v : Bool) : (setPin s n v).i3c = s.i3c := rfl
@[simp] theorem setPin_drip (s : State) (n : Nat) (v : Bool) : (setPin s n v).drip = s.drip := rfl

@[simp] theorem setHub_pending (s : State) (m : Nat) (h : HubRegs) : (setHub s m h).pending = s.pending := rfl
@[simp] theorem setHub_draws (s : State) (m : Nat) (h : HubRegs) : (setHub s m h).draws = s.draws := rfl
@[simp] theorem setHub_ticks (s : State) (m : Nat) (h : HubRegs) : (setHub s m h).ticks = s.ticks := rfl
@[simp] theorem setHub_out (s : State) (m : Nat) (h : HubRegs) : (setHub s m h).out = s.out := rfl
@[simp] theorem setHub_mem (s : State) (m : Nat) (h : HubRegs) : (setHub s m h).mem = s.mem := rfl
@[simp] theorem setHub_flash (s : State) (m : Nat) (h : HubRegs) : (setHub s m h).flash = s.flash := rfl
@[simp] theorem setHub_regs (s : State) (m : Nat) (h : HubRegs) : (setHub s m h).regs = s.regs := rfl
@[simp] theorem setHub_shadows (s : State) (m : Nat) (h : HubRegs) : (setHub s m h).shadows = s.shadows := rfl
@[simp] theorem setHub_cores (s : State) (m : Nat) (h : HubRegs) : (setHub s m h).cores = s.cores := rfl
@[simp] theorem setHub_wdma (s : State) (m : Nat) (h : HubRegs) : (setHub s m h).wdma = s.wdma := rfl
@[simp] theorem setHub_wdmaNext (s : State) (m : Nat) (h : HubRegs) : (setHub s m h).wdmaNext = s.wdmaNext := rfl
@[simp] theorem setHub_bankNext (s : State) (m : Nat) (h : HubRegs) : (setHub s m h).bankNext = s.bankNext := rfl
@[simp] theorem setHub_starved (s : State) (m : Nat) (h : HubRegs) : (setHub s m h).starved = s.starved := rfl
@[simp] theorem setHub_cranks (s : State) (m : Nat) (h : HubRegs) : (setHub s m h).cranks = s.cranks := rfl
@[simp] theorem setHub_lanes (s : State) (m : Nat) (h : HubRegs) : (setHub s m h).lanes = s.lanes := rfl
@[simp] theorem setHub_chamber (s : State) (m : Nat) (h : HubRegs) : (setHub s m h).chamber = s.chamber := rfl
@[simp] theorem setHub_otp (s : State) (m : Nat) (h : HubRegs) : (setHub s m h).otp = s.otp := rfl
@[simp] theorem setHub_lc (s : State) (m : Nat) (h : HubRegs) : (setHub s m h).lc = s.lc := rfl
@[simp] theorem setHub_boot (s : State) (m : Nat) (h : HubRegs) : (setHub s m h).boot = s.boot := rfl
@[simp] theorem setHub_platforms (s : State) (m : Nat) (h : HubRegs) : (setHub s m h).platforms = s.platforms := rfl
@[simp] theorem setHub_ports (s : State) (m : Nat) (h : HubRegs) : (setHub s m h).ports = s.ports := rfl
@[simp] theorem setHub_fabric (s : State) (m : Nat) (h : HubRegs) : (setHub s m h).fabric = s.fabric := rfl
@[simp] theorem setHub_svc (s : State) (m : Nat) (h : HubRegs) : (setHub s m h).svc = s.svc := rfl
@[simp] theorem setHub_rcv (s : State) (m : Nat) (h : HubRegs) : (setHub s m h).rcv = s.rcv := rfl
@[simp] theorem setHub_chain (s : State) (m : Nat) (h : HubRegs) : (setHub s m h).chain = s.chain := rfl
@[simp] theorem setHub_time (s : State) (m : Nat) (h : HubRegs) : (setHub s m h).time = s.time := rfl
@[simp] theorem setHub_upd (s : State) (m : Nat) (h : HubRegs) : (setHub s m h).upd = s.upd := rfl
@[simp] theorem setHub_fs (s : State) (m : Nat) (h : HubRegs) : (setHub s m h).fs = s.fs := rfl
@[simp] theorem setHub_fw (s : State) (m : Nat) (h : HubRegs) : (setHub s m h).fw = s.fw := rfl
@[simp] theorem setHub_gov (s : State) (m : Nat) (h : HubRegs) : (setHub s m h).gov = s.gov := rfl
@[simp] theorem setHub_pwr (s : State) (m : Nat) (h : HubRegs) : (setHub s m h).pwr = s.pwr := rfl
@[simp] theorem setHub_pins (s : State) (m : Nat) (h : HubRegs) : (setHub s m h).pins = s.pins := rfl
@[simp] theorem setHub_i3c (s : State) (m : Nat) (h : HubRegs) : (setHub s m h).i3c = s.i3c := rfl
@[simp] theorem setHub_drip (s : State) (m : Nat) (h : HubRegs) : (setHub s m h).drip = s.drip := rfl

@[simp] theorem setShadow_pending (s : State) (m a : Nat) (v : Option W32) : (setShadow s m a v).pending = s.pending := rfl
@[simp] theorem setShadow_draws (s : State) (m a : Nat) (v : Option W32) : (setShadow s m a v).draws = s.draws := rfl
@[simp] theorem setShadow_ticks (s : State) (m a : Nat) (v : Option W32) : (setShadow s m a v).ticks = s.ticks := rfl
@[simp] theorem setShadow_out (s : State) (m a : Nat) (v : Option W32) : (setShadow s m a v).out = s.out := rfl
@[simp] theorem setShadow_mem (s : State) (m a : Nat) (v : Option W32) : (setShadow s m a v).mem = s.mem := rfl
@[simp] theorem setShadow_flash (s : State) (m a : Nat) (v : Option W32) : (setShadow s m a v).flash = s.flash := rfl
@[simp] theorem setShadow_regs (s : State) (m a : Nat) (v : Option W32) : (setShadow s m a v).regs = s.regs := rfl
@[simp] theorem setShadow_cores (s : State) (m a : Nat) (v : Option W32) : (setShadow s m a v).cores = s.cores := rfl
@[simp] theorem setShadow_hubs (s : State) (m a : Nat) (v : Option W32) : (setShadow s m a v).hubs = s.hubs := rfl
@[simp] theorem setShadow_wdma (s : State) (m a : Nat) (v : Option W32) : (setShadow s m a v).wdma = s.wdma := rfl
@[simp] theorem setShadow_wdmaNext (s : State) (m a : Nat) (v : Option W32) : (setShadow s m a v).wdmaNext = s.wdmaNext := rfl
@[simp] theorem setShadow_bankNext (s : State) (m a : Nat) (v : Option W32) : (setShadow s m a v).bankNext = s.bankNext := rfl
@[simp] theorem setShadow_starved (s : State) (m a : Nat) (v : Option W32) : (setShadow s m a v).starved = s.starved := rfl
@[simp] theorem setShadow_cranks (s : State) (m a : Nat) (v : Option W32) : (setShadow s m a v).cranks = s.cranks := rfl
@[simp] theorem setShadow_lanes (s : State) (m a : Nat) (v : Option W32) : (setShadow s m a v).lanes = s.lanes := rfl
@[simp] theorem setShadow_chamber (s : State) (m a : Nat) (v : Option W32) : (setShadow s m a v).chamber = s.chamber := rfl
@[simp] theorem setShadow_otp (s : State) (m a : Nat) (v : Option W32) : (setShadow s m a v).otp = s.otp := rfl
@[simp] theorem setShadow_lc (s : State) (m a : Nat) (v : Option W32) : (setShadow s m a v).lc = s.lc := rfl
@[simp] theorem setShadow_boot (s : State) (m a : Nat) (v : Option W32) : (setShadow s m a v).boot = s.boot := rfl
@[simp] theorem setShadow_platforms (s : State) (m a : Nat) (v : Option W32) : (setShadow s m a v).platforms = s.platforms := rfl
@[simp] theorem setShadow_ports (s : State) (m a : Nat) (v : Option W32) : (setShadow s m a v).ports = s.ports := rfl
@[simp] theorem setShadow_fabric (s : State) (m a : Nat) (v : Option W32) : (setShadow s m a v).fabric = s.fabric := rfl
@[simp] theorem setShadow_svc (s : State) (m a : Nat) (v : Option W32) : (setShadow s m a v).svc = s.svc := rfl
@[simp] theorem setShadow_rcv (s : State) (m a : Nat) (v : Option W32) : (setShadow s m a v).rcv = s.rcv := rfl
@[simp] theorem setShadow_chain (s : State) (m a : Nat) (v : Option W32) : (setShadow s m a v).chain = s.chain := rfl
@[simp] theorem setShadow_time (s : State) (m a : Nat) (v : Option W32) : (setShadow s m a v).time = s.time := rfl
@[simp] theorem setShadow_upd (s : State) (m a : Nat) (v : Option W32) : (setShadow s m a v).upd = s.upd := rfl
@[simp] theorem setShadow_fs (s : State) (m a : Nat) (v : Option W32) : (setShadow s m a v).fs = s.fs := rfl
@[simp] theorem setShadow_fw (s : State) (m a : Nat) (v : Option W32) : (setShadow s m a v).fw = s.fw := rfl
@[simp] theorem setShadow_gov (s : State) (m a : Nat) (v : Option W32) : (setShadow s m a v).gov = s.gov := rfl
@[simp] theorem setShadow_pwr (s : State) (m a : Nat) (v : Option W32) : (setShadow s m a v).pwr = s.pwr := rfl
@[simp] theorem setShadow_pins (s : State) (m a : Nat) (v : Option W32) : (setShadow s m a v).pins = s.pins := rfl
@[simp] theorem setShadow_i3c (s : State) (m a : Nat) (v : Option W32) : (setShadow s m a v).i3c = s.i3c := rfl
@[simp] theorem setShadow_drip (s : State) (m a : Nat) (v : Option W32) : (setShadow s m a v).drip = s.drip := rfl

@[simp] theorem setCport_pending (s : State) (x : Nat) (k : ChainPort) : (setCport s x k).pending = s.pending := rfl
@[simp] theorem setCport_draws (s : State) (x : Nat) (k : ChainPort) : (setCport s x k).draws = s.draws := rfl
@[simp] theorem setCport_ticks (s : State) (x : Nat) (k : ChainPort) : (setCport s x k).ticks = s.ticks := rfl
@[simp] theorem setCport_out (s : State) (x : Nat) (k : ChainPort) : (setCport s x k).out = s.out := rfl
@[simp] theorem setCport_mem (s : State) (x : Nat) (k : ChainPort) : (setCport s x k).mem = s.mem := rfl
@[simp] theorem setCport_flash (s : State) (x : Nat) (k : ChainPort) : (setCport s x k).flash = s.flash := rfl
@[simp] theorem setCport_regs (s : State) (x : Nat) (k : ChainPort) : (setCport s x k).regs = s.regs := rfl
@[simp] theorem setCport_shadows (s : State) (x : Nat) (k : ChainPort) : (setCport s x k).shadows = s.shadows := rfl
@[simp] theorem setCport_cores (s : State) (x : Nat) (k : ChainPort) : (setCport s x k).cores = s.cores := rfl
@[simp] theorem setCport_hubs (s : State) (x : Nat) (k : ChainPort) : (setCport s x k).hubs = s.hubs := rfl
@[simp] theorem setCport_wdma (s : State) (x : Nat) (k : ChainPort) : (setCport s x k).wdma = s.wdma := rfl
@[simp] theorem setCport_wdmaNext (s : State) (x : Nat) (k : ChainPort) : (setCport s x k).wdmaNext = s.wdmaNext := rfl
@[simp] theorem setCport_bankNext (s : State) (x : Nat) (k : ChainPort) : (setCport s x k).bankNext = s.bankNext := rfl
@[simp] theorem setCport_starved (s : State) (x : Nat) (k : ChainPort) : (setCport s x k).starved = s.starved := rfl
@[simp] theorem setCport_cranks (s : State) (x : Nat) (k : ChainPort) : (setCport s x k).cranks = s.cranks := rfl
@[simp] theorem setCport_lanes (s : State) (x : Nat) (k : ChainPort) : (setCport s x k).lanes = s.lanes := rfl
@[simp] theorem setCport_chamber (s : State) (x : Nat) (k : ChainPort) : (setCport s x k).chamber = s.chamber := rfl
@[simp] theorem setCport_otp (s : State) (x : Nat) (k : ChainPort) : (setCport s x k).otp = s.otp := rfl
@[simp] theorem setCport_lc (s : State) (x : Nat) (k : ChainPort) : (setCport s x k).lc = s.lc := rfl
@[simp] theorem setCport_boot (s : State) (x : Nat) (k : ChainPort) : (setCport s x k).boot = s.boot := rfl
@[simp] theorem setCport_platforms (s : State) (x : Nat) (k : ChainPort) : (setCport s x k).platforms = s.platforms := rfl
@[simp] theorem setCport_ports (s : State) (x : Nat) (k : ChainPort) : (setCport s x k).ports = s.ports := rfl
@[simp] theorem setCport_fabric (s : State) (x : Nat) (k : ChainPort) : (setCport s x k).fabric = s.fabric := rfl
@[simp] theorem setCport_svc (s : State) (x : Nat) (k : ChainPort) : (setCport s x k).svc = s.svc := rfl
@[simp] theorem setCport_rcv (s : State) (x : Nat) (k : ChainPort) : (setCport s x k).rcv = s.rcv := rfl
@[simp] theorem setCport_time (s : State) (x : Nat) (k : ChainPort) : (setCport s x k).time = s.time := rfl
@[simp] theorem setCport_upd (s : State) (x : Nat) (k : ChainPort) : (setCport s x k).upd = s.upd := rfl
@[simp] theorem setCport_fs (s : State) (x : Nat) (k : ChainPort) : (setCport s x k).fs = s.fs := rfl
@[simp] theorem setCport_fw (s : State) (x : Nat) (k : ChainPort) : (setCport s x k).fw = s.fw := rfl
@[simp] theorem setCport_gov (s : State) (x : Nat) (k : ChainPort) : (setCport s x k).gov = s.gov := rfl
@[simp] theorem setCport_pwr (s : State) (x : Nat) (k : ChainPort) : (setCport s x k).pwr = s.pwr := rfl
@[simp] theorem setCport_pins (s : State) (x : Nat) (k : ChainPort) : (setCport s x k).pins = s.pins := rfl
@[simp] theorem setCport_i3c (s : State) (x : Nat) (k : ChainPort) : (setCport s x k).i3c = s.i3c := rfl
@[simp] theorem setCport_drip (s : State) (x : Nat) (k : ChainPort) : (setCport s x k).drip = s.drip := rfl

@[simp] theorem setSlot_pending (s : State) (i : Nat) (v : Slot) : (setSlot s i v).pending = s.pending := rfl
@[simp] theorem setSlot_draws (s : State) (i : Nat) (v : Slot) : (setSlot s i v).draws = s.draws := rfl
@[simp] theorem setSlot_ticks (s : State) (i : Nat) (v : Slot) : (setSlot s i v).ticks = s.ticks := rfl
@[simp] theorem setSlot_out (s : State) (i : Nat) (v : Slot) : (setSlot s i v).out = s.out := rfl
@[simp] theorem setSlot_mem (s : State) (i : Nat) (v : Slot) : (setSlot s i v).mem = s.mem := rfl
@[simp] theorem setSlot_flash (s : State) (i : Nat) (v : Slot) : (setSlot s i v).flash = s.flash := rfl
@[simp] theorem setSlot_regs (s : State) (i : Nat) (v : Slot) : (setSlot s i v).regs = s.regs := rfl
@[simp] theorem setSlot_shadows (s : State) (i : Nat) (v : Slot) : (setSlot s i v).shadows = s.shadows := rfl
@[simp] theorem setSlot_cores (s : State) (i : Nat) (v : Slot) : (setSlot s i v).cores = s.cores := rfl
@[simp] theorem setSlot_hubs (s : State) (i : Nat) (v : Slot) : (setSlot s i v).hubs = s.hubs := rfl
@[simp] theorem setSlot_wdma (s : State) (i : Nat) (v : Slot) : (setSlot s i v).wdma = s.wdma := rfl
@[simp] theorem setSlot_wdmaNext (s : State) (i : Nat) (v : Slot) : (setSlot s i v).wdmaNext = s.wdmaNext := rfl
@[simp] theorem setSlot_bankNext (s : State) (i : Nat) (v : Slot) : (setSlot s i v).bankNext = s.bankNext := rfl
@[simp] theorem setSlot_starved (s : State) (i : Nat) (v : Slot) : (setSlot s i v).starved = s.starved := rfl
@[simp] theorem setSlot_cranks (s : State) (i : Nat) (v : Slot) : (setSlot s i v).cranks = s.cranks := rfl
@[simp] theorem setSlot_lanes (s : State) (i : Nat) (v : Slot) : (setSlot s i v).lanes = s.lanes := rfl
@[simp] theorem setSlot_otp (s : State) (i : Nat) (v : Slot) : (setSlot s i v).otp = s.otp := rfl
@[simp] theorem setSlot_lc (s : State) (i : Nat) (v : Slot) : (setSlot s i v).lc = s.lc := rfl
@[simp] theorem setSlot_boot (s : State) (i : Nat) (v : Slot) : (setSlot s i v).boot = s.boot := rfl
@[simp] theorem setSlot_platforms (s : State) (i : Nat) (v : Slot) : (setSlot s i v).platforms = s.platforms := rfl
@[simp] theorem setSlot_ports (s : State) (i : Nat) (v : Slot) : (setSlot s i v).ports = s.ports := rfl
@[simp] theorem setSlot_fabric (s : State) (i : Nat) (v : Slot) : (setSlot s i v).fabric = s.fabric := rfl
@[simp] theorem setSlot_svc (s : State) (i : Nat) (v : Slot) : (setSlot s i v).svc = s.svc := rfl
@[simp] theorem setSlot_rcv (s : State) (i : Nat) (v : Slot) : (setSlot s i v).rcv = s.rcv := rfl
@[simp] theorem setSlot_chain (s : State) (i : Nat) (v : Slot) : (setSlot s i v).chain = s.chain := rfl
@[simp] theorem setSlot_time (s : State) (i : Nat) (v : Slot) : (setSlot s i v).time = s.time := rfl
@[simp] theorem setSlot_upd (s : State) (i : Nat) (v : Slot) : (setSlot s i v).upd = s.upd := rfl
@[simp] theorem setSlot_fs (s : State) (i : Nat) (v : Slot) : (setSlot s i v).fs = s.fs := rfl
@[simp] theorem setSlot_fw (s : State) (i : Nat) (v : Slot) : (setSlot s i v).fw = s.fw := rfl
@[simp] theorem setSlot_gov (s : State) (i : Nat) (v : Slot) : (setSlot s i v).gov = s.gov := rfl
@[simp] theorem setSlot_pwr (s : State) (i : Nat) (v : Slot) : (setSlot s i v).pwr = s.pwr := rfl
@[simp] theorem setSlot_pins (s : State) (i : Nat) (v : Slot) : (setSlot s i v).pins = s.pins := rfl
@[simp] theorem setSlot_i3c (s : State) (i : Nat) (v : Slot) : (setSlot s i v).i3c = s.i3c := rfl
@[simp] theorem setSlot_drip (s : State) (i : Nat) (v : Slot) : (setSlot s i v).drip = s.drip := rfl

@[simp] theorem setChBank_pending (s : State) (m : Nat) (b : ChBank) : (setChBank s m b).pending = s.pending := rfl
@[simp] theorem setChBank_draws (s : State) (m : Nat) (b : ChBank) : (setChBank s m b).draws = s.draws := rfl
@[simp] theorem setChBank_ticks (s : State) (m : Nat) (b : ChBank) : (setChBank s m b).ticks = s.ticks := rfl
@[simp] theorem setChBank_out (s : State) (m : Nat) (b : ChBank) : (setChBank s m b).out = s.out := rfl
@[simp] theorem setChBank_mem (s : State) (m : Nat) (b : ChBank) : (setChBank s m b).mem = s.mem := rfl
@[simp] theorem setChBank_flash (s : State) (m : Nat) (b : ChBank) : (setChBank s m b).flash = s.flash := rfl
@[simp] theorem setChBank_regs (s : State) (m : Nat) (b : ChBank) : (setChBank s m b).regs = s.regs := rfl
@[simp] theorem setChBank_shadows (s : State) (m : Nat) (b : ChBank) : (setChBank s m b).shadows = s.shadows := rfl
@[simp] theorem setChBank_cores (s : State) (m : Nat) (b : ChBank) : (setChBank s m b).cores = s.cores := rfl
@[simp] theorem setChBank_hubs (s : State) (m : Nat) (b : ChBank) : (setChBank s m b).hubs = s.hubs := rfl
@[simp] theorem setChBank_wdma (s : State) (m : Nat) (b : ChBank) : (setChBank s m b).wdma = s.wdma := rfl
@[simp] theorem setChBank_wdmaNext (s : State) (m : Nat) (b : ChBank) : (setChBank s m b).wdmaNext = s.wdmaNext := rfl
@[simp] theorem setChBank_bankNext (s : State) (m : Nat) (b : ChBank) : (setChBank s m b).bankNext = s.bankNext := rfl
@[simp] theorem setChBank_starved (s : State) (m : Nat) (b : ChBank) : (setChBank s m b).starved = s.starved := rfl
@[simp] theorem setChBank_cranks (s : State) (m : Nat) (b : ChBank) : (setChBank s m b).cranks = s.cranks := rfl
@[simp] theorem setChBank_lanes (s : State) (m : Nat) (b : ChBank) : (setChBank s m b).lanes = s.lanes := rfl
@[simp] theorem setChBank_otp (s : State) (m : Nat) (b : ChBank) : (setChBank s m b).otp = s.otp := rfl
@[simp] theorem setChBank_lc (s : State) (m : Nat) (b : ChBank) : (setChBank s m b).lc = s.lc := rfl
@[simp] theorem setChBank_boot (s : State) (m : Nat) (b : ChBank) : (setChBank s m b).boot = s.boot := rfl
@[simp] theorem setChBank_platforms (s : State) (m : Nat) (b : ChBank) : (setChBank s m b).platforms = s.platforms := rfl
@[simp] theorem setChBank_ports (s : State) (m : Nat) (b : ChBank) : (setChBank s m b).ports = s.ports := rfl
@[simp] theorem setChBank_fabric (s : State) (m : Nat) (b : ChBank) : (setChBank s m b).fabric = s.fabric := rfl
@[simp] theorem setChBank_svc (s : State) (m : Nat) (b : ChBank) : (setChBank s m b).svc = s.svc := rfl
@[simp] theorem setChBank_rcv (s : State) (m : Nat) (b : ChBank) : (setChBank s m b).rcv = s.rcv := rfl
@[simp] theorem setChBank_chain (s : State) (m : Nat) (b : ChBank) : (setChBank s m b).chain = s.chain := rfl
@[simp] theorem setChBank_time (s : State) (m : Nat) (b : ChBank) : (setChBank s m b).time = s.time := rfl
@[simp] theorem setChBank_upd (s : State) (m : Nat) (b : ChBank) : (setChBank s m b).upd = s.upd := rfl
@[simp] theorem setChBank_fs (s : State) (m : Nat) (b : ChBank) : (setChBank s m b).fs = s.fs := rfl
@[simp] theorem setChBank_fw (s : State) (m : Nat) (b : ChBank) : (setChBank s m b).fw = s.fw := rfl
@[simp] theorem setChBank_gov (s : State) (m : Nat) (b : ChBank) : (setChBank s m b).gov = s.gov := rfl
@[simp] theorem setChBank_pwr (s : State) (m : Nat) (b : ChBank) : (setChBank s m b).pwr = s.pwr := rfl
@[simp] theorem setChBank_pins (s : State) (m : Nat) (b : ChBank) : (setChBank s m b).pins = s.pins := rfl
@[simp] theorem setChBank_i3c (s : State) (m : Nat) (b : ChBank) : (setChBank s m b).i3c = s.i3c := rfl
@[simp] theorem setChBank_drip (s : State) (m : Nat) (b : ChBank) : (setChBank s m b).drip = s.drip := rfl

@[simp] theorem setUpd_pending (s : State) (u : Update) : (setUpd s u).pending = s.pending := rfl
@[simp] theorem setUpd_draws (s : State) (u : Update) : (setUpd s u).draws = s.draws := rfl
@[simp] theorem setUpd_ticks (s : State) (u : Update) : (setUpd s u).ticks = s.ticks := rfl
@[simp] theorem setUpd_out (s : State) (u : Update) : (setUpd s u).out = s.out := rfl
@[simp] theorem setUpd_mem (s : State) (u : Update) : (setUpd s u).mem = s.mem := rfl
@[simp] theorem setUpd_flash (s : State) (u : Update) : (setUpd s u).flash = s.flash := rfl
@[simp] theorem setUpd_regs (s : State) (u : Update) : (setUpd s u).regs = s.regs := rfl
@[simp] theorem setUpd_shadows (s : State) (u : Update) : (setUpd s u).shadows = s.shadows := rfl
@[simp] theorem setUpd_cores (s : State) (u : Update) : (setUpd s u).cores = s.cores := rfl
@[simp] theorem setUpd_hubs (s : State) (u : Update) : (setUpd s u).hubs = s.hubs := rfl
@[simp] theorem setUpd_wdma (s : State) (u : Update) : (setUpd s u).wdma = s.wdma := rfl
@[simp] theorem setUpd_wdmaNext (s : State) (u : Update) : (setUpd s u).wdmaNext = s.wdmaNext := rfl
@[simp] theorem setUpd_bankNext (s : State) (u : Update) : (setUpd s u).bankNext = s.bankNext := rfl
@[simp] theorem setUpd_starved (s : State) (u : Update) : (setUpd s u).starved = s.starved := rfl
@[simp] theorem setUpd_cranks (s : State) (u : Update) : (setUpd s u).cranks = s.cranks := rfl
@[simp] theorem setUpd_lanes (s : State) (u : Update) : (setUpd s u).lanes = s.lanes := rfl
@[simp] theorem setUpd_chamber (s : State) (u : Update) : (setUpd s u).chamber = s.chamber := rfl
@[simp] theorem setUpd_otp (s : State) (u : Update) : (setUpd s u).otp = s.otp := rfl
@[simp] theorem setUpd_lc (s : State) (u : Update) : (setUpd s u).lc = s.lc := rfl
@[simp] theorem setUpd_boot (s : State) (u : Update) : (setUpd s u).boot = s.boot := rfl
@[simp] theorem setUpd_platforms (s : State) (u : Update) : (setUpd s u).platforms = s.platforms := rfl
@[simp] theorem setUpd_ports (s : State) (u : Update) : (setUpd s u).ports = s.ports := rfl
@[simp] theorem setUpd_fabric (s : State) (u : Update) : (setUpd s u).fabric = s.fabric := rfl
@[simp] theorem setUpd_svc (s : State) (u : Update) : (setUpd s u).svc = s.svc := rfl
@[simp] theorem setUpd_rcv (s : State) (u : Update) : (setUpd s u).rcv = s.rcv := rfl
@[simp] theorem setUpd_chain (s : State) (u : Update) : (setUpd s u).chain = s.chain := rfl
@[simp] theorem setUpd_time (s : State) (u : Update) : (setUpd s u).time = s.time := rfl
@[simp] theorem setUpd_fs (s : State) (u : Update) : (setUpd s u).fs = s.fs := rfl
@[simp] theorem setUpd_fw (s : State) (u : Update) : (setUpd s u).fw = s.fw := rfl
@[simp] theorem setUpd_gov (s : State) (u : Update) : (setUpd s u).gov = s.gov := rfl
@[simp] theorem setUpd_pwr (s : State) (u : Update) : (setUpd s u).pwr = s.pwr := rfl
@[simp] theorem setUpd_pins (s : State) (u : Update) : (setUpd s u).pins = s.pins := rfl
@[simp] theorem setUpd_i3c (s : State) (u : Update) : (setUpd s u).i3c = s.i3c := rfl
@[simp] theorem setUpd_drip (s : State) (u : Update) : (setUpd s u).drip = s.drip := rfl

@[simp] theorem setRom_pending (s : State) (r : RomPhase) : (setRom s r).pending = s.pending := rfl
@[simp] theorem setRom_draws (s : State) (r : RomPhase) : (setRom s r).draws = s.draws := rfl
@[simp] theorem setRom_ticks (s : State) (r : RomPhase) : (setRom s r).ticks = s.ticks := rfl
@[simp] theorem setRom_out (s : State) (r : RomPhase) : (setRom s r).out = s.out := rfl
@[simp] theorem setRom_mem (s : State) (r : RomPhase) : (setRom s r).mem = s.mem := rfl
@[simp] theorem setRom_flash (s : State) (r : RomPhase) : (setRom s r).flash = s.flash := rfl
@[simp] theorem setRom_regs (s : State) (r : RomPhase) : (setRom s r).regs = s.regs := rfl
@[simp] theorem setRom_shadows (s : State) (r : RomPhase) : (setRom s r).shadows = s.shadows := rfl
@[simp] theorem setRom_cores (s : State) (r : RomPhase) : (setRom s r).cores = s.cores := rfl
@[simp] theorem setRom_hubs (s : State) (r : RomPhase) : (setRom s r).hubs = s.hubs := rfl
@[simp] theorem setRom_wdma (s : State) (r : RomPhase) : (setRom s r).wdma = s.wdma := rfl
@[simp] theorem setRom_wdmaNext (s : State) (r : RomPhase) : (setRom s r).wdmaNext = s.wdmaNext := rfl
@[simp] theorem setRom_bankNext (s : State) (r : RomPhase) : (setRom s r).bankNext = s.bankNext := rfl
@[simp] theorem setRom_starved (s : State) (r : RomPhase) : (setRom s r).starved = s.starved := rfl
@[simp] theorem setRom_cranks (s : State) (r : RomPhase) : (setRom s r).cranks = s.cranks := rfl
@[simp] theorem setRom_lanes (s : State) (r : RomPhase) : (setRom s r).lanes = s.lanes := rfl
@[simp] theorem setRom_chamber (s : State) (r : RomPhase) : (setRom s r).chamber = s.chamber := rfl
@[simp] theorem setRom_otp (s : State) (r : RomPhase) : (setRom s r).otp = s.otp := rfl
@[simp] theorem setRom_lc (s : State) (r : RomPhase) : (setRom s r).lc = s.lc := rfl
@[simp] theorem setRom_platforms (s : State) (r : RomPhase) : (setRom s r).platforms = s.platforms := rfl
@[simp] theorem setRom_ports (s : State) (r : RomPhase) : (setRom s r).ports = s.ports := rfl
@[simp] theorem setRom_fabric (s : State) (r : RomPhase) : (setRom s r).fabric = s.fabric := rfl
@[simp] theorem setRom_svc (s : State) (r : RomPhase) : (setRom s r).svc = s.svc := rfl
@[simp] theorem setRom_rcv (s : State) (r : RomPhase) : (setRom s r).rcv = s.rcv := rfl
@[simp] theorem setRom_chain (s : State) (r : RomPhase) : (setRom s r).chain = s.chain := rfl
@[simp] theorem setRom_time (s : State) (r : RomPhase) : (setRom s r).time = s.time := rfl
@[simp] theorem setRom_upd (s : State) (r : RomPhase) : (setRom s r).upd = s.upd := rfl
@[simp] theorem setRom_fs (s : State) (r : RomPhase) : (setRom s r).fs = s.fs := rfl
@[simp] theorem setRom_fw (s : State) (r : RomPhase) : (setRom s r).fw = s.fw := rfl
@[simp] theorem setRom_gov (s : State) (r : RomPhase) : (setRom s r).gov = s.gov := rfl
@[simp] theorem setRom_pwr (s : State) (r : RomPhase) : (setRom s r).pwr = s.pwr := rfl
@[simp] theorem setRom_pins (s : State) (r : RomPhase) : (setRom s r).pins = s.pins := rfl
@[simp] theorem setRom_i3c (s : State) (r : RomPhase) : (setRom s r).i3c = s.i3c := rfl
@[simp] theorem setRom_drip (s : State) (r : RomPhase) : (setRom s r).drip = s.drip := rfl

@[simp] theorem setRcvTarget_pending (s : State) (t : Nat) (k : RcvTarget) : (setRcvTarget s t k).pending = s.pending := rfl
@[simp] theorem setRcvTarget_draws (s : State) (t : Nat) (k : RcvTarget) : (setRcvTarget s t k).draws = s.draws := rfl
@[simp] theorem setRcvTarget_ticks (s : State) (t : Nat) (k : RcvTarget) : (setRcvTarget s t k).ticks = s.ticks := rfl
@[simp] theorem setRcvTarget_out (s : State) (t : Nat) (k : RcvTarget) : (setRcvTarget s t k).out = s.out := rfl
@[simp] theorem setRcvTarget_mem (s : State) (t : Nat) (k : RcvTarget) : (setRcvTarget s t k).mem = s.mem := rfl
@[simp] theorem setRcvTarget_flash (s : State) (t : Nat) (k : RcvTarget) : (setRcvTarget s t k).flash = s.flash := rfl
@[simp] theorem setRcvTarget_regs (s : State) (t : Nat) (k : RcvTarget) : (setRcvTarget s t k).regs = s.regs := rfl
@[simp] theorem setRcvTarget_shadows (s : State) (t : Nat) (k : RcvTarget) : (setRcvTarget s t k).shadows = s.shadows := rfl
@[simp] theorem setRcvTarget_cores (s : State) (t : Nat) (k : RcvTarget) : (setRcvTarget s t k).cores = s.cores := rfl
@[simp] theorem setRcvTarget_hubs (s : State) (t : Nat) (k : RcvTarget) : (setRcvTarget s t k).hubs = s.hubs := rfl
@[simp] theorem setRcvTarget_wdma (s : State) (t : Nat) (k : RcvTarget) : (setRcvTarget s t k).wdma = s.wdma := rfl
@[simp] theorem setRcvTarget_wdmaNext (s : State) (t : Nat) (k : RcvTarget) : (setRcvTarget s t k).wdmaNext = s.wdmaNext := rfl
@[simp] theorem setRcvTarget_bankNext (s : State) (t : Nat) (k : RcvTarget) : (setRcvTarget s t k).bankNext = s.bankNext := rfl
@[simp] theorem setRcvTarget_starved (s : State) (t : Nat) (k : RcvTarget) : (setRcvTarget s t k).starved = s.starved := rfl
@[simp] theorem setRcvTarget_cranks (s : State) (t : Nat) (k : RcvTarget) : (setRcvTarget s t k).cranks = s.cranks := rfl
@[simp] theorem setRcvTarget_lanes (s : State) (t : Nat) (k : RcvTarget) : (setRcvTarget s t k).lanes = s.lanes := rfl
@[simp] theorem setRcvTarget_chamber (s : State) (t : Nat) (k : RcvTarget) : (setRcvTarget s t k).chamber = s.chamber := rfl
@[simp] theorem setRcvTarget_otp (s : State) (t : Nat) (k : RcvTarget) : (setRcvTarget s t k).otp = s.otp := rfl
@[simp] theorem setRcvTarget_lc (s : State) (t : Nat) (k : RcvTarget) : (setRcvTarget s t k).lc = s.lc := rfl
@[simp] theorem setRcvTarget_boot (s : State) (t : Nat) (k : RcvTarget) : (setRcvTarget s t k).boot = s.boot := rfl
@[simp] theorem setRcvTarget_platforms (s : State) (t : Nat) (k : RcvTarget) : (setRcvTarget s t k).platforms = s.platforms := rfl
@[simp] theorem setRcvTarget_ports (s : State) (t : Nat) (k : RcvTarget) : (setRcvTarget s t k).ports = s.ports := rfl
@[simp] theorem setRcvTarget_fabric (s : State) (t : Nat) (k : RcvTarget) : (setRcvTarget s t k).fabric = s.fabric := rfl
@[simp] theorem setRcvTarget_svc (s : State) (t : Nat) (k : RcvTarget) : (setRcvTarget s t k).svc = s.svc := rfl
@[simp] theorem setRcvTarget_chain (s : State) (t : Nat) (k : RcvTarget) : (setRcvTarget s t k).chain = s.chain := rfl
@[simp] theorem setRcvTarget_time (s : State) (t : Nat) (k : RcvTarget) : (setRcvTarget s t k).time = s.time := rfl
@[simp] theorem setRcvTarget_upd (s : State) (t : Nat) (k : RcvTarget) : (setRcvTarget s t k).upd = s.upd := rfl
@[simp] theorem setRcvTarget_fs (s : State) (t : Nat) (k : RcvTarget) : (setRcvTarget s t k).fs = s.fs := rfl
@[simp] theorem setRcvTarget_fw (s : State) (t : Nat) (k : RcvTarget) : (setRcvTarget s t k).fw = s.fw := rfl
@[simp] theorem setRcvTarget_gov (s : State) (t : Nat) (k : RcvTarget) : (setRcvTarget s t k).gov = s.gov := rfl
@[simp] theorem setRcvTarget_pwr (s : State) (t : Nat) (k : RcvTarget) : (setRcvTarget s t k).pwr = s.pwr := rfl
@[simp] theorem setRcvTarget_pins (s : State) (t : Nat) (k : RcvTarget) : (setRcvTarget s t k).pins = s.pins := rfl
@[simp] theorem setRcvTarget_i3c (s : State) (t : Nat) (k : RcvTarget) : (setRcvTarget s t k).i3c = s.i3c := rfl
@[simp] theorem setRcvTarget_drip (s : State) (t : Nat) (k : RcvTarget) : (setRcvTarget s t k).drip = s.drip := rfl

@[simp] theorem violate_pending (s : State) (m kind addr : Nat) : (violate s m kind addr).pending = s.pending := rfl
@[simp] theorem violate_draws (s : State) (m kind addr : Nat) : (violate s m kind addr).draws = s.draws := rfl
@[simp] theorem violate_ticks (s : State) (m kind addr : Nat) : (violate s m kind addr).ticks = s.ticks := rfl
@[simp] theorem violate_out (s : State) (m kind addr : Nat) : (violate s m kind addr).out = s.out := rfl
@[simp] theorem violate_mem (s : State) (m kind addr : Nat) : (violate s m kind addr).mem = s.mem := rfl
@[simp] theorem violate_flash (s : State) (m kind addr : Nat) : (violate s m kind addr).flash = s.flash := rfl
@[simp] theorem violate_regs (s : State) (m kind addr : Nat) : (violate s m kind addr).regs = s.regs := rfl
@[simp] theorem violate_shadows (s : State) (m kind addr : Nat) : (violate s m kind addr).shadows = s.shadows := rfl
@[simp] theorem violate_cores (s : State) (m kind addr : Nat) : (violate s m kind addr).cores = s.cores := rfl
@[simp] theorem violate_hubs (s : State) (m kind addr : Nat) : (violate s m kind addr).hubs = s.hubs := rfl
@[simp] theorem violate_wdma (s : State) (m kind addr : Nat) : (violate s m kind addr).wdma = s.wdma := rfl
@[simp] theorem violate_wdmaNext (s : State) (m kind addr : Nat) : (violate s m kind addr).wdmaNext = s.wdmaNext := rfl
@[simp] theorem violate_bankNext (s : State) (m kind addr : Nat) : (violate s m kind addr).bankNext = s.bankNext := rfl
@[simp] theorem violate_starved (s : State) (m kind addr : Nat) : (violate s m kind addr).starved = s.starved := rfl
@[simp] theorem violate_cranks (s : State) (m kind addr : Nat) : (violate s m kind addr).cranks = s.cranks := rfl
@[simp] theorem violate_lanes (s : State) (m kind addr : Nat) : (violate s m kind addr).lanes = s.lanes := rfl
@[simp] theorem violate_chamber (s : State) (m kind addr : Nat) : (violate s m kind addr).chamber = s.chamber := rfl
@[simp] theorem violate_otp (s : State) (m kind addr : Nat) : (violate s m kind addr).otp = s.otp := rfl
@[simp] theorem violate_lc (s : State) (m kind addr : Nat) : (violate s m kind addr).lc = s.lc := rfl
@[simp] theorem violate_boot (s : State) (m kind addr : Nat) : (violate s m kind addr).boot = s.boot := rfl
@[simp] theorem violate_platforms (s : State) (m kind addr : Nat) : (violate s m kind addr).platforms = s.platforms := rfl
@[simp] theorem violate_ports (s : State) (m kind addr : Nat) : (violate s m kind addr).ports = s.ports := rfl
@[simp] theorem violate_fabric (s : State) (m kind addr : Nat) : (violate s m kind addr).fabric = s.fabric := rfl
@[simp] theorem violate_svc (s : State) (m kind addr : Nat) : (violate s m kind addr).svc = s.svc := rfl
@[simp] theorem violate_rcv (s : State) (m kind addr : Nat) : (violate s m kind addr).rcv = s.rcv := rfl
@[simp] theorem violate_chain (s : State) (m kind addr : Nat) : (violate s m kind addr).chain = s.chain := rfl
@[simp] theorem violate_time (s : State) (m kind addr : Nat) : (violate s m kind addr).time = s.time := rfl
@[simp] theorem violate_upd (s : State) (m kind addr : Nat) : (violate s m kind addr).upd = s.upd := rfl
@[simp] theorem violate_fs (s : State) (m kind addr : Nat) : (violate s m kind addr).fs = s.fs := rfl
@[simp] theorem violate_gov (s : State) (m kind addr : Nat) : (violate s m kind addr).gov = s.gov := rfl
@[simp] theorem violate_pwr (s : State) (m kind addr : Nat) : (violate s m kind addr).pwr = s.pwr := rfl
@[simp] theorem violate_pins (s : State) (m kind addr : Nat) : (violate s m kind addr).pins = s.pins := rfl
@[simp] theorem violate_i3c (s : State) (m kind addr : Nat) : (violate s m kind addr).i3c = s.i3c := rfl
@[simp] theorem violate_drip (s : State) (m kind addr : Nat) : (violate s m kind addr).drip = s.drip := rfl

@[simp] theorem askTokens_pending (s : State) (w : Work) (n : Nat) (z : Bool) : (askTokens s w n z).pending = s.pending := rfl
@[simp] theorem askTokens_draws (s : State) (w : Work) (n : Nat) (z : Bool) : (askTokens s w n z).draws = s.draws := rfl
@[simp] theorem askTokens_ticks (s : State) (w : Work) (n : Nat) (z : Bool) : (askTokens s w n z).ticks = s.ticks := rfl
@[simp] theorem askTokens_out (s : State) (w : Work) (n : Nat) (z : Bool) : (askTokens s w n z).out = s.out := rfl
@[simp] theorem askTokens_mem (s : State) (w : Work) (n : Nat) (z : Bool) : (askTokens s w n z).mem = s.mem := rfl
@[simp] theorem askTokens_flash (s : State) (w : Work) (n : Nat) (z : Bool) : (askTokens s w n z).flash = s.flash := rfl
@[simp] theorem askTokens_regs (s : State) (w : Work) (n : Nat) (z : Bool) : (askTokens s w n z).regs = s.regs := rfl
@[simp] theorem askTokens_shadows (s : State) (w : Work) (n : Nat) (z : Bool) : (askTokens s w n z).shadows = s.shadows := rfl
@[simp] theorem askTokens_cores (s : State) (w : Work) (n : Nat) (z : Bool) : (askTokens s w n z).cores = s.cores := rfl
@[simp] theorem askTokens_hubs (s : State) (w : Work) (n : Nat) (z : Bool) : (askTokens s w n z).hubs = s.hubs := rfl
@[simp] theorem askTokens_wdma (s : State) (w : Work) (n : Nat) (z : Bool) : (askTokens s w n z).wdma = s.wdma := rfl
@[simp] theorem askTokens_wdmaNext (s : State) (w : Work) (n : Nat) (z : Bool) : (askTokens s w n z).wdmaNext = s.wdmaNext := rfl
@[simp] theorem askTokens_bankNext (s : State) (w : Work) (n : Nat) (z : Bool) : (askTokens s w n z).bankNext = s.bankNext := rfl
@[simp] theorem askTokens_starved (s : State) (w : Work) (n : Nat) (z : Bool) : (askTokens s w n z).starved = s.starved := rfl
@[simp] theorem askTokens_cranks (s : State) (w : Work) (n : Nat) (z : Bool) : (askTokens s w n z).cranks = s.cranks := rfl
@[simp] theorem askTokens_lanes (s : State) (w : Work) (n : Nat) (z : Bool) : (askTokens s w n z).lanes = s.lanes := rfl
@[simp] theorem askTokens_chamber (s : State) (w : Work) (n : Nat) (z : Bool) : (askTokens s w n z).chamber = s.chamber := rfl
@[simp] theorem askTokens_otp (s : State) (w : Work) (n : Nat) (z : Bool) : (askTokens s w n z).otp = s.otp := rfl
@[simp] theorem askTokens_lc (s : State) (w : Work) (n : Nat) (z : Bool) : (askTokens s w n z).lc = s.lc := rfl
@[simp] theorem askTokens_boot (s : State) (w : Work) (n : Nat) (z : Bool) : (askTokens s w n z).boot = s.boot := rfl
@[simp] theorem askTokens_platforms (s : State) (w : Work) (n : Nat) (z : Bool) : (askTokens s w n z).platforms = s.platforms := rfl
@[simp] theorem askTokens_ports (s : State) (w : Work) (n : Nat) (z : Bool) : (askTokens s w n z).ports = s.ports := rfl
@[simp] theorem askTokens_fabric (s : State) (w : Work) (n : Nat) (z : Bool) : (askTokens s w n z).fabric = s.fabric := rfl
@[simp] theorem askTokens_svc (s : State) (w : Work) (n : Nat) (z : Bool) : (askTokens s w n z).svc = s.svc := rfl
@[simp] theorem askTokens_rcv (s : State) (w : Work) (n : Nat) (z : Bool) : (askTokens s w n z).rcv = s.rcv := rfl
@[simp] theorem askTokens_chain (s : State) (w : Work) (n : Nat) (z : Bool) : (askTokens s w n z).chain = s.chain := rfl
@[simp] theorem askTokens_time (s : State) (w : Work) (n : Nat) (z : Bool) : (askTokens s w n z).time = s.time := rfl
@[simp] theorem askTokens_upd (s : State) (w : Work) (n : Nat) (z : Bool) : (askTokens s w n z).upd = s.upd := rfl
@[simp] theorem askTokens_fs (s : State) (w : Work) (n : Nat) (z : Bool) : (askTokens s w n z).fs = s.fs := rfl
@[simp] theorem askTokens_fw (s : State) (w : Work) (n : Nat) (z : Bool) : (askTokens s w n z).fw = s.fw := rfl
@[simp] theorem askTokens_pwr (s : State) (w : Work) (n : Nat) (z : Bool) : (askTokens s w n z).pwr = s.pwr := rfl
@[simp] theorem askTokens_pins (s : State) (w : Work) (n : Nat) (z : Bool) : (askTokens s w n z).pins = s.pins := rfl
@[simp] theorem askTokens_i3c (s : State) (w : Work) (n : Nat) (z : Bool) : (askTokens s w n z).i3c = s.i3c := rfl
@[simp] theorem askTokens_drip (s : State) (w : Work) (n : Nat) (z : Bool) : (askTokens s w n z).drip = s.drip := rfl

end Sys2Proof.Machine
end

