-- ==== Sys2Proof/Laws/Flash.lean ====
section
/-! SUPPORT. The device flash: what own commands and writes leave in it, and what a byte reads after each. -/

namespace Sys2Proof.Laws

open Sys2Proof.Machine

@[simp] theorem ownChange_flash (s : State) (p k opcode a : Nat) (bs : List Byte) :
    (ownChange s p k opcode a bs).flash = s.flash := rfl

theorem foldl_keeps_flash {α : Type} (f : State → α → State) (h : ∀ s x, (f s x).flash = s.flash) (l : List α) (s : State) :
    (l.foldl f s).flash = s.flash := by
  induction l generalizing s with
  | nil => rfl
  | cons x l ih => rw [List.foldl_cons, ih, h]

/-- Programming looks at the flash only. -/
theorem flashProgram_congr (bs : List Byte) : ∀ (a : Nat) {s t : State}, s.flash = t.flash →
    (flashProgram s a bs).flash = (flashProgram t a bs).flash := by
  induction bs with
  | nil => intro a s t h; exact h
  | cons b bs ih =>
    intro a s t h
    exact ih (a + 1) (by simp only [flashByte, h])

/-- A byte after programming: bits go from 1 to 0 only. -/
theorem flashByte_flashProgram (bs : List Byte) : ∀ (a : Nat) (s : State) (x : Nat), flashByte (flashProgram s a bs) x =
    if a ≤ x ∧ x < a + bs.length then flashByte s x &&& bs.getD (x - a) 0 else flashByte s x := by
  induction bs with
  | nil => intro a s x; simp [flashProgram, show ¬(a ≤ x ∧ x < a) by omega]
  | cons b bs ih =>
    intro a s x
    simp only [flashProgram, ih, List.length_cons]
    rcases Nat.lt_trichotomy x a with h | rfl | h
    · rw [if_neg (by omega), if_neg (by omega)]
      simp [flashByte, smGet_smSet_other _ (show x ≠ a by omega)]
    · rw [if_neg (by omega), if_pos (by omega)]
      simp [flashByte]
    · obtain ⟨k, rfl⟩ : ∃ k, x = a + 1 + k := ⟨x - a - 1, by omega⟩
      have e : ∀ v, flashByte { s with flash := smSet s.flash a 0xFF v } (a + 1 + k) = flashByte s (a + 1 + k) := fun v => by
        simp [flashByte, smGet_smSet_other _ (show a + 1 + k ≠ a by omega)]
      rw [e, show a + 1 + k - (a + 1) = k by omega, show a + 1 + k - a = k + 1 by omega, List.getD_cons_succ]
      simp only [show (a + 1 ≤ a + 1 + k ∧ a + 1 + k < a + 1 + bs.length) ↔ k < bs.length by omega,
        show (a ≤ a + 1 + k ∧ a + 1 + k < a + (bs.length + 1)) ↔ k < bs.length by omega]

@[simp] theorem devErase_flash (s : State) (lo hi : Nat) : (devErase s lo hi).flash = smDrop s.flash lo hi := by
  refine congrArg (smDrop · lo hi) (foldl_keeps_flash _ (fun t i => ?_) _ _)
  exact ownChange_flash t 0 1 _ _ _

@[simp] theorem devProgram_flash (s : State) (a : Nat) (bs : List Byte) :
    (devProgram s a bs).flash = (flashProgram s a bs).flash := by
  refine flashProgram_congr bs a (foldl_keeps_flash _ (fun t x => ?_) _ _)
  dsimp only
  split <;> rfl

/-- A byte that firmware programmed with own commands. -/
theorem flashByte_devProgram (bs : List Byte) (a : Nat) (s : State) (x : Nat) : flashByte (devProgram s a bs) x =
    if a ≤ x ∧ x < a + bs.length then flashByte s x &&& bs.getD (x - a) 0 else flashByte s x := by
  rw [← flashByte_flashProgram, flashByte, flashByte, devProgram_flash]

/-- A field of bytes read from the flash is zero where each of its bytes reads zero. -/
theorem field_flashBytes_zero (s : State) (a n off k : Nat) (hk : off + k ≤ n) (h : ∀ i < k, flashByte s (a + off + i) = 0) :
    field (flashBytes s a n) off k = 0 := by
  have hz : slice (flashBytes s a n) off k = List.replicate k 0 := by
    refine List.ext_getElem (by simp [slice, fitBytes, flashBytes, zeros]; omega) fun i h1 h2 => ?_
    have hi : i < k := by simpa using h2
    simp only [slice, fitBytes, flashBytes, List.getElem_replicate]
    rw [List.getElem_append_left (by simp; omega)]
    simpa [Nat.add_assoc] using h i hi
  have hl : ∀ k, leNat (List.replicate k 0) = 0 := fun k => by
    induction k with
    | zero => rfl
    | succ k ih => simpa [List.replicate_succ, leNat] using ih
  rw [field, hz, hl]

/-- What firmware writes of a container whose manifest length is zero has no manifest. -/
theorem slotManifest_empty (s : State) (k : Nat) (hk : hdrManifestLen (slotHeader s k) = 0) : slotManifest s k = [] := by
  simp [slotManifest, hk, flashBytes]

/-- A whole container without parts, whose header gives its manifest no length, is written and committed. -/
theorem rcvCommit_no_parts (s : State) (c : List Byte)
    (he : ((zRun c noBase).stop = .ended && opComplete (manParts (zManifest c)) (zRun c noBase)) = true)
    (hp : manParts (zManifest c) = []) (hn : manCount [] = 0)
    (hh : ∀ i < 4, 16 + i < (c.take (zManifestEnd c)).length ∧ (c.take (zManifestEnd c)).getD (16 + i) 0 = 0) :
    (rcvCommit s c).2 = 0 := by
  have hw : ∀ k, slotBlocksOk (writeSet s k c (zRun c noBase)) k = true := fun k => by
    have hm : slotManifest (writeSet s k c (zRun c noBase)) k = [] := by
      refine slotManifest_empty _ _ (field_flashBytes_zero _ _ _ _ _ (by decide) fun i hi => ?_)
      obtain ⟨h1, h2⟩ := hh i hi
      simp only [writeSet, hp, List.length_nil, List.range_zero, List.foldl_nil]
      rw [flashByte_devProgram, if_pos (by omega), show slotBase k + 16 + i - slotBase k = 16 + i by omega, h2]
      exact BitVec.and_zero
    simp [slotBlocksOk, hm, manParts, hn]
  simp only [rcvCommit, he, if_true, hw]

end Sys2Proof.Laws
end

