-- ==== Sys2Proof/Laws/Images.lean ====
section
/-! SUPPORT. The lane images as maps: reading back what was stored. -/

namespace Sys2Proof.Laws

open Sys2Proof.Machine

/-- Storing a list from offset `n` on gives its bytes there and leaves every other offset. -/
theorem smGet_store (bs : List Byte) : ∀ (n : Nat) (m : SMap Byte) (i : Nat),
    smGet ((bs.zipIdx n).foldl (fun m e => smSet m e.2 0 e.1) m) i 0 =
      if n ≤ i ∧ i < n + bs.length then bs.getD (i - n) 0 else smGet m i 0 := by
  induction bs with
  | nil => intro n m i; simp [show ¬(n ≤ i ∧ i < n) by omega]
  | cons b bs ih =>
    intro n m i
    simp only [List.zipIdx_cons, List.foldl_cons, ih, List.length_cons]
    rcases Nat.lt_trichotomy i n with h | h | h
    · rw [if_neg (by omega), if_neg (by omega), smGet_smSet_other _ (by omega)]
    · subst h
      rw [if_neg (by omega), if_pos (by omega)]
      simp
    · obtain ⟨k, rfl⟩ : ∃ k, i = n + 1 + k := ⟨i - n - 1, by omega⟩
      have e1 : n + 1 + k - (n + 1) = k := by omega
      have e2 : n + 1 + k - n = k + 1 := by omega
      rw [e1, e2, List.getD_cons_succ, smGet_smSet_other _ (by omega)]
      simp only [show (n + 1 ≤ n + 1 + k ∧ n + 1 + k < n + 1 + bs.length) ↔ k < bs.length by omega,
        show (n ≤ n + 1 + k ∧ n + 1 + k < n + (bs.length + 1)) ↔ k < bs.length by omega]

/-- An image read back is the list that was stored. -/
theorem imageBytes_imageMap (bs : List Byte) : imageBytes (imageMap bs) bs.length = bs := by
  unfold imageBytes imageMap
  refine List.ext_getElem (by simp) fun i h _ => ?_
  have hi : i < bs.length := by simpa using h
  simp only [List.getElem_map, List.getElem_range, smGet_store]
  rw [if_pos ⟨by omega, by omega⟩]
  simp [hi]

end Sys2Proof.Laws
end

