-- ==== Sys2Proof/Laws/Registers.lean ====
section
/-! SUPPORT. Control registers, cores and core registers: what a read gives after each write. -/

namespace Sys2Proof.Machine

/-! ### Control registers -/

@[simp] theorem reg_setReg_same (s : State) (a : Nat) (v : W32) : reg (setReg s a v) a = v := by simp [reg, setReg]

theorem reg_setReg_other (s : State) {a b : Nat} (h : b ≠ a) (v : W32) : reg (setReg s a v) b = reg s b := by
  simp [reg, setReg, smGet_smSet_other _ h]

theorem reg_congr {s t : State} (h : t.regs = s.regs) (a : Nat) : reg t a = reg s a := by simp [reg, h]

theorem getLsbD_setFld (w : W32) (lo len v i : Nat) :
    (setFld w lo len v).getLsbD i =
      if i < 32 ∧ lo ≤ i ∧ i < lo + len then v.testBit (i - lo) else w.getLsbD i := by
  by_cases hi : i < 32
  · simp only [setFld, BitVec.getLsbD_or, BitVec.getLsbD_and, BitVec.getLsbD_not, BitVec.getLsbD_ofNat,
      Nat.testBit_shiftLeft, Nat.testBit_two_pow_sub_one, Nat.testBit_mod_two_pow, hi, decide_true, Bool.true_and, true_and]
    by_cases h1 : lo ≤ i
    · by_cases h2 : i < lo + len
      · have h3 : i - lo < len := by omega
        simp [h1, h2, h3]
      · have h3 : ¬ i - lo < len := by omega
        simp [h1, h2, h3]
    · simp [h1]
  · simp [hi, BitVec.getLsbD_of_ge _ _ (Nat.not_lt.mp hi)]

theorem fld_testBit (w : W32) (lo len i : Nat) : (fld w lo len).testBit i = (decide (i < len) && w.getLsbD (lo + i)) := by
  simp [fld, Nat.testBit_mod_two_pow, Nat.testBit_shiftRight, BitVec.getLsbD]

/-- A field that was set reads as what was put there. -/
theorem fld_setFld_same (w : W32) {lo len : Nat} (v : Nat) (h : lo + len ≤ 32) :
    fld (setFld w lo len v) lo len = v % 2 ^ len := by
  apply Nat.eq_of_testBit_eq
  intro i
  rw [fld_testBit, getLsbD_setFld, Nat.testBit_mod_two_pow]
  by_cases hi : i < len
  · simp [hi, show lo + i < 32 by omega]
  · simp [hi]

/-- Fields that do not overlap do not disturb each other. -/
theorem fld_setFld_other (w : W32) {lo len lo' len' : Nat} (v : Nat) (h : lo' + len' ≤ lo ∨ lo + len ≤ lo') :
    fld (setFld w lo len v) lo' len' = fld w lo' len' := by
  apply Nat.eq_of_testBit_eq
  intro i
  rw [fld_testBit, fld_testBit, getLsbD_setFld]
  by_cases hi : i < len'
  · rw [if_neg (by omega)]
  · simp [hi]

@[simp] theorem regF_setRegF_same (s : State) (a : Nat) {lo len : Nat} (v : Nat) (h : lo + len ≤ 32) :
    regF (setRegF s a lo len v) a lo len = v % 2 ^ len := by
  simp [regF, setRegF, fld_setFld_same _ _ h]

@[simp] theorem regB_setRegB_same (s : State) (a : Nat) {i : Nat} (v : Bool) (h : i < 32) :
    regB (setRegB s a i v) a i = v := by
  have := getLsbD_setFld (reg s a) i 1 (b2n v) i
  simp only [regB, setRegB, setRegF, bitOf, reg_setReg_same, this, h, le_refl, Nat.lt_add_one, and_self, if_true, Nat.sub_self]
  cases v <;> rfl

theorem reg_setRegB_other (s : State) {a b i : Nat} (h : b ≠ a) (v : Bool) : reg (setRegB s a i v) b = reg s b :=
  reg_setReg_other s h _

theorem reg_setRegF_other (s : State) {a b lo len v : Nat} (h : b ≠ a) : reg (setRegF s a lo len v) b = reg s b :=
  reg_setReg_other s h _

/-! ### Cores -/

@[simp] theorem core_setCore_same (s : State) (c : Nat) (k : Core) : core (setCore s c k) c = k := by simp [core, setCore]

theorem core_setCore_other (s : State) {c c' : Nat} (h : c' ≠ c) (k : Core) : core (setCore s c k) c' = core s c' := by
  simp [core, setCore, smGet_smSet_other _ h]

@[simp] theorem core_modCore_same (s : State) (c : Nat) (f : Core → Core) : core (modCore s c f) c = f (core s c) := by
  simp [modCore]

theorem core_modCore_other (s : State) {c c' : Nat} (h : c' ≠ c) (f : Core → Core) :
    core (modCore s c f) c' = core s c' := core_setCore_other s h _

theorem core_congr {s t : State} (h : t.cores = s.cores) (c : Nat) : core t c = core s c := by simp [core, h]

/-! ### Core registers -/

theorem getR_zero (c : Nat) (k : Core) : getR c k 0 = 0 := rfl

theorem setR_zero (c : Nat) (k : Core) (v : W64) : setR c k 0 v = k := rfl

theorem getR_setR_same (c : Nat) (k : Core) (r : Nat) (v : W64) : getR c (setR c k r v) r = if r = 0 then 0 else v := by
  unfold getR setR
  split
  · rfl
  · split <;> simp [physReg]

/-- Registers of the window that a core sees lie at distinct places of the file. -/
theorem physReg_inj (c : Nat) (k : Core) {i j : Nat} (hi : i < 24) (hj : j < 24) (h : physReg c k i = physReg c k j) :
    i = j := by
  unfold physReg fileSize at h
  split at h <;> omega

theorem getR_setR_other (c : Nat) (k : Core) {r q : Nat} (hr : r < 32) (hq : q < 32) (h : q ≠ r) (v : W64) :
    getR c (setR c k r v) q = getR c k q := by
  unfold setR
  split
  · rfl
  · split
    · unfold getR
      split
      · rfl
      · split
        · simp [smGet_smSet_other _ h]
        · rfl
    · unfold getR
      split
      · rfl
      · split
        · rfl
        · have hp : physReg c k (q - 8) ≠ physReg c k (r - 8) := fun e => by
            have := physReg_inj c k (by omega) (by omega) e
            omega
          simpa [physReg] using smGet_smSet_other k.window hp 0 0 v

theorem setR_keeps (c : Nat) (k : Core) (r : Nat) (v : W64) :
    setR c k r v = { k with kregs := (setR c k r v).kregs, window := (setR c k r v).window } := by
  unfold setR
  split
  · rfl
  · split <;> rfl

theorem rd_wr_same (s : State) (c r : Nat) (v : W64) : rd (wr s c r v) c r = if r = 0 then 0 else v := by
  simp [rd, wr, getR_setR_same]

theorem rd_wr_other (s : State) (c : Nat) {r q : Nat} (hr : r < 32) (hq : q < 32) (h : q ≠ r) (v : W64) :
    rd (wr s c r v) c q = rd s c q := by
  simp [rd, wr, getR_setR_other c _ hr hq h]

theorem rd_wr_core (s : State) {c c' : Nat} (h : c' ≠ c) (r q : Nat) (v : W64) : rd (wr s c r v) c' q = rd s c' q := by
  simp [rd, wr, core_modCore_other _ h]

end Sys2Proof.Machine
end

