-- ==== Sys2Proof/Laws/Issue.lean ====
section
/-! SUPPORT. What issuing a Spoke instruction does: one lemma per operation, and the frame of a register result. -/

namespace Sys2Proof.Machine

/-! ### One instruction -/

theorem runOp_alu (s : State) (c len : Nat) (f : Alu) (d a b : Nat) : runOp s c len (.alu f d a b) =
    if divideTraps s c f (rd s c b) then .trap s trapDivide
    else .ok (advance (wr s c d (aluFn f (rd s c a) (rd s c b))) c len) := rfl
theorem runOp_alui (s : State) (c len : Nat) (f : Alu) (d a : Nat) (v : W64) : runOp s c len (.alui f d a v) =
    .ok (advance (wr s c d (aluFn f (rd s c a) v)) c len) := rfl
theorem runOp_leapc (s : State) (c len d : Nat) (imm : BitVec 12) : runOp s c len (.leapc d imm) =
    .ok (advance (wr s c d (pcOf s c + sext imm)) c len) := rfl
theorem runOp_sel (s : State) (c len d r a b : Nat) : runOp s c len (.sel d r a b) =
    .ok (advance (wr s c d (if rd s c r ≠ 0 then rd s c a else rd s c b)) c len) := rfl
theorem runOp_load (s : State) (c len d a : Nat) (m : AddrMode) (z : BitVec 3) : runOp s c len (.load d a m z) =
    loadTo s c len d a m z := rfl
theorem runOp_store (s : State) (c len d a : Nat) (m : AddrMode) (z : BitVec 3) : runOp s c len (.store d a m z) =
    storeFrom s c len d a m z := rfl
theorem runOp_branch (s : State) (c len r : Nat) (nz : Bool) (off : BitVec 20) : runOp s c len (.branch nz r off) =
    .ok (if (rd s c r != 0) == nz then setPc s c (relTarget s c off) else advance s c len) := rfl
theorem runOp_br (s : State) (c len : Nat) (off : BitVec 20) : runOp s c len (.br off) =
    .ok (setPc s c (relTarget s c off)) := rfl
theorem runOp_call (s : State) (c len : Nat) (off : BitVec 20) (z : Bool) : runOp s c len (.call off z) =
    callTo s c len z (relTarget s c off) := rfl
theorem runOp_callr (s : State) (c len a : Nat) (z : Bool) : runOp s c len (.callr a z) =
    if (rd s c a).toNat % 2 = 1 then .trap s (trapAlign (rd s c a)) else callTo s c len z (rd s c a) := rfl
theorem runOp_jr (s : State) (c len a : Nat) : runOp s c len (.jr a) =
    if (rd s c a).toNat % 2 = 1 then .trap s (trapAlign (rd s c a)) else .ok (setPc s c (rd s c a)) := rfl
theorem runOp_ret (s : State) (c len : Nat) : runOp s c len .ret = retTo s c := rfl
theorem runOp_wait (s : State) (c len : Nat) : runOp s c len .wait = .ok (waitOp s c len) := rfl
theorem runOp_waitJob (s : State) (c len d : Nat) : runOp s c len (.waitJob d) = .ok (waitJobOp s c len d) := rfl
theorem runOp_fence (s : State) (c len : Nat) : runOp s c len .fence = .ok (fenceOp s c len) := rfl
theorem runOp_hubcall (s : State) (c len d a : Nat) (n : BitVec 12) : runOp s c len (.hubcall d a n) =
    .ok (hubcallOp s c len d n (rd s c a)) := rfl
theorem runOp_excRet (s : State) (c len : Nat) : runOp s c len .excRet = excRetTo s c := rfl
theorem runOp_crr (s : State) (c len d : Nat) (n : BitVec 12) : runOp s c len (.crr d n) =
    .ok (advance (wr (crRead s c n.toNat).2 c d (zext (crRead s c n.toNat).1)) c len) := rfl
theorem runOp_crw (s : State) (c len : Nat) (n : BitVec 12) (a : Nat) : runOp s c len (.crw n a) =
    .ok (crwOp (advance s c len) c n.toNat ((rd s c a).setWidth 32)) := rfl
theorem runOp_pcrr (s : State) (c len d : Nat) (n : BitVec 12) : runOp s c len (.pcrr d n) =
    .ok (advance (wr s c d (zext (pcrRead s c n.toNat))) c len) := rfl
theorem runOp_pcrw (s : State) (c len : Nat) (n : BitVec 12) (a : Nat) : runOp s c len (.pcrw n a) =
    .ok (pcrWrite (advance s c len) c n.toNat ((rd s c a).setWidth 32)) := rfl
theorem runOp_intoff (s : State) (c len d : Nat) : runOp s c len (.intoff d) =
    .ok (modCore (advance (wr s c d (truth (core s c).hubIntEnable)) c len) c fun k => { k with hubIntEnable := false }) := rfl
theorem runOp_inton (s : State) (c len : Nat) : runOp s c len .inton =
    .ok (modCore (advance s c len) c fun k => { k with hubIntEnable := true }) := rfl

/-- What an instruction that is no prefix leaves: the result, or the trap of its fault. -/
def settled (c len : Nat) : Ended → State
  | .ok t => t
  | .trap t e => raiseTrap t c e (pcOf t c) (pcOf t c) (len = 4)

/-- Issue of a legal instruction that is no prefix. -/
theorem issue_runs {s : State} {c len : Nat} {op : SpokeOp} (h : CanIssue s c len)
    (hi : illegalOf (isSpoke c) (isHub c) (len = 4) op = none) (h1 : ∀ r, op ≠ .rep r) (h2 : ∀ n, op ≠ .repi n) :
    issue s c len op = settled c len (runOp s c len op) := by
  unfold issue
  simp only [h.1, h.2, Bool.not_true, Bool.false_eq_true, if_false, hi]
  unfold runIssued
  split
  · exact absurd rfl (h1 _)
  · exact absurd rfl (h2 _)
  · cases runOp s c len op <;> rfl

/-! ### Register results -/

theorem onlyCore_modCore (s : State) (c : Nat) (f : Core → Core) : OnlyCore s (modCore s c f) c :=
  ⟨rfl, fun _ h => core_modCore_other s h f⟩

/-- Writing a register and stepping over the instruction changes nothing else. -/
theorem regAndPc_advance_wr (s : State) (c d : Nat) (v : W64) (len : Nat) (hd : d < 32) :
    RegAndPc s (advance (wr s c d v) c len) c d v (pcOf s c + BitVec.ofNat 64 len) := by
  have hc : core (advance (wr s c d v) c len) c =
      { setR c (core s c) d v with pc := pcOf s c + BitVec.ofNat 64 len } := by
    have : (setR c (core s c) d v).pc = (core s c).pc := by rw [setR_keeps]
    simp [advance, setPc, pcOf, wr, this]
  have hg : ∀ r, rd (advance (wr s c d v) c len) c r = rd (wr s c d v) c r := by
    intro r
    rw [rd, hc, rd, wr, core_modCore_same]
    rfl
  refine ⟨⟨rfl, ?_⟩, ?_, ?_, ?_, ?_⟩
  · intro _ h
    rw [advance, setPc, core_modCore_other _ h, wr, core_modCore_other _ h]
  · rw [hg, rd_wr_same]
  · intro r hr h
    rw [hg, rd_wr_other s c hd hr h]
  · intro i hi
    rw [hc]
    show smGet (setR c (core s c) d v).window i 0 = _
    unfold setR
    split
    · rfl
    · split
      · rfl
      · rcases hi with h | h
        · omega
        · exact smGet_smSet_other _ h _ _ _
  · rw [hc, setR_keeps]

theorem legal_long {spoke hub : Bool} {op : SpokeOp} (hp : isPriv op = false) (hr : isReserved spoke hub op = false) :
    illegalOf spoke hub true op = none := by simp [illegalOf, hp, hr]

theorem legal_short {spoke hub : Bool} {op : SpokeOp} (hp : isPriv op = false) (hr : isReserved spoke hub op = false)
    (hc : ∀ r ∈ opRegs op, r < 24) : illegalOf spoke hub false op = none := by
  have : (opRegs op).any (24 ≤ ·) = false := by
    simpa [List.any_eq_false] using fun r hr => hc r hr
  simp [illegalOf, hp, hr, this]

theorem legal_form {spoke hub wide : Bool} {op : SpokeOp} (hp : isPriv op = false) (hr : isReserved spoke hub op = false)
    (hc : CodesFit wide (opRegs op)) : illegalOf spoke hub (formLen wide = 4) op = none := by
  cases wide
  · exact legal_short hp hr (by simpa [CodesFit] using hc)
  · exact legal_long hp hr

/-- Issue of a register-to-register operation that does not trap. -/
theorem issue_alu {s : State} {c d a b : Nat} {f : Alu} {wide : Bool} (h : CanIssue s c (formLen wide))
    (hc : CodesFit wide [d, a, b]) (hd : divideTraps s c f (rd s c b) = false) :
    issue s c (formLen wide) (.alu f d a b) = advance (wr s c d (aluFn f (rd s c a) (rd s c b))) c (formLen wide) := by
  rw [issue_runs h (legal_form (op := .alu f d a b) rfl rfl hc) (by simp) (by simp), runOp_alu, hd]
  rfl

theorem issue_alui {s : State} {c d a : Nat} {v : W64} {f : Alu} {wide : Bool} (h : CanIssue s c (formLen wide))
    (hc : CodesFit wide [d, a]) :
    issue s c (formLen wide) (.alui f d a v) = advance (wr s c d (aluFn f (rd s c a) v)) c (formLen wide) := by
  rw [issue_runs h (legal_form (op := .alui f d a v) rfl rfl hc) (by simp) (by simp), runOp_alui]
  rfl

end Sys2Proof.Machine
end

