-- ==== Sys2Proof/Tests/Slice0.lean ====
section
/-! SUPPORT. The model's own tests: well-formedness, encodings of the spec, a state and operands for the hypotheses of every
statement and clause (`test_witness_…`), and a few single steps whose results the spec gives. -/

namespace Sys2Proof.Machine.Tests

open Sys2Proof Sys2Proof.Machine

set_option Elab.async false

/-! ### States to start from -/

/-- Every domain on, the device up, the Hub firmware in control, Wheel 0 unparked. -/
def up : State :=
  { boot := { phase := .up, porstLow := false, aonUp := false, rom := .left },
    pwr := { domains := (List.range 31).map fun d => (d, DomState.on), parked := [(0, false)] } }

/-- Core c runs at 0x100 with the rest of its record as given. -/
def runs (c : Nat) (k : Core) : State := setCore up c { k with run := .running, holds := true, pc := 0x100 }

/-- Spoke 0 with an open handler. -/
def handled : Core := { excBase := 0x2001 }

/-- An entry without payload or result, and its job of a service of class 0. -/
def entry0 : Entry :=
  { cid := 7, irq := false, ordered := false, op := 0, payloadAddr := 0, payloadLen := 0, resultCap := 0, resultAddr := 0, raw := [],
    payload := none }
def job0 : Job := { number := 0, queue := 5, group := 0, func := 0, cls := 0, sign := false, service := 0, entry := entry0 }

/-! ### Witnesses: the queue and the Spoke instructions -/

theorem test_witness_StepRunsFrontCommand :
    ({ up with pending := [.mergeEnd, .freeze] } : State).pending = .mergeEnd :: [.freeze] := rfl

theorem test_witness_EmptyQueuePassesOneCycle : State.reset.pending = [] ∧ State.reset.boot.phase = .held := by decide +kernel

theorem test_witness_ArithmeticCompletes :
    CanIssue (runs 0 {}) 0 (formLen false) ∧ CanIssue (runs 0 {}) 0 (formLen true) ∧ CodesFit false [23, 23, 0] ∧
      CodesFit true [31, 0, 8] ∧ rd (runs 0 {}) 0 9 = 0 ∧ bitOf (core (runs 0 {}) 0).ctrl 0 = false ∧
      rd (runs 0 { kregs := [(1, 5)] }) 0 1 ≠ 0 ∧ CanIssue (runs 0 { kregs := [(1, 5)] }) 0 4 ∧ fits5 0xFF0 = true := by
  unfold CanIssue CodesFit; decide +kernel

theorem test_witness_ComparesWriteTruth :
    CanIssue (runs 0x210 {}) 0x210 (formLen true) ∧ CodesFit true [31, 31, 31] ∧ CanIssue (runs 0x200 {}) 0x200 (formLen false) ∧
      CodesFit false [23, 23, 23] := by
  unfold CanIssue CodesFit; decide +kernel

theorem test_witness_LoadsAndStoresComplete :
    CanIssue (runs 0 { kregs := [(1, 0xFFF8)] }) 0 (modeLen (.offset 0)) ∧
      (effAddr (runs 0 { kregs := [(1, 0xFFF8)] }) 0 1 (.offset 0) 8).toNat = 0xFFF8 ∧
      CanIssue (runs 0 { window := [(0, 8)] }) 0 (modeLen .preDec) ∧
      (effAddr (runs 0 { window := [(0, 8)] }) 0 8 .preDec 8).toNat = 0 ∧
      CanIssue (runs 0 { window := [(0, 8)] }) 0 (modeLen (.short 15)) ∧
      (effAddr (runs 0 { window := [(0, 8)] }) 0 8 (.short 15) 8).toNat % 8 = 0 := by
  unfold CanIssue; decide +kernel

theorem test_witness_BranchesMoveOnlyThePc :
    CanIssue (runs 0 {}) 0 (formLen false) ∧ CanIssue (runs 0 {}) 0 4 ∧ (rd (runs 0 {}) 0 8).toNat % 2 = 0 := by
  unfold CanIssue; decide +kernel

/-- A window at the end of its span, and one whose record returns from a slide of 16. -/
def deep : Core := { wp := 216, bot := 0 }
def framed (slide : Nat) : Core := setRecord 0 { wp := 24 } 24 (some (mkRecord slide 0x200))

theorem test_witness_CallsAndReturnsMoveTheWindow :
    CanIssue (runs 0 deep) 0 4 ∧ (core (runs 0 deep) 0).wp + 16 + 24 ≤ (core (runs 0 deep) 0).bot + fileSize 0 ∧
      (rd (runs 0 deep) 0 8).toNat % 2 = 0 ∧
      CanIssue (runs 0 (framed 1)) 0 2 ∧ recordAt 0 (core (runs 0 (framed 1)) 0) 24 = some (mkRecord 1 0x200) ∧
      recSlide (mkRecord 1 0x200) < 2 ∧ recSlide (mkRecord 0 0x200) < 2 ∧ (core (runs 0 (framed 1)) 0).bot + 16 ≤ 24 := by
  unfold CanIssue; decide +kernel

/-- The state after a call. -/
def called : State := match execCall 0 0x10 true (runs 0 deep) with
  | .next t => t
  | _ => up

/-- The state after its return. -/
def back : State := match execRet 0 called with
  | .next t => t
  | _ => up

theorem test_witness_CallThenReturnRestores :
    CanIssue (runs 0 deep) 0 4 ∧ (core (runs 0 deep) 0).wp + 16 + 24 ≤ (core (runs 0 deep) 0).bot + fileSize 0 ∧
      (core (runs 0 deep) 0).bot ≤ (core (runs 0 deep) 0).wp ∧ ((core (runs 0 deep) 0).pc + 4).toNat < 2 ^ 40 ∧
      CanIssue called 0 2 := by
  unfold CanIssue; decide +kernel

theorem test_witness_CallThenReturnRestores_steps :
    exec (.call 0 0x10 true) (runs 0 deep) = .next called ∧ exec (.ret 0) called = .next back := ⟨rfl, rfl⟩

/-- `REP w0` or `REPI` at 0x100 with `ADD w1, w1, w2` behind it, in the short and in the long form. -/
def repeating : State :=
  wrBytes (runs 0 { window := [(0, 3), (2, 7)] }) (scratchBase 0 + 0x102) (leBytes 2 0x092A ++ leBytes 4 0x000A8529)

theorem test_witness_RepeatsRunTheirCount :
    CanIssue repeating 0 (formLen false) ∧ CodesFit false [8] ∧ intTakable 0 (core repeating 0) = false ∧
      fetchOp repeating 0 (pcOf repeating 0 + BitVec.ofNat 64 (formLen false)) = some (2, .alu .add 9 9 10) ∧
      CanIssue repeating 0 4 ∧ fetchOp repeating 0 (pcOf repeating 0 + 4) = some (4, .alu .add 9 9 10) := by
  unfold CanIssue CodesFit; decide +kernel

/-- Spoke 0 with a job of class 0. -/
def atWork (k : Core) : State := setJob (runs 0 k) 0 (some job0)

theorem test_witness_WaitsAndFencesEnd :
    (CanIssue (runs 0 {}) 0 4 ∧ intReady (core (runs 0 {}) 0) = false ∧ jobOf (runs 0 {}) 0 = none ∧ isHub 0 = false) ∧
      (CanIssue (atWork {}) 0 4 ∧ jobOf (atWork {}) 0 ≠ none) ∧
      (CanIssue (runs 0x200 { unacked := 1 }) 0x200 4 ∧ (core (runs 0x200 { unacked := 1 }) 0x200).unacked ≠ 0) ∧
      ((core (setCore up 0 { run := .hubcall 31 }) 0).run = .hubcall 31 ∧
        recordsWaiting (setCore up 0 { run := .hubcall 31 }) (coreIsland 0) < 4) ∧
      ((core (setCore up 0 { run := .granted }) 0).run = .granted ∧ coreOn up 0 = true ∧ wheelRuns up 0 = true) := by
  unfold CanIssue; decide +kernel

/-! ### Witnesses: control registers, exceptions, core events -/

theorem test_witness_ControlRegisterAccessCompletes :
    CanIssue (runs 0 {}) 0 4 ∧ CanIssue (runs 0x202 {}) 0x202 4 ∧ isHub 0x202 = true ∧ CanIssue (runs 0x200 {}) 0x200 4 ∧
      (runs 0x200 {}).boot.measureLock = false ∧
      ((rd (runs 0x200 { kregs := [(1, 1)] }) 0x200 1).setWidth 32).getLsbD 0 = true ∧
      CanIssue ({ runs 0x200 {} with boot := { up.boot with measureLock := true } } : State) 0x200 4 := by
  unfold CanIssue; decide +kernel

/-- A Spoke about to run a reserved halfword (memory is zero), one outside its memory, one with an interrupt. -/
def strayed : State := setCore up 0 { handled with run := .running, pc := 0x10000 }
def nudged : State := runs 0 { handled with ctrl := 2, intEnable := 0x10, intPending := 0x10 }

theorem test_witness_ExceptionsEnterAndReturn :
    (mayIssue (runs 0 handled) 0 = true ∧ EntryOpen 0 (core (runs 0 handled) 0) ∧
        fetchOp (runs 0 handled) 0 (pcOf (runs 0 handled) 0) = some (2, .reserved false)) ∧
      (mayIssue strayed 0 = true ∧ EntryOpen 0 (core strayed 0) ∧ fetchOp strayed 0 (pcOf strayed 0) = none) ∧
      (mayIssue nudged 0 = true ∧ EntryOpen 0 (core nudged 0) ∧ intTakable 0 (core nudged 0) = true) ∧
      (CanIssue (runs 0 (framed 2)) 0 4 ∧ recordAt 0 (core (runs 0 (framed 2)) 0) 24 = some (mkRecord 2 0x200) ∧
        recSlide (mkRecord 2 0x200) = 2 ∧ (core (runs 0 (framed 2)) 0).excPc.toNat % 2 = 0 ∧
        (core (runs 0 (framed 2)) 0).bot + 24 ≤ 24) := by
  unfold CanIssue EntryOpen; decide +kernel

def trapping : State := runs 0 { handled with ctrl := 1, kregs := [(1, 0x100), (2, 0x10000000000), (3, 1)] }

theorem test_witness_FaultingInstructionsTrap :
    EntryOpen 0 (core trapping 0) ∧ CanIssue trapping 0 4 ∧ CanIssue trapping 0 2 ∧
      2 ^ 40 ≤ (rd trapping 0 2 + (0 : BitVec 12).signExtend 64).toNat ∧
      (rd trapping 0 3 + (0 : BitVec 12).signExtend 64).toNat % sizeBytes 2 ≠ 0 ∧ rd trapping 0 4 = 0 ∧
      bitOf (core trapping 0).ctrl 0 = true ∧ (rd trapping 0 3).toNat % 2 = 1 ∧
      recordAt 0 (core trapping 0) (core trapping 0).wp = none := by
  unfold CanIssue EntryOpen; decide +kernel

theorem test_witness_CoreEventsComplete :
    (let s := runs 0 { timerCmp := 0 }
     isCore 0 = true ∧ coreOn s 0 = true ∧ (core s 0).run = .running ∧ (core s 0).frozen = false ∧ (core s 0).timerArmed = true ∧
       (core s 0).timerCmp.toNat ≤ (core s 0).cycle.toNat ∧ parked s 0 = false) ∧
      (let s := setReg up (condAddr 0) 0
       isSpoke 0 = true ∧ coreOn s 0 = true ∧ (core s 0).run = .reset ∧ (core s 0).frozen = false ∧ relReady s 0 = true) ∧
      (wheelOn up 31 = true ∧ isSpoke 511 = true ∧ coreOn up 511 = true ∧ regPair up (relTimeAddr 511) ≤ nowNs up) ∧
      (let s := setReg up (condAddr (gkId 3)) 0
       isGk (gkId 3) = true ∧ coreOn s (gkId 3) = true ∧ (core s (gkId 3)).run = .reset ∧ (core s (gkId 3)).frozen = false ∧
         relReady s (gkId 3) = true) ∧
      (hubOn up = true ∧ (core up hubA).run = .reset ∧ (core up hubA).frozen = false ∧ up.boot.hubBGo = false) ∧
      (∀ r ∈ [RomPhase.left, .off], let s : State := { up with boot := { up.boot with hubBGo := true, rom := r } }
       hubOn s = true ∧ (core s hubB).run = .reset ∧ (core s hubB).frozen = false ∧ s.boot.hubBGo = true ∧ s.boot.rom = r) := by
  decide +kernel

/-! ### Witnesses: Wheels, banks, the map -/

/-- A bank that is being wiped. -/
def wipes (b : Nat) : State := setRegB up (statusAddr b) 17 true

theorem test_witness_BanksChangeHands :
    (bankExists up 0 = true ∧ bankRegOn up 0 = true ∧ 0x200 = bankOwner up 0 ∧ wiping up 0 = false ∧
        validOwner up 0 (fld 0x2202 0 11) = true ∧ fld 0x2202 0 11 ≠ bankOwner up 0) ∧
      (bankExists up 191 = true ∧ bankRegOn up 191 = true ∧ validOwner up 191 (fld 0x1FF 0 11) = true ∧
        fld 0x1FF 0 11 ≠ bankOwner up 191) ∧
      (bankExists (wipes 63) 63 = true ∧ bankRegOn (wipes 63) 63 = true ∧ wiping (wipes 63) 63 = true) ∧
      (0x300 ≠ bankOwner up 0 ∧ 0x300 ≠ hubA ∧ 0x300 ≠ regF up (statusAddr 0) 0 11) ∧
      wiping (wipes 0) 0 = true ∧ wiping (wipes 191) 191 = true ∧
      (bankOn up 8 = true ∧ 8 ∉ up.starved ∧ recordsWaiting up (bankIsland 8) < 4) ∧
      (bankOn up 191 = true ∧ recordsWaiting up (bankIsland 191) < 4) := by
  decide +kernel

/-- Spoke 0's DMA slot from its scratch to bank 64 of its own pool, which it owns; not busy, busy, and at the end. -/
def dmaSet (len ctrl : W32) : State :=
  let s := setReg (setPair (setPair up (wdmaAddr 0 0) (scratchBase 0)) (wdmaAddr 0 8) (bankBase 64)) (ownerAddr 64) 0
  setReg (setReg s (wdmaAddr 0 0x10) len) (wdmaAddr 0 0x14) ctrl

theorem test_witness_WheelDmaMovesItsBytes :
    (isSpoke 0 = true ∧ wheelOn up 0 = true ∧ parked up 0 = false) ∧
      (wdmaBusy (dmaSet 64 0) 0 = false ∧ wdmaValid (dmaSet 64 0) 0 = true ∧ wdmaLen (dmaSet 64 0) 0 ≠ 0) ∧
      (wdmaBusy (dmaSet 4 0) 0 = false ∧ wdmaValid (dmaSet 4 0) 0 = false) ∧
      (let s := dmaSet 64 2
       wdmaActive s 0 = true ∧ smGet s.wdmaNext 0 0 = 0 ∧ wdmaGrants s 0 (scratchBase 0) false = true ∧
         wdmaGrants s 0 (bankBase 64) true = true ∧ endpointOn s 0 (scratchBase 0) = true ∧ endpointOn s 0 (bankBase 64) = true ∧
         regPair s (wdmaAddr 0 0) = scratchBase 0 ∧ regPair s (wdmaAddr 0 8) = bankBase 64 ∧
         bankOf (scratchBase 0) = none ∧ bankOf (bankBase 64) = some 64 ∧ wiping s 64 = false) ∧
      (wdmaBusy (dmaSet 0 2) 0 = true ∧ wdmaLen (dmaSet 0 2) 0 ≤ (smGet (dmaSet 0 2).wdma 0 {}).moved) := by
  decide +kernel

/-- Hub-A with Wheel 0 alone in its group, and with one access on its way. -/
def grouped : State := setHub up hubA { wheelGroupMask := 1 }

theorem test_witness_BroadcastsReachTheGroup :
    isHub hubA = true ∧ groupWheels grouped hubA = [0] ∧ wheelOn grouped 0 = true ∧ parked grouped 0 = false ∧
      spokeStopped grouped (16 * 0 + 0xFFFF8 / 0x10000) = true ∧ 0xFFFF8 % 8 = 0 ∧
      (core (runs hubA { unacked := 1 }) hubA).unacked ≠ 0 := by
  decide +kernel

theorem test_witness_RegisterWritesGoThroughTheMap :
    isFunc hubA = false ∧ isHub hubB = true ∧ hubOn up = true ∧
      (bankOn up 0 = true ∧ wiping up 0 = false ∧ bankOwner up 0 = hubA ∧ 0x100000000 = 0x100000000 + 0x40000 * 0 + 0x100000000 % 0x40000) ∧
      (bankOn up 63 = true ∧ wiping up 63 = false ∧ bankGrants up hubB 63 true false = false ∧
        0x100FFFFFC = 0x100000000 + 0x40000 * 63 + 0x100FFFFFC % 0x40000) ∧
      target 0x3FFFFFFC = .hole ∧ aPwr 0x114 % 4 = 0 := by
  decide +kernel

/-! ### Witnesses: Cranks -/

/-- A command word. -/
def cmd (op flags dst xa ya n : Nat) : W64 :=
  BitVec.ofNat 64 (op * 2 ^ 58 + flags * 2 ^ 52 + dst * 2 ^ 40 + xa * 2 ^ 28 + ya * 2 ^ 16 + n)

/-- Context A of Crank 0 of a record, admitted and running one command with another behind it. -/
def cranking (c : Ctx) (v : W64) : State :=
  setCtx up 0 0 { c with state := .running, holder := 0, requested := true, admitted := true, fifo := [v, 0] }

/-- The head of the FIFO is ready to run. -/
theorem test_crankHead (c : Ctx) (v : W64) (h : ctxReady (cranking c v) 0 0 = true ∧ running (cranking c v) 0 0 = true ∧
    crankFieldsOk (crankCmd v) = true ∧ crankStateOk (ctx (cranking c v) 0 0) (crankCmd v).op = true ∧
    (ctx (cranking c v) 0 0).overflow = [] ∧ (ctx (cranking c v) 0 0).fifo = [v, 0]) :
    CrankHead (cranking c v) 0 0 (crankCmd v).op (crankCmd v) [0] :=
  ⟨⟨v, h.2.2.2.2.2, rfl⟩, rfl, h.1, h.2.1, h.2.2.1, h.2.2.2.1, h.2.2.2.2.1⟩

theorem test_witness_CrankPublicCommandsComplete :
    CrankHead (cranking {} (cmd 5 0 0 0 0 0)) 0 0 5 (crankCmd (cmd 5 0 0 0 0 0)) [0] ∧
      CrankHead (cranking { laneMode := true } (cmd 5 0 0 0 0 0)) 0 0 5 (crankCmd (cmd 5 0 0 0 0 0)) [0] ∧
      CrankHead (cranking {} (cmd 6 0 0 4095 0 0)) 0 0 6 (crankCmd (cmd 6 0 0 4095 0 0)) [0] ∧
      CrankHead (cranking {} (cmd 8 32 0 4092 4095 0)) 0 0 8 (crankCmd (cmd 8 32 0 4092 4095 0)) [0] ∧
      CrankHead (cranking {} (cmd 9 0 0 0 0 0)) 0 0 9 (crankCmd (cmd 9 0 0 0 0 0)) [0] ∧
      CrankHead (cranking {} (cmd 10 0 2038 0 0 9)) 0 0 10 (crankCmd (cmd 10 0 2038 0 0 9)) [0] ∧
      CrankHead (cranking { taintAcc := true } (cmd 11 0 2048 0 0 639)) 0 0 11 (crankCmd (cmd 11 0 2048 0 0 639)) [0] ∧
      CrankHead (cranking {} (cmd 24 0 0 0 0 1)) 0 0 24 (crankCmd (cmd 24 0 0 0 0 1)) [0] ∧
      CrankHead (cranking {} (cmd 25 0 2048 2048 2048 64)) 0 0 25 (crankCmd (cmd 25 0 2048 2048 2048 64)) [0] ∧
      CrankHead (cranking { sXferCount := 1 } (cmd 4 0 0 0 0 1)) 0 0 4 (crankCmd (cmd 4 0 0 0 0 1)) [0] ∧
      CrankHead (cranking {} (cmd 1 0 0 0 0 0)) 0 0 1 (crankCmd (cmd 1 0 0 0 0 0)) [0] ∧
      CrankHead (cranking {} (cmd 2 0 0 0 0 0)) 0 0 2 (crankCmd (cmd 2 0 0 0 0 0)) [0] ∧
      CrankHead (cranking { tokens := 14 } (cmd 3 1 0 0 0 0)) 0 0 3 (crankCmd (cmd 3 1 0 0 0 0)) [0] ∧
      CrankHead (cranking { tokens := 10 } (cmd 3 0 0 0 0 0)) 0 0 3 (crankCmd (cmd 3 0 0 0 0 0)) [0] ∧
      canPreempt (cranking {} (cmd 2 0 0 0 0 0)) 0 0 = false := by
  refine ⟨?_, ?_, ?_, ?_, ?_, ?_, ?_, ?_, ?_, ?_, ?_, ?_, ?_, ?_, by decide +kernel⟩ <;>
    exact test_crankHead _ _ (by decide +kernel)

theorem test_witness_CrankLaneCommandsComplete :
    CrankHead (cranking { laneMode := true } (cmd 16 0 0 0 0 0)) 0 0 16 (crankCmd (cmd 16 0 0 0 0 0)) [0] ∧
      CrankHead (cranking { laneMode := true } (cmd 16 0x38 0 0 0 0)) 0 0 16 (crankCmd (cmd 16 0x38 0 0 0 0)) [0] ∧
      CrankHead (cranking { laneMode := true } (cmd 17 0 0 0 0 0)) 0 0 17 (crankCmd (cmd 17 0 0 0 0 0)) [0] ∧
      CrankHead (cranking { laneMode := true } (cmd 18 0x20 0 0 0 0)) 0 0 18 (crankCmd (cmd 18 0x20 0 0 0 0)) [0] ∧
      CrankHead (cranking { laneMode := true } (cmd 19 0x10 0 0 0 0)) 0 0 19 (crankCmd (cmd 19 0x10 0 0 0 0)) [0] ∧
      CrankHead (cranking { laneMode := true, taintLane := true } (cmd 19 0 2048 0 0 0)) 0 0 19
        (crankCmd (cmd 19 0 2048 0 0 0)) [0] := by
  refine ⟨?_, ?_, ?_, ?_, ?_, ?_⟩ <;> exact test_crankHead _ _ (by decide +kernel)

theorem test_witness_CrankPairedVerifyCompletes :
    CrankHead (cranking { sign := true } (cmd 27 0 0 2048 0 4)) 0 0 27 (crankCmd (cmd 27 0 0 2048 0 4)) [0] ∧
      CrankHead (cranking { sign := true, verifyPhase := true } (cmd 28 0 0 2048 2052 4)) 0 0 28
        (crankCmd (cmd 28 0 0 2048 2052 4)) [0] ∧
      CrankHead (cranking { sign := true, verifyPhase := true, verdict := 1, range := some (2048, 4) } (cmd 26 0 0 2048 0 4)) 0 0 26
        (crankCmd (cmd 26 0 0 2048 0 4)) [0] ∧ jobRec up 0 = none := by
  refine ⟨?_, ?_, ?_, by decide +kernel⟩ <;> exact test_crankHead _ _ (by decide +kernel)

theorem test_witness_CrankTaintStopsLeaks :
    CrankHead (cranking { taintAcc := true } (cmd 10 0 0 0 0 0)) 0 0 10 (crankCmd (cmd 10 0 0 0 0 0)) [0] ∧
      CrankHead (cranking { taintAcc := true } (cmd 11 0 2047 0 0 0)) 0 0 11 (crankCmd (cmd 11 0 2047 0 0 0)) [0] ∧
      CrankHead (cranking { laneMode := true, taintLane := true } (cmd 19 0 0 0 0 0)) 0 0 19 (crankCmd (cmd 19 0 0 0 0 0)) [0] ∧
      CrankHead (cranking {} (cmd 24 0 2047 2048 0 1)) 0 0 24 (crankCmd (cmd 24 0 2047 2048 0 1)) [0] := by
  refine ⟨?_, ?_, ?_, ?_⟩ <;> exact test_crankHead _ _ (by decide +kernel)

/-- A transfer into context A of Crank 0, which Spoke 0 holds. -/
def claim0 : Claim := { master := 0, cls := 2, sign := false }

theorem test_witness_CrankContextsAreHeldAndWiped :
    (wheelOn up 0 = true ∧ parked up 0 = false ∧ crankUser 0 0 = true ∧ heldCtx up 0 0 = none ∧ (crank up 0).claims = []) ∧
      (let s := setCrank up 0 { claims := [claim0] }
       (crank s 0).a.state = .free ∧ bestClaim (crank s 0).claims (crank s 0).rotate = some claim0) ∧
      (let s := cranking {} 0
       heldCtx s 0 0 = some 0 ∧ (ctx s 0 0).state ≠ .error ∧ (ctx s 0 0).fifo.length < 64 ∧ (ctx s 0 0).requested = true) ∧
      (ctx (setCtx up 0 1 { state := .wiping }) 0 1).state = .wiping ∧
      (let s := setCrank up 0 { a := { state := .running, holder := 0, cls := 3 },
                                b := { state := .waiting, holder := 1, cls := 0, admitted := true }, sinceYield := 0xFFFF }
       running s 0 0 = true ∧ canPreempt s 0 0 = true ∧ yieldWarn s 0 < (crank s 0).sinceYield ∧
         (crank s 0).overrunLogged = false ∧ recordsWaiting s 0 < 4) := by
  decide +kernel


/-- A transfer of Spoke 0's key to context A of Crank 0. -/
def xfer0 : Xfer := { master := 0, wheel := 0, ctx := 0, index := 0, key := [1, 2, 3, 4, 5, 6, 7, 8] }

theorem test_witness_CrankTransfer :
    let s : State := { setCtx up 0 0 { state := .waiting, holder := 0 } with chamber := { xfers := [xfer0] } }
    takeXfer 0 s.chamber.xfers = some (xfer0, []) ∧ xfer0.wheel = 0 ∧ xfer0.ctx = 0 ∧ xferAccepted s xfer0 = true := by
  decide +kernel

/-! ### Witnesses: lanes and the Chamber -/

/-- Hub lane 0, held by Hub-A and ready with the rest as given; the device context key in slot 2, a key for lanes in slot 16. -/
def laned (k : Lane) : State :=
  let s := setLane up 64 { k with state := .ready, holder := hubA }
  let s := setSlot s 2 { (slot up 2) with state := .loaded, key := zeros 32 }
  setSlot s 16 { state := .loaded, head := 16, attr := mkAttr 1 hubA 0 (useDigest + useDerive) 1, key := zeros 8 }

/-- Wheel lane 1, held by Spoke 0. -/
def laned1 : State := setLane up 1 { state := .finished, holder := 0, requested := true, admitted := true }

theorem test_laned (k : Lane) (h : k.queue = []) : LaneMine (laned k) hubA 64 :=
  ⟨rfl, rfl, rfl, rfl, .inl rfl, .inl rfl, .inl rfl, h⟩

theorem test_witness_LaneMessages :
    LaneMine (laned {}) hubA 64 ∧ LaneMine laned1 0 1 ∧ algValid 1 = true ∧
      LaneMine (laned { started := true, alg := 1, slot := 16 }) hubA 64 ∧
      domOn (laned {}) 26 = true ∧
      useCheck (laned { started := true, alg := 1, slot := 16 }) hubA 16 (useDigest + useDerive) true = 0 := by
  refine ⟨test_laned _ rfl, ⟨?_, ?_, ?_, ?_, ?_, ?_, ?_, ?_⟩, ?_, test_laned _ rfl, ?_, ?_⟩ <;> decide +kernel

/-- A SHA-256 context at its start, and its image wrapped under the zero key and IV. -/
def message : Lane := { started := true, alg := 1, midstate := algInit 1, deriveOk := true }
def wrappedImage : List Byte :=
    leBytes 38 0x624D3F41A7CF0000000000000000000000000000000000000000000000000000020001020101 ++
    leBytes 38 0x56AA867DFE4F2DF64F5743B78E3506758EF5A2D1742AA637CA036072189DF3BAD3C54E076E6B ++
    leBytes 38 0xAFBCA0679141E0AC9560372DA821738FC4D006F7ECF048C4FF7EBC17BE1A9E994F16CDC343E2 ++
    leBytes 38 0xF3E03728ABE10ABA29FC2CE5C5BDB05F24DA856ECD77FAABAD1D5E54661CBCE62DA6CEC0B049 ++
    leBytes 38 0x5A837F50DE5A86872E2964214A186D39C2C34E8FC37B1F4D866BBC26243126017930EB78763 ++
    leBytes 38 0xC0788B76662452FB29F55EAC70600A625E2262F3CADD507183B558BF34ED57F3BDEB21BB79D5 ++
    leBytes 38 0x8BE9BD43EE7C5AA090142EBED72878D56AA9E126869C2410B7B0C65FA306E507FAF51EE5544B ++
    leBytes 38 0x39AC24359902420E9489DC449B1DF27E34E4C0A953AD592AC7BFC1826EDFD64E2601DC09E356

theorem test_witness_LaneImages :
    LaneMine (laned message) hubA 64 ∧ imageOk (imageBytes (imageMap (laneImage message)) 256) = true ∧
      contextKey (laned message) = some (zeros 32) ∧
      (dripTake { laned message with drip := { pool := [1, 2, 3] } } 3).isSome = true := by
  refine ⟨test_laned _ rfl, ?_, ?_, ?_⟩ <;> decide +kernel

theorem test_witness_LaneImport :
    let k := { message with wrapImage := imageMap wrappedImage }
    let im := imageBytes k.wrapImage 304
    LaneMine (laned k) hubA 64 ∧ contextKey (laned k) = some (zeros 32) ∧
      gcmTag (zeros 32) (slice im 16 12) (im.take 16) (slice im 32 256) = slice im 288 16 ∧
      im.take 16 = wrapHead (laned k) 64 (field (gcmCrypt (zeros 32) (slice im 16 12) (slice im 32 256)) 2 1) := by
  have hn : wrappedImage.length = 304 := by decide +kernel
  have h : imageBytes (imageMap wrappedImage) 304 = wrappedImage := hn ▸ Laws.imageBytes_imageMap wrappedImage
  simp only [h]
  refine ⟨test_laned _ rfl, ?_, ?_, ?_⟩ <;> decide +kernel

/-- FINISH words of the three destinations, their lanes, and the end of each. -/
def ending (dest : Nat) (taint : Bool) : State :=
  setLane up 64 { message with state := .busy, holder := hubA, taint, finishing := some (laneWord 4 0 0 32 0 dest) }

theorem test_witness_LaneDeliversItsDigest :
    LaneMine (laned message) hubA 64 ∧ (lane (laned message) 64).started = true ∧
      (∀ p ∈ [(0, false), (0, true), (1, true)],
        let s := ending p.1 p.2
        let k := lane s 64
        k.finishing = some (laneWord 4 0 0 32 0 p.1) ∧ fld (laneWord 4 0 0 32 0 p.1) 0 2 = p.1 ∧ k.taint = p.2 ∧
          laneGo s 64 = true ∧ k.state = .busy ∧ k.queue = [] ∧ (core s k.holder).stalled = false ∧ k.declared = 0) := by
  refine ⟨test_laned _ rfl, ?_, ?_⟩ <;> decide +kernel

theorem test_witness_LanesAreHeldAndWiped :
    (laneUser 0 1 = true ∧ laneOn up 1 = true ∧ parked up 0 = false ∧ (lane up 1).state = .free ∧
        ∀ j ∈ laneGroup 1, holdsLane up 0 j = false ∧ ∀ c ∈ (lane up j).claims, c.master ≠ 0) ∧
      (let s := setLane up 67 { claims := [{ master := hubB, cls := 0, sign := false }] }
       bestClaim (lane s 67).claims (lane s 67).rotate = some { master := hubB, cls := 0, sign := false } ∧
         (lane s 67).state = .free ∧ laneOn s 67 = true) ∧
      (lane (setLane up 67 { state := .wiping }) 67).state = .wiping ∧ LaneMine (laned {}) hubA 64 := by
  refine ⟨?_, ?_, ?_, test_laned _ rfl⟩ <;> decide +kernel

/-- A Chamber with a loaded extent of the given attributes at 16, and an unwrap buffer. -/
def chambered (a : W32) (us : List UnwrapBuf) : State :=
  let s := setSlot up 16 { state := .loaded, head := 16, attr := a, key := zeros 32 }
  { s with chamber := { s.chamber with unwraps := us } }

theorem test_witness_ChamberSlotsComplete :
    (domOn up 26 = true ∧ isCore 0 = true ∧ (chBank up 0).busy = false) ∧
      attrOk up 0 (mkAttr 512 0 0 1 1) = true ∧ findRun up (attrSlots (mkAttr 512 0 0 1 1)) = some 16 ∧
      (slot (chambered (mkAttr 4 0 0 1 1) []) 16).head = 16 ∧ (slot (chambered (mkAttr 4 0 0 1 1) []) 16).state ≠ .empty ∧
      mayUse (chambered (mkAttr 4 0 0 1 1) []) 0 16 false = true ∧
      isHead up 0 = true ∧ isHead up 65535 = true ∧ (∀ x ∈ up.chamber.xfers, x.master ≠ 0) ∧
      ({ up with otp := { slot0Waiting := true } } : State).otp.command = none := by
  decide +kernel

/-- An unwrap under a zero key of 32 bytes: its buffer, and the wrapped key of 8 bytes. -/
def wrappedKey : List Byte := aesEnc (zeros 32) (beBytes 8 0xA65959A600000008 ++ leBytes 8 0x0807060504030201)
def unwrapBuf (fed : List Byte) : UnwrapBuf := { master := 0, kek := 16, attr := mkAttr 1 0 0 1 1, length := 16, fed }

theorem test_witness_ChamberKeysMoveByRight :
    (let s := chambered (mkAttr 4 0 0 1 1) []
     domOn s 26 = true ∧ isCore 0 = true ∧ (chBank s 0).busy = false ∧ isSpoke 0 = true ∧ fld (2044 : W32) 16 5 = 0 ∧
       useCheck s 0 16 useCrank true = 0 ∧ 8 * fld (2044 : W32) 0 11 + (slot s 16).key.length ≤ 16384) ∧
      useCheck (chambered (mkAttr 4 1 0 1 1) []) 0 16 useCrank true = cUseViolation ∧
      (let s := chambered (mkAttr 4 0 0 4 11) []
       attrOk s 0 (mkAttr 512 0 0 1 1) = true ∧ useCheck s 0 16 useWrap true = 0 ∧ s.chamber.unwraps.length < 4) ∧
      (let s := chambered (mkAttr 4 0 0 4 11) [unwrapBuf wrappedKey]
       (unwrapBuf wrappedKey).fed.length + 4 ≤ 4104 ∧ (unwrapBuf wrappedKey).fed.length = 16 ∧
         kwpUnwrap (fitBytes 32 (slot s 16).key) wrappedKey = some (leBytes 8 0x0807060504030201) ∧
         attrLen (mkAttr 1 0 0 1 1) = 8 ∧ findRun s 1 = some 17) := by
  decide +kernel


/-! ### Witnesses: fuses, life cycle, Lantern -/

/-- The fuse controller runs a command. -/
def burning (cmd : OtpCmd) : State := { up with otp := { command := some cmd } }

theorem test_witness_FuseCommandsComplete :
    (domOn up 27 = true ∧ otpBusy up = false ∧ otpRefusal up 1 1023 0 = 0 ∧ otpRefusal up 1 192 0 ≠ 0 ∧
        otpRefusal up 2 32 0xFFFFFFFF = 0 ∧ otpRefusal up 2 64 1 ≠ 0 ∧ otpRefusal up 3 0 0 ≠ 0 ∧
        otpRefusal up 4 (32 * 31) 0 = 0 ∧ otpRefusal up 5 0 0 = 0 ∧ otpRefusal up 6 (8 * 127) 0 = 0) ∧
      (let s := burning { op := 1, addr := 1023, data := 0 }
       domOn s 27 = true ∧ (otpReadWord s 1023).2.2 = 0 ∧ (otpReadWord s 1023).2.1 ≠ rUncorrectable) ∧
      (domOn (burning { op := 2, addr := 64, data := 1 }) 27 = true ∧ (2 : BitVec 39) &&& otpTarget 64 1 = 0) ∧
      up.otp.command = none ∧
      (let s : State := { up with boot := { up.boot with phase := .sensing } }
       s.boot.phase = .sensing ∧ domOn s 27 = true ∧ ∀ n ∈ [1, 2, 3, 4], inProgress (senseArray s) n = false) := by
  decide +kernel

/-- Group 7 with the seal of its contents (all zero) in its seal word, so that `LOCK` takes it in MANUFACTURING. -/
theorem test_witness_lock :
    (let s := setReg up (aLc 0x000) 1
     let s : State := { s with otp := { s.otp with cells := [(32 * 7 + 31, BitVec.ofNat 39 (groupCrc s 7))] } }
     otpRefusal s 3 (32 * 7) 0) = 0 := by
  decide +kernel

theorem test_witness_TransitionsAdvanceByMarkedSteps :
    (domOn up 27 = true ∧ fld 0x5A7E0001 16 16 = 0x5A7E ∧ lcRefusal up (fld 0x5A7E0001 0 3) = 0 ∧
        lcRefusal up (fld 0x5A7E0003 0 3) ≠ 0 ∧ fld 0x5A7F0001 16 16 ≠ 0x5A7E) ∧
      (let s : State := { up with lc := { transition := some { target := 4, step := 7 } } }
       s.lc.transition = some { target := 4, step := 7 } ∧ domOn s 27 = true ∧ (7, 2) ∈ [(5, 0), (6, 1), (7, 2)]) ∧
      (let s : State := { up with lc := { transition := some { target := 3, step := 3 } } }
       s.lc.transition = some { target := 3, step := 3 }) := by
  decide +kernel

/-- In the field, with a session of the rights `r`. -/
def fielded (r : Option W32) : State := { setReg up (aLc 0x000) 2 with lc := { session := r } }

theorem test_witness_LanternCompletes :
    (lanternUp up = true ∧ bitOf (rightsNow up) 6 = true ∧ lanternUp (fielded none) = true ∧
        bitOf (rightsNow (fielded none)) 6 = false ∧ domOn up 27 = true ∧ lcMayRead up lantern 0x06C = true ∧
        lcMayWrite up lantern 0x030 = true ∧ lcMayWrite up lantern 0x02C = false) ∧
      (let dr := BitVec.ofNat 96 (0x10000000 * 2 ^ 24 + 1)
       let at4 := (dr.extractLsb' 24 40).toNat / 4 * 4
       dr.getLsbD 0 = true ∧ dr.getLsbD 1 = false ∧ target at4 = .sram ∧ lanternMay up lantern 1 = true ∧ hubOn up = true) := by
  decide +kernel


/-- A pending certificate that Lantern submitted: version 1, the given kind, state and byte 8, in a device in the field; its
P-384 key is the curve's base point (FIPS 186, P-384), its ML-DSA key zero, and the vendor digest is their SHA-384; r and s are
1; the challenge is zero, as the buffer's. -/
def basePoint : List Byte := beBytes 96 0xAA87CA22BE8B05378EB1C71EF320AD746E1D3B628BA79B9859F741E082542A385502F25DBF55296C3A545E3872760AB73617DE4A96262C6F5D9E98BF9292DC29F8F41DBD289A147CE9DA3113B5F0B8C00A60B1CE1D7E819D7A431D7C90EA0E5F
def vendorDigest : List Byte := beBytes 48 0xD9CA44E78177BFF94AF94481DF66F8A642F019AD16DBFC1D4FCD7CBF77B42B75E03530E664C74408339A10C2BD0D30F1
def certKeys : List Byte := basePoint ++ zeros 1952
def certified (kind target len : Nat) : State :=
  let s := setReg (setReg (fielded none) (aLc 0x064) (w32 len)) (aLc 0x060) 1
  let head : SMap Byte := [(0, 1), (2, BitVec.ofNat 8 kind), (3, 2)] ++ (if target = 0 then [] else [(8, BitVec.ofNat 8 target)])
  { s with lc := { certPending := true, certFrom := 1, certChallenge := some (zeros 32),
                    certBuffer := head ++ (basePoint.zipIdx.map fun e => (64 + e.2, e.1)) ++ [(2159, 1), (2207, 1)] },
           otp := { cells := (List.range 12).map fun i => (556 + i, eccWord (w32 (field vendorDigest (4 * i) 4))) } }

/-- Its signatures, as the model's free predicates judge them. -/
def signed (s : State) : Bool :=
  let b := certBytes s
  Config.ecdsaP384 (b 64 96) (hash 2 (b 0 2112)) (b 2112 96) && Config.mldsa65 (b 160 1952) (b 0 2112) (b 2208 3309)

theorem test_vendorDigest : hash 2 certKeys = vendorDigest := by decide +kernel

/-- With accepted signatures a debug certificate passes. -/
theorem test_certified_debug (h : signed (certified 1 0 5520) = true) : certCode (certified 1 0 5520) = 0 := by
  have hz : certBytes (certified 1 0 5520) 64 2048 = certKeys := by decide +kernel
  have he : checkEcdsa 2 (certBytes (certified 1 0 5520) 64 96) (certBytes (certified 1 0 5520) 2112 96) = 0 := by
    decide +kernel
  unfold signed at h
  simp only [Bool.and_eq_true] at h
  unfold certCode ecdsa384Ok
  dsimp only
  rw [hz, he, test_vendorDigest, if_neg (by decide +kernel), if_neg (by decide +kernel), if_neg (by decide +kernel),
    if_neg (by decide +kernel), if_neg (by decide +kernel), if_neg (by decide +kernel), if_neg (by decide +kernel),
    if_neg (by simp [h.1]), if_neg (by simp [h.2])]

/-- With accepted signatures a state certificate passes. -/
theorem test_certified_move (h : signed (certified 2 3 5520) = true) : certCode (certified 2 3 5520) = 0 := by
  have hz : certBytes (certified 2 3 5520) 64 2048 = certKeys := by decide +kernel
  have he : checkEcdsa 2 (certBytes (certified 2 3 5520) 64 96) (certBytes (certified 2 3 5520) 2112 96) = 0 := by
    decide +kernel
  unfold signed at h
  simp only [Bool.and_eq_true] at h
  unfold certCode ecdsa384Ok
  dsimp only
  rw [hz, he, test_vendorDigest, if_neg (by decide +kernel), if_neg (by decide +kernel), if_neg (by decide +kernel),
    if_neg (by decide +kernel), if_neg (by decide +kernel), if_neg (by decide +kernel), if_neg (by decide +kernel),
    if_neg (by simp [h.1]), if_neg (by simp [h.2])]

theorem test_witness_certificates :
    (domOn up 27 = true ∧ domOn up 28 = true ∧
        (let s : State := { up with drip := { pool := [1, 2, 3, 4, 5, 6, 7, 8] } }
         healthFailed s = false ∧ 8 ≤ s.drip.pool.length) ∧
        certHolder up = 0 ∧ fld 1 0 2 = certSource lantern ∧ fld 2 0 2 = certSource 0x300 ∧
        (let s := setReg up (aLc 0x060) 2
         certHolder s = certSource 0x300 ∧ s.lc.certPending = false ∧ s.lc.session = none)) ∧
      (∀ p ∈ [(1, 0, 5520), (2, 3, 5520), (1, 0, 0)],
        let s := certified p.1 p.2.1 p.2.2
        domOn s 27 = true ∧ s.lc.certPending = true ∧ hubOn s = true ∧ powerTarget s = 0 ∧ crank0Free s = true ∧
          leNat (certBytes s 2 1) = p.1 ∧ s.lc.session = none) ∧
      certCode (certified 1 0 0) ≠ 0 ∧ (inRom up = true ∧ up.lc.session = none ∧ hubRight 4 = false) ∧
      (hubRight 1 = true ∧ (fielded (some 1)).lc.session = some 1 ∧ domOn (fielded (some 1)) 26 = true) := by
  decide +kernel


/-! ### Witnesses: resets, domains, power states, the governor -/

/-- Held by its last monitor. -/
def tripped : State := { up with boot := { phase := .held, porstLow := false, railHolds := [2], aonUp := false } }

theorem test_witness_HoldsClearAndReleaseTheDevice :
    (up.boot.porstLow = false ∧ 2 < 3 ∧ 2 ∉ up.boot.railHolds ∧ 3 ∉ up.boot.railHolds) ∧
      (State.reset.boot.phase = .held ∧ State.reset.boot.porstLow = true ∧ State.reset.boot.railHolds = []) ∧
      (tripped.boot.phase = .held ∧ tripped.boot.porstLow = false ∧ tripped.boot.railHolds = [2]) := by
  decide +kernel

theorem test_witness_DeviceResetsRestart :
    up.boot.phase ≠ .held ∧ isHub hubB = true ∧ hubOn up = true ∧ (core (runs hubB {}) hubB).run ≠ .reset := by
  decide +kernel

/-- A domain in a state, requested or not. -/
def doming (d : Nat) (x : DomState) (r : Bool) : State := setRegB (setDom up d x) (aPwr 0x020) d r

theorem test_witness_DomainsFollowTheirRequests :
    up.pwr.seq = none ∧ ({ up with pwr := { up.pwr with seq := some { target := 1 } } } : State).pwr.seq ≠ none ∧
      (∀ d ∈ [0, 15, 29], domState (doming d .starting true) d = .starting ∧ wanted (doming d .starting true) d = true) ∧
      (∀ d ∈ [0, 26, 29], domState (doming d .stopping false) d = .stopping ∧ wanted (doming d .stopping false) d = false) ∧
      domState (doming 16 .starting false) 16 = .starting := by
  decide +kernel

/-- On the way to DEEP with nothing on, and to STANDBY with only the Hub island on, both Hub cores waiting. -/
def sinking : State := { setReg up (aPwr 0x020) 0 with pwr := { seq := some { target := 3 } } }
def dozing : State :=
  let s := setCore (setCore up hubA { run := .wait }) hubB { run := .wait }
  { setReg s (aPwr 0x020) 0x40000000 with pwr := { domains := [(30, .on)], seq := some { target := 2 } } }
/-- Asleep, with a wake event. -/
def asleep (n : Nat) : State := { dozing with pwr := { domains := [(30, .on)], current := n, wakes := [(3, 0)], hubRetention := true } }

theorem test_witness_PowerStatesAreEnteredAndLeft :
    (up.pwr.seq = none ∧ lcState up ≠ 4 ∧ up.lc.transition = none ∧ up.pwr.current = 0 ∧ debugLevel up ≠ 2) ∧
      sinking.pwr.seq ≠ none ∧ (∀ s ∈ [sinking, dozing], seqEnded (settleDomains s) (powerTarget s) = true ∧ s.pwr.latchedReq = none) ∧
      dozing.pwr.seq = some { target := 2 } ∧
      (let s := setRegB sinking (aPwr 0x008) 3 true
       regB s (aPwr 0x008) 3 = true ∧ regPair s (aPwr 0x010) ≤ nowNs s ∧ powerTarget s = 3) ∧
      (∀ n ∈ [2, 3], (3, 0) ∈ (asleep n).pwr.wakes ∧ (asleep n).pwr.seq = none ∧ (asleep n).pwr.current = n ∧
        (core (asleep n) hubA).run = .wait) := by
  decide +kernel

/-- Requests of a Spoke, a context and a lane, raised or granted. -/
def asks (w : Work) : Request := { work := w, tokens := 1, class0 := false }
def governed (g : Governor) : State := { setCore up 0 { run := .admitting } with gov := g }

theorem test_witness_TokensAreGrantedWithinTheAccounts :
    (governed { raised := [asks (.spoke 0)] }).gov.raised = [asks (.spoke 0)] ∧ up.gov.recompute = false ∧
      up.gov.reserve ≤ 24 ∧ up.gov.general ≤ generalPool up ∧
      (∀ w ∈ [Work.spoke 0, .ctx 0 1, .lane 1], parked (governed { granted := [asks w] }) ((asks w).work.wheel.getD 0) = false) ∧
      (core (governed {}) 0).run = .admitting ∧ (governed { recompute := true }).gov.recompute = true ∧
      (fld 160 0 11 ≤ ceiling up ∧ 160 ≤ fld 160 0 11) ∧ fld 159 0 11 < 160 ∧ ceiling up < fld 1121 0 11 := by
  decide +kernel

theorem test_witness_WheelClocksFollowTheirWork :
    (fld 4 (4 * (0 % 8)) 3 ≤ 4 ∧ 4 < fld 5 (4 * (0 % 8)) 3 ∧ fld 4 (4 * (0 % 8)) 3 ≠ wheelStep up 0 ∧ wheelOn up 0 = true ∧
        parked up 0 = false) ∧
      0 ∈ ({ up with pwr := { up.pwr with relocking := [0] } } : State).pwr.relocking ∧
      regB (setLock up 31 true) (aPwr (0x060 + 4 * (31 / 32))) 31 = true ∧
      (let s := setParked up 2 false
       wheelOn s 2 = true ∧ parked s 2 = false ∧ warm s 2 = false ∧ holdsWork s 2 true = false ∧ holdsWork s 2 false = false ∧
         ∀ r ∈ s.gov.raised ++ s.gov.waiting ++ s.gov.granted, r.work.wheel ≠ some 2) ∧
      (wheelOn up 31 = true ∧ parked up 31 = true ∧ base (setBase up 31 .general) 31 ≠ .none ∧
        base (setBase up 0 .general) 0 = .general ∧ base (setBase up 0 .reserve) 0 = .reserve ∧ bitOf 0x80000000 31 = true) := by
  decide +kernel

/-! ### Witnesses: platforms and flash ports -/

/-- Platform 0 present and verified, released or not, with its firmware verified; a power-good and an alert pin. -/
def platformed (r : Bool) : State :=
  let s := setRegB (setReg up (aPlat 0 0x004) 0x1) (aPlat 0 0x000) 0 true
  let s := setPlatStatus (setPlatStatus s 0 0 true) 0 8 r
  setReg (setReg s (aPctlCfg 0) 3) (aPctlCfg 11) 5

theorem test_witness_PlatformsAndPinsComplete :
    (0 = epoch up 0 ∧ 255 ≠ epoch up 3 ∧ quarantined up 0 = false ∧ quarantined (setRegB up (aPlat 0 0x018) 15 true) 0 = true) ∧
      (let s := platformed false
       regB s (aPlat 0 0x000) 0 = true ∧ released s 0 = false ∧ releaseConds s 0 = true ∧ portOn s 0 = true ∧
         s.boot.phase = .up ∧ gkShipped s 0 = false ∧ otherConds s 0 = true ∧ releaseConds up 0 = false ∧ otherConds up 0 = false) ∧
      (let s := platformed true
       let t := setPin s 0 (!pctlInvert s 0)
       pctlFunc s 0 = 3 ∧ pctlPlatform s 0 = 0 ∧ (pgPins s 0).all (pgGood t) = true ∧ (plat s 0).pgStable = false ∧
         released s 0 = true ∧ pctlFunc s 11 = 5 ∧ regB s (aPwr 0x008) (16 + 11) = false ∧
         (plat (setPlat s 0 { pgCounting := true }) 0).pgCounting = true ∧
         fld 5 0 4 ≤ 5 ∧ reg s (aPctlCfg 1) &&& 0x13F ≠ (5 : W32) &&& 0x13F ∧ released s (pctlPlatform s 1) = true ∧
         released s (fld 0x15 4 2) = false ∧
         released (platformed false) (pctlPlatform (platformed false) 1) = false) ∧
      (fld (reg up (aPlat 0 0x018)) 4 4 ≠ fld (reg up (aPlat 0 0x018)) 0 4 ∧
        (let r := reg (setReg up (aPlat 0 0x018) 0) (aPlat 0 0x018)
         fld r 4 4 = fld r 0 4)) ∧
      (let s := setReg up (aPlat 0 0x144) 1
       regB s (aPlat 0 0x148) 8 = false ∧ regF s (aPlat 0 0x144) 0 2 = 1) := by
  decide +kernel

/-- Port 0 with the given record, its platform released; the table is Hub-A's, or is static. -/
def ported (k : Port) : State := setPort (platformed true) 0 k
def static (s : State) : State := setReg s (aPort 0 0x3000) 0

theorem test_witness_HostTransactionsAreDecided :
    (portOn (ported {}) 0 = true ∧ released (ported {}) 0 = true ∧ (port (ported {}) 0).txn = none ∧
        (port (ported {}) 0).owner = none ∧ (port (ported { brake := true }) 0).brake = true ∧ released up 0 = false ∧
        contRead (ported { txn := some {} }) 0 = false ∧ staticNow (ported { txn := some {} }) 0 = false ∧
        contRead (static (ported { txn := some {} })) 0 = false ∧ staticNow (static (ported { txn := some {} })) 0 = true) ∧
      (∀ x ∈ [({ decided := true, logged := true } : HostTxn), { decided := true }, { kind := 1 }, { kind := 2 }, {},
          { ended := some 4 }],
        (port (ported { txn := some x }) 0).txn = some x) ∧
      (port (ported { owner := some 1 }) 0).owner = some 1 := by
  decide +kernel

/-- An armed audit of one block at address 0 whose table entry is in Hub SRAM, the entry as given; the host's read of the block
is open, or the bus is free for sweeps. -/
def audited (read : Bool) (e : List Byte) : State :=
  let txn := if read then some { decided := true, entry := opDefault 0x03, bank := 2 } else none
  let s := setReg (setReg (ported { pendingAudits := [(0, e)], txn }) (aPort 0 0x0AC) 1) (aPort 0 0x0A0) 0x10000000
  { setReg (setPlatStatus s 0 9 true) (aPort 0 0x080) 0x1FF with mem := (wrBytes up 0x10000000 e).mem }

theorem test_witness_BlocksAreAudited :
    let e := 1 :: zeros 31
    let s := audited true e
    portOn s 0 = true ∧ (List.replicate 4096 (0xFF : Byte)).length = 4096 ∧ released s 0 = true ∧ platStatus s 0 9 = true ∧
      auditIndex s 0 0 = some 0 ∧ deliversBlock s 0 0 = true ∧ auditEntry s 0 0 = (some e, s) ∧
      (port s 0).pendingAudits = (0, e) :: [] ∧
      (let v := setPort s 0 { port s 0 with pendingAudits := [] }
       auditEntry v 0 0 = (some e, v)) ∧
      (let s := { setPlatStatus (audited false e) 0 8 false with ticks := 100000 }
       regB s (aPort 0 0x080) 8 = true ∧ busFree s 0 = true ∧ ownBusy s 0 0 = false ∧ ownBusy s 0 1 = false ∧
         0 < min 32768 (reg s (aPort 0 0x0AC)).toNat ∧ powerTarget s < 2 ∧
         (let cmd := sweepCmd s 0 0
          sweepMay s 0 (readTime cmd) = true ∧
            (let v := emitOut (sweepCharge s 0 (readTime cmd)) (.flash cmd)
             (auditEntry v 0 0).1 = some e))) := by
  decide +kernel

/-- A block whose entry is its digest. -/
theorem test_witness_auditMatches (b : Bool) (d : List Byte) :
    auditEntry (audited b (sha256 d)) 0 0 = (some (sha256 d), audited b (sha256 d)) := by
  have a : auditEntryAddr (audited b (sha256 d)) 0 0 = 0x10000000 := by
    have e : auditEntryAddr (audited b (sha256 d)) 0 0 = auditEntryAddr (audited b []) 0 0 := rfl
    rw [e]; cases b <;> decide +kernel
  have g : dmaGranted (audited b (sha256 d)) (gkId 0) (gkId 0) 0x10000000 32 false = ([(0x10000000, 32)], none) := by
    have e : dmaGranted (audited b (sha256 d)) (gkId 0) (gkId 0) 0x10000000 32 false =
        dmaGranted (audited b []) (gkId 0) (gkId 0) 0x10000000 32 false := rfl
    rw [e]; cases b <;> decide +kernel
  have o : dmaOn (audited b (sha256 d)) 0x10000000 = true := by
    have e : dmaOn (audited b (sha256 d)) 0x10000000 = dmaOn (audited b []) 0x10000000 := rfl
    rw [e]; cases b <;> decide +kernel
  have r : rdBytes (audited b (sha256 d)) 0x10000000 32 = sha256 d := by
    have e := rdBytes_wrBytes (sha256 d) up 0x10000000
    rw [Laws.length_sha256] at e
    exact (rdBytes_congr (s := audited b (sha256 d)) (t := wrBytes up 0x10000000 (sha256 d)) 32 0x10000000 fun _ _ => rfl).trans e
  have k : bankAt 0x10000000 = none := rfl
  simp only [auditEntry, dmaRead, a, g, List.foldl, dmaReadPart, o, if_true, dmaTouch, bankOf, dmaFetch, k, Option.map, r,
    List.nil_append, Option.isSome, Bool.false_eq_true, if_false]

/-- Own command slot k of port 0 set for a command of a kind with a buffer in Hub SRAM. -/
def owning (k kind len : Nat) (busy : Bool) (st : Port) : State :=
  let s := setReg (setReg (setPlatStatus (ported st) 0 8 false) (aOwn 0 k 0x048) (w32 len)) (aOwn 0 k 0x04C) 0x103FF000
  setRegB (setReg (setRegB s (aPort 0 0x004) 2 true) (aOwn 0 k 0x040) (w32 (256 * kind))) (aOwn 0 k 0x054) 0 busy

theorem test_witness_OwnCommandsMoveFlashData :
    (∀ k ∈ [0, 1], ∀ g ∈ [(0, 4096), (1, 32), (2, 0), (3, 1)],
        let s := owning k g.1 g.2 false {}
        portOn s 0 = true ∧ ownBusy s 0 k = false ∧
          ownParamsOk (plainWrite s (aOwn 0 k 0x040) (setFld (setFld 0 8 2 g.1) 31 1 1)) 0 k = true) ∧
      (∀ g ∈ [(0, 4096), (1, 32), (2, 0), (3, 1)],
        let s := owning 1 g.1 g.2 true {}
        ownBusy s 0 1 = true ∧ ownBusy s 0 0 = false ∧ (port s 0).owner = none ∧ busFree s 0 = true ∧ powerTarget s < 2 ∧
          ownBuf s 0 1 + ownLen s 0 1 ≤ 0x10400000 ∧ hubOn s = true ∧ bankOf (ownBuf s 0 1) = none ∧ ownKind s 0 1 = g.1) ∧
      (let s := setReg (owning 0 3 1 true { owner := some 0 }) (aOwn 0 0 0x040) 0x10300
       ownKind s 0 0 = 3 ∧ (port s 0).owner = some 0 ∧ (1 : Byte).toNat &&& regF s (aOwn 0 0 0x040) 16 8 ≠ 0 ∧
         (2 : Byte).toNat &&& regF s (aOwn 0 0 0x040) 16 8 = 0) ∧
      (let s := setReg (setReg (ported {}) (aPctlCfg 3) 4) (aPort 0 0x004) 0x308
       quietPin s 0 = some 3 ∧ regB s (aPort 0 0x004) 3 = true ∧ regB (setRegB s (aPort 0 0x008) 1 true) (aPort 0 0x008) 1 = true ∧
         (port s 0).owner = none) ∧
      (let s := owning 0 1 33 true {}
       ownBusy s 0 0 = true ∧ ownBusy s 0 1 = false ∧ (port s 0).owner = none ∧ busFree s 0 = true ∧ powerTarget s < 2 ∧
         ownParamsOk s 0 0 = false) := by
  decide +kernel

/-- Gatekeeper 0 runs and owns the table; the shipped program's state and an image with a window of tag 7. -/
def keeping (g : GkProgram) : State :=
  let k : Port := { gk := g, scratch := [(0x9400, 1), (0x9409, 7), (0xD010, 100)] }
  static (setCore (setPort (platformed true) 0 k) (gkId 0) { run := .running })

theorem test_witness_RuleTablesAndGatekeepersComplete :
    (portOn up 0 = true ∧ hubA ≠ gkId 0 ∧ tableOwner up 0 = hubA ∧ portMayWrite (gkId 0) 0 0x3008 = true) ∧
      (let s := setRegB up (aPort 0 0x3004) 1 true
       regB s (aPort 0 0x3004) 1 = true ∧ (port s 0).txn = none ∧ (port s 0).brake = false ∧ copyBusy s 0 = false ∧
         (port s 0).gk.reply = none) ∧
      copyBusy (setRegB up (aPort 0 0x3004) 2 true) 0 = true ∧
      (coreStopped (runs (gkId 0) {}) (gkId 0) = false ∧ gkShipped (runs (gkId 0) {}) 0 = false ∧ coreStopped up (gkId 0) = true) ∧
      (∀ g ∈ [({} : GkProgram), { lockdown := true }, { lockdown := true, window := some 7 }],
        gkReady (keeping g) 0 = true ∧ tableOwner (keeping g) 0 = gkId 0 ∧ (port (keeping g) 0).gk = g) ∧
      tagUsed (keeping {}) 0 7 = true ∧
      (let s := setRegB (keeping { reply := some 2, waiting := true }) (aPort 0 0x3004) 1 true
       regB s (aPort 0 0x3004) 1 = true ∧ (port s 0).txn = none ∧ (port s 0).brake = false ∧ copyBusy s 0 = false ∧
         gkRuns s 0 = true ∧ gkShipped s 0 = true ∧ (port s 0).gk.todo = [] ∧ (port s 0).mail = false ∧
         (port s 0).gk.reply ≠ none) ∧
      (let s := keeping { waiting := true, window := some 7 }
       gkRuns s 0 = true ∧ gkShipped s 0 = true ∧ (port s 0).gk.waiting = true ∧ (port s 0).gk.window ≠ none) ∧
      gkReady up 0 = false := by
  decide +kernel

/-! ### Witnesses: PCIe, I3C, Drip -/

theorem test_witness_PcieRequestsAreAnswered :
    (pcieOn up = true ∧ bootDone up = false ∧ cfgReady up = false ∧ cfgReady (setRegB up (aHost 0x000) 1 true) = true) ∧
      (func up 0).frozen = false ∧ (0x00 : BitVec 8).toNat ∉ spdmCodes ∧
      (let s : State := { up with fabric := { spdm := true, ideKeys := [(8, 0)] } }
       s.fabric.spdm = true ∧ hasKey s 8 = true) := by
  decide +kernel

/-- The I3C target with an address or none, a message to send or none, its receive buffer full or not. -/
def i3cSet (assigned tx full : Bool) : State :=
  setRegB (setRegB (setRegB up (aI3c 0x004) 31 assigned) (aI3c 0x014) 31 tx) (aI3c 0x010) 31 full

theorem test_witness_I3cCommandsComplete :
    (∀ a ∈ [true, false], ∀ b ∈ [true, false],
        let s := i3cSet a b b
        i3cUp s = true ∧ i3cAssigned s = a ∧ i3cTxGo s = b ∧ i3cRxFull s = b ∧ s.i3c.maxWrite ≤ 256) ∧
      (1 : BitVec 8).getLsbD 0 = true ∧ i3cUp State.reset = false ∧ hubOn up = true := by
  decide +kernel

/-- Hub-B serves I3C; a packet of a vendor-defined message, its PEC last. -/
def i3cServing : State := setCore (setRegB (i3cSet true false false) (aI3c 0x004) 8 true) hubB { run := .running }
def i3cData : List Byte :=
  let body : List Byte := [1, 0, 8, 0xC8, 0x7E, 0, 0] ++ [1] ++ zeros 15
  body ++ [pec (BitVec.ofNat 8 (2 * i3cAddress i3cServing) :: body)]

theorem test_witness_i3cPackets :
    i3cUp i3cServing = true ∧ i3cRxFull i3cServing = false ∧ rcvServer i3cServing ≠ 0 ∧
      (let t := i3cWriteOp i3cServing i3cData
       let body := i3cData.take 23
       i3cPacket t = some (body.take 4, body.drop 4) ∧ ((body.take 4).getD 3 0).getLsbD 7 = true ∧
         field (body.drop 4) 0 1 % 128 = 0x7E ∧ chunkWaits i3cServing 1 (slice (body.drop 4) 3 16) = false) ∧
      i3cPacket (i3cWriteOp i3cServing [0]) = none := by
  decide +kernel

theorem test_witness_EntropyComesFromThePool :
    (domOn up 28 = true ∧ isHub hubB = true ∧ (reg up (aDrip 0x00C)).toNat < 2 ^ 32 - 1) ∧
      (let s : State := { up with drip := { pool := [5], testing := true } }
       s.drip.testing = true ∧ healthFailed s = false ∧ s.drip.pool = [5]) ∧
      healthFailed (setRegB up (aDrip 0x004) 31 true) = true := by
  decide +kernel


/-! ### Witnesses: the queue fabric -/

/-- Function 0 is on with 8 vectors and Wheel 0 takes jobs; queue 5 is set for class 2 on Wheel 0, in a state. -/
def fabric0 (q : Nat) : State :=
  let s := setReg (setFState (setReg up (aFunc 0 + 4) 0x00080000) 0 stOn) (aQf 0x010) 1
  setQState (setQw (setQw s 5 8 1) 5 4 0x04420000) 5 q

/-- Queue 5 with fetched entries and `n` entries in flight. -/
def queued (q n : Nat) (es : List Entry) : State := setFetched (setQf (fabric0 q) 5 11 16 8 n) 5 es

/-- The Hub core's queue group mask names group 0. -/
def aliasing : State := setHub (fabric0 stOn) hubB { queueGroupMask := 1 }

theorem test_witness_QueuesFollowTheirEnables :
    (qfOn up = true ∧ isHub hubB = true ∧ queueExists up 5 = true ∧ fState up 255 = stOff ∧
        fld 0x0800000 16 12 ≠ 0 ∧ fld 0xFFF 16 12 = 0 ∧ fld 0xFFF 0 12 ≤ 4096) ∧
      (let s := fabric0 stOff
       qState s 5 = stOff ∧ enableOk (setQf s 5 4 31 1 1) 5 = true ∧ qState up 6 = stOff ∧
         enableOk (setQf up 6 4 31 1 1) 6 = false) ∧
      (qState (fabric0 stOn) 5 = stOn ∧ fetched (fabric0 stOn) 5 = []) ∧
      (qState (fabric0 stStopping) 5 = stStopping ∧ qInflight (fabric0 stStopping) 5 = 0) ∧
      (0x15C < 0x2000 ∧ 0x15C % 64 = 0x1C ∧ fld 3 0 8 ≠ 0 ∧ 5 % 128 = 0x15C / 64) ∧
      (let s := setRegB (fabric0 stOn) (aQf 0x004) 0 true
       domOn s 17 = true ∧ bootDone s = true ∧ (func s 0).frozen = false ∧ liveQueues s = [5] ∧ qFunc s 5 = 0 ∧
         qDbIndex s 5 = 0 ∧ qInternal s 5 = false ∧ (0x800F : W32) &&& 0x70007000 = 0 ∧ bitOf 0x800F 15 = true ∧
         fld 0x800F 0 12 < 2 ^ qSqLog s 5 ∧ bitOf 0x800F 31 = false ∧ ∀ o ∈ liveQueues s, qFunc s o ≠ 0 ∨ qDbIndex s o ≠ 1) := by
  decide +kernel

theorem test_witness_aliasMask : ∀ g, (hub aliasing hubB).queueGroupMask.getLsbD g = decide (g = 5 / 128) := by
  intro g
  have h : (hub aliasing hubB).queueGroupMask = 1#256 := by decide +kernel
  rw [h, BitVec.getLsbD_one]
  simp

/-- An entry with a payload of 16 bytes, its job of a service on Spoke 0, and the bank of Spoke 0's job buffer open to the fabric and to that Spoke. -/
def entry1 : Entry := { entry0 with payloadLen := 16, raw := zeros 64 }
def jobBank : Nat := (bankOf (jobBuffer 0)).getD 0
def opened (s : State) : State := setReg s (ownerAddr jobBank) 0x14200

/-- Queue 5 is ready to place entry1 on Spoke 0. -/
def placing : State :=
  opened (setCore (setQw (queued stOn 1 [{ entry1 with payload := some (zeros 16) }]) 5 12 9) 0 { run := .waitJob 4 })

/-- Spoke 0 runs a job of a service, its queue with one entry in flight. -/
def working (j : Job) : State := opened (setJob (setCore (queued stOn 1 []) 0 { run := .running }) 0 (some j))

theorem test_witness_JobsComplete :
    (mayFetch (setQf (fabric0 stOn) 5 9 16 12 1) 5 = true ∧ entryOk (zeros 64) = true) ∧
      (fetched (queued stOn 1 [entry1]) 5 = [entry1] ∧ entry1.payload = none ∧
        (let b := leBytes 4 16 ++ zeros 12
         entry1.payloadLen ≤ b.length ∧ field (b.take entry1.payloadLen) 0 4 = entry1.payloadLen ∧
           field (b.take entry1.payloadLen) 6 2 = 0)) ∧
      (let s := placing
       let e := { entry1 with payload := some (zeros 16) }
       fetched s 5 = [e] ∧ qfOn s = true ∧ jobReady s 5 = true ∧ outranked s 5 = false ∧ spokeAllowed s 5 0 = true ∧
         jobCost e ≤ (qw s 5 12).toNat ∧ bankOf (jobBuffer 0) = some jobBank ∧ bankGrants s qfDma jobBank true false = true ∧ bankOn s jobBank = true ∧
         wiping s jobBank = false ∧ qClass s 5 ≠ 0 ∧ e.raw.length = 64) ∧
      (let s := working job0
       qfOn s = true ∧ jobOf s 0 = some job0 ∧ bankGrants s qfDma jobBank true false = true ∧ bankOn s jobBank = true ∧ wiping s jobBank = false ∧
         job0.timedOut = false) ∧
      (let s := working { job0 with ended := some 0 }
       jobRec s 0 = some { job0 with ended := some 0 } ∧ wipesPending s 0 = false ∧ 0 ∉ s.fabric.wiping ∧ 0 < qInflight s 5) ∧
      (let s : State := { working job0 with fabric := { (working job0).fabric with wiping := [0] } }
       jobRec s 0 = some job0 ∧ 0 ∈ s.fabric.wiping) := by
  decide +kernel

/-- Hub-B runs, the admin queue's head is an entry of the operation, and the running set has no parts. -/
def admin (op q : Nat) : State :=
  { setFetched (setCore (fabric0 q) hubB { run := .running }) 0 [{ entry0 with op }] with
    flash := (List.range 4).map fun i => (slotBase 0 + 16 + i, 0) }
/-- The context words of a queue for verification on Wheel 0. -/
def createWords : List W32 := [0, 0, 0, 0, 0x04420000, 0, 0x00010001, 0, 1]

theorem test_witness_AdminEntriesComplete :
    (∀ op ∈ [1, 2, 3, 4], hubBUp (admin op stOn) = true ∧ fetched (admin op stOn) 0 = [{ entry0 with op }]) ∧
      (let s := admin 1 stOn
       serviceOk s createWords = true ∧ queueExists s 6 = true ∧ qState s 6 = stOff ∧
         qState (ctxWriteOp ([0, 1, 2, 3, 5, 6, 7, 8].foldl (fun s i => ctxWriteOp s hubB 6 i (createWords.getD i 0)) s) hubB 6 4
           (createWords.getD 4 0 ||| 0x80000000)) 6 = stOn) ∧
      (let s := admin 2 stOn
       queueExists s 5 = true ∧ qState s 5 = stOn ∧ fetched s 5 = []) ∧
      (fld 7 0 8 ≠ 0 ∧ (2 : BitVec 256).getLsbD 1 = true ∧ queueExists (admin 3 stOn) (128 * 1) = true) ∧
      fState (admin 4 stOn) 1 = stOff := by
  decide +kernel


/-! ### Witnesses: the trust services -/

/-- Spoke 0 runs a job of a service and operation with `ARGS` and a body; Hub-B runs, Drip holds words, group 0 has its ticket keys,
a policy for slot 20, a key there, a set 1 and an appraisal record. -/
def servedJob (service op : Nat) (body : Option (List Byte)) : Job :=
  { job0 with service, entry := { entry1 with op, payloadLen := match body with
    | none => 0
    | some b => 8 + b.length } }
def key20 : Slot := { state := .loaded, head := 20, attr := mkAttr 4 0 1 (useCrank + useDerive) 6 ||| 0x400, key := zeros 32 }
def binding0 : List Byte := leBytes 32 0xA4FB41292EC92F5B26ACC9039950DD852B14F1DFB7B854B6142A987B820CC602
/-- A body behind its payload header. -/
def framedBody : Option (List Byte) → List Byte
  | none => []
  | some b => leBytes 4 (8 + b.length) ++ [1, 0, 0, 0] ++ b
/-- Bytes from an address on, as memory holds them. -/
def cells (a : Nat) (bs : List Byte) : List Host.Cell := (bs.zipIdx a).filterMap fun e => if e.1 = 0 then none else some (e.2, e.1)
def servedMem (args : List Byte) (body : Option (List Byte)) : List Host.Cell :=
  cells (jobBuffer 0 + 32) args ++ cells (jobBuffer 0 + 128) (framedBody body) ++ cells (recordAddr 0 0 + 16) [1] ++
    cells (recordAddr 0 0 + 88) binding0 ++ cells setsBase (leBytes 4 1 ++ zeros 4 ++ leBytes 3 16384 ++ leBytes 3 112) ++
    cells (setsBase + 16384) (leBytes 4 0x5346525A ++ leBytes 4 1 ++ [0, 0, 1, 0, 1])
def served (service op : Nat) (args : List Byte) (body : Option (List Byte)) : State :=
  let s := setCore (working (servedJob service op body)) hubB { run := .running }
  let s := setReg (setReg s (shareAddr 24) 1) (shareAddr 56) 1
  let s := setSlot (setSlot (setSlot s 16 { state := .loaded, head := 16, key := zeros 48 }) 17
    { state := .loaded, head := 17, key := zeros 32 }) 20 key20
  let s := { s with drip := { pool := List.replicate 8 7 },
                    svc := { ticketKeys := [(0, some (16, 17))], policies := [(0, [{ slot := 20, maxAge := 1, refsetId := 0 }])] } }
  { s with mem := servedMem args body }

/-- Reads of open banks that run and are not wiped leave everything as it was. -/
theorem test_reach (s : State) (c a n : Nat)
    (h : (dmaParts a n).all (fun e => (bankOf e.1).all fun b => bankOn s b && bankGrants s c b false false && !wiping s b) = true) :
    bankReach s c a n = s := by
  unfold bankReach
  generalize dmaParts a n = ps at h ⊢
  induction ps with
  | nil => rfl
  | cons e es ih =>
    simp only [List.all_cons, Bool.and_eq_true] at h
    rw [List.foldl_cons]
    have one : (fun (s : State) (e : Nat × Nat) =>
        match bankOf e.1 with
        | some b => if !bankOn s b then offAccess s c e.1 else if bankGrants s c b false false then settleBank s b
            else violate s c vBank e.1
        | none => s) s e = s := by
      cases hb : bankOf e.1 with
      | none => simp only [hb]
      | some b =>
        have k := h.1
        rw [hb] at k
        simp only [Option.all_some, Bool.and_eq_true, Bool.not_eq_true'] at k
        simp [hb, k.1.1, k.1.2, settleBank, bankWipeDoneOp, k.2]
    exact (congrArg (fun t => List.foldl _ t es) one).trans (ih h.2)

/-- A read inside one open bank. -/
theorem test_bankBytes (s : State) (m a n b : Nat) (p : dmaParts a n = [(a, n)]) (h : bankOf a = some b)
    (g : (bankOn s b && bankGrants s m b false false) = true) : bankBytes s m a n = rdBytes s a n := by
  unfold bankBytes
  rw [p]
  simp only [List.flatMap_cons, List.flatMap_nil, List.append_nil, h, g, if_true]

set_option maxRecDepth 100000 in
theorem test_reachSet (s : State) (c id g : Nat)
    (h : (dmaParts setsBase 16384).all (fun e => (bankOf e.1).all fun b => bankOn s b && bankGrants s c b false false && !wiping s b) =
      true)
    (k : (findEntry s c id g).all (fun d => (dmaParts (setsBase + dirOffset d) (dirLength d)).all fun e => (bankOf e.1).all fun b =>
      bankOn s b && bankGrants s c b false false && !wiping s b) = true) :
    reachSet s c id g = s := by
  unfold reachSet
  rw [test_reach _ _ _ _ h]
  dsimp only
  cases hd : findEntry s c id g with
  | none => rfl
  | some d =>
    rw [hd, Option.all_some] at k
    exact test_reach _ _ _ _ k

/-- The job that a service takes. -/
theorem test_serviceRuns (service op : Nat) (args : List Byte) (body : Option (List Byte)) (used : List (Nat × Nat)) (b : Bool)
    (h : jobOf (served service op args body) 0 = some (servedJob service op body) ∧
      (core (served service op args body) 0).run = .running ∧ (core (served service op args body) 0).frozen = false ∧
      ((servedJob service op body).entry.payloadLen ≠ 0 →
        field (jobPayload (served service op args body) 0 (servedJob service op body)) 4 2 = 1) ∧
      argsZero (jobArgs (served service op args body) 0) used = true ∧
      decide ((servedJob service op body).entry.payloadLen ≠ 0) = b ∧
      (dmaParts (jobBuffer 0 + 32) (96 + (servedJob service op body).entry.payloadLen)).all (fun e => (bankOf e.1).all fun b =>
        bankOn (served service op args body) b && bankGrants (served service op args body) 0 b false false &&
          !wiping (served service op args body) b) = true) :
    ServiceRuns (served service op args body) 0 service op b used (servedJob service op body) :=
  ⟨h.1, rfl, h.2.1, h.2.2.1, rfl, rfl, test_reach _ _ _ _ h.2.2.2.2.2.2, h.2.2.2.1, h.2.2.2.2.1, h.2.2.2.2.2.1⟩

set_option maxRecDepth 100000

/-- An Ed25519 request whose key and signature decode, and one whose key does not. -/
def verifyBody (k : Byte) : List Byte := leBytes 2 32 ++ leBytes 2 64 ++ zeros 4 ++ (k :: List.replicate 31 (if k = 1 then 0 else 0xFF)) ++ (1 :: zeros 63)

theorem test_witness_verify :
    (∀ k ∈ [(1 : Byte), 0xFF], ServiceRuns (served 1 1 [3, 0] (some (verifyBody k))) 0 1 1 true [(0, 2)]
        (servedJob 1 1 (some (verifyBody k)))) ∧
      algModeOk 3 0 = true ∧
      (let body := verifyBody 1
       field body 0 2 = algKeyLen 3 ∧ field body 2 2 = algSigLen 3 ∧
         body.length = 8 + algKeyLen 3 + algSigLen 3 + field body 4 4 ∧ inputCheck 3 (slice body 8 32) (slice body 40 64) = 0) ∧
      inputCheck 3 (slice (verifyBody 0xFF) 8 32) (slice (verifyBody 0xFF) 40 64) ≠ 0 := by
  refine ⟨?_, by decide +kernel⟩
  intro k hk
  have : k = 1 ∨ k = 0xFF := by simpa using hk
  rcases this with rfl | rfl <;> exact test_serviceRuns _ _ _ _ _ _ (by decide +kernel)

/-- Ed25519 evidence with SHA-256 registers, one of them, and an empty log. -/
def evidenceBody : List Byte :=
  [3, 1] ++ leBytes 2 32 ++ leBytes 2 64 ++ zeros 2 ++ zeros 32 ++ (1 :: zeros 31) ++
    (leBytes 4 0x31535A56 ++ zeros 80 ++ [1, 1, 0, 0] ++ zeros 32) ++ (1 :: zeros 63)

theorem test_witness_appraise :
    let s := served 2 1 (leBytes 4 1 ++ [0xFF, 0xFF]) (some evidenceBody)
    let j := servedJob 2 1 (some evidenceBody)
    ServiceRuns s 0 2 1 true [(0, 6)] j ∧ field (jobArgs s 0) 4 2 = 0xFFFF ∧
      reachSet s 0 (field (jobArgs s 0) 0 4) j.group = s ∧
      (match evidenceOf (jobBody s 0 j), findSet s 0 (field (jobArgs s 0) 0 4) j.group with
        | .inl e, some set => decide (field set 10 1 = e.meas ∧ inputCheck e.alg e.key e.sig = 0)
        | _, _ => false) = true := by
  refine ⟨test_serviceRuns _ _ _ _ _ _ (by decide +kernel), by decide +kernel,
    test_reachSet _ _ _ _ (by decide +kernel) (by decide +kernel), by decide +kernel⟩

theorem test_witness_setServices :
    (let s := served 2 2 [1, 0, 0, 0, 0, 1] (some [1])
     ServiceRuns s 0 2 2 true [(0, 6), (8, 4)] (servedJob 2 2 (some [1])) ∧ (servedJob 2 2 (some [1])).func = 0 ∧
       field (jobArgs s 0) 5 1 = 1 ∧ hubBUp s = true ∧ field (jobArgs s 0) 8 4 = 0 ∧
       (jobBody s 0 (servedJob 2 2 (some [1]))).length ≤ 65536) ∧
      (let s := served 2 3 [] (some (zeros 8))
       let j := servedJob 2 3 (some (zeros 8))
       ServiceRuns s 0 2 3 true [] j ∧ policyOf (jobBody s 0 j) = .inl [] ∧ hubBUp s = true) ∧
      (ServiceRuns (served 2 4 [] none) 0 2 4 false [] (servedJob 2 4 none) ∧
        ticketKeysOf (served 2 4 [] none) 0 = some (zeros 48, zeros 32)) ∧
      (ServiceRuns (served 2 5 [] none) 0 2 5 false [(0, 2)] (servedJob 2 5 none) ∧
        (recordOf (served 2 5 [] none) 0 0 0).isSome = true) := by
  refine ⟨⟨?_, ?_⟩, ⟨?_, ?_⟩, ⟨?_, ?_⟩, ⟨?_, ?_⟩⟩
  all_goals first
    | exact test_serviceRuns _ _ _ _ _ _ (by decide +kernel)
    | decide +kernel

/-- The record of the ticket and of its status is read as it stands. -/
theorem test_reachRecord : ∀ s ∈ [served 2 5 [] none, served 3 1 [] none], reachRecord s 0 0 0 = s := by
  intro s hs
  refine test_reach _ _ _ _ ?_
  have : s = served 2 5 [] none ∨ s = served 3 1 [] none := by simpa using hs
  rcases this with rfl | rfl <;> decide +kernel

/-- The recipient's keys of a release: a zero ML-KEM key, whose words are all below the modulus, and the base point. -/
def recipient : List Byte := zeros 1184 ++ (9 :: zeros 31)

theorem test_witness_signingServices :
    (let s := served 3 1 [] none
     ServiceRuns s 0 3 1 false [(0, 2), (16, 16)] (servedJob 3 1 none) ∧ field (jobArgs s 0) 0 2 ≤ 255 ∧
       (freshRecord s 0 0 0 1 (slice (jobArgs s 0) 16 16)).isSome = true ∧
       ticketKeysOf s 0 = some (zeros 48, zeros 32) ∧ hubBUp s = true ∧ (dripTake s 8).isSome = true) ∧
      (let s := served 5 1 ([20, 0, 1, 32] ++ leBytes 4 (mkAttr 4 0 1 useCrank 1 ||| 0x400).toNat) (some (zeros 4))
       let a := w32 (field (jobArgs s 0) 4 4)
       ServiceRuns s 0 5 1 true [(0, 8)] (servedJob 5 1 (some (zeros 4))) ∧ keyUsable s job0 20 useDerive = true ∧
         attrOk s 0 a = true ∧ attrGroup a = true ∧ attrOwner a % 256 = 0 ∧ attrLen a = 32 ∧ 32 ≤ algDigest 1 ∧
         attrLifetime a = 1 ∧ (findRun s 1).isSome = true) ∧
      (let s := served 6 1 [20, 0, 3, 0] (some [1])
       ServiceRuns s 0 6 1 true [(0, 4)] (servedJob 6 1 (some [1])) ∧ algModeOk 3 0 = true ∧
         keyUsable s job0 20 useCrank = true ∧ attrType (slot s 20).attr = signType 3 ∧ signType 3 ≠ 9 ∧ hubBUp s = true ∧
         (dripTake s 8).isSome = true) := by
  refine ⟨⟨?_, ?_⟩, ⟨?_, ?_⟩, ⟨?_, ?_⟩⟩
  all_goals first
    | exact test_serviceRuns _ _ _ _ _ _ (by decide +kernel)
    | decide +kernel

theorem test_binding : sha256 recipient = binding0 := by decide +kernel

theorem test_field_zeros (n o k : Nat) : field (zeros n) o k = 0 := by
  have h : ∀ m, leNat (List.replicate m (0 : Byte)) = 0 := fun m => by
    induction m with
    | zero => rfl
    | succ m ih => rw [List.replicate_succ, leNat, ih]; rfl
  rw [field, slice, fitBytes, zeros, List.drop_replicate, zeros, List.take_replicate, List.replicate_append_replicate]
  exact h _

theorem test_recipient : checkRecipient (zeros 1184) (9 :: zeros 31) = 0 := by
  simp only [checkRecipient, test_field_zeros]
  decide +kernel

theorem test_recipientParts : slice recipient 0 1184 = zeros 1184 ∧ slice recipient 1184 32 = 9 :: zeros 31 := by
  decide +kernel

/-- A state with a run of bytes stored, all else as it was. -/
def storing (t : State) (a : Nat) (bs : List Byte) : State := { t with mem := (wrBytes t a bs).mem }

theorem test_storing (t : State) (a : Nat) (bs : List Byte) : rdBytes (storing t a bs) a bs.length = bs :=
  (rdBytes_congr (s := storing t a bs) (t := wrBytes t a bs) _ _ fun _ _ => rfl).trans (rdBytes_wrBytes bs t a)

theorem test_storingElse (t : State) (b n a k : Nat) (bs : List Byte) (l : bs.length = n) (h : a + k ≤ b ∨ b + n ≤ a) :
    rdBytes (storing t b bs) a k = rdBytes t a k :=
  rdBytes_congr (s := storing t b bs) (t := t) _ _ fun i hi => rdByte_wrBytes_other bs t (by omega)

theorem test_storingFields (t : State) (a : Nat) (bs : List Byte) (j : Job) :
    jobOf (storing t a bs) 0 = jobOf t 0 ∧ core (storing t a bs) 0 = core t 0 ∧ (storing t a bs).svc = t.svc ∧
      keyUsable (storing t a bs) j 20 (useCrank ||| useDerive) = keyUsable t j 20 (useCrank ||| useDerive) ∧
      slot (storing t a bs) 20 = slot t 20 ∧ hubBUp (storing t a bs) = hubBUp t ∧ nowNs (storing t a bs) = nowNs t := by
  refine ⟨rfl, rfl, rfl, rfl, rfl, rfl, rfl⟩

theorem test_storingDrip (t : State) (a : Nat) (bs : List Byte) :
    (dripTake (storing t a bs) 8).isSome = (dripTake t 8).isSome := by
  unfold dripTake
  show (if !domOn t 28 || healthFailed t then none else if 8 ≤ t.drip.pool.length then _ else if dripRefills t then _ else none :
    Option (List W32 × State)).isSome = _
  split
  · rfl
  · split
    · rfl
    · split <;> rfl

/-- The state of a release: as `served`, the payload written last. -/
def releaseJob : Job := servedJob 4 1 (some recipient)
def releaseBody : List Byte := framedBody (some recipient)
def releasing0 : State := { served 4 1 [0, 0, 20, 0] (some recipient) with mem := servedMem [0, 0, 20, 0] none }
def releasing : State := storing releasing0 (jobBuffer 0 + 128) releaseBody

theorem test_storingBanks (t : State) (a : Nat) (bs : List Byte) (b : Nat) :
    (bankOn (storing t a bs) b && bankGrants (storing t a bs) 0 b false false) = (bankOn t b && bankGrants t 0 b false false) :=
  rfl

theorem test_releaseLength : releaseBody.length = 1224 ∧ releaseJob.entry.payloadLen = 1224 := by decide +kernel

theorem test_releasingOpen : (bankOn releasing0 jobBank && bankGrants releasing0 0 jobBank false false) = true ∧
    (bankOn releasing0 24 && bankGrants releasing0 0 24 false false) = true := by
  decide +kernel

theorem test_releasingPayload : jobPayload releasing 0 releaseJob = releaseBody := by
  have h := test_storing releasing0 (jobBuffer 0 + 128) releaseBody
  rw [test_releaseLength.1] at h
  rw [jobPayload, test_releaseLength.2, releasing, test_bankBytes _ _ _ _ jobBank (by decide +kernel) (by decide +kernel)
    ((test_storingBanks _ _ _ _).trans test_releasingOpen.1)]
  exact h

theorem test_releasingArgs : jobArgs releasing 0 = jobArgs releasing0 0 := by
  have q : dmaParts (jobBuffer 0 + 32) 32 = [(jobBuffer 0 + 32, 32)] := by decide +kernel
  have o : bankOf (jobBuffer 0 + 32) = some jobBank := by decide +kernel
  rw [jobArgs, jobArgs, releasing, test_bankBytes _ _ _ _ jobBank q o ((test_storingBanks _ _ _ _).trans test_releasingOpen.1),
    test_bankBytes _ _ _ _ jobBank q o test_releasingOpen.1]
  exact test_storingElse _ _ _ _ _ _ test_releaseLength.1 (by decide +kernel)

theorem test_releasingRecord : recordOf releasing 0 0 0 = recordOf releasing0 0 0 0 := by
  have q : dmaParts (recordAddr 0 0) 128 = [(recordAddr 0 0, 128)] := by decide +kernel
  have o : bankOf (recordAddr 0 0) = some 24 := by decide +kernel
  unfold recordOf releasing
  rw [test_bankBytes _ _ _ _ 24 q o ((test_storingBanks _ _ _ _).trans test_releasingOpen.2),
    test_bankBytes _ _ _ _ 24 q o test_releasingOpen.2, test_storingElse _ _ _ _ _ _ test_releaseLength.1 (by decide +kernel)]

theorem test_releasingFresh (w : List Byte) : freshRecord releasing 0 0 0 1 w = freshRecord releasing0 0 0 0 1 w := by
  obtain ⟨f1, f2, f3, f4, f5, f6, f7⟩ := test_storingFields releasing0 (jobBuffer 0 + 128) releaseBody releaseJob
  unfold freshRecord
  rw [test_releasingRecord]
  unfold releasing
  rw [f7]

theorem test_witness_keyRelease :
    ServiceRuns releasing 0 4 1 true [(0, 4), (16, 16)] releaseJob ∧ jobBody releasing 0 releaseJob = recipient ∧
      reachRecord releasing 0 0 0 = releasing ∧
      policyFor (smGet releasing.svc.policies 0 []) 20 (field ((recordOf releasing 0 0 0).getD []) 12 4) =
        some { slot := 20, maxAge := 1, refsetId := 0 } ∧
      (freshRecord releasing 0 0 0 1 (slice (jobArgs releasing 0) 16 16)).map (fun rec => (field rec 8 1, slice rec 88 32)) =
        some (0, binding0) ∧
      binding0 ≠ zeros 32 ∧ keyUsable releasing releaseJob 20 (useCrank ||| useDerive) = true ∧
      (slot releasing 20).key.length = 32 ∧ hubBUp releasing = true ∧ (dripTake releasing 8).isSome = true := by
  obtain ⟨f1, f2, f3, f4, f5, f6, f7⟩ := test_storingFields releasing0 (jobBuffer 0 + 128) releaseBody releaseJob
  refine ⟨⟨?_, by decide +kernel, ?_, ?_, by decide +kernel, by decide +kernel, ?_, ?_, ?_, by decide +kernel⟩, ?_, ?_, ?_, ?_,
    by decide +kernel, ?_, ?_, ?_, ?_⟩
  · exact f1.trans (by decide +kernel)
  · exact (congrArg Core.run f2).trans (by decide +kernel)
  · exact (congrArg Core.frozen f2).trans (by decide +kernel)
  · rw [test_releaseLength.2]; exact test_reach _ _ _ _ (by decide +kernel)
  · rw [test_releasingPayload]; decide +kernel
  · rw [test_releasingArgs]; decide +kernel
  · unfold jobBody; rw [test_releasingPayload]; decide +kernel
  · exact test_reach _ _ _ _ (by decide +kernel)
  · rw [test_releasingRecord]; unfold releasing; rw [f3]; decide +kernel
  · rw [test_releasingFresh, test_releasingArgs]; decide +kernel
  · exact f4.trans (by decide +kernel)
  · exact (congrArg (fun k : Slot => k.key.length) f5).trans (by decide +kernel)
  · exact f6.trans (by decide +kernel)
  · exact (test_storingDrip _ _ _).trans (by decide +kernel)

theorem test_witness_serviceEnd :
    let s := working job0
    jobOf s 0 = some job0 ∧ bankOf (jobBuffer 0) = some jobBank ∧ bankOn s jobBank = true ∧ bankGrants s qfDma jobBank true false = true ∧
      wiping s jobBank = false ∧ job0.sign = false := by
  decide +kernel


/-! ### Witnesses: chain ports, time, membership -/

/-- Port 0 runs its link in a mode, up or not; it receives into bank 8, of which it is the owner, and Hub-B runs. -/
def linked (mode : Nat) (isUp : Bool) (k : ChainPort) : State :=
  let s := setCport (setCore up hubB { run := .running }) 0 k
  let s := setReg (setReg s (aChain 0 0x000) (w32 mode)) (aChain 0 0x004) (5 + 2 * w32 (b2n isUp))
  setReg (setReg (setReg s (aChain 0 0x038) 4) (aChain 0 0x030 + 4) 1) (aChain 0 0x030) 0x200000

/-- The bank that the ring lies in is port 0's. -/
def ringed (s : State) : State := setReg s (ownerAddr 8) 0x410

/-- A frame of another member for the neighbour at the other end. -/
def frame (t : BitVec 8) (payload : List Byte) : Frame :=
  { ftype := t, dirUp := false, hops := 0, seq := 1, src := 5, dst := 0, pelotonId := 0, payload }

theorem test_witness_links :
    (isHub hubB = true ∧ chainOn up = true ∧ (cport up 0).frozen = false ∧ fld 1 0 2 ≠ 3 ∧ fld 1 0 2 ≠ linkMode up 0) ∧
      (let s := setReg (linked 1 false { delays := 3 }) (aChain 0 0x2010) 1
       portRuns s 0 = true ∧ blockLock s 0 = true ∧ regB s (aChain 0 0x004) 2 = true ∧ pelotonId s ≠ 0 ∧ 3 ≤ (cport s 0).delays ∧
         linkIsUp s 0 = false ∧ linkMode s 0 = 1 ∧ (frame 0x01 []).pelotonId ≠ pelotonId s) ∧
      (let s := linked 1 false {}
       (cport s 0).delays < 3 ∧ (frame 0x01 []).ftype = 0x01 ∧ (frame 0x01 []).pelotonId = pelotonId s ∧
         (frame 0x01 []).src ≠ uid s ∧ linkIsUp s 0 = false ∧ (frame 0x26 []).ftype.toNat ∉ frameTypes) := by
  decide +kernel

/-- Transmit slot 0 with `n` bytes in bank 8, busy or not, for port 0. -/
def sending (n : Nat) (busy : Bool) : State :=
  let s := setReg (setReg (ringed (linked 1 true {})) (aTx 0 0x100) 0x200000) (aTx 0 0x104) 1
  setReg (setReg s (aTx 0 0x108) (w32 n)) (aTx 0 0x10C) (0x100 + w32 (b2n busy))

theorem test_witness_framesMove :
    (let s := ringed (linked 1 true {})
     let a := regPair s (aChain 0 0x030) + 8192 * regF s (aChain 0 0x03C) 0 6
     frameTaken s 0 (frame 0x31 [1]) = true ∧ linkIsUp s 0 = true ∧ regF s (aChain 0 0x03C) 0 6 + 1 < regF s (aChain 0 0x038) 0 6 ∧
       regF s (aChain 0 0x038) 0 6 ≤ 32 ∧ regF s (aChain 0 0x040) 0 6 ≠ regF s (aChain 0 0x03C) 0 6 + 1 ∧
       chainGrants s 0 a (frameBytes (frame 0x31 [1])).length true = true ∧ bankAt a = some (8, 0, a) ∧
       a % 0x20000 + (frameBytes (frame 0x31 [1])).length ≤ 0x20000 ∧ bankOn s 8 = true ∧ wiping s 8 = false) ∧
      (regB (sending 48 false) (aTx 0 0x10C) 0 = false ∧ fld 0x100 8 2 ≠ 0 ∧
        regF (sending 48 false) (aTx 0 0x108) 0 13 = 48 ∧ regF (sending 47 false) (aTx 0 0x108) 0 13 < 48) ∧
      (let s := sending 48 true
       regB s (aTx 0 0x10C) 0 = true ∧ ([0, 1].filter fun x => regB s (aTx 0 0x10C) (8 + x) && linkIsUp s x) = [0] ∧
         portRuns s 0 = true ∧ linkMode s 0 = 1 ∧ chainGrants s 0 (regPair s (aTx 0 0x100)) 48 false = true ∧
         bankAt (regPair s (aTx 0 0x100)) = some (8, 0, regPair s (aTx 0 0x100)) ∧
         regPair s (aTx 0 0x100) % 0x20000 + 48 ≤ 0x20000 ∧ bankOn s 8 = true ∧ wiping s 8 = false) ∧
      ((cport up 0).tunWait = [] ∧ (cport (linked 2 true { tunWait := [frame 0x31 []] }) 0).tunWait = [frame 0x31 []] ∧
        regB (linked 2 true {}) (aChain 0 0x200) 31 = false) ∧
      (let s := linked 2 true {}
       portRuns s 0 = true ∧ linkMode s 0 = 2 ∧ tunFrame (tunBytes s 0) = none) ∧
      tunFrame (frameBytes (frame 0x31 [1])) = some (frame 0x31 [1]) := by
  decide +kernel

theorem test_witness_time :
    (let s := linked 1 true { reqSent := some 0 }
     frameTaken s 0 (frame 0x02 []) = true ∧ linkMode s 0 = 1 ∧ frameTaken s 0 (frame 0x03 (zeros 20)) = true ∧
       (cport s 0).reqSent = some 0) ∧
      (timeAccepted up 0 (frame 0x04 (zeros 32)) = false ∧
        timeAccepted (setReg (linked 1 true {}) (aPt 0x008) 2) 0 (frame 0x04 (zeros 32)) = true ∧
        ptState (setPtState up ptSyncing) = ptSyncing) ∧
      (let s := setReg up (aPt 0x008) 1
       isPacer s = true ∧ nowNs s ≤ pair64 (reg s (aPt 0x020)) 1) ∧
      (isPacer up = false ∧
        (let s : State := { setReg up (aPt 0x008) 1 with time := { now := 65536 } }
         pair64 (reg s (aPt 0x020)) 0 < nowNs s)) ∧
      (let s := setReg up (aPt 0x038) 1
       regB s (aPt 0x038) 0 = true ∧ regPair s (aPt 0x030) ≤ nowNs s ∧ regB s (aPwr 0x008) 2 = false) ∧
      regB up (aPt 0x038) 0 = false := by
  decide +kernel

/-- Such a frame is heard by the shipped Hub-B. -/
theorem test_heard (s : State) (f : Frame) (n : Nat) (h : f.ftype.toNat = n ∧ f.dst = uid s ∧ f.dst ≠ broadcast ∧
    (receive s 0 f).2 = true ∧ hubBUp (receive s 0 f).1 = true) : FrameHeard s 0 f n (consume (receive s 0 f).1 0) :=
  ⟨h.1, .inl h.2.1, h.2.2.1, h.2.2.2.1, h.2.2.2.2, rfl⟩

theorem test_witness_imageQuery :
    let s := ringed (linked 1 true {})
    let f := frame 0x31 (zeros 48)
    let w := consume (receive s 0 f).1 0
    FrameHeard s 0 f 0x31 w ∧ portRuns w 0 = true ∧ linkMode w 0 = 1 :=
  ⟨test_heard _ _ _ (by decide +kernel), by decide +kernel⟩

/-- The member with its chain state. -/
def membered (c : Chain) : State :=
  let s := ringed (linked 1 true {})
  { s with chain := { c with ports := s.chain.ports } }

theorem test_witness_membership :
    FrameHeard (membered {}) 0 (frame 0x10 (zeros 8)) 0x10 (consume (receive (membered {}) 0 (frame 0x10 (zeros 8))).1 0) ∧
      (membered {}).chain.heardCaller = none ∧
      (let s := membered { collecting := true }
       let f := frame 0x11 (zeros 64)
       FrameHeard s 0 f 0x11 (consume (receive s 0 f).1 0) ∧ s.chain.collecting = true ∧ f.dst = uid s ∧
         field f.payload 0 8 = s.chain.epoch ∧ f.payload.length = 64 ∧ (cport s 0).neighbour ≠ some f.src) ∧
      (let f := frame 0x12 ([1] ++ zeros 47)
       FrameHeard (membered {}) 0 f 0x12 (consume (receive (membered {}) 0 f).1 0) ∧ field f.payload 4 2 = 0 ∧
         field f.payload 0 2 = (f.payload.length - 32) / 16) ∧
      FrameHeard (membered {}) 0 (frame 0x13 []) 0x13 (consume (receive (membered {}) 0 (frame 0x13 [])).1 0) ∧
      (∀ b ∈ [true, false], FrameHeard (membered { caller := b }) 0 (frame 0x14 (zeros 2)) 0x14
          (consume (receive (membered { caller := b }) 0 (frame 0x14 (zeros 2))).1 0) ∧ (membered { caller := b }).chain.caller = b) ∧
      (hubBUp (membered {}) = true ∧ (membered {}).chain.missed = 0 ∧ (membered {}).chain.heardAge = 0 ∧
        1 ≤ (membered { heardAge := 1 }).chain.heardAge) := by
  refine ⟨test_heard _ _ _ (by decide +kernel), by decide +kernel, ⟨test_heard _ _ _ (by decide +kernel), by decide +kernel⟩,
    ⟨test_heard _ _ _ (by decide +kernel), by decide +kernel⟩, test_heard _ _ _ (by decide +kernel), ?_, by decide +kernel⟩
  intro b _
  cases b <;> exact ⟨test_heard _ _ _ (by decide +kernel), rfl⟩


/-! ### Witnesses: recovery and update -/

/-- The Hub firmware serves recovery messages; target t as given. -/
def servingHub (t : Nat) (k : RcvTarget) : State := setRcvTarget (setCore up hubB { run := .running }) t k

/-- The ROM serves them in recovery listen. -/
def listening (k : RcvTarget) : State :=
  let s := setCore up hubA { run := .running }
  setRcvTarget { s with boot := { s.boot with rom := .listen } } 0 k

/-- Erased bytes. -/
def ffs (n : Nat) : List Byte := List.replicate n 0xFF

/-- The smallest whole container of the device: an erased header but for its manifest length of zero, and an END operation. -/
def ended : List Byte := ffs 16 ++ zeros 4 ++ ffs 8172 ++ [5] ++ zeros 15

/-- A chain message of recovery: type 1, target 0, no payload. -/
def rcvFrame : Frame := frame 0x30 ([1, 9] ++ zeros 8)

set_option maxRecDepth 100000 in
theorem test_witness_recoveryAnswers :
    (rcvServer (servingHub 0 {}) = 2 ∧ rcvEnabled (servingHub 0 {}) 0 = true ∧
        rcvServer (listening {}) = 1 ∧ rcvEnabled (listening {}) 2 = true) ∧
      ((zeros 4095).length ≠ 4096 ∧ (zeros 4096).length = 4096 ∧ rcvState (servingHub 0 {}) 0 = .idle ∧
        rcvState (listening { state := .listen }) 0 = .listen) ∧
      (let k : RcvTarget := { state := .claimed, claimant := some 0, next := 2, container := ffs 8192 }
       rcvTarget (servingHub 1 k) 1 = k ∧ k.claimant ≠ some 1 ∧ 3 ≠ k.next ∧ k.claimant = some 0 ∧
         (k.container ++ zeros 4096).length < zManifestEnd (k.container ++ zeros 4096)) ∧
      (let k : RcvTarget := { state := .receiving, claimant := some 0, container := zeros 8192 ++ [5] ++ zeros 15 }
       rcvTarget (servingHub 4 k) 4 = k ∧ rcvServer (servingHub 4 k) = 2 ∧ (rcvPlatform (servingHub 4 k) 4 k.container).2 = 0) ∧
      (let s := listening {}
       rcvTarget s 0 = {} ∧ ({} : RcvTarget).claimant = none) := by
  decide +kernel

set_option maxRecDepth 100000 in
theorem test_witness_recoveryEnd :
    let k : RcvTarget := { state := .entering, claimant := some 3, container := ended }
    rcvTarget (servingHub 0 k) 0 = k ∧ rcvServer (servingHub 0 k) = 2 := by
  decide +kernel

set_option maxRecDepth 100000 in
theorem test_ended : ((zRun ended noBase).stop = .ended && opComplete (manParts (zManifest ended)) (zRun ended noBase)) = true ∧
    manParts (zManifest ended) = [] := by
  decide +kernel

set_option maxRecDepth 100000 in
theorem test_endedHeader : manCount [] = 0 ∧ ∀ i < 4, 16 + i < (ended.take (zManifestEnd ended)).length ∧
    (ended.take (zManifestEnd ended)).getD (16 + i) 0 = 0 := by
  decide +kernel

theorem test_witness_recoveryCommit :
    (rcvCommit (servingHub 0 { state := .entering, claimant := some 3, container := ended }) ended).2 = 0 :=
  Laws.rcvCommit_no_parts _ _ test_ended.1 test_ended.2 test_endedHeader.1 test_endedHeader.2

theorem test_received (p : State × Bool) (h : p.2 = true) : p = (p.1, true) := by
  rw [← h]

set_option maxRecDepth 100000 in
theorem test_witness_recoveryMessages :
    let s := ringed (linked 1 true {})
    (∃ u, receive s 0 rcvFrame = (u, true) ∧ rcvServer u ≠ 0) ∧ rcvFrame.payload.length = 10 + field rcvFrame.payload 8 2 ∧
      field rcvFrame.payload 3 1 = 0 ∧ (∃ u, receive s 0 (frame 0x30 [1]) = (u, true) ∧ rcvServer u ≠ 0) ∧
      ∃ u, receive s 0 (frame 0x30 ([1, 9, 0, 1] ++ zeros 6)) = (u, true) ∧ rcvServer u ≠ 0 ∧ rcvEnabled u 2 = true := by
  refine ⟨⟨_, test_received _ (by decide +kernel), by decide +kernel⟩, by decide +kernel, by decide +kernel,
    ⟨_, test_received _ (by decide +kernel), by decide +kernel⟩, _, test_received _ (by decide +kernel), by decide +kernel⟩

/-- A set by its digest, its rollback value and its manifest's digest. -/
def fwSet (d : Byte) (rollback : Nat) : FwSet :=
  { digest := List.replicate 48 d, manifestDigest := List.replicate 48 d, rollback, floor := 0 }

/-- The payload of an offer, an answer, a report, an arm: digest first. -/
def offer (u : FwSet) : Frame := frame 0x20 (u.digest ++ leBytes 4 u.rollback ++ u.manifestDigest ++ leBytes 4 100)

/-- The shipped Hub-B with its update state. -/
def updating (u : Update) : State := { setCore up hubB { run := .running } with upd := u }

set_option maxRecDepth 100000 in
theorem test_witness_updates :
    rcvServer (updating {}) = 2 ∧ (frame 0x20 []).payload.length ≠ 104 ∧ (offer (fwSet 9 5)).payload.length = 104 ∧
      (let d : Update := { firstStartDone := true, active := fwSet 1 4 }
       let given := fun (u : FwSet) => slice (offer u).payload 52 48 = u.manifestDigest ∧ slice (offer u).payload 0 48 = u.digest ∧
         field (offer u).payload 48 4 = u.rollback
       ({} : Update).firstStartDone = false ∧ d.state ≠ .armed ∧ given (fwSet 1 4) ∧ given (fwSet 2 4) ∧ given (fwSet 2 5) ∧
         (fwSet 1 4).manifestDigest = d.active.manifestDigest ∧ (fwSet 2 4).manifestDigest ≠ d.active.manifestDigest ∧
         d.claim = none ∧ (fwSet 2 4).rollback ≤ d.active.rollback ∧ d.active.rollback < (fwSet 2 5).rollback ∧
         (fwSet 2 5).digest ∈ ({ d with withdrawn := [(fwSet 2 5).digest] } : Update).withdrawn ∧ d.candidate = none ∧
         (fwSet 2 5).digest ∉ d.withdrawn ∧ d.state ≠ .conflict ∧ (fwSet 2 5).rollback < (fwSet 3 6).rollback ∧
         (fwSet 3 5).rollback ≤ (fwSet 2 5).rollback) ∧
      (let d : Update := { claim := some (fwSet 0 5), state := .staging, container := ffs 8192 }
       let s := updating d
       let p := fun (k : Byte) => zeros 8 ++ [k] ++ zeros 3 ++ zeros 4096
       d.candidate = none ∧ d.source = 0 ∧ d.built = false ∧ (fwSet 0 5).digest.take 8 = (p 2).take 8 ∧ (p 2).length = 4108 ∧
         field (p 3) 8 4 ≠ d.container.length / 4096 ∧ field (p 2) 8 4 = d.container.length / 4096 ∧ busFree s 0 = true ∧
         (d.container ++ slice (p 2) 12 4096).length < zManifestEnd (d.container ++ slice (p 2) 12 4096) ∧
         chunkRoom s = true ∧ bankOf (chunkAddr 2) = some 4 ∧
         (let v := setReg s (ownerAddr 4) 0x202
          bankOn v 4 = true ∧ bankGrants v hubB 4 true false = true ∧ wiping v 4 = false) ∧
         busFree (setReg (setReg s (aPlat 0 0x000) 1) (aPlat 0 0x008) 0x100) 0 = false ∧ ({} : Update).claim = none) := by
  decide +kernel

/-- A member that hears update frames, with its update state, and the pacer that it knows. -/
def member (u : Update) (pacer : BitVec 128) : State :=
  let s := ringed (linked 1 true {})
  setPacerUid { s with upd := u } pacer

/-- What it is once the frame has been read from the ring. -/
def heardBy (s : State) (f : Frame) : State := consume (receive s 0 f).1 0

theorem test_witness_updateFrames :
    (∀ d ∈ [1, 2], ∀ code ∈ [0, 3], let f := frame 0x21 (List.replicate 48 d ++ [code] ++ zeros 7)
      let s := member { active := fwSet 1 4 } 5
      FrameHeard s 0 f 0x21 (heardBy s f) ∧
        (slice f.payload 0 48 = fitBytes 48 (heldSet (heardBy s f)).digest ↔ d = 1) ∧ (field f.payload 48 1 ≠ ucAccept ↔ code = 3)) ∧
      (∀ pacer ∈ [0, 1], ∀ report ∈ [1, 2], let f := frame 0x23 (List.replicate 48 1 ++ [report] ++ zeros 7)
        let s := setReg (member {} 5) (aPt 0x008) pacer
        FrameHeard s 0 f 0x23 (heardBy s f) ∧ (isPacer (heardBy s f) = true ↔ pacer = 1) ∧
          (field f.payload 48 1 = rpFailed ↔ report = 2) ∧ (heardBy s f).upd.armedAny = false ∧ (heardBy s f).upd.state ≠ .armed) ∧
      (∀ pacer ∈ [5, 6], let f := frame 0x24 (List.replicate 48 1 ++ leBytes 8 100 ++ zeros 4)
        let s := member { claim := some (fwSet 1 5), state := .staged } pacer
        let v := heardBy s f
        FrameHeard s 0 f 0x24 v ∧ (f.src = pacerUid v ↔ pacer = 5) ∧ isPacer v = false ∧
          slice f.payload 0 48 ≠ fitBytes 48 v.upd.active.digest ∧ v.upd.claim = some (fwSet 1 5) ∧
          fitBytes 48 (fwSet 1 5).digest = slice f.payload 0 48 ∧ v.upd.state = .staged ∧ nowNs v < field f.payload 48 8) ∧
      (∀ pacer ∈ [5, 6], ∀ d ∈ [1, 2], let f := frame 0x25 (List.replicate 48 d)
        let s := member { claim := some (fwSet 1 5), state := .staged } pacer
        let v := heardBy s f
        FrameHeard s 0 f 0x25 v ∧ (f.src = pacerUid v ↔ pacer = 5) ∧ v.upd.state ≠ .armed ∧ v.upd.claim = some (fwSet 1 5) ∧
          ((fwSet 1 5).digest = slice f.payload 0 48 ↔ d = 1)) := by
  refine ⟨?_, ?_, ?_, ?_⟩
  · intro d hd code hc
    fin_cases hd <;> fin_cases hc <;> exact ⟨test_heard _ _ _ (by decide +kernel), by decide +kernel, by decide +kernel⟩
  · intro pacer hp report hr
    fin_cases hp <;> fin_cases hr <;> exact ⟨test_heard _ _ _ (by decide +kernel), by decide +kernel⟩
  · intro pacer hp
    fin_cases hp <;> exact ⟨test_heard _ _ _ (by decide +kernel), by decide +kernel⟩
  · intro pacer hp d hd
    fin_cases hp <;> fin_cases hd <;> exact ⟨test_heard _ _ _ (by decide +kernel), by decide +kernel⟩

theorem test_witness_updateTime :
    let s := updating { claim := some (fwSet 1 5), state := .staging, forward := [(1, some (2, 9))], reports := [(5, [1], rpStaged)] }
    let armed := setReg (updating { state := .armed }) (aPt 0x038) 2
    hubBUp s = true ∧ s.upd.candidate = none ∧ s.upd.claim = some (fwSet 1 5) ∧ s.upd.built = false ∧
      smGet s.upd.forward 1 none = some (2, 9) ∧ smGet s.upd.forward 0 none = none ∧ isPacer (setReg s (aPt 0x008) 1) = true ∧
      s.upd.armedAny = false ∧ (s.upd.reports.find? fun r => r.2.2 = rpStaged) = some (5, [1], rpStaged) ∧ isPacer s = false ∧
      s.upd.state ≠ .armed ∧ armed.upd.state = .armed ∧ hubBUp armed = true ∧ regB armed (aPt 0x038) 1 = true ∧
      wheelIdle armed = all32 ∧ busFree armed 0 = true ∧ wheelIdle { armed with fabric := { wiping := [0] } } ≠ all32 ∧
      busFree (setReg (setReg armed (aPlat 0 0x000) 1) (aPlat 0 0x008) 0x100) 0 = false ∧
      wheelIdle (setReg (setReg armed (aPlat 0 0x000) 1) (aPlat 0 0x008) 0x100) = all32 ∧ armed.upd.delayed = false := by
  decide +kernel


/-! ### Witnesses: the firewall and the recorder -/

/-- A violation waits at the firewall. -/
def violated (m : Nat) : State := { up with fw := { pending := [{ master := m, kind := 2, addr := 0x1234, resetCount := 0 }] } }

/-- A master that is frozen, reset since then or not. -/
def frozenSpoke (reset : Bool) : State := setCore (violated 0) 0 { frozen := true, resetSinceFreeze := reset }

theorem test_witness_violations :
    up.fw.pending = [] ∧
      (∀ m ∈ [0, 0x210, 0x300, 0x410, 0x411, hubA, qfDma], let s := violated m
        s.fw.pending = [{ master := m, kind := 2, addr := 0x1234, resetCount := 0 }] ∧ 0x1234 < 2 ^ 64 ∧
          isStale s { master := m, kind := 2, addr := 0x1234, resetCount := 0 } = false ∧ isFrozen s m = false) ∧
      (isSpoke 0 = true ∧ isGk 0x210 = true ∧ isFunc 0x300 = true ∧ isHub hubA = true ∧ isHub 0 = false ∧ 0 ≠ qfDma) ∧
      (isStale (setCore (violated 0) 0 { resetCount := 1 }) { master := 0, kind := 2, addr := 0x1234, resetCount := 0 } = true ∧
        isStale (frozenSpoke false) { master := 0, kind := 2, addr := 0x1234, resetCount := 0 } = false ∧
        isFrozen (frozenSpoke false) 0 = true) ∧
      (isStale (violated lantern) { master := lantern, kind := 2, addr := 0x1234, resetCount := 0 } = false ∧
        isStale { violated lantern with lc := { freezes := 1 } } { master := lantern, kind := 2, addr := 0x1234, resetCount := 0 } =
          true ∧ isHub lantern = false ∧ lantern ≠ qfDma) ∧
      (hubOn up = true ∧ isFrozen up (fld 0 0 11) = false ∧ resetSince (frozenSpoke false) (fld 0 0 11) = false ∧
        isFrozen (frozenSpoke true) (fld 0 0 11) = true ∧ resetSince (frozenSpoke true) (fld 0 0 11) = true) := by
  decide +kernel

/-- A record of two words, its own recorder state, and the array's pointers. -/
def note : Record := { source := 0x200, rtype := 1, payload := [] }
def recording (fs : Flowstone) (status wr rd : W32) : State :=
  setReg (setReg (setReg { up with fs := fs } (aFs 0x000) status) (aFs 0x004) wr) (aFs 0x008) rd

theorem test_witness_records :
    (let s := recording { raised := [(3, note), (5, note)] } 0 0 0
     s.fs.raised = [(3, note)] ++ (5, note) :: [] ∧ (∀ e ∈ [((3 : Nat), note)], e.1 ≠ 5) ∧ fsFrozen s = false ∧
       (∀ e ∈ s.fs.raised, e.1 ≠ 4) ∧ fsFrozen (recording s.fs 0x4000000 0 0) = true ∧
       fifoLevel (recording s.fs 0x4000000 0 0) + note.space ≤ 4096) ∧
      (up.fs.merging = false ∧ up.fs.arrived = [] ∧ fsFrozen up = false) ∧
      (let s := recording { arrived := [(3, note)] } 0 0x7FFF8 0x100
       s.fs.arrived = (3, note) :: [] ∧ s.fs.merging = false ∧ fsFrozen s = false ∧ fsWr s + note.space ≤ fsSize ∧
         fsDist s (fsWr s) + note.space + 8 ≤ fsSize) ∧
      (let s := recording { arrived := [(3, note)] } 0 0x7FFF8 0
       note.space = 8 ∧ fsWr s + note.space ≤ fsSize ∧ fsSize < fsDist s (fsWr s) + note.space + 8) ∧
      (let r : Record := { note with payload := [1] }
       let s := recording { arrived := [(3, r)] } 0 0x7FFF8 0x100
       s.fs.arrived = (3, r) :: [] ∧ fsWr s < fsSize ∧ fsSize < fsWr s + r.space ∧
         fsDist s (fsWr s) + (fsSize - fsWr s) + r.space + 8 ≤ fsSize) ∧
      (let s := recording { merging := true, fifo := [note] } 0 0 0
       s.fs.merging = true ∧ s.fs.fifo = note :: [] ∧ fsFrozen s = false ∧ fsWr s + note.space ≤ fsSize ∧
         fsDist s (fsWr s) + note.space + 8 ≤ fsSize) := by
  decide +kernel

theorem test_witness_recorderCommands :
    (isHub hubA = true ∧ isHub hubB = true ∧ isHub 0 = false ∧ fsFrozen up = false) ∧
      (fsFrozen (recording {} 0x4000000 0 0) = true ∧ regB (recording {} 0x4000000 0 0) (aFs 0x000) (holdBit hubB) = false ∧
        fsFrozen (recording {} 0xC000000 0 0) = true ∧ regB (recording {} 0xC000000 0 0) (aFs 0x000) (holdBit hubB) = true) ∧
      (let s := recording {} 0 16 8
       ¬((4 : W32).toNat % 8 = 0) ∧ (16 : W32).toNat % 8 = 0 ∧ (16 : W32).toNat < fsSize ∧ fsDist s (16 : W32).toNat ≤ fsDist s (fsWr s) ∧
         commitActive s = false ∧ commitActive (recording {} 0x10000000 16 8) = true) ∧
      (let s : State := { up with fs := { swHeader := [(hubA, 0x42001)] } }
       fld (smGet s.fs.swHeader hubA 0) 12 7 = 66 ∧ fld (smGet up.fs.swHeader hubA 0) 12 7 < 2) ∧
      ((recording { merging := true } 0 0 0).fs.merging = true ∧ (recording { merging := true } 0 0 0).fs.fifo = []) := by
  decide +kernel

/-! ### Witness: the memory invariant -/

theorem test_witness_memory : Memory.wf up.mem = true ∧ ∃ t, step up = .next t := ⟨by decide +kernel, _, rfl⟩


/-! ### Encodings: one word of every opcode, written out from the spec's formats (R42 to R48, R69 to R92) -/

/-- The four words that the spec shows, and a word with a reserved field, among one of each opcode. -/
theorem test_longWords :
    ([
       (0x000E856D, .alu .add 11 13 14),
       (0x4809851F, .alu .rol 8 31 9),
       (0xB00A8509, .alu .rem 8 9 10),
       (0x60008422, .alu .abs 1 2 0),
       (0x430A8909, .sel 8 12 9 10),
       (0x180A8909, .alu .cltu 8 9 10),
       (0xFFF38D09, .alui .xor 8 9 (-1)),
       (0x03F68D09, .alui .sra 8 9 63),
       (0x80088D29, .alui .cat 9 9 0x800),
       (0xFFE98D00, .leapc 8 (-2)),
       (0xFFF69109, .alui .cgt 8 9 (-1)),
       (0x0406954F, .load 10 15 (.offset 0x40) 6),
       (0xFFC4994F, .store 10 15 (.offset (-4)) 4),
       (0x88CB9D4F, .load 10 15 (.index 11 3) 1),
       (0x3000A009, .store 0 9 .postInc 6),
       (0x50009D4F, .load 10 15 .preDec 2),
       (0xFFE0A91E, .branch true 8 (-32)),
       (0x0002A7E2, .branch false 31 0x10002),
       (0xFFFFAC1E, .br (-1)),
       (0x0005B200, .call 5 true)] : List (W32 × SpokeOp)).all (fun e => decodeLong e.1 = e.2) = true ∧
    ([
       (0x0840B414, .callr 20 true),
       (0x0000B414, .jr 20),
       (0x0000B80A, .rep 10),
       (0x01F1B800, .repi 32),
       (0x0000BC00, .wait),
       (0x0010BD00, .waitJob 8),
       (0x0001BC00, .fence),
       (0x0072BD09, .hubcall 8 9 7),
       (0x0003BC00, .excRet),
       (0x0104BD00, .crr 8 0x10),
       (0x0105BC09, .crw 0x10 9),
       (0x0020C100, .pcrr 8 2),
       (0x0021C009, .pcrw 2 9),
       (0x0002C100, .intoff 8),
       (0x0003C000, .inton),
       (0xFFFFFFFF, .reserved false),
       (0x68008509, .reserved false),
       (0x58018509, .reserved false),
       (0x04048D09, .reserved false),
       (0x0004C000, .reserved true)] : List (W32 × SpokeOp)).all (fun e => decodeLong e.1 = e.2) = true := by
  decide +kernel

theorem test_shortWords :
    ([
       (0x096D, .alu .add 11 11 13),
       (0x0503, .alu .mov 8 3 0),
       (0x3109, .alu .cleu 8 8 9),
       (0x3510, .alui .add 8 8 (-16)),
       (0x3940, .rep 10),
       (0x3C00, .ret),
       (0x417F, .load 10 15 (.short 15) 6),
       (0x4481, .store 9 8 (.short 1) 6),
       (0x6BFF, .branch false 13 (-1)),
       (0x70FF, .branch true 8 255),
       (0x0000, .reserved false),
       (0x4800, .reserved false),
       (0x3941, .reserved false)] : List (BitVec 16 × SpokeOp)).all (fun e => decodeShort e.1 = e.2) = true := by
  decide +kernel

/-- Instructions at the ends of their operands' ranges that have a form, and words that are no reserved encoding. -/
theorem test_witness_encodings :
    (longOk (.alu .add 31 0 31) = true ∧ longOk (.repi 64) = true ∧ longOk (.load 0 31 (.index 31 3) 7) = true ∧
        shortOk (.alu .add 31 31 0) = true ∧ shortOk (.branch true 15 0xFFF00) = true) ∧
      (let w : W32 := encodeLong (.alu .add 31 0 31)
       w.getLsbD 15 = true ∧ decodeLong w ≠ .reserved true ∧ decodeLong w ≠ .reserved false) ∧
      (let h : BitVec 16 := encodeShort (.branch true 15 0xFFF00)
       h.getLsbD 15 = false ∧ decodeShort h ≠ .reserved true ∧ decodeShort h ≠ .reserved false) := by
  decide +kernel


/-- The vectors of R74. -/
theorem test_arithmeticVectors :
    ([(.neg, 0x8000000000000000, 0, 0x8000000000000000), (.abs, 0xFFFFFFFFFFFFFFFF, 0, 1),
      (.div, 0x8000000000000000, 0xFFFFFFFFFFFFFFFF, 0x8000000000000000), (.rem, 0x8000000000000000, 0xFFFFFFFFFFFFFFFF, 0),
      (.div, -7, 2, -3), (.rem, -7, 2, -1), (.divu, 7, 0, 0xFFFFFFFFFFFFFFFF), (.remu, 7, 0, 7),
      (.mulhu, 0xFFFFFFFFFFFFFFFF, 0xFFFFFFFFFFFFFFFF, 0xFFFFFFFFFFFFFFFE), (.mulhs, 0xFFFFFFFFFFFFFFFF, 0xFFFFFFFFFFFFFFFF, 0),
      (.mulhs, 0x8000000000000000, 0x8000000000000000, 0x4000000000000000), (.sll, 1, 64, 0), (.sll, 1, 0xFFFFFFFFFFFFFFFF, 0),
      (.sra, 0x8000000000000000, 200, 0xFFFFFFFFFFFFFFFF), (.rol, 0x8000000000000001, 65, 3)] :
        List (Alu × W64 × W64 × W64)).all (fun e => aluFn e.1 e.2.1 e.2.2.1 = e.2.2.2) = true := by
  decide +kernel

/-! ### Well-formedness: a command that each check refuses, and one of each family that passes -/

theorem test_illFormed_cores :
    ([.fetchFault 0x204, .fetchFault 0x214, .verify 0x200, .lnClose 0x204, .lnClose 0x2A0, .add 0 32 8 8 true, .mov 0 24 8 false,
      .mov 0 8 31 false, .add 0 8 9 10 false, .addi 0 8 8 16 false, .addi 0 8 9 1 false, .ld 0 7 8 (.short 0) 6,
      .ld 0 8 16 (.short 0) 6, .ld 0 8 9 (.short 0) 4, .st 0 8 9 (.index 32 0) 6, .st 0 8 32 .postInc 6, .bz 0 7 0 false,
      .bnz 0 8 256 false, .bz 0 32 0 true, .rep 0 24 false, .sel 0 8 9 10 32, .callr 0 32 false, .accessAcknowledged 0 34] :
        List Instr).all (fun i => !i.wellFormed) = true := by
  decide +kernel

theorem test_illFormed_blocks :
    ([.wdmaBeat 32, .spokeReset 0 0 16, .notify 0 2, .laneGrant 68, .bankWipeDone 192, .handoverWrite 0 192 0, .bcastWrite 0 0 3 0,
      .bcastWrite 0 1 2 0, .bcastWrite 0 0x1000000 1 0, .laneData 0 0 5 0, .eraseFault 16, .lanternEscape 3, .supplyTrip 4, .hold 0 4,
      .pctlAlertFall 12, .auditBlock 0 0 [] true, .auditBlock 0 1 (zeros 4096) true, .ownRead 0 0 2 0, .sweepBlock 0 [0],
      .configRequest 256 0 false 0, .configRequest 0 2 false 0, .configRequest 0 0x1000 false 0, .barAccessFault true 0x10000 4,
      .barAccessFault true 0 9, .keyProg 9 0, .queueOff 32768, .doorbell 0 0x10000 0, .entryFetch 0 [], .jobWindowStore 0 0x4000 4 0,
      .jobWindowStore 0x200 0 4 0, .queueCreate 0 [], .queueSet 0 16 0 0, .funcSet 0 true 0x1000 0] :
        List Instr).all (fun i => !i.wellFormed) = true := by
  decide +kernel

theorem test_illFormed_links :
    ([.rcvStatus 4 0 0, .rcvStatus 0 0 256, .rcvData 0 0 0 0x10000 [], .linkUp 2, .hello 0 { frame 1 [] with hops := 256 }, .cpTxDone 4,
      .updStatus 4, .recordArrival 47, .domainOn 31, .wheelFreqWrite 0 4 0, .relockDone 32, .clockFault 47, .pwrWake 28 0,
      .pwrWake 0 12, .setmwl 0x10000, .registerWrite 0 2 0, .registerWrite 0 (2 ^ 41) 0, .powerGoodRise 12, .jobBufferWipeDone 0x200,
      .badFrame 2 (frame 1 []) true] : List Instr).all (fun i => !i.wellFormed) = true := by
  decide +kernel

set_option maxRecDepth 100000 in
theorem test_illFormed_lengths :
    ([.hostTransactionEnd 0 (2 ^ 32), .payloadFetch 0 true (zeros 8193), .ownCmdDone 0 0 0 (zeros 4097), .i3cPrivateWrite (zeros 257),
      .rcvData 0 0 0 0 (zeros 4097), .hello 0 (frame 1 (zeros 4097))] : List Instr).all (fun i => !i.wellFormed) = true := by
  decide +kernel

theorem test_wellFormed :
    ([.add 0 8 8 23 false, .addi 0x202 8 8 (-16) false, .ld 0x213 8 15 (.short 15) 6, .bnz 0 15 (-256) false, .wdmaBeat 31,
      .macw 31 1, .laneGrant 67, .slotAlloc 0x200 0, .program 0x200 0 0, .lnUid, .supplyTrip 3, .hold 0x210 3, .hostTransactionStart 3,
      .configRequest 255 0xFFC true 0, .doorbell 255 127 0, .sign 0x1FF, .rcvEnd 3 0 255, .hello 1 (frame 1 []), .updArm 1 (frame 0x24 []),
      .unfreeze 0x200 0, .recordArrival 46, .domainOn 30, .entdaa 0, .dripData 0x202, .registerWrite 0x202 0x40000000 0] :
        List Instr).all Instr.wellFormed = true := by
  decide +kernel

end Sys2Proof.Machine.Tests
end

section
/-! SUPPORT. Calls, returns and the events of a core (R31 to R36, R60, R64, R117, R524): the operations where they complete, and
the two statements settled from them. -/

namespace Sys2Proof.Machine

/-! ### The frame of one core -/

theorem OnlyCore.then_modCore {s t : State} {c : Nat} (h : OnlyCore s t c) (f : Core → Core) :
    OnlyCore s (modCore t c f) c := by
  refine ⟨?_, fun c' hc => (core_modCore_other t hc f).trans (h.others c' hc)⟩
  rw [h.rest]
  rfl

/-! ### Sliding the window (R33, R35, R36) -/

/-- A window whose span fits the file spills nothing. -/
theorem spillTo_of_fits {s : State} {c wp : Nat} (n : Nat) (h : wp + 24 ≤ (core s c).bot + fileSize c) :
    spillTo s c wp n = (true, s) := by
  cases n with
  | zero => rfl
  | succ n => simp [spillTo, h]

/-- A window whose groups are all resident fills nothing. -/
theorem fillTo_of_resident {s : State} {c wp : Nat} (n : Nat) (h : (core s c).bot ≤ wp) : fillTo s c wp n = s := by
  cases n with
  | zero => rfl
  | succ n => simp [fillTo, h]

theorem slideUp_of_fits {s : State} {c d : Nat} (code : Nat) (ret : W64)
    (h : (core s c).wp + d + 24 ≤ (core s c).bot + fileSize c) :
    slideUp s c d code ret = (true, modCore s c fun k =>
      setRecord c { k with wp := (core s c).wp + d } ((core s c).wp + d) (some (mkRecord code ret))) := by
  simp [slideUp, spillTo_of_fits 3 h]

/-- A slide back to a resident window uses up the record and moves the window, and that is all. -/
theorem slideDown_of_resident {s : State} {c d : Nat} (h : (core s c).bot + d ≤ (core s c).wp) :
    OnlyCore s (slideDown s c d) c ∧
      core (slideDown s c d) c = { setRecord c (core s c) (core s c).wp none with wp := (core s c).wp - d } := by
  have hwp : ¬ (core s c).wp < d := by omega
  have hbot : (core s c).bot ≤ (core s c).wp - d := by omega
  unfold slideDown
  simp only
  rw [fillTo_of_resident 3 (by simpa [setRecord, hwp] using hbot)]
  exact ⟨(onlyCore_modCore s c _).then_modCore _, by simp [setRecord, hwp]⟩

theorem getR_window (c : Nat) (k : Core) (i : Nat) : getR c k (8 + i) = smGet k.window (physReg c k i) 0 := by
  simp [getR]

/-- A window register keeps its place in the file: after a slide up by `d` it has the code lower by `d`. -/
theorem rd_of_slid {s t : State} {c d : Nat} (hw : (core t c).window = (core s c).window)
    (hwp : (core t c).wp = (core s c).wp + d) (r : Nat) : rd t c (8 + r) = rd s c (8 + d + r) := by
  have hp : physReg c (core t c) r = physReg c (core s c) (d + r) := by simp [physReg, hwp, Nat.add_assoc]
  rw [Nat.add_assoc, rd, rd, getR_window, getR_window, hw, hp]

/-! ### Calls and returns (R33, R34, R81) -/

/-- The amount that a call slides by. -/
def callSlide (slide16 : Bool) : Nat := if slide16 then 16 else 8

/-- The core's record after a call: the window slid up, the frame record left, the program counter at the target. -/
def calledCore (c : Nat) (k : Core) (slide16 : Bool) (target : W64) : Core :=
  setRecord c { k with wp := k.wp + callSlide slide16, pc := target } (k.wp + callSlide slide16)
    (some (mkRecord (if slide16 then 1 else 0) (k.pc + 4)))

theorem callTo_of_fits {s : State} {c : Nat} {slide16 : Bool} (target : W64)
    (h : (core s c).wp + callSlide slide16 + 24 ≤ (core s c).bot + fileSize c) :
    ∃ t, callTo s c 4 slide16 target = .ok t ∧ OnlyCore s t c ∧ core t c = calledCore c (core s c) slide16 target := by
  have hup := slideUp_of_fits (b2n slide16) (pcOf s c + BitVec.ofNat 64 4) h
  unfold callTo
  rw [← callSlide, hup]
  refine ⟨_, rfl, (onlyCore_modCore s c _).then_modCore _, ?_⟩
  simp [setPc, calledCore, setRecord, pcOf, b2n]

/-- The amount that a return slides back by, from its frame record. -/
def returnSlide (r : W64) : Nat := if recSlide r = 1 then 16 else 8

theorem retTo_of_record {s : State} {c : Nat} {r : W64} (hr : recordAt c (core s c) (core s c).wp = some r)
    (hs : recSlide r < 2) (hd : (core s c).bot + returnSlide r ≤ (core s c).wp) :
    ∃ t, retTo s c = .ok t ∧ OnlyCore s t c ∧
      core t c = { setRecord c (core s c) (core s c).wp none with
        wp := (core s c).wp - returnSlide r, pc := recTarget r } := by
  obtain ⟨honly, hcore⟩ := slideDown_of_resident hd
  refine ⟨setPc (slideDown s c (returnSlide r)) c (recTarget r), ?_, honly.then_modCore _, ?_⟩
  · simp [retTo, returnSlide, hr, Nat.not_le.mpr hs]
  · simp [setPc, hcore]

/-- A call whose window fits, issued as an instruction that reaches `callTo`: its outcome, and the caller's registers still
readable above the slide. -/
theorem issue_call_of_fits {s : State} {c : Nat} {slide16 : Bool} {op : SpokeOp} {target : W64} (h : CanIssue s c 4)
    (hfit : (core s c).wp + callSlide slide16 + 24 ≤ (core s c).bot + fileSize c)
    (hlegal : illegalOf (isSpoke c) (isHub c) true op = none) (h1 : ∀ r, op ≠ .rep r) (h2 : ∀ n, op ≠ .repi n)
    (hop : runOp s c 4 op = callTo s c 4 slide16 target) :
    OnlyCore s (issue s c 4 op) c ∧ core (issue s c 4 op) c = calledCore c (core s c) slide16 target ∧
      ∀ r, rd (issue s c 4 op) c (8 + r) = rd s c (8 + callSlide slide16 + r) := by
  obtain ⟨t, ht, honly, hcore⟩ := callTo_of_fits target hfit
  have hissue : issue s c 4 op = t := by
    rw [issue_runs h (by simpa using hlegal) h1 h2, hop, ht]
    rfl
  rw [hissue]
  exact ⟨honly, hcore, rd_of_slid (by rw [hcore]; rfl) (by rw [hcore]; rfl)⟩

/-- Settles O7: the window that fits spills nothing on the way up, and the resident one fills nothing on the way back. -/
theorem callsAndReturnsMoveTheWindow : Obligations.CallsAndReturnsMoveTheWindow := by
  refine ⟨fun s c a off slide16 => ?_, fun s c r => ?_⟩
  · intro k d after shifted hissue hfit
    refine ⟨?_, fun heven => ?_⟩
    · obtain ⟨honly, hcore, hshift⟩ := issue_call_of_fits (op := .call off slide16) hissue hfit
        (legal_long rfl rfl) (by simp) (by simp) (runOp_call s c 4 off slide16)
      exact ⟨_, rfl, honly, hcore, fun r _ => hshift r⟩
    · have hop : runOp s c 4 (.callr a slide16) = callTo s c 4 slide16 (rd s c a) := by
        rw [runOp_callr, if_neg (by omega)]
      obtain ⟨honly, hcore, hshift⟩ := issue_call_of_fits hissue hfit (legal_long rfl rfl) (by simp) (by simp) hop
      exact ⟨_, rfl, honly, hcore, fun r _ => hshift r⟩
  · intro k d hissue hrec hslide hres
    obtain ⟨t, ht, honly, hcore⟩ := retTo_of_record hrec hslide hres
    refine ⟨t, ?_, honly, hcore⟩
    show Host.Outcome.next (issue s c 2 .ret) = .next t
    rw [issue_runs hissue (by simpa using legal_short rfl rfl (by simp [opRegs])) (by simp) (by simp), runOp_ret, ht]
    rfl

/-! ### Units that need no waking -/

theorem wakeWheel_of_not_parked {s : State} {w : Nat} (class0 : Bool) (h : parked s w = false) :
    wakeWheel s w class0 = s := by simp [wakeWheel, h]

theorem wakeCore_of_running {s : State} {c : Nat} (h : (core s c).run = .running) : wakeCore s c = s := by
  simp [wakeCore, h]

@[simp] theorem parked_modCore (s : State) (c w : Nat) (f : Core → Core) : parked (modCore s c f) w = parked s w := rfl

/-- A request for admission is one of the governor's, with the base cost of a parked Wheel or without. -/
theorem askAdmission_frame (s : State) (work : Work) (tokens : Nat) (class0 : Bool) :
    askAdmission s work tokens class0 = { s with gov := (askAdmission s work tokens class0).gov } := by
  unfold askAdmission
  split
  · simp only
    split <;> rfl
  · rfl

theorem core_askAdmission (s : State) (work : Work) (tokens : Nat) (class0 : Bool) (c : Nat) :
    core (askAdmission s work tokens class0) c = core s c :=
  core_congr (by rw [askAdmission_frame]) c

/-! ### The timer compare (R524) -/

/-- The timer compare of a running core that is not on a parked Wheel: it disarms and raises `INT_TIMER`. -/
theorem timerFireOp_of_running {s : State} {c : Nat} (hc : isCore c = true) (hon : coreOn s c = true)
    (hrun : (core s c).run = .running) (hfrozen : (core s c).frozen = false) (harmed : (core s c).timerArmed = true)
    (hdue : (core s c).timerCmp.toNat ≤ (core s c).cycle.toNat) (hpark : isSpoke c = true → parked s (c / 16) = false) :
    OnlyCore s (timerFireOp s c) c ∧ core (timerFireOp s c) c =
      { core s c with timerArmed := false, intPending := (core s c).intPending ||| 0x10 } := by
  have hule : (core s c).timerCmp.ule (core s c).cycle = true := by simpa [BitVec.ule] using hdue
  have hawake : ∀ f, (if isSpoke c then wakeWheel (modCore s c f) (c / 16) false else modCore s c f) = modCore s c f := by
    intro f
    split
    · next hspoke => exact wakeWheel_of_not_parked false (hpark hspoke)
    · rfl
  have hfire : timerFireOp s c = raiseInt (modCore s c fun k => { k with timerArmed := false }) c intTimer := by
    unfold timerFireOp
    simp only [hc, hon, hrun, hfrozen, harmed, hule, hawake]
    exact wakeCore_of_running (by simpa [raiseInt] using hrun)
  rw [hfire]
  exact ⟨(onlyCore_modCore s c _).then_modCore _, by simp [raiseInt, intTimer]⟩

/-! ### Release (R31, R60, R64) -/

/-- The record of a core that is released: the state of reset, at `pc`, in run state `r`. -/
def startedCore (c : Nat) (k : Core) (r : RunState) (pc : W64) : Core :=
  { coreReset c with resetCount := k.resetCount, run := r, pc }

theorem onlyCore_releasedCore (s : State) (c : Nat) (r : RunState) : OnlyCore s (releasedCore s c r) c := by
  unfold releasedCore
  exact onlyCore_modCore s c _

theorem core_releasedCore (s : State) (c : Nat) (r : RunState) :
    core (releasedCore s c r) c = startedCore c (core s c) r (vectorOf s c) := by
  simp [releasedCore, startedCore]

theorem isHub_eq_false {c : Nat} : isHub c = false ↔ c ≠ hubA ∧ c ≠ hubB := by simp [isHub]

theorem not_hub_of_spoke {c : Nat} (h : isSpoke c = true) : isHub c = false := by
  simp only [isSpoke, decide_eq_true_eq] at h
  simp only [isHub_eq_false, hubA, hubB]
  omega

theorem not_hub_of_gk {c : Nat} (h : isGk c = true) : isHub c = false := by
  simp only [isGk, Bool.and_eq_true, decide_eq_true_eq] at h
  simp only [isHub_eq_false, hubA, hubB]
  omega

theorem not_spoke_of_gk {c : Nat} (h : isGk c = true) : isSpoke c = false := by
  simp only [isGk, Bool.and_eq_true, decide_eq_true_eq] at h
  simp only [isSpoke, decide_eq_false_iff_not]
  omega

theorem coreReset_of_not_hub {c : Nat} (h : isHub c = false) : coreReset c = {} := by
  simp [coreReset, isHub_eq_false.mp h]

theorem vectorOf_of_not_hub (s : State) {c : Nat} (h : isHub c = false) :
    vectorOf s c = (reg s (vectorAddr c) &&& 0xFFFE).setWidth 64 := by
  simp [vectorOf, isHub_eq_false.mp h, zext]

/-- A core in reset whose release conditions hold. -/
structure Releasable (s : State) (c : Nat) : Prop where
  isCore : isCore c = true
  on : coreOn s c = true
  inReset : (core s c).run = .reset
  clocked : (core s c).frozen = false
  ready : relReady s c = true

theorem exec_coreRelease (c : Nat) (s : State) : exec (.coreRelease c) s = .next (coreReleaseOp s c) := rfl

theorem coreReleaseOp_of_releasable {s : State} {c : Nat} (h : Releasable s c) :
    coreReleaseOp s c =
      if isSpoke c then askAdmission (releasedCore s c .admitting) (.spoke c) 1 false
      else if c = hubA then romStart (releasedCore s c .running)
      else if c = hubB then firmwareStart (releasedCore s c .running)
      else if gkShipped s (c - 0x210) then gkStart (releasedCore s c .running) (c - 0x210)
      else releasedCore s c .running := by
  obtain ⟨hc, hon, hrun, hfrozen, hready⟩ := h
  unfold coreReleaseOp
  simp only [hc, hon, hrun, hfrozen, hready]
  rfl

/-- A Spoke starts in the state of reset and waits for its admission (R60). -/
theorem coreReleaseOp_spoke {s : State} {c : Nat} (hc : isSpoke c = true) (h : Releasable s c) :
    coreReleaseOp s c = { s with cores := (coreReleaseOp s c).cores, gov := (coreReleaseOp s c).gov } ∧
      (∀ c', c' ≠ c → core (coreReleaseOp s c) c' = core s c') ∧
      core (coreReleaseOp s c) c = startedCore c (core s c) .admitting (vectorOf s c) := by
  have honly := onlyCore_releasedCore s c .admitting
  rw [coreReleaseOp_of_releasable h, if_pos hc]
  refine ⟨?_, fun c' hne => (core_askAdmission _ _ _ _ c').trans (honly.others c' hne),
    (core_askAdmission _ _ _ _ c).trans (core_releasedCore s c _)⟩
  rw [askAdmission_frame, honly.rest]

theorem coreReleaseOp_gk {s : State} {c : Nat} (hc : isGk c = true) (h : Releasable s c) :
    coreReleaseOp s c =
      if gkShipped s (c - 0x210) then gkStart (releasedCore s c .running) (c - 0x210) else releasedCore s c .running := by
  obtain ⟨hA, hB⟩ := isHub_eq_false.mp (not_hub_of_gk hc)
  simp [coreReleaseOp_of_releasable h, not_spoke_of_gk hc, hA, hB]

theorem coreReleaseOp_hubA {s : State} (h : Releasable s hubA) :
    coreReleaseOp s hubA = romStart (releasedCore s hubA .running) := coreReleaseOp_of_releasable h

theorem coreReleaseOp_hubB {s : State} (h : Releasable s hubB) :
    coreReleaseOp s hubB = firmwareStart (releasedCore s hubB .running) := coreReleaseOp_of_releasable h

/-- Hub-B stays where it is until Hub-A has released it (R64). -/
theorem coreReleaseOp_hubB_held {s : State} (h : s.boot.hubBGo = false) : coreReleaseOp s hubB = s := by
  have hready : relReady s hubB = false := by simp [relReady, isHub, hubA, hubB, h]
  simp [coreReleaseOp, hready]

theorem firmwareStart_of_rom_not_left {s : State} (h : s.boot.rom ≠ .left) : firmwareStart s = s := by
  simp [firmwareStart, h]

/-! ### Spoke reset (R31, R117) -/

theorem onWheel_of_on {s : State} {w : Nat} (h : wheelOn s w = true) (m a : Nat) (f : State → State) :
    onWheel s m w a f = f s := by
  have habsent : wheelAbsent s w = false := by
    simp only [wheelOn, Bool.and_eq_true, Bool.not_eq_true'] at h
    obtain ⟨⟨_, hpresent⟩, _⟩ := h
    exact hpresent
  simp [onWheel, guarded, h, habsent]

theorem filter_bitOf_two_pow : ∀ i < 16, (List.range 16).filter (bitOf (w32 (2 ^ i))) = [i] := by decide

/-- Hub-A's write of one bit of `SPOKE_RESET` resets that Spoke alone. -/
theorem spokeResetWrite_bit (s : State) (w : Nat) {i : Nat} (h : i < 16) :
    spokeResetWrite s hubA w (w32 (2 ^ i)) = resetCore s (16 * w + i) := by
  rw [spokeResetWrite, if_pos rfl, ← List.foldl_filter, filter_bitOf_two_pow i h]
  rfl

/-- A reset core, whatever its job and its slots left: the state of reset, with its clock and its reset count. -/
theorem core_resetCore (s : State) (c : Nat) :
    core (resetCore s c) c =
      { coreReset c with
        frozen := (core (stopMaster s c) c).frozen, resetSinceFreeze := (core (stopMaster s c) c).frozen,
        resetCount := ((core (stopMaster s c) c).resetCount + 1) % 4 } := by
  rw [resetCore, core_congr (setRegB_cores _ _ _ _), core_modCore_same]

theorem regB_relStatus_resetCore (s : State) (c : Nat) : regB (resetCore s c) (relStatusAddr c) 2 = false :=
  regB_setRegB_same _ _ _ (by omega)

theorem getR_of_clear (c : Nat) {k : Core} (hk : k.kregs = []) (hw : k.window = []) (r : Nat) : getR c k r = 0 := by
  simp [getR, hk, hw, smGet]

/-- SPOKE_RESET of Spoke i of a Wheel that is on, written by Hub-A. -/
theorem execSpokeReset_of_on {s : State} {w i : Nat} (hon : wheelOn s w = true) (hi : i < 16) :
    execSpokeReset hubA w i s = .next (resetCore (wakeWheel s w false) (16 * w + i)) := by
  rw [execSpokeReset, onWheel_of_on hon, spokeResetWrite_bit _ w hi]

theorem not_hub_of_wheelOn {s : State} {w i : Nat} (hon : wheelOn s w = true) (hi : i < 16) :
    isHub (16 * w + i) = false := by
  simp only [wheelOn, Bool.and_eq_true, decide_eq_true_eq] at hon
  exact not_hub_of_spoke (decide_eq_true (by omega))

/-! ### The release time (R60) -/

theorem pelotonReachedOp_of_reached {s : State} {c : Nat} (hc : isSpoke c = true) (hon : coreOn s c = true)
    (htime : regPair s (relTimeAddr c) ≤ nowNs s) : pelotonReachedOp s c = setRegB s (relStatusAddr c) 3 true := by
  simp [pelotonReachedOp, hc, hon, htime]

/-- Settles O14: each event is its operation's case for a core that the hypotheses let it reach. -/
theorem coreEventsComplete : Obligations.CoreEventsComplete := by
  intro s c w i k
  refine ⟨fun hc hon hrun hfrozen harmed hdue hpark => ?timer, fun hc hon hrun hfrozen hready => ?spoke,
    fun hc hon hrun hfrozen hready => ?gatekeeper, fun hon hrun hfrozen => ?hubA, fun hon hrun hfrozen hgo => ?hubB,
    fun _ hgo => ?held, fun hon hi => ?spokeReset, fun hc hon htime => ?time⟩
  case timer => exact ⟨_, rfl, timerFireOp_of_running hc hon hrun hfrozen harmed hdue hpark⟩
  case spoke =>
    obtain ⟨hframe, hothers, hcore⟩ := coreReleaseOp_spoke hc ⟨by simp [isCore, hc], hon, hrun, hfrozen, hready⟩
    rw [vectorOf_of_not_hub s (not_hub_of_spoke hc)] at hcore
    exact ⟨_, rfl, hframe, hothers, hcore⟩
  case gatekeeper =>
    obtain ⟨hframe, hothers⟩ := onlyCore_releasedCore s c .running
    have hcore := core_releasedCore s c .running
    rw [vectorOf_of_not_hub s (not_hub_of_gk hc)] at hcore
    rw [exec_coreRelease, coreReleaseOp_gk hc ⟨by simp [isCore, hc], hon, hrun, hfrozen, hready⟩]
    exact ⟨_, rfl, hframe, hothers, hcore⟩
  case hubA =>
    obtain ⟨hframe, hothers⟩ := onlyCore_releasedCore s hubA .running
    rw [exec_coreRelease, coreReleaseOp_hubA ⟨rfl, hon, hrun, hfrozen, rfl⟩]
    exact ⟨_, rfl, hframe, hothers, core_releasedCore s hubA _⟩
  case hubB =>
    obtain ⟨hframe, hothers⟩ := onlyCore_releasedCore s hubB .running
    rw [exec_coreRelease, coreReleaseOp_hubB ⟨rfl, hon, hrun, hfrozen, by simp [relReady, isHub, hgo]⟩]
    exact ⟨_, rfl, hframe, hothers, core_releasedCore s hubB _,
      firmwareStart_of_rom_not_left (s := releasedCore s hubB .running)⟩
  case held => rw [exec_coreRelease, coreReleaseOp_hubB_held hgo]
  case spokeReset =>
    have hcore := core_resetCore (wakeWheel s w false) (16 * w + i)
    rw [coreReset_of_not_hub (not_hub_of_wheelOn hon hi)] at hcore
    have hclear : ∀ r, rd (resetCore (wakeWheel s w false) (16 * w + i)) (16 * w + i) r = 0 :=
      getR_of_clear _ (by rw [hcore]) (by rw [hcore])
    have hwindow : ∀ n, smGet (core (resetCore (wakeWheel s w false) (16 * w + i)) (16 * w + i)).window n 0 = 0 :=
      fun n => by rw [hcore]; rfl
    refine ⟨_, execSpokeReset_of_on hon hi, ?_, hclear, hwindow, ?_, ?_, ?_, ?_, ?_, regB_relStatus_resetCore _ _⟩ <;>
      rw [hcore]
  case time => exact congrArg Host.Outcome.next (pelotonReachedOp_of_reached hc hon htime)

end Sys2Proof.Machine
end

section
/-! SUPPORT. Arithmetic and logic (R69 to R74): the results in the terms of the statement, an instruction that writes one
register, and the statement settled from them. -/

namespace Sys2Proof.Machine

/-! ### Shifts and rotates (R69, R70, R73) -/

theorem ones64_eq : ones64 = -1 := by decide

theorem shiftBy_of_lt {b : W64} (h : b.toNat < 64) (out : W64) (f : Nat → W64) : shiftBy b out f = f b.toNat := if_pos h

/-- An amount of 64 and more leaves 64 copies of the sign. -/
theorem aluFn_sra (a b : W64) :
    aluFn .sra a b = if b.toNat < 64 then a.sshiftRight b.toNat else if a.toInt < 0 then -1 else 0 := by
  simp [aluFn, shiftBy, ones64_eq, BitVec.msb_eq_toInt]

theorem aluFn_rol (a b : W64) : aluFn .rol a b = a <<< (b.toNat % 64) ||| a >>> (64 - b.toNat % 64) := by
  rw [aluFn, BitVec.rotateLeft_mod_eq_rotateLeft, BitVec.rotateLeft_def]

theorem aluFn_ror (a b : W64) : aluFn .ror a b = a >>> (b.toNat % 64) ||| a <<< (64 - b.toNat % 64) := by
  rw [aluFn, BitVec.rotateRight_mod_eq_rotateRight, BitVec.rotateRight_def]

theorem toNat_zext {n : Nat} (v : BitVec n) (h : n ≤ 64) : (zext v).toNat = v.toNat := BitVec.toNat_setWidth_of_le h

/-- An amount of six bits is below 64. -/
theorem toNat_amount_lt (n : BitVec 6) : (zext n).toNat < 64 := by
  rw [toNat_zext n (by decide)]
  exact n.isLt

theorem aluFn_slli (a : W64) (n : BitVec 6) : aluFn .sll a (zext n) = a <<< n.toNat := by
  rw [aluFn, shiftBy_of_lt (toNat_amount_lt n), toNat_zext n (by decide)]

theorem aluFn_srli (a : W64) (n : BitVec 6) : aluFn .srl a (zext n) = a >>> n.toNat := by
  rw [aluFn, shiftBy_of_lt (toNat_amount_lt n), toNat_zext n (by decide)]

theorem aluFn_srai (a : W64) (n : BitVec 6) : aluFn .sra a (zext n) = a.sshiftRight n.toNat := by
  rw [aluFn, shiftBy_of_lt (toNat_amount_lt n), toNat_zext n (by decide)]

theorem aluFn_rori (a : W64) (n : BitVec 6) : aluFn .ror a (zext n) = a >>> n.toNat ||| a <<< (64 - n.toNat) := by
  rw [aluFn_ror, Nat.mod_eq_of_lt (toNat_amount_lt n), toNat_zext n (by decide)]

/-! ### Negation, products, quotients and remainders (R71, R72, R74) -/

theorem aluFn_neg (a b : W64) : aluFn .neg a b = -a := BitVec.zero_sub a

/-- The absolute value of the least number wraps to itself, as its negation does. -/
theorem aluFn_abs (a b : W64) : aluFn .abs a b = BitVec.ofInt 64 a.toInt.natAbs := by
  simp only [aluFn, BitVec.msb_eq_toInt, decide_eq_true_eq]
  split
  · next hneg => rw [Int.ofNat_natAbs_of_nonpos (by omega), BitVec.ofInt_neg, BitVec.ofInt_toInt, ← aluFn_neg a b, aluFn]
  · next hpos => rw [Int.natAbs_of_nonneg (by omega), BitVec.ofInt_toInt]

theorem aluFn_mul (a b : W64) : aluFn .mul a b = BitVec.ofInt 64 (a.toInt * b.toInt) := by
  rw [BitVec.ofInt_mul, BitVec.ofInt_toInt, BitVec.ofInt_toInt, aluFn]

/-- The quotient of the least number by −1 wraps to the least number. -/
theorem sdiv_eq_ofInt (a b : W64) : a.sdiv b = BitVec.ofInt 64 (a.toInt.tdiv b.toInt) :=
  BitVec.eq_of_toInt_eq (by rw [BitVec.toInt_sdiv, BitVec.toInt_ofInt])

theorem srem_eq_ofInt (a b : W64) : a.srem b = BitVec.ofInt 64 (a.toInt.tmod b.toInt) := by
  rw [← BitVec.toInt_srem, BitVec.ofInt_toInt]

theorem aluFn_div (a b : W64) : aluFn .div a b = if b = 0 then -1 else BitVec.ofInt 64 (a.toInt.tdiv b.toInt) := by
  rw [aluFn, divS, ones64_eq, sdiv_eq_ofInt]

theorem aluFn_divu (a b : W64) : aluFn .divu a b = if b = 0 then -1 else BitVec.ofNat 64 (a.toNat / b.toNat) := by
  rw [aluFn, divU, ones64_eq, BitVec.udiv_def]

theorem aluFn_rem (a b : W64) : aluFn .rem a b = if b = 0 then a else BitVec.ofInt 64 (a.toInt.tmod b.toInt) := by
  rw [aluFn, remS, srem_eq_ofInt]

theorem aluFn_remu (a b : W64) : aluFn .remu a b = if b = 0 then a else BitVec.ofNat 64 (a.toNat % b.toNat) := by
  rw [aluFn, remU, BitVec.umod_def]

theorem divideTraps_eq_false {s : State} {c : Nat} {b : W64} (h : b ≠ 0 ∨ bitOf (core s c).ctrl 0 = false) (f : Alu) :
    divideTraps s c f b = false := by
  rcases h with hb | hctrl
  · rw [divideTraps, decide_eq_false hb, Bool.and_false, Bool.false_and]
  · rw [divideTraps, hctrl, Bool.and_false]

/-! ### Instructions that write one register -/

/-- Instruction `i` of `len` bytes writes `v` to register d, steps over itself, and that is all. -/
def Writes (s : State) (c d : Nat) (i : Instr) (len : Nat) (v : W64) : Prop :=
  ∃ t, exec i s = .next t ∧ RegAndPc s t c d v (pcOf s c + BitVec.ofNat 64 len)

/-- A command that issues an operation writes what the operation leaves in its register. -/
theorem writes_of_issue {s : State} {c d len : Nat} {i : Instr} {op : SpokeOp} {v : W64} (hd : d < 32)
    (hi : exec i s = .next (issue s c len op)) (hop : issue s c len op = advance (wr s c d v) c len) :
    Writes s c d i len v :=
  ⟨_, hi, hop ▸ regAndPc_advance_wr s c d v len hd⟩

theorem issue_long {s : State} {c d : Nat} {op : SpokeOp} {v : W64} (h : CanIssue s c 4) (hp : isPriv op = false)
    (hr : isReserved (isSpoke c) (isHub c) op = false) (h1 : ∀ r, op ≠ .rep r) (h2 : ∀ n, op ≠ .repi n)
    (hrun : runOp s c 4 op = .ok (advance (wr s c d v) c 4)) : issue s c 4 op = advance (wr s c d v) c 4 := by
  rw [issue_runs h (by simpa using legal_long hp hr) h1 h2, hrun]
  rfl

/-- The long form of a register operation, whatever registers it names. -/
theorem writes_long_alu {s : State} {c d a b : Nat} {i : Instr} {f : Alu} {v : W64} (h : CanIssue s c 4) (hd : d < 32)
    (hi : exec i s = .next (issue s c 4 (.alu f d a b))) (htrap : divideTraps s c f (rd s c b) = false)
    (hv : aluFn f (rd s c a) (rd s c b) = v) : Writes s c d i 4 v :=
  writes_of_issue hd hi (issue_long h rfl rfl (by simp) (by simp) (by rw [runOp_alu, htrap, hv]; rfl))

/-- The long form of an immediate operation. -/
theorem writes_long_alui {s : State} {c d a : Nat} {i : Instr} {f : Alu} {x v : W64} (h : CanIssue s c 4) (hd : d < 32)
    (hi : exec i s = .next (issue s c 4 (.alui f d a x))) (hv : aluFn f (rd s c a) x = v) : Writes s c d i 4 v :=
  writes_of_issue hd hi (issue_long h rfl rfl (by simp) (by simp) (by rw [runOp_alui, hv]))

/-- A form that has its own first source, or whose first source is its destination, issues its operands (R44). -/
theorem issueAlu_eq {s : State} {f : Alu} {c d a b : Nat} {wide : Bool} (h : wide = true ∨ f = .mov ∨ a = d) :
    issueAlu s f c d a b wide = issue s c (formLen wide) (.alu f d a b) := by
  rcases h with rfl | rfl | rfl <;> simp [issueAlu]

/-- A register operation in either form. -/
theorem writes_alu (f : Alu) {s : State} {c d a b : Nat} {i : Instr} {wide : Bool} (h : CanIssue s c (formLen wide))
    (hd : d < 32) (hc : CodesFit wide [d, a, b]) (hform : wide = true ∨ f = .mov ∨ a = d)
    (hi : exec i s = .next (issueAlu s f c d a b wide)) (hf : f.divides = false) :
    Writes s c d i (formLen wide) (aluFn f (rd s c a) (rd s c b)) :=
  writes_of_issue hd (hi.trans (by rw [issueAlu_eq hform])) (issue_alu h hc (by simp [divideTraps, hf]))

theorem codesFit_append_zero {wide : Bool} {rs : List Nat} (h : CodesFit wide rs) : CodesFit wide (rs ++ [0]) := by
  intro r hr
  rcases List.mem_append.mp hr with hr | hr
  · exact h r hr
  · rw [List.mem_singleton.mp hr]
    split <;> decide

/-- An immediate of five bits is the same number in the short form (R44). -/
theorem sext_setWidth_of_fits5 {imm : BitVec 12} (h : fits5 imm = true) : sext (imm.setWidth 5) = imm.signExtend 64 := by
  have hfit : (imm.setWidth 5).signExtend 12 = imm := by simpa [fits5] using h
  apply BitVec.eq_of_toInt_eq
  rw [sext, BitVec.toInt_signExtend_of_le (by decide), BitVec.toInt_signExtend_of_le (by decide)]
  conv_rhs => rw [← hfit, BitVec.toInt_signExtend_of_le (by decide)]

/-- `ADDI` in either form issues the addition of its immediate. -/
theorem exec_addi {s : State} {c d a : Nat} {imm : BitVec 12} {wide : Bool}
    (h : wide = true ∨ (a = d ∧ fits5 imm = true)) :
    exec (.addi c d a imm wide) s = .next (issue s c (formLen wide) (.alui .add d a (imm.signExtend 64))) := by
  show execAddi c d a imm wide s = _
  cases wide with
  | true => rfl
  | false =>
    obtain hwide | ⟨rfl, hfit⟩ := h
    · cases hwide
    · simp [execAddi, sext_setWidth_of_fits5 hfit]

theorem writes_leapc {s : State} {c d : Nat} (imm : BitVec 12) (h : CanIssue s c 4) (hd : d < 32) :
    Writes s c d (.leapc c d imm) 4 (pcOf s c + imm.signExtend 64) :=
  writes_of_issue hd rfl (issue_long h rfl rfl (by simp) (by simp) (runOp_leapc s c 4 d imm))

theorem writes_sel {s : State} {c d : Nat} (r a b : Nat) (h : CanIssue s c 4) (hd : d < 32) :
    Writes s c d (.sel c d r a b) 4 (if rd s c r = 0 then rd s c b else rd s c a) :=
  writes_of_issue hd rfl (issue_long h rfl rfl (by simp) (by simp) (by rw [runOp_sel, ite_not]))

/-- Settles O3: each form issues its operation, whose result is the stated one, and the issue writes that register alone. -/
theorem arithmeticCompletes : Obligations.ArithmeticCompletes := by
  refine ⟨fun s c d a b wide hd => ?_, fun s c d a b r imm n wide hd => ?_⟩
  · intro A B gives
    refine ⟨fun h hc hform => ?two, fun h hc => ?mov, fun h => ?long, fun h hdiv => ?divide⟩
    case two =>
      have htwo (f : Alu) {i : Instr} (hi : exec i s = .next (issueAlu s f c d a b wide)) (hf : f.divides = false) :=
        writes_alu f h hd hc (hform.imp_right .inr) hi hf
      exact ⟨htwo .add rfl rfl, htwo .sub rfl rfl, htwo .and rfl rfl, htwo .or rfl rfl, htwo .xor rfl rfl⟩
    case mov => exact writes_alu .mov h hd (codesFit_append_zero hc) (.inr (.inl rfl)) rfl rfl
    case long =>
      exact ⟨writes_long_alu h hd rfl rfl rfl, writes_long_alu h hd rfl rfl rfl,
        writes_long_alu h hd rfl rfl (aluFn_sra A B), writes_long_alu h hd rfl rfl (aluFn_rol A B),
        writes_long_alu h hd rfl rfl (aluFn_ror A B), writes_long_alu h hd rfl rfl (aluFn_neg A _),
        writes_long_alu h hd rfl rfl (aluFn_abs A _), writes_long_alu h hd rfl rfl (aluFn_mul A B),
        writes_long_alu h hd rfl rfl rfl, writes_long_alu h hd rfl rfl rfl⟩
    case divide =>
      have htrap := divideTraps_eq_false hdiv
      exact ⟨writes_long_alu h hd rfl (htrap _) (aluFn_div A B), writes_long_alu h hd rfl (htrap _) (aluFn_divu A B),
        writes_long_alu h hd rfl (htrap _) (aluFn_rem A B), writes_long_alu h hd rfl (htrap _) (aluFn_remu A B)⟩
  · intro A gives
    refine ⟨fun h hc hform => ?addi, fun h => ?long⟩
    case addi => exact writes_of_issue hd (exec_addi hform) (issue_alui h hc)
    case long =>
      exact ⟨writes_long_alui h hd rfl rfl, writes_long_alui h hd rfl rfl, writes_long_alui h hd rfl rfl,
        writes_long_alui h hd rfl (aluFn_slli A n), writes_long_alui h hd rfl (aluFn_srli A n),
        writes_long_alui h hd rfl (aluFn_srai A n), writes_long_alui h hd rfl (aluFn_rori A n),
        writes_long_alui h hd rfl rfl, writes_leapc imm h hd, writes_sel r a b h hd⟩

end Sys2Proof.Machine
end

section
/-! SUPPORT. The recorder's commands (R457 to R465): its registers after each write, freezing and thawing, release and commit,
and the statement settled from them. -/

namespace Sys2Proof.Machine

/-! ### Commands of a Hub core (R465) -/

/-- A command that a Hub core gives is its operation. -/
theorem exec_byHub_of_hub {s t : State} {m a : Nat} {i : Instr} {f : State → State} (hm : isHub m = true)
    (hi : exec i s = .next (byHub s m a f)) (hf : f s = t) : exec i s = .next t := by
  rw [hi, byHub, granted, if_pos hm, hf]

/-- Any other master that gives it violates the window. -/
theorem exec_byHub_of_not_hub {s : State} {m a : Nat} {i : Instr} {f : State → State} (hm : isHub m = false)
    (hi : exec i s = .next (byHub s m a f)) : exec i s = .next (violate s m vWindow a) := by
  rw [hi, byHub, granted, if_neg (Bool.eq_false_iff.mp hm)]

theorem eq_hubA_or_hubB {m : Nat} (hm : isHub m = true) : m = hubA ∨ m = hubB := by simpa [isHub] using hm

/-! ### The recorder's registers -/

@[simp] theorem reg_setReg_fs_other (s : State) {x y : Nat} (h : y ≠ x) (v : W32) :
    reg (setReg s (aFs x) v) (aFs y) = reg s (aFs y) := reg_setReg_other s (by simpa [aFs] using h) v

@[simp] theorem reg_setRegB_fs_other (s : State) {x y i : Nat} (h : y ≠ x) (v : Bool) :
    reg (setRegB s (aFs x) i v) (aFs y) = reg s (aFs y) := reg_setReg_fs_other s h _

theorem regB_congr {s t : State} {a : Nat} (h : reg t a = reg s a) (i : Nat) : regB t a i = regB s a i := by
  rw [regB, h, regB]

theorem regB_setRegB_other (s : State) (a : Nat) {i j : Nat} (h : j ≠ i) (v : Bool) :
    regB (setRegB s a i v) a j = regB s a j := by
  have hbit := getLsbD_setFld (reg s a) i 1 (b2n v) j
  rw [if_neg (by omega)] at hbit
  simpa [regB, setRegB, setRegF, bitOf] using hbit

/-! ### The holds (R458) -/

/-- The recorder is frozen while the hold bit of either Hub core is set. -/
theorem fsFrozen_eq (s : State) : fsFrozen s = (regB s (aFs 0x000) 26 || regB s (aFs 0x000) 27) := by
  have hbit (i : Nat) (hi : i < 2) : (fsHold s).testBit i = regB s (aFs 0x000) (26 + i) := by
    simp [fsHold, regF, fld_testBit, hi, regB, bitOf]
  have hlt : fsHold s < 4 := Nat.mod_lt _ (by decide)
  have hbits : ∀ n < 4, decide (n ≠ 0) = (n.testBit 0 || n.testBit 1) := by decide
  rw [fsFrozen, hbits _ hlt, hbit 0 (by decide), hbit 1 (by decide)]

theorem fsFrozen_congr {s t : State} (h : reg t (aFs 0x000) = reg s (aFs 0x000)) : fsFrozen t = fsFrozen s := by
  rw [fsFrozen_eq, fsFrozen_eq, regB_congr h, regB_congr h]

theorem holdBit_lt (m : Nat) : holdBit m < 32 := by
  unfold holdBit
  split <;> decide

theorem fsFrozen_of_hold {s : State} {m : Nat} (h : regB s (aFs 0x000) (holdBit m) = true) : fsFrozen s = true := by
  rw [fsFrozen_eq, Bool.or_eq_true]
  unfold holdBit at h
  split at h
  · exact .inl h
  · exact .inr h

/-- The other one of the two Hub cores. -/
def otherHub (m : Nat) : Nat := if m = hubA then hubB else hubA

/-- Once a Hub core has cleared its hold, the other's hold alone decides. -/
theorem fsFrozen_clear_hold (s : State) {m : Nat} (hm : isHub m = true) :
    fsFrozen (setRegB s (aFs 0x000) (holdBit m) false) =
      regB s (aFs 0x000) (holdBit (otherHub m)) := by
  rw [fsFrozen_eq]
  obtain rfl | rfl := eq_hubA_or_hubB hm
  · simp [otherHub, holdBit, hubA, hubB, regB_setRegB_other]
  · simp [otherHub, holdBit, hubA, hubB, regB_setRegB_other]

theorem fsFrozen_clear_holds (s : State) : fsFrozen (setRegF s (aFs 0x000) 26 2 0) = false := by
  simp [fsFrozen, fsHold]

/-! ### Freezing: waiting records move into the FIFO (R458) -/

/-- What holding records back leaves: the status register, memory, and the recorder but for its FIFO and its note of a drop. -/
def HoldsBack (s t : State) : Prop :=
  reg t (aFs 0x000) = reg s (aFs 0x000) ∧ t.mem = s.mem ∧
    t.fs = { s.fs with fifo := t.fs.fifo, holdLost := t.fs.holdLost }

theorem HoldsBack.trans {s t u : State} (hst : HoldsBack s t) (htu : HoldsBack t u) : HoldsBack s u := by
  obtain ⟨hreg, hmem, hfs⟩ := hst
  obtain ⟨hreg', hmem', hfs'⟩ := htu
  refine ⟨hreg'.trans hreg, hmem'.trans hmem, ?_⟩
  rw [hfs', hfs]

/-- A drop is counted in a counter of its own, never in the status register (R457). -/
theorem reg_status_countDrop (s : State) : reg (countDrop s) (aFs 0x000) = reg s (aFs 0x000) := by
  unfold countDrop
  split
  · exact reg_setReg_fs_other s (by decide) _
  · exact reg_setReg_fs_other s (by decide) _

theorem holdsBack_holdRecord (s : State) (r : Record) : HoldsBack s (holdRecord s r) := by
  simp only [holdRecord]
  split
  · exact ⟨rfl, rfl, rfl⟩
  · exact ⟨reg_status_countDrop s, rfl, rfl⟩

theorem holdsBack_foldl (l : List (Nat × Record)) (s : State) :
    HoldsBack s (l.foldl (fun s e => holdRecord s e.2) s) := by
  induction l generalizing s with
  | nil => exact ⟨rfl, rfl, rfl⟩
  | cons e l ih => exact (holdsBack_holdRecord s e.2).trans (ih _)

/-- `FREEZE`: the writer's hold is set, a merge stops, nothing waits in the island any more. -/
theorem fsFreezeOp_effect (s : State) (m : Nat) :
    regB (fsFreezeOp s m) (aFs 0x000) (holdBit m) = true ∧ fsFrozen (fsFreezeOp s m) = true ∧
      (fsFreezeOp s m).fs.merging = false ∧ (fsFreezeOp s m).fs.arrived = [] ∧
      (fsFreezeOp s m).fs.raised = s.fs.raised ∧ (fsFreezeOp s m).mem = s.mem := by
  obtain ⟨hreg, hmem, hfs⟩ : HoldsBack _ (fsFreezeOp s m) := holdsBack_foldl _ _
  have hhold : regB (fsFreezeOp s m) (aFs 0x000) (holdBit m) = true :=
    (regB_congr hreg _).trans (regB_setRegB_same s _ true (holdBit_lt m))
  exact ⟨hhold, fsFrozen_of_hold hhold, by rw [hfs], by rw [hfs], by rw [hfs]; rfl, hmem⟩

/-! ### Thawing (R458, R459) -/

/-- `t` is `s` after its last hold cleared: the freeze's drops counted, the FIFO, if it holds a record, merging. -/
def Thawed (s t : State) : Prop :=
  fsFrozen t = false ∧ reg t (aFs 0x02C) = 0 ∧
    reg t (aFs 0x00C) = w32 (min ((reg s (aFs 0x00C)).toNat + (reg s (aFs 0x02C)).toNat) (2 ^ 32 - 1)) ∧
    t.fs.merging = !s.fs.fifo.isEmpty ∧ t.fs.fifo = s.fs.fifo ∧ t.mem = s.mem

/-- The sum of two counters, saturating at 2^32 − 1 (R457). -/
theorem saturating_sum (n : Nat) : (if n < 2 ^ 32 then w32 n else all32) = w32 (min n (2 ^ 32 - 1)) := by
  split
  · rw [Nat.min_eq_left (by omega)]
  · rw [Nat.min_eq_right (by omega)]
    rfl

theorem reg_thawStart (s : State) (a : Nat) :
    reg (thawStart s) a =
      reg (setReg (setReg s (aFs 0x00C) (w32 (min ((reg s (aFs 0x00C)).toNat + (reg s (aFs 0x02C)).toNat) (2 ^ 32 - 1))))
        (aFs 0x02C) 0) a := by
  rw [← saturating_sum]
  rfl

@[simp] theorem thawStart_mem (s : State) : (thawStart s).mem = s.mem := rfl
@[simp] theorem thawStart_fifo (s : State) : (thawStart s).fs.fifo = s.fs.fifo := rfl

/-- The thaw after the holds of `s` were cleared by a write of the status register. -/
theorem thawed_thawStart {s : State} {v : W32} (h : fsFrozen (setReg s (aFs 0x000) v) = false) :
    Thawed s (thawStart (setReg s (aFs 0x000) v)) := by
  refine ⟨(fsFrozen_congr ?status).trans h, ?held, ?dropped, ?merging, thawStart_fifo _, thawStart_mem _⟩
  case status => simp [reg_thawStart]
  case held => simp [reg_thawStart]
  case dropped => simp [reg_thawStart]
  case merging => cases hfifo : s.fs.fifo <;> simp [thawStart, hfifo]

theorem fsThawOp_of_not_frozen {s : State} (h : fsFrozen s = false) (m : Nat) : fsThawOp s m = s := by
  simp [fsThawOp, h]

theorem fsThawOp_of_other_hold {s : State} {m : Nat} (hm : isHub m = true) (h : fsFrozen s = true)
    (hother : regB s (aFs 0x000) (holdBit (otherHub m)) = true) :
    fsThawOp s m = setRegB s (aFs 0x000) (holdBit m) false := by
  have hstill := (fsFrozen_clear_hold s hm).trans hother
  simp [fsThawOp, h, hstill]

theorem thawed_fsThawOp {s : State} {m : Nat} (hm : isHub m = true) (h : fsFrozen s = true)
    (hother : regB s (aFs 0x000) (holdBit (otherHub m)) = false) : Thawed s (fsThawOp s m) := by
  have hfree := (fsFrozen_clear_hold s hm).trans hother
  have hop : fsThawOp s m = thawStart (setRegB s (aFs 0x000) (holdBit m) false) := by simp [fsThawOp, h, hfree]
  rw [hop]
  exact thawed_thawStart hfree

theorem freezeTimeoutOp_of_not_frozen {s : State} (h : fsFrozen s = false) : freezeTimeoutOp s = s := by
  simp [freezeTimeoutOp, h]

/-- `FREEZE_TIMEOUT` is none of the bits and registers that a thaw leaves. -/
theorem Thawed.set_timeout {s t : State} (h : Thawed s t) : Thawed s (setRegB t (aFs 0x000) 25 true) := by
  obtain ⟨hfree, hheld, hdropped, hfs⟩ := h
  refine ⟨?_, (reg_setRegB_fs_other t (by decide) _).trans hheld, (reg_setRegB_fs_other t (by decide) _).trans hdropped, hfs⟩
  rwa [fsFrozen_eq, regB_setRegB_other _ _ (by decide), regB_setRegB_other _ _ (by decide), ← fsFrozen_eq]

theorem thawed_freezeTimeoutOp {s : State} (h : fsFrozen s = true) :
    Thawed s (freezeTimeoutOp s) ∧ regB (freezeTimeoutOp s) (aFs 0x000) 25 = true := by
  simp only [freezeTimeoutOp, fsThawAll, h, if_true]
  exact ⟨(thawed_thawStart (fsFrozen_clear_holds s)).set_timeout, regB_setRegB_same _ _ _ (by decide)⟩

theorem mergeEndOp_of_empty {s : State} (hm : s.fs.merging = true) (hf : s.fs.fifo = []) :
    mergeEndOp s = { s with fs := { s.fs with merging := false } } := by
  simp [mergeEndOp, hm, hf]

theorem mergeEndOp_of_unfinished {s : State} (h : s.fs.merging = false ∨ s.fs.fifo ≠ []) : mergeEndOp s = s := by
  obtain h | h := h <;> simp [mergeEndOp, h]

/-! ### Release (R462) -/

/-- A value that `FS_RELEASE` takes: a multiple of 8 in ring order from the read pointer to the write pointer. -/
def InRing (s : State) (v : W32) : Prop := v.toNat % 8 = 0 ∧ v.toNat < fsSize ∧ fsDist s v.toNat ≤ fsDist s (fsWr s)

theorem fsReleaseOp_of_not_inRing {s : State} {v : W32} (h : ¬InRing s v) : fsReleaseOp s v = fsResult s 1 := by
  refine if_pos ?_
  simp only [InRing] at h
  simp only [Bool.or_eq_true, decide_eq_true_eq]
  omega

theorem fsReleaseOp_of_inRing {s : State} {v : W32} (h : InRing s v) :
    fsReleaseOp s v = if commitActive s then fsResult s 2 else fsResult (setReg s (aFs 0x008) v) 0 := by
  obtain ⟨hmult, hin, hdist⟩ := h
  refine if_neg ?_
  simp only [Bool.or_eq_true, decide_eq_true_eq]
  omega

/-! ### Commit (R464) -/

theorem commitActive_congr {s t : State} (h : reg t (aFs 0x000) = reg s (aFs 0x000)) : commitActive t = commitActive s :=
  regB_congr h _

/-- `t` differs from `s` in control registers at most. -/
def OnlyRegs (s t : State) : Prop := ∃ regs, t = { s with regs }

theorem OnlyRegs.refl (s : State) : OnlyRegs s s := ⟨_, rfl⟩

theorem OnlyRegs.setReg {s t : State} (h : OnlyRegs s t) (a : Nat) (v : W32) : OnlyRegs s (setReg t a v) := by
  obtain ⟨regs, rfl⟩ := h
  exact ⟨_, rfl⟩

theorem OnlyRegs.hubInt_eq {s t : State} (h : OnlyRegs s t) (name : String) :
    hubInt t name = { s with regs := (hubInt t name).regs, out := s.out ++ [.hubInt name 0] } := by
  obtain ⟨regs, rfl⟩ := h
  rfl

theorem commitOp_of_active {s : State} (h : commitActive s = true) : commitOp s = fsResult s 2 := if_pos h

/-- The registers of a commit under way: both pointers captured, the commit active, its command accepted. -/
def committing (s : State) : State :=
  fsResult (setRegB (setReg (setReg s (aFs 0x020) (reg s (aFs 0x008))) (aFs 0x024) (reg s (aFs 0x004))) (aFs 0x000) 28 true) 0

theorem commitOp_of_idle {s : State} (h : commitActive s = false) :
    commitOp s = hubInt (committing s) "INT_FS_COMMIT" := by
  rw [commitOp, if_neg (Bool.eq_false_iff.mp h), committing]
  simp only [reg_setReg_fs_other s (show 0x004 ≠ 0x020 by decide)]

theorem onlyRegs_committing (s : State) : OnlyRegs s (committing s) :=
  ((((OnlyRegs.refl s).setReg _ _).setReg _ _).setReg _ _).setReg _ _

theorem commitActive_committing (s : State) : commitActive (committing s) = true :=
  (regB_congr (reg_setReg_fs_other _ (by decide) _) 28).trans (regB_setRegB_same _ _ _ (by decide))

/-- A commit captures both pointers, marks itself active and calls Hub-B; of the state only registers and outputs change. -/
theorem commitOp_effect {s : State} (h : commitActive s = false) :
    commitActive (commitOp s) = true ∧ reg (commitOp s) (aFs 0x020) = reg s (aFs 0x008) ∧
      reg (commitOp s) (aFs 0x024) = reg s (aFs 0x004) ∧ reg (commitOp s) (aFs 0x018) = 0 ∧
      commitOp s = { s with regs := (commitOp s).regs, out := s.out ++ [.hubInt "INT_FS_COMMIT" 0] } := by
  rw [commitOp_of_idle h]
  have hregs (a : Nat) : reg (hubInt (committing s) "INT_FS_COMMIT") a = reg (committing s) a :=
    reg_congr (hubInt_regs _ _ _) a
  refine ⟨(commitActive_congr (hregs _)).trans (commitActive_committing s), ?start, ?stop, ?result,
    (onlyRegs_committing s).hubInt_eq _⟩
  case start => rw [hregs]; simp [committing, fsResult]
  case stop => rw [hregs]; simp [committing, fsResult]
  case result => exact (hregs _).trans (reg_setReg_same _ _ _)

theorem commitDoneOp_of_idle {s : State} (h : commitActive s = false) (release : Bool) : commitDoneOp s release = s :=
  if_neg (Bool.eq_false_iff.mp h)

/-- The end of a commit: the captured span is released on request; of the state only registers change. -/
theorem commitDoneOp_effect {s : State} (h : commitActive s = true) (release : Bool) :
    commitDoneOp s release = { s with regs := (commitDoneOp s release).regs } ∧
      commitActive (commitDoneOp s release) = false ∧
      reg (commitDoneOp s release) (aFs 0x008) = (if release then reg s (aFs 0x024) else reg s (aFs 0x008)) ∧
      reg (commitDoneOp s release) (aFs 0x018) = 0 := by
  have hcleared : commitActive (setRegB s (aFs 0x000) 28 false) = false := regB_setRegB_same s _ _ (by decide)
  rw [commitDoneOp, if_pos h]
  cases release with
  | false =>
    refine ⟨rfl, (commitActive_congr ?_).trans hcleared, ?_, reg_setReg_same _ _ _⟩
    · simp [fsResult]
    · simp [fsResult]
  | true =>
    refine ⟨rfl, (commitActive_congr ?_).trans hcleared, ?_, reg_setReg_same _ _ _⟩
    · simp [fsResult]
    · simp [fsResult]

/-! ### Software's records (R454, R465) -/

theorem fsSwGoOp_of_length {s : State} {m : Nat} (hlo : 2 ≤ fld (smGet s.fs.swHeader m 0) 12 7)
    (hhi : fld (smGet s.fs.swHeader m 0) 12 7 ≤ 66) :
    fsSwGoOp s m = emit s islHub m (fld (smGet s.fs.swHeader m 0) 0 12)
      ((List.range (fld (smGet s.fs.swHeader m 0) 12 7 - 2)).map fun i => smGet s.fs.swData (m * 64 + i) 0) := by
  refine if_pos ?_
  simp only [Bool.and_eq_true, decide_eq_true_eq]
  exact ⟨hlo, hhi⟩

theorem fsSwGoOp_of_bad_length {s : State} {m : Nat}
    (h : fld (smGet s.fs.swHeader m 0) 12 7 < 2 ∨ 66 < fld (smGet s.fs.swHeader m 0) 12 7) : fsSwGoOp s m = s := by
  refine if_neg ?_
  simp only [Bool.and_eq_true, decide_eq_true_eq]
  omega

/-- Settles O55: a Hub core's command is its operation, and each operation has one lemma per case. -/
theorem recorderCommandsComplete : Obligations.RecorderCommandsComplete := by
  intro s m v release other sum thawed inRing h
  refine ⟨fun hm => ?hub, fun hm => ⟨exec_byHub_of_not_hub hm rfl, exec_byHub_of_not_hub hm rfl⟩,
    fun hmerging hfifo => congrArg Host.Outcome.next (mergeEndOp_of_empty hmerging hfifo),
    fun hunfinished => congrArg Host.Outcome.next (mergeEndOp_of_unfinished hunfinished),
    fun hfree => congrArg Host.Outcome.next (freezeTimeoutOp_of_not_frozen hfree),
    fun hfrozen => ⟨_, rfl, thawed_freezeTimeoutOp hfrozen⟩⟩
  case hub =>
    refine ⟨⟨_, exec_byHub_of_hub hm rfl rfl, fsFreezeOp_effect s m⟩, ?thawIdle, ?thawHeld, ?thawLast, ?releaseBad,
      ?releaseBusy, ?release, ?commitBusy, ?commit, ?doneIdle, ?done, exec_byHub_of_hub hm rfl rfl, ?record, ?noRecord⟩
    case thawIdle => exact fun hfree => exec_byHub_of_hub hm rfl (fsThawOp_of_not_frozen hfree m)
    case thawHeld => exact fun hfrozen hother => exec_byHub_of_hub hm rfl (fsThawOp_of_other_hold hm hfrozen hother)
    case thawLast => exact fun hfrozen hother => ⟨_, exec_byHub_of_hub hm rfl rfl, thawed_fsThawOp hm hfrozen hother⟩
    case releaseBad => exact fun hbad => exec_byHub_of_hub hm rfl (fsReleaseOp_of_not_inRing hbad)
    case releaseBusy =>
      exact fun hin hbusy => exec_byHub_of_hub hm rfl ((fsReleaseOp_of_inRing hin).trans (if_pos hbusy))
    case release =>
      exact fun hin hidle => exec_byHub_of_hub hm rfl ((fsReleaseOp_of_inRing hin).trans (if_neg (Bool.eq_false_iff.mp hidle)))
    case commitBusy => exact fun hbusy => exec_byHub_of_hub hm rfl (commitOp_of_active hbusy)
    case commit => exact fun hidle => ⟨_, exec_byHub_of_hub hm rfl rfl, commitOp_effect hidle⟩
    case doneIdle => exact fun hidle => exec_byHub_of_hub hm rfl (commitDoneOp_of_idle hidle release)
    case done => exact fun hactive => ⟨_, exec_byHub_of_hub hm rfl rfl, commitDoneOp_effect hactive release⟩
    case record => exact fun hlo hhi => exec_byHub_of_hub hm rfl (fsSwGoOp_of_length hlo hhi)
    case noRecord => exact fun hbad => exec_byHub_of_hub hm rfl (fsSwGoOp_of_bad_length hbad)

end Sys2Proof.Machine
end

section
/-! SUPPORT. The encodings of the Spoke instruction set (R41 to R48): the parts of a word, the decoder on them, and both round trips. -/

namespace Sys2Proof.Machine

/-- The parts of a 32-bit instruction word fit their fields (R45). -/
structure Parts (M d a hi : Nat) : Prop where
  major : M < 32
  rd : d < 32
  ra : a < 32
  hi : hi < 65536

section
variable {M d a hi : Nat}

theorem toNat_longWord (h : Parts M d a hi) :
    (longWord M d a hi).toNat = 32768 + M * 1024 + d * 32 + a + hi * 65536 := by
  obtain ⟨hM, hd, ha, hh⟩ := h
  rw [longWord, BitVec.toNat_ofNat]
  omega

/-- The bits of a word below bit 16 do not reach its upper half. -/
theorem longWord_upper (h : Parts M d a hi) (i n : Nat) :
    (longWord M d a hi).toNat / 2 ^ (16 + i) % 2 ^ n = hi / 2 ^ i % 2 ^ n := by
  obtain ⟨hM, hd, ha, hh⟩ := id h
  rw [toNat_longWord h, pow_add, ← Nat.div_div_eq_div_mul]
  congr 2
  omega

theorem longWord_major (h : Parts M d a hi) : (longWord M d a hi).toNat / 2 ^ 10 % 2 ^ 5 = M := by
  obtain ⟨hM, hd, ha, hh⟩ := id h
  rw [toNat_longWord h]; omega

theorem longWord_rd (h : Parts M d a hi) : (longWord M d a hi).toNat / 2 ^ 5 % 2 ^ 5 = d := by
  obtain ⟨hM, hd, ha, hh⟩ := id h
  rw [toNat_longWord h]; omega

theorem longWord_rd_low (h : Parts M d a hi) : (longWord M d a hi).toNat / 2 ^ 5 % 2 ^ 4 = d % 16 := by
  obtain ⟨hM, hd, ha, hh⟩ := id h
  rw [toNat_longWord h]; omega

theorem longWord_ra (h : Parts M d a hi) : (longWord M d a hi).toNat / 2 ^ 0 % 2 ^ 5 = a := by
  obtain ⟨hM, hd, ha, hh⟩ := id h
  rw [toNat_longWord h]; omega

theorem longWord_ra_low (h : Parts M d a hi) : (longWord M d a hi).toNat / 2 ^ 0 % 2 ^ 1 = a % 2 := by
  obtain ⟨hM, hd, ha, hh⟩ := id h
  rw [toNat_longWord h]; omega

theorem longWord_ra_high (h : Parts M d a hi) : (longWord M d a hi).toNat / 2 ^ 1 % 2 ^ 4 = a / 2 := by
  obtain ⟨hM, hd, ha, hh⟩ := id h
  rw [toNat_longWord h]; omega

theorem longWord_imm (h : Parts M d a hi) : (longWord M d a hi).extractLsb' 20 12 = BitVec.ofNat 12 (hi / 16) := by
  apply BitVec.eq_of_toNat_eq
  have := longWord_upper h 4 12
  rw [BitVec.extractLsb'_toNat, Nat.shiftRight_eq_div_pow, this, BitVec.toNat_ofNat]
  rfl

theorem longWord_bit9 (h : Parts M d a hi) : (longWord M d a hi).getLsbD 9 = decide (d / 16 = 1) := by
  obtain ⟨hM, hd, ha, hh⟩ := id h
  rw [BitVec.getLsbD, Nat.testBit_eq_decide_div_mod_eq, toNat_longWord h]
  congr 1
  apply propext
  omega

theorem longWord_bit15 (h : Parts M d a hi) : (longWord M d a hi).getLsbD 15 = true := by
  obtain ⟨hM, hd, ha, hh⟩ := id h
  rw [BitVec.getLsbD, Nat.testBit_eq_decide_div_mod_eq, toNat_longWord h, decide_eq_true_eq]
  omega

theorem longWord_bit22 (h : Parts M d a hi) : (longWord M d a hi).getLsbD 22 = decide (hi / 64 % 2 = 1) := by
  have := longWord_upper h 6 1
  rw [BitVec.getLsbD, Nat.testBit_eq_decide_div_mod_eq]
  simpa using congrArg (fun n => decide (n = 1)) this

/-- A word of 32 bits has bit 15 and its parts (R41, R45). -/
theorem exists_parts {w : W32} (h : w.getLsbD 15 = true) : ∃ M d a hi, Parts M d a hi ∧ w = longWord M d a hi := by
  have hbit : w.toNat / 2 ^ 15 % 2 = 1 := by
    rwa [BitVec.getLsbD, Nat.testBit_eq_decide_div_mod_eq, decide_eq_true_eq] at h
  have hp : Parts (w.toNat / 1024 % 32) (w.toNat / 32 % 32) (w.toNat % 32) (w.toNat / 65536) := by
    have := w.isLt
    constructor <;> omega
  refine ⟨_, _, _, _, hp, BitVec.eq_of_toNat_eq ?_⟩
  rw [toNat_longWord hp]
  omega

end
/-- The upper fields of the parts of a word, one per place that a form uses (R45 to R48). -/
theorem longWord_fields {M d a hi : Nat} (h : Parts M d a hi) :
    let w := longWord M d a hi
    w.toNat / 2 ^ 16 % 2 ^ 5 = hi % 32 ∧ w.toNat / 2 ^ 16 % 2 ^ 4 = hi % 16 ∧ w.toNat / 2 ^ 16 % 2 ^ 16 = hi ∧
    w.toNat / 2 ^ 21 % 2 ^ 1 = hi / 32 % 2 ∧ w.toNat / 2 ^ 22 % 2 ^ 5 = hi / 64 % 32 ∧
    w.toNat / 2 ^ 22 % 2 ^ 2 = hi / 64 % 4 ∧ w.toNat / 2 ^ 24 % 2 ^ 3 = hi / 256 % 8 ∧
    w.toNat / 2 ^ 27 % 2 ^ 5 = hi / 2048 ∧ w.toNat / 2 ^ 27 % 2 ^ 3 = hi / 2048 % 8 ∧
    w.toNat / 2 ^ 30 % 2 ^ 2 = hi / 16384 := by
  have hh := h.hi
  have up := longWord_upper h
  refine ⟨(up 0 5).trans ?_, (up 0 4).trans ?_, (up 0 16).trans ?_, (up 5 1).trans ?_, (up 6 5).trans ?_, (up 6 2).trans ?_,
    (up 8 3).trans ?_, (up 11 5).trans ?_, (up 11 3).trans ?_, (up 14 2).trans ?_⟩ <;> omega

/-- The 32-bit decoder on the parts of a word (R45, R46). -/
def decodeParts (M d a hi : Nat) : SpokeOp :=
  let rb := hi % 32
  let rc := hi / 64 % 32
  let func := hi / 2048
  let fn := hi % 16
  let imm := BitVec.ofNat 12 (hi / 16)
  let off : BitVec 20 := BitVec.ofNat 20 (a / 2 * 65536 + hi)
  match M with
  | 0x01 =>
    match aluLong func with
    | some g => whenZero (rc + hi / 32 % 2 + (if g = .mov || g = .neg || g = .abs then rb else 0)) (.alu g d a rb)
    | none => .reserved false
  | 0x02 =>
    if func = 8 then whenZero (hi / 32 % 2) (.sel d rc a rb)
    else match (if func < 6 then cmpOf func else none) with
      | some g => whenZero (rc + hi / 32 % 2) (.alu g d a rb)
      | none => .reserved false
  | 0x03 =>
    if fn = 9 then whenZero a (.leapc d imm)
    else match aluImm fn imm with
      | some (g, v, short) => whenZero (if short then imm.toNat / 64 else 0) (.alui g d a v)
      | none => .reserved false
  | 0x04 =>
    match cmpOf fn with
    | some g => .alui g d a (sext imm)
    | none => .reserved false
  | 0x05 => whenZero (fn / 8) (.load d a (.offset imm) (BitVec.ofNat 3 fn))
  | 0x06 => whenZero (fn / 8) (.store d a (.offset imm) (BitVec.ofNat 3 fn))
  | 0x07 =>
    match lmMode (hi / 16384) rb (hi / 64 % 4) with
    | some m => whenZero (hi / 256 % 8 + hi / 32 % 2) (.load d a m (BitVec.ofNat 3 (hi / 2048 % 8)))
    | none => .reserved false
  | 0x08 =>
    match lmMode (hi / 16384) rb (hi / 64 % 4) with
    | some m => whenZero (hi / 256 % 8 + hi / 32 % 2) (.store d a m (BitVec.ofNat 3 (hi / 2048 % 8)))
    | none => .reserved false
  | 0x09 => whenZero (a % 2) (.branch false d off)
  | 0x0A => whenZero (a % 2) (.branch true d off)
  | 0x0B => whenZero (a % 2 + d) (.br off)
  | 0x0C => whenZero (a % 2 + d % 16) (.call off (d / 16 = 1))
  | 0x0D =>
    if func = 0 then whenZero (d + rb + rc + hi / 32 % 2) (.jr a)
    else if func = 1 then whenZero (d + rb + rc / 2 + hi / 32 % 2) (.callr a (rc % 2 = 1))
    else .reserved false
  | 0x0E =>
    if fn = 0 then whenZero (d + imm.toNat) (.rep a)
    else if fn = 1 then whenZero (d + a + imm.toNat / 64) (.repi (imm.toNat % 64 + 1))
    else .reserved false
  | 0x0F =>
    match fn with
    | 0 => if imm = 1 then whenZero a (.waitJob d) else whenZero (d + a + imm.toNat) .wait
    | 1 => whenZero (d + a + imm.toNat) .fence
    | 2 => .hubcall d a imm
    | 3 => whenZero (d + a + imm.toNat) .excRet
    | 4 => whenZero a (.crr d imm)
    | 5 => whenZero d (.crw imm a)
    | _ => .reserved false
  | 0x10 =>
    match fn with
    | 0 => if a = 0 then .pcrr d imm else .reserved true
    | 1 => if d = 0 then .pcrw imm a else .reserved true
    | 2 => if a + imm.toNat = 0 then .intoff d else .reserved true
    | 3 => if d + a + imm.toNat = 0 then .inton else .reserved true
    | _ => .reserved true
  | _ => .reserved false

theorem decodeLong_longWord {M d a hi : Nat} (h : Parts M d a hi) :
    decodeLong (longWord M d a hi) = decodeParts M d a hi := by
  obtain ⟨f1, f2, f3, f4, f5, f6, f7, f8, f9, f10⟩ := longWord_fields h
  have h22 : decide (hi / 64 % 2 = 1) = decide (hi / 64 % 32 % 2 = 1) := by
    congr 1; apply propext; omega
  unfold decodeLong decodeParts
  simp only [f1, f2, f3, f4, f5, f6, f7, f8, f9, f10, longWord_major h, longWord_rd h, longWord_ra h, longWord_ra_low h,
    longWord_ra_high h, longWord_rd_low h, longWord_imm h, longWord_bit9 h, longWord_bit22 h, h22] <;> rfl

/-! ### A word that decodes is its instruction's own (R42, R45) -/

/-- What the word `w` decodes to is reserved, or is an instruction whose own 32-bit form is `w`. -/
def Canonical (op : SpokeOp) (w : W32) : Prop := (∀ p, op ≠ .reserved p) → longOk op = true ∧ encodeLong op = w

theorem canonical_reserved (p : Bool) (w : W32) : Canonical (.reserved p) w := fun h => absurd rfl (h p)

theorem canonical_whenZero {z : Nat} {op : SpokeOp} {w : W32} (h : z = 0 → Canonical op w) : Canonical (whenZero z op) w := by
  unfold whenZero
  split
  · next hz => exact h hz
  · exact canonical_reserved _ _

theorem aluCode_of_aluLong {n : Nat} {g : Alu} (h : aluLong n = some g) : aluCode g = n ∧ cmpCode g = 8 ∧ n ≠ 31 := by
  have hn : n < 0x18 := by
    by_contra hge
    have hnone : aluLong n = none := by
      rw [aluLong.eq_def]
      split
      case h_21 => rfl
      all_goals omega
    rw [hnone] at h
    cases h
  interval_cases n <;> cases h <;> decide

theorem cmpCode_of_cmpOf {n : Nat} {g : Alu} (h : cmpOf n = some g) : cmpCode g = n ∧ n < 8 := by
  obtain ⟨hn, -⟩ := List.getElem?_eq_some_iff.mp h
  have hn : n < 8 := hn
  interval_cases n <;> cases h <;> decide

theorem not_unary_of_cmpCode {g : Alu} (h : cmpCode g < 8) : (g = .mov || g = .neg || g = .abs) = false := by
  revert h
  cases g <;> decide

theorem encodeLong_alu {g : Alu} (h : cmpCode g = 8) (d a b : Nat) :
    encodeLong (.alu g d a b) = longWord 0x01 d a (2048 * aluCode g + b) := if_pos h

theorem encodeLong_compare {g : Alu} (h : cmpCode g ≠ 8) (d a b : Nat) :
    encodeLong (.alu g d a b) = longWord 0x02 d a (2048 * cmpCode g + b) := if_neg h

theorem encodeLong_alui {g : Alu} (h : cmpCode g = 8) (d a : Nat) (v : W64) :
    encodeLong (.alui g d a v) = longWord 0x03 d a (16 * (v.toNat % 4096) + immCode g) := if_pos h

theorem encodeLong_comparei {g : Alu} (h : cmpCode g ≠ 8) (d a : Nat) (v : W64) :
    encodeLong (.alui g d a v) = longWord 0x04 d a (16 * (v.toNat % 4096) + cmpCode g) := if_neg h

theorem encodeLong_sel (d r a b : Nat) : encodeLong (.sel d r a b) = longWord 0x02 d a (2048 * 8 + 64 * r + b) := rfl

theorem encodeLong_leapc (d : Nat) (imm : BitVec 12) :
    encodeLong (.leapc d imm) = longWord 0x03 d 0 (16 * imm.toNat + 9) := rfl

/-- The low bits of a sign-extended value are the value. -/
theorem setWidth_signExtend {n m : Nat} (h : n ≤ m) (v : BitVec n) : (v.signExtend m).setWidth n = v := by
  ext i hi
  simp [BitVec.getLsbD_signExtend, hi]
  omega

theorem toNat_sext_mod {n : Nat} (h : n ≤ 64) (v : BitVec n) : (sext v).toNat % 2 ^ n = v.toNat := by
  simpa [sext] using congrArg BitVec.toNat (setWidth_signExtend h v)

theorem extract_signExtend {n m : Nat} (h : n ≤ m) (v : BitVec n) : (v.signExtend m).extractLsb' 0 n = v := by
  apply BitVec.eq_of_toNat_eq
  simpa using congrArg BitVec.toNat (setWidth_signExtend h v)

theorem toNat_sext_imm (imm : BitVec 12) : (sext imm).toNat % 4096 = imm.toNat := toNat_sext_mod (by decide) imm

theorem extract_sext_imm (imm : BitVec 12) : (sext imm).extractLsb' 0 12 = imm := extract_signExtend (by decide) imm

/-- The immediate operand of MAJOR `0x03` is one that its operation takes, and its low bits are the word's. -/
theorem immCode_of_aluImm {n : Nat} {imm : BitVec 12} {g : Alu} {v : W64} {short : Bool}
    (h : aluImm n imm = some (g, v, short)) (hz : (if short then imm.toNat / 64 else 0) = 0) :
    immCode g = n ∧ cmpCode g = 8 ∧ n ≠ 15 ∧ immOk g v = true ∧ v.toNat % 4096 = imm.toNat := by
  have hn : n < 9 := by
    by_contra hge
    have hnone : aluImm n imm = none := by
      rw [aluImm.eq_def]
      dsimp only
      split
      case h_10 => rfl
      all_goals omega
    rw [hnone] at h
    cases h
  have hlt := imm.isLt
  have hs := toNat_sext_imm imm
  interval_cases n <;> cases h
  all_goals simp [immCode, cmpCode, immOk, extract_sext_imm, hs, zext] at hz ⊢
  all_goals omega

section
variable {d a hi : Nat}

/-- The upper half of a word from its fields `func`, `rc`, bit 21 and `rb`. -/
theorem upper_fields (hi : Nat) : 2048 * (hi / 2048) + 64 * (hi / 64 % 32) + 32 * (hi / 32 % 2) + hi % 32 = hi := by
  omega

theorem canonical_alu (h : Parts 0x01 d a hi) : Canonical (decodeParts 0x01 d a hi) (longWord 0x01 d a hi) := by
  obtain ⟨-, hd, ha, hh⟩ := h
  have hfields := upper_fields hi
  simp only [decodeParts]
  split
  · next g hg =>
    obtain ⟨hcode, hcmp, hn⟩ := aluCode_of_aluLong hg
    refine canonical_whenZero fun hz _ => ⟨?_, ?_⟩
    · cases hu : (decide (g = .mov) || decide (g = .neg) || decide (g = .abs)) with
      | false => simp [longOk, hcmp, hcode, hn, hd, ha, hu]; omega
      | true => simp [hu] at hz; simp [longOk, hcmp, hcode, hn, hd, ha, hz]
    · rw [encodeLong_alu hcmp, hcode, show 2048 * (hi / 2048) + hi % 32 = hi by omega]
  · exact canonical_reserved _ _

theorem canonical_compare (h : Parts 0x02 d a hi) : Canonical (decodeParts 0x02 d a hi) (longWord 0x02 d a hi) := by
  obtain ⟨-, hd, ha, hh⟩ := h
  have hfields := upper_fields hi
  simp only [decodeParts]
  split
  · refine canonical_whenZero fun hz _ => ⟨by simp [longOk, hd, ha]; omega, ?_⟩
    rw [encodeLong_sel, show 2048 * 8 + 64 * (hi / 64 % 32) + hi % 32 = hi by omega]
  · by_cases hfunc : hi / 2048 < 6
    · rw [if_pos hfunc]
      split
      · next g hg =>
        obtain ⟨hcode, hlt⟩ := cmpCode_of_cmpOf hg
        have hu := not_unary_of_cmpCode (hcode.trans_lt hlt)
        refine canonical_whenZero fun hz _ => ⟨?_, ?_⟩
        · simp [longOk, hcode, hd, ha, hu]; omega
        · rw [encodeLong_compare (by omega), hcode, show 2048 * (hi / 2048) + hi % 32 = hi by omega]
      · exact canonical_reserved _ _
    · rw [if_neg hfunc]
      exact canonical_reserved _ _

/-- The upper half of a word from its immediate and FN. -/
theorem imm_fn (hh : hi < 65536) : 16 * (BitVec.ofNat 12 (hi / 16)).toNat + hi % 16 = hi := by
  rw [BitVec.toNat_ofNat]
  omega

theorem canonical_immediate (h : Parts 0x03 d a hi) : Canonical (decodeParts 0x03 d a hi) (longWord 0x03 d a hi) := by
  obtain ⟨-, hd, ha, hh⟩ := h
  have himm := imm_fn hh
  simp only [decodeParts]
  split
  · next hfn =>
    refine canonical_whenZero fun hz _ => ⟨by simp [longOk, hd], ?_⟩
    rw [encodeLong_leapc, ← hfn, himm, hz]
  · split
    · next g v short hg =>
      refine canonical_whenZero fun hz _ => ?_
      obtain ⟨hcode, hcmp, hn, hok, hv⟩ := immCode_of_aluImm hg hz
      refine ⟨by simp [longOk, hcode, hn, hd, ha, hok], ?_⟩
      rw [encodeLong_alui hcmp, hv, hcode, himm]
    · exact canonical_reserved _ _

/-- A compare takes the immediates that 12 bits sign-extend to. -/
theorem immOk_of_compare {g : Alu} (h : cmpCode g < 8) (v : W64) : immOk g v = decide (v = sext (v.extractLsb' 0 12)) := by
  cases g
  case sll | srl | sra | ror | cat => exact absurd h (by decide)
  all_goals rfl

theorem immOk_compare {g : Alu} (h : cmpCode g < 8) (imm : BitVec 12) : immOk g (sext imm) = true := by
  rw [immOk_of_compare h, extract_sext_imm, decide_eq_true rfl]

theorem canonical_compareImmediate (h : Parts 0x04 d a hi) :
    Canonical (decodeParts 0x04 d a hi) (longWord 0x04 d a hi) := by
  obtain ⟨-, hd, ha, hh⟩ := h
  simp only [decodeParts]
  split
  · next g hg =>
    obtain ⟨hcode, hlt⟩ := cmpCode_of_cmpOf hg
    have hok := immOk_compare (hcode.trans_lt hlt) (BitVec.ofNat 12 (hi / 16))
    refine fun _ => ⟨by simp [longOk, hcode, hlt, hd, ha, hok], ?_⟩
    rw [encodeLong_comparei (by omega), toNat_sext_imm, hcode, imm_fn hh]
  · exact canonical_reserved _ _

theorem memWord_offset (i lm : Nat) (hh : hi < 65536) (hz : hi % 16 / 8 = 0) :
    memWord i lm d a (.offset (BitVec.ofNat 12 (hi / 16))) (BitVec.ofNat 3 (hi % 16)) = longWord i d a hi := by
  have hsize : (BitVec.ofNat 3 (hi % 16)).toNat = hi % 16 := by rw [BitVec.toNat_ofNat]; omega
  rw [memWord, hsize, imm_fn hh]

theorem memWord_lm (i lm : Nat) {m : AddrMode} (hh : hi < 65536) (hz : hi / 256 % 8 + hi / 32 % 2 = 0)
    (hm : lmMode (hi / 16384) (hi % 32) (hi / 64 % 4) = some m) :
    modeOk m = true ∧ memWord i lm d a m (BitVec.ofNat 3 (hi / 2048 % 8)) = longWord lm d a hi := by
  have hsize : (BitVec.ofNat 3 (hi / 2048 % 8)).toNat = hi / 2048 % 8 := by rw [BitVec.toNat_ofNat]; omega
  have hlt : hi / 16384 < 4 := by omega
  generalize hq : hi / 16384 = q at hm hlt
  interval_cases q
  · obtain ⟨⟨hb, hs⟩, rfl⟩ : (hi % 32 = 0 ∧ hi / 64 % 4 = 0) ∧ .postInc = m := by simpa [lmMode] using hm
    refine ⟨rfl, ?_⟩
    rw [memWord, lmBits, hsize, show 2048 * (hi / 2048 % 8) = hi by omega]
    simp
  · obtain ⟨⟨hb, hs⟩, rfl⟩ : (hi % 32 = 0 ∧ hi / 64 % 4 = 0) ∧ .preDec = m := by simpa [lmMode] using hm
    refine ⟨rfl, ?_⟩
    rw [memWord, lmBits, hsize, show 16384 + 2048 * (hi / 2048 % 8) = hi by omega]
    simp
  · obtain rfl : .index (hi % 32) (BitVec.ofNat 2 (hi / 64 % 4)) = m := by simpa [lmMode] using hm
    have hs : (BitVec.ofNat 2 (hi / 64 % 4)).toNat = hi / 64 % 4 := by rw [BitVec.toNat_ofNat]; omega
    refine ⟨by simp [modeOk]; omega, ?_⟩
    rw [memWord, lmBits, hsize, hs, show 32768 + 2048 * (hi / 2048 % 8) + 64 * (hi / 64 % 4) + hi % 32 = hi by omega]
    simp
  · cases hm

theorem canonical_load_offset (h : Parts 0x05 d a hi) : Canonical (decodeParts 0x05 d a hi) (longWord 0x05 d a hi) := by
  simp only [decodeParts]
  exact canonical_whenZero fun hz _ => ⟨by simp [longOk, modeOk, h.rd, h.ra], memWord_offset 0x05 0x07 h.hi hz⟩

theorem canonical_store_offset (h : Parts 0x06 d a hi) : Canonical (decodeParts 0x06 d a hi) (longWord 0x06 d a hi) := by
  simp only [decodeParts]
  exact canonical_whenZero fun hz _ => ⟨by simp [longOk, modeOk, h.rd, h.ra], memWord_offset 0x06 0x08 h.hi hz⟩

theorem canonical_load_lm (h : Parts 0x07 d a hi) : Canonical (decodeParts 0x07 d a hi) (longWord 0x07 d a hi) := by
  simp only [decodeParts]
  split
  · next m hm =>
    refine canonical_whenZero fun hz _ => ?_
    obtain ⟨hok, hword⟩ := memWord_lm 0x05 0x07 h.hi hz hm
    exact ⟨by simp [longOk, hok, h.rd, h.ra], hword⟩
  · exact canonical_reserved _ _

theorem canonical_store_lm (h : Parts 0x08 d a hi) : Canonical (decodeParts 0x08 d a hi) (longWord 0x08 d a hi) := by
  simp only [decodeParts]
  split
  · next m hm =>
    refine canonical_whenZero fun hz _ => ?_
    obtain ⟨hok, hword⟩ := memWord_lm 0x06 0x08 h.hi hz hm
    exact ⟨by simp [longOk, hok, h.rd, h.ra], hword⟩
  · exact canonical_reserved _ _

/-- The 32-bit form of a branch from the two parts of its offset. -/
theorem jumpWord_offset (M : Nat) {rd : Nat} (h : Parts M d a hi) (hz : a % 2 = 0) :
    jumpWord M rd (BitVec.ofNat 20 (a / 2 * 65536 + hi)) = longWord M rd a hi := by
  obtain ⟨-, -, ha, hh⟩ := h
  have hoff : (BitVec.ofNat 20 (a / 2 * 65536 + hi)).toNat = a / 2 * 65536 + hi := by rw [BitVec.toNat_ofNat]; omega
  rw [jumpWord, hoff, show 2 * ((a / 2 * 65536 + hi) / 65536) = a by omega, show (a / 2 * 65536 + hi) % 65536 = hi by omega]

theorem canonical_bz (h : Parts 0x09 d a hi) : Canonical (decodeParts 0x09 d a hi) (longWord 0x09 d a hi) := by
  simp only [decodeParts]
  exact canonical_whenZero fun hz _ => ⟨by simp [longOk, h.rd], jumpWord_offset _ h hz⟩

theorem canonical_bnz (h : Parts 0x0A d a hi) : Canonical (decodeParts 0x0A d a hi) (longWord 0x0A d a hi) := by
  simp only [decodeParts]
  exact canonical_whenZero fun hz _ => ⟨by simp [longOk, h.rd], jumpWord_offset _ h hz⟩

theorem canonical_br (h : Parts 0x0B d a hi) : Canonical (decodeParts 0x0B d a hi) (longWord 0x0B d a hi) := by
  simp only [decodeParts]
  refine canonical_whenZero fun hz _ => ⟨rfl, ?_⟩
  obtain ⟨ha, rfl⟩ : a % 2 = 0 ∧ d = 0 := by omega
  exact jumpWord_offset _ h ha

theorem canonical_call (h : Parts 0x0C d a hi) : Canonical (decodeParts 0x0C d a hi) (longWord 0x0C d a hi) := by
  have hd := h.rd
  simp only [decodeParts]
  refine canonical_whenZero fun hz _ => ⟨rfl, ?_⟩
  have hslide : 16 * (decide (d / 16 = 1)).toNat = d := by
    by_cases hs : d / 16 = 1
    · simp only [hs, decide_true, Bool.toNat_true]; omega
    · simp only [hs, decide_false, Bool.toNat_false]; omega
  exact (congrArg (jumpWord 0x0C · _) hslide).trans (jumpWord_offset _ h (by omega))

theorem encodeLong_callr (a : Nat) (z : Bool) : encodeLong (.callr a z) = longWord 0x0D 0 a (2048 + 64 * z.toNat) := rfl

theorem canonical_jump (h : Parts 0x0D d a hi) : Canonical (decodeParts 0x0D d a hi) (longWord 0x0D d a hi) := by
  have hfields := upper_fields hi
  have hh := h.hi
  simp only [decodeParts]
  split
  · refine canonical_whenZero fun hz _ => ⟨by simp [longOk, h.ra], ?_⟩
    obtain ⟨rfl, rfl⟩ : d = 0 ∧ hi = 0 := by omega
    rfl
  · split
    · refine canonical_whenZero fun hz _ => ⟨by simp [longOk, h.ra], ?_⟩
      have hslide : (decide (hi / 64 % 32 % 2 = 1)).toNat = hi / 64 % 32 := by
        by_cases hs : hi / 64 % 32 % 2 = 1
        · simp only [hs, decide_true, Bool.toNat_true]; omega
        · simp only [hs, decide_false, Bool.toNat_false]; omega
      rw [encodeLong_callr, hslide, show 2048 + 64 * (hi / 64 % 32) = hi by omega, show d = 0 by omega]
    · exact canonical_reserved _ _

theorem encodeLong_repi (n : Nat) : encodeLong (.repi n) = longWord 0x0E 0 0 (16 * (n - 1) + 1) := rfl

theorem toNat_imm (hh : hi < 65536) : (BitVec.ofNat 12 (hi / 16)).toNat = hi / 16 := by
  rw [BitVec.toNat_ofNat]
  omega

theorem canonical_repeat (h : Parts 0x0E d a hi) : Canonical (decodeParts 0x0E d a hi) (longWord 0x0E d a hi) := by
  have hh := h.hi
  simp only [decodeParts, toNat_imm h.hi]
  split
  · refine canonical_whenZero fun hz _ => ⟨by simp [longOk, h.ra], ?_⟩
    obtain ⟨rfl, rfl⟩ : d = 0 ∧ hi = 0 := by omega
    rfl
  · split
    · refine canonical_whenZero fun hz _ => ⟨by simp [longOk]; omega, ?_⟩
      obtain ⟨rfl, rfl⟩ : d = 0 ∧ a = 0 := by omega
      rw [encodeLong_repi, show 16 * (hi / 16 % 64 + 1 - 1) + 1 = hi by omega]
    · exact canonical_reserved _ _

theorem encodeLong_hubcall (d a : Nat) (n : BitVec 12) :
    encodeLong (.hubcall d a n) = longWord 0x0F d a (16 * n.toNat + 2) := rfl

theorem encodeLong_crr (d : Nat) (n : BitVec 12) : encodeLong (.crr d n) = longWord 0x0F d 0 (16 * n.toNat + 4) := rfl

theorem encodeLong_crw (n : BitVec 12) (a : Nat) : encodeLong (.crw n a) = longWord 0x0F 0 a (16 * n.toNat + 5) := rfl

theorem canonical_system (h : Parts 0x0F d a hi) : Canonical (decodeParts 0x0F d a hi) (longWord 0x0F d a hi) := by
  have hh := h.hi
  simp only [decodeParts]
  split
  case h_1 hfn =>
    split
    · next himm =>
      refine canonical_whenZero fun hz _ => ⟨by simp [longOk, h.rd], ?_⟩
      have h1 : hi / 16 = 1 := by rw [← toNat_imm hh, himm]; rfl
      obtain ⟨rfl, rfl⟩ : a = 0 ∧ hi = 16 := by omega
      rfl
    · refine canonical_whenZero fun hz _ => ⟨rfl, ?_⟩
      rw [toNat_imm hh] at hz
      obtain ⟨rfl, rfl, rfl⟩ : d = 0 ∧ a = 0 ∧ hi = 0 := by omega
      rfl
  case h_2 hfn =>
    refine canonical_whenZero fun hz _ => ⟨rfl, ?_⟩
    rw [toNat_imm hh] at hz
    obtain ⟨rfl, rfl, rfl⟩ : d = 0 ∧ a = 0 ∧ hi = 1 := by omega
    rfl
  case h_3 hfn =>
    refine fun _ => ⟨by simp [longOk, h.rd, h.ra], ?_⟩
    rw [encodeLong_hubcall, ← hfn, imm_fn hh]
  case h_4 hfn =>
    refine canonical_whenZero fun hz _ => ⟨rfl, ?_⟩
    rw [toNat_imm hh] at hz
    obtain ⟨rfl, rfl, rfl⟩ : d = 0 ∧ a = 0 ∧ hi = 3 := by omega
    rfl
  case h_5 hfn =>
    refine canonical_whenZero fun hz _ => ⟨by simp [longOk, h.rd], ?_⟩
    rw [encodeLong_crr, ← hfn, imm_fn hh, hz]
  case h_6 hfn =>
    refine canonical_whenZero fun hz _ => ⟨by simp [longOk, h.ra], ?_⟩
    rw [encodeLong_crw, ← hfn, imm_fn hh, hz]
  case h_7 => exact canonical_reserved _ _

theorem canonical_if_zero {z : Nat} {op : SpokeOp} {w : W32} (h : z = 0 → Canonical op w) :
    Canonical (if z = 0 then op else .reserved true) w := by
  split
  · next hz => exact h hz
  · exact canonical_reserved _ _

theorem encodeLong_pcrr (d : Nat) (n : BitVec 12) : encodeLong (.pcrr d n) = longWord 0x10 d 0 (16 * n.toNat) := rfl

theorem encodeLong_pcrw (n : BitVec 12) (a : Nat) : encodeLong (.pcrw n a) = longWord 0x10 0 a (16 * n.toNat + 1) := rfl

theorem canonical_privileged (h : Parts 0x10 d a hi) : Canonical (decodeParts 0x10 d a hi) (longWord 0x10 d a hi) := by
  have hh := h.hi
  have himm := imm_fn hh
  simp only [decodeParts]
  split
  case h_1 hfn =>
    refine canonical_if_zero fun hz _ => ⟨by simp [longOk, h.rd], ?_⟩
    rw [encodeLong_pcrr, show 16 * (BitVec.ofNat 12 (hi / 16)).toNat = hi by omega, hz]
  case h_2 hfn =>
    refine canonical_if_zero fun hz _ => ⟨by simp [longOk, h.ra], ?_⟩
    rw [encodeLong_pcrw, ← hfn, himm, hz]
  case h_3 hfn =>
    refine canonical_if_zero fun hz _ => ⟨by simp [longOk, h.rd], ?_⟩
    rw [toNat_imm hh] at hz
    obtain ⟨rfl, rfl⟩ : a = 0 ∧ hi = 2 := by omega
    rfl
  case h_4 hfn =>
    refine canonical_if_zero fun hz _ => ⟨rfl, ?_⟩
    rw [toNat_imm hh] at hz
    obtain ⟨rfl, rfl, rfl⟩ : d = 0 ∧ a = 0 ∧ hi = 3 := by omega
    rfl
  case h_5 => exact canonical_reserved _ _

/-- One lemma per MAJOR; the rest are reserved (R46). -/
theorem canonical_decodeParts {M : Nat} (h : Parts M d a hi) : Canonical (decodeParts M d a hi) (longWord M d a hi) := by
  match M, h with
  | 0x01, h => exact canonical_alu h
  | 0x02, h => exact canonical_compare h
  | 0x03, h => exact canonical_immediate h
  | 0x04, h => exact canonical_compareImmediate h
  | 0x05, h => exact canonical_load_offset h
  | 0x06, h => exact canonical_store_offset h
  | 0x07, h => exact canonical_load_lm h
  | 0x08, h => exact canonical_store_lm h
  | 0x09, h => exact canonical_bz h
  | 0x0A, h => exact canonical_bnz h
  | 0x0B, h => exact canonical_br h
  | 0x0C, h => exact canonical_call h
  | 0x0D, h => exact canonical_jump h
  | 0x0E, h => exact canonical_repeat h
  | 0x0F, h => exact canonical_system h
  | 0x10, h => exact canonical_privileged h
  | 0, _ => exact canonical_reserved _ _
  | n + 0x11, _ => exact canonical_reserved _ _

theorem canonical_decodeLong {w : W32} (h : w.getLsbD 15 = true) : Canonical (decodeLong w) w := by
  obtain ⟨M, d, a, hi, hp, rfl⟩ := exists_parts h
  rw [decodeLong_longWord hp]
  exact canonical_decodeParts hp

end

/-! ### The 16-bit words (R43, R44) -/

section
variable {op low : Nat}

theorem toNat_shortWord (hop : op < 32) (hlow : low < 1024) : (shortWord op low).toNat = op * 1024 + low := by
  rw [shortWord, BitVec.toNat_ofNat]
  omega

/-- A halfword without bit 15 is its OP and bits [9:0] (R41, R44). -/
theorem exists_shortWord {h : BitVec 16} (hbit : h.getLsbD 15 = false) :
    ∃ op low, op < 32 ∧ low < 1024 ∧ h = shortWord op low := by
  rw [BitVec.getLsbD, Nat.testBit_eq_decide_div_mod_eq, decide_eq_false_iff_not] at hbit
  have hop : h.toNat / 1024 < 32 := by omega
  have hlow : h.toNat % 1024 < 1024 := by omega
  refine ⟨_, _, hop, hlow, BitVec.eq_of_toNat_eq ?_⟩
  rw [toNat_shortWord hop hlow]
  omega

theorem shortWord_bit15 (hop : op < 32) (hlow : low < 1024) : (shortWord op low).getLsbD 15 = false := by
  rw [BitVec.getLsbD, Nat.testBit_eq_decide_div_mod_eq, toNat_shortWord hop hlow, decide_eq_false_iff_not]
  omega

theorem extract_shortWord (hop : op < 32) (hlow : low < 1024) {n : Nat} (hn : n ≤ 9) :
    (shortWord op low).extractLsb' 0 n = BitVec.ofNat n low := by
  apply BitVec.eq_of_toNat_eq
  rw [BitVec.extractLsb'_toNat, toNat_shortWord hop hlow, BitVec.toNat_ofNat, Nat.shiftRight_zero]
  interval_cases n <;> omega

/-- The 16-bit decoder on OP and bits [9:0] (R44). -/
def decodeShortParts (op low : Nat) : SpokeOp :=
  if op = 0 then .reserved false
  else if op < 0x0D then
    match shortAlu op with
    | some .mov => .alu .mov (low / 32) (low % 32) 0
    | some g => .alu g (low / 32) (low / 32) (low % 32)
    | none => .reserved false
  else if op = 0x0D then .alui .add (low / 32) (low / 32) (sext (BitVec.ofNat 5 low))
  else if op = 0x0E then (if low % 32 = 0 then .rep (low / 32) else .reserved false)
  else if op = 0x0F then (if low = 0 then .ret else .reserved false)
  else if op = 0x10 then .load (8 + low / 128) (8 + low / 16 % 8) (.short (BitVec.ofNat 4 low)) 6
  else if op = 0x11 then .store (8 + low / 128) (8 + low / 16 % 8) (.short (BitVec.ofNat 4 low)) 6
  else if op < 0x18 then .reserved false
  else .branch (op / 4 % 2 = 1) (8 + (op % 4 * 2 + low / 512)) ((BitVec.ofNat 9 low).signExtend 20)

theorem decodeShort_shortWord (hop : op < 32) (hlow : low < 1024) :
    decodeShort (shortWord op low) = decodeShortParts op low := by
  have hbit : (shortWord op low).getLsbD 12 = decide (op / 4 % 2 = 1) := by
    rw [BitVec.getLsbD, Nat.testBit_eq_decide_div_mod_eq, toNat_shortWord hop hlow]
    congr 1; apply propext; omega
  have h10 : (op * 1024 + low) / 2 ^ 10 % 2 ^ 5 = op := by omega
  have h5 : (op * 1024 + low) / 2 ^ 5 % 2 ^ 5 = low / 32 := by omega
  have h0 : (op * 1024 + low) / 2 ^ 0 % 2 ^ 5 = low % 32 := by omega
  have hlow10 : (op * 1024 + low) / 2 ^ 0 % 2 ^ 10 = low := by omega
  have h7 : (op * 1024 + low) / 2 ^ 7 % 2 ^ 3 = low / 128 := by omega
  have h4 : (op * 1024 + low) / 2 ^ 4 % 2 ^ 3 = low / 16 % 8 := by omega
  have h9 : (op * 1024 + low) / 2 ^ 9 % 2 ^ 3 = op % 4 * 2 + low / 512 := by omega
  unfold decodeShort decodeShortParts
  simp only [toNat_shortWord hop hlow, h10, h5, h0, hlow10, h7, h4, h9, hbit, extract_shortWord hop hlow (n := 5) (by omega),
    extract_shortWord hop hlow (n := 4) (by omega), extract_shortWord hop hlow (n := 9) (by omega)] <;> rfl

/-! ### A halfword that decodes is its instruction's own -/

/-- What the halfword `h` decodes to is reserved, or is an instruction whose own 16-bit form is `h`. -/
def CanonicalShort (op : SpokeOp) (h : BitVec 16) : Prop :=
  (∀ p, op ≠ .reserved p) → shortOk op = true ∧ encodeShort op = h

theorem canonicalShort_reserved (p : Bool) (h : BitVec 16) : CanonicalShort (.reserved p) h := fun hr => absurd rfl (hr p)

theorem shortCode_of_shortAlu {g : Alu} (hop : op ≠ 0) (h : shortAlu op = some g) : shortCode g = op := by
  obtain ⟨hn, -⟩ := List.getElem?_eq_some_iff.mp h
  have hn : op - 1 < 12 := hn
  have : op < 13 := by omega
  interval_cases op
  · exact absurd rfl hop
  all_goals cases h; rfl

theorem encodeShort_alu (g : Alu) (d a b : Nat) :
    encodeShort (.alu g d a b) = shortWord (shortCode g) (32 * d + (if g = .mov then a else b)) := rfl

theorem canonicalShort_decodeShortParts (hop : op < 32) (hlow : low < 1024) :
    CanonicalShort (decodeShortParts op low) (shortWord op low) := by
  unfold decodeShortParts
  split
  case isTrue => exact canonicalShort_reserved _ _
  case isFalse h0 =>
  split
  case isTrue =>
    split
    · next hg =>
      have hcode := shortCode_of_shortAlu h0 hg
      refine fun _ => ⟨by simp [shortOk, shortCode]; omega, ?_⟩
      rw [encodeShort_alu, hcode, if_pos rfl, show 32 * (low / 32) + low % 32 = low by omega]
    · next g hmov hg =>
      have hcode := shortCode_of_shortAlu h0 hg
      have hne : g ≠ .mov := fun h => hmov h
      refine fun _ => ⟨by simp [shortOk, hcode, h0, hne]; omega, ?_⟩
      rw [encodeShort_alu, hcode, if_neg hne, show 32 * (low / 32) + low % 32 = low by omega]
    · exact canonicalShort_reserved _ _
  case isFalse =>
  split
  case isTrue hD =>
    have himm := toNat_sext_mod (by decide) (BitVec.ofNat 5 low)
    have hext : (sext (BitVec.ofNat 5 low)).extractLsb' 0 5 = BitVec.ofNat 5 low := extract_signExtend (by decide) _
    refine fun _ => ⟨by simp [shortOk, hext]; omega, ?_⟩
    rw [encodeShort, show (sext (BitVec.ofNat 5 low)).toNat % 32 = low % 32 from himm,
      show 32 * (low / 32) + low % 32 = low by omega, hD]
  case isFalse =>
  split
  case isTrue hE =>
    split
    · refine fun _ => ⟨by simp [shortOk]; omega, ?_⟩
      rw [encodeShort, hE, show 32 * (low / 32) = low by omega]
    · exact canonicalShort_reserved _ _
  case isFalse =>
  split
  case isTrue hF =>
    split
    · next hz => exact fun _ => ⟨rfl, by rw [hF, hz]; rfl⟩
    · exact canonicalShort_reserved _ _
  case isFalse =>
  have haddr : 128 * (8 + low / 128 - 8) + 16 * (8 + low / 16 % 8 - 8) + (BitVec.ofNat 4 low).toNat = low := by
    rw [BitVec.toNat_ofNat]; omega
  split
  case isTrue h10 =>
    refine fun _ => ⟨by simp [shortOk]; omega, ?_⟩
    rw [encodeShort, haddr, h10]
  case isFalse =>
  split
  case isTrue h11 =>
    refine fun _ => ⟨by simp [shortOk]; omega, ?_⟩
    rw [encodeShort, haddr, h11]
  case isFalse =>
  split
  case isTrue => exact canonicalShort_reserved _ _
  case isFalse hbranch =>
    have hext : ((BitVec.ofNat 9 low).signExtend 20).extractLsb' 0 9 = BitVec.ofNat 9 low :=
      extract_signExtend (by decide) _
    have hoff : ((BitVec.ofNat 9 low).signExtend 20).toNat % 512 = low % 512 := by
      simpa using congrArg BitVec.toNat (setWidth_signExtend (m := 20) (by decide) (BitVec.ofNat 9 low))
    have hcode : (if op / 4 % 2 = 1 then 0x1C else 0x18) + (8 + (op % 4 * 2 + low / 512) - 8) / 2 = op := by
      split <;> omega
    refine fun _ => ⟨by simp [shortOk, hext]; omega, ?_⟩
    simp only [encodeShort, decide_eq_true_eq]
    rw [hcode, hoff, show (8 + (op % 4 * 2 + low / 512) - 8) % 2 * 512 + low % 512 = low by omega]

theorem canonicalShort_decodeShort {h : BitVec 16} (hbit : h.getLsbD 15 = false) : CanonicalShort (decodeShort h) h := by
  obtain ⟨op, low, hop, hlow, rfl⟩ := exists_shortWord hbit
  rw [decodeShort_shortWord hop hlow]
  exact canonicalShort_decodeShortParts hop hlow

end

/-- Settles O57: a word is the word of its parts, and each MAJOR's or OP's decoding puts every part back. -/
theorem unreservedWordsAreCanonical : Obligations.UnreservedWordsAreCanonical :=
  ⟨fun _ h => canonical_decodeLong h, fun _ h => canonicalShort_decodeShort h⟩

/-! ### An instruction is read back from its own word -/

/-- The word `w` is one of 32 bits and decodes to `op` (R41). -/
structure ReadBack (w : W32) (op : SpokeOp) : Prop where
  decodes : decodeLong w = op
  wide : w.getLsbD 15 = true

theorem readBack_of_parts {M d a hi : Nat} {op : SpokeOp} (h : Parts M d a hi) (hop : decodeParts M d a hi = op) :
    ReadBack (longWord M d a hi) op := ⟨(decodeLong_longWord h).trans hop, longWord_bit15 h⟩

theorem aluLong_aluCode {g : Alu} (h : cmpCode g = 8) (h' : aluCode g ≠ 0x1F) : aluLong (aluCode g) = some g := by
  revert h h'
  cases g <;> decide

theorem cmpOf_cmpCode {g : Alu} (h : cmpCode g < 8) : cmpOf (cmpCode g) = some g := by
  revert h
  cases g <;> decide

theorem aluCode_lt (g : Alu) : aluCode g < 32 := by cases g <;> decide

theorem immCode_lt (g : Alu) : immCode g < 16 := by cases g <;> decide

@[simp] theorem whenZero_zero (op : SpokeOp) : whenZero 0 op = op := rfl

section
variable {d a b n : Nat}

theorem readBack_alu {g : Alu} (hcmp : cmpCode g = 8) (hcode : aluCode g ≠ 0x1F) (hd : d < 32) (ha : a < 32) (hb : b < 32)
    (hunary : (g = .mov || g = .neg || g = .abs) = true → b = 0) :
    ReadBack (longWord 0x01 d a (2048 * aluCode g + b)) (.alu g d a b) := by
  have hg := aluCode_lt g
  refine readBack_of_parts ⟨by decide, hd, ha, by omega⟩ ?_
  simp only [decodeParts, show (2048 * aluCode g + b) / 2048 = aluCode g by omega, aluLong_aluCode hcmp hcode,
    show (2048 * aluCode g + b) / 64 % 32 = 0 by omega, show (2048 * aluCode g + b) / 32 % 2 = 0 by omega,
    show (2048 * aluCode g + b) % 32 = b by omega]
  split
  · next hu => rw [hunary hu]; rfl
  · rfl

theorem readBack_compare {g : Alu} (hcmp : cmpCode g < 6) (hd : d < 32) (ha : a < 32) (hb : b < 32) :
    ReadBack (longWord 0x02 d a (2048 * cmpCode g + b)) (.alu g d a b) := by
  refine readBack_of_parts ⟨by decide, hd, ha, by omega⟩ ?_
  simp [decodeParts, show (2048 * cmpCode g + b) / 2048 = cmpCode g by omega, show cmpCode g ≠ 8 by omega, hcmp,
    cmpOf_cmpCode (show cmpCode g < 8 by omega), show (2048 * cmpCode g + b) / 64 % 32 = 0 by omega,
    show (2048 * cmpCode g + b) / 32 % 2 = 0 by omega, show (2048 * cmpCode g + b) % 32 = b by omega]

theorem readBack_sel {r : Nat} (hd : d < 32) (hr : r < 32) (ha : a < 32) (hb : b < 32) :
    ReadBack (longWord 0x02 d a (2048 * 8 + 64 * r + b)) (.sel d r a b) := by
  refine readBack_of_parts ⟨by decide, hd, ha, by omega⟩ ?_
  simp [decodeParts, show (16384 + 64 * r + b) / 2048 = 8 by omega, show (16384 + 64 * r + b) / 64 % 32 = r by omega,
    show (16384 + 64 * r + b) / 32 % 2 = 0 by omega, show (16384 + 64 * r + b) % 32 = b by omega]

/-- The immediate and FN of an upper half. -/
theorem upper_imm_fn (imm : BitVec 12) {fn : Nat} (hfn : fn < 16) :
    16 * imm.toNat + fn < 65536 ∧ (16 * imm.toNat + fn) % 16 = fn ∧ BitVec.ofNat 12 ((16 * imm.toNat + fn) / 16) = imm := by
  have hlt := imm.isLt
  refine ⟨by omega, by omega, ?_⟩
  rw [show (16 * imm.toNat + fn) / 16 = imm.toNat by omega, BitVec.ofNat_toNat, BitVec.setWidth_eq]

theorem immOk_sext {v : W64} (h : v = sext (v.extractLsb' 0 12)) : sext (v.setWidth 12) = v := by
  have he : v.extractLsb' 0 12 = v.setWidth 12 := BitVec.eq_of_toNat_eq (by simp)
  rw [← he, ← h]

theorem zext_of_lt {v : W64} {n m : Nat} (hm : n ≤ m) (h : v.toNat < 2 ^ n) :
    zext (((v.setWidth m : BitVec m).extractLsb' 0 n)) = v := by
  apply BitVec.eq_of_toNat_eq
  have hv := v.isLt
  have hnm : 2 ^ n ∣ 2 ^ m := Nat.pow_dvd_pow 2 hm
  simp only [zext, BitVec.toNat_setWidth, BitVec.extractLsb'_toNat, Nat.shiftRight_zero]
  rw [Nat.mod_mod_of_dvd _ hnm, Nat.mod_eq_of_lt h, Nat.mod_eq_of_lt hv]

/-- The operand of an operation of MAJOR `0x03` is read back from its low twelve bits. -/
theorem aluImm_immCode {g : Alu} {v : W64} (hcmp : cmpCode g = 8) (hcode : immCode g ≠ 15) (hok : immOk g v = true) :
    ∃ short, aluImm (immCode g) (v.setWidth 12) = some (g, v, short) ∧
      (if short then (v.setWidth 12).toNat / 64 else 0) = 0 := by
  have hamount (h : v.toNat < 64) :
      zext ((v.setWidth 12 : BitVec 12).extractLsb' 0 6) = v ∧ (v.setWidth 12 : BitVec 12).toNat / 64 = 0 :=
    ⟨zext_of_lt (by decide) h, by rw [BitVec.toNat_setWidth]; omega⟩
  cases g
  case add | and | or | xor =>
    have hv := immOk_sext (of_decide_eq_true hok)
    exact ⟨false, by simp [immCode, aluImm, hv], rfl⟩
  case sll | srl | sra | ror =>
    obtain ⟨hv, hz⟩ := hamount (of_decide_eq_true hok)
    exact ⟨true, by simp [immCode, aluImm, hv], hz⟩
  case cat =>
    have hv : zext (v.setWidth 12) = v := by
      apply BitVec.eq_of_toNat_eq
      have h : v.toNat < 4096 := of_decide_eq_true hok
      simp only [zext, BitVec.toNat_setWidth]
      omega
    exact ⟨false, by simp [immCode, aluImm, hv], rfl⟩
  all_goals exact absurd (And.intro hcmp hcode) (by decide)

theorem readBack_alui {g : Alu} {v : W64} (hcmp : cmpCode g = 8) (hcode : immCode g ≠ 15) (hok : immOk g v = true)
    (hd : d < 32) (ha : a < 32) : ReadBack (longWord 0x03 d a (16 * (v.toNat % 4096) + immCode g)) (.alui g d a v) := by
  obtain ⟨short, himm, hz⟩ := aluImm_immCode hcmp hcode hok
  have hne : immCode g ≠ 9 := by cases g <;> decide
  have hv : v.toNat % 4096 = (v.setWidth 12 : BitVec 12).toNat := by simp
  obtain ⟨hhi, hfn, hup⟩ := upper_imm_fn (v.setWidth 12) (immCode_lt g)
  rw [hv]
  refine readBack_of_parts ⟨by decide, hd, ha, hhi⟩ ?_
  simp only [decodeParts, hfn, hup, hne, if_false, himm, hz, whenZero_zero]

theorem readBack_comparei {g : Alu} {v : W64} (hcmp : cmpCode g < 8) (hok : immOk g v = true)
    (hd : d < 32) (ha : a < 32) : ReadBack (longWord 0x04 d a (16 * (v.toNat % 4096) + cmpCode g)) (.alui g d a v) := by
  rw [immOk_of_compare hcmp] at hok
  have hsext : sext (v.setWidth 12 : BitVec 12) = v := immOk_sext (of_decide_eq_true hok)
  have hv : v.toNat % 4096 = (v.setWidth 12 : BitVec 12).toNat := by simp
  obtain ⟨hhi, hfn, hup⟩ := upper_imm_fn (v.setWidth 12) (show cmpCode g < 16 by omega)
  rw [hv]
  refine readBack_of_parts ⟨by decide, hd, ha, hhi⟩ ?_
  simp only [decodeParts, hfn, hup, cmpOf_cmpCode hcmp, hsext]

theorem readBack_leapc (imm : BitVec 12) (hd : d < 32) :
    ReadBack (longWord 0x03 d 0 (16 * imm.toNat + 9)) (.leapc d imm) := by
  obtain ⟨hhi, hfn, hup⟩ := upper_imm_fn imm (show 9 < 16 by decide)
  refine readBack_of_parts ⟨by decide, hd, by decide, hhi⟩ ?_
  simp only [decodeParts, hfn, hup, if_true, whenZero_zero]

/-- The upper half of an LM-form: its fields are the mode's and the size, its reserved bits zero. -/
theorem lmBits_fields {m : AddrMode} (size : BitVec 3) (hm : modeOk m = true) (hne : ∀ imm, m ≠ .offset imm) :
    let hi := lmBits m size.toNat
    hi < 65536 ∧ lmMode (hi / 16384) (hi % 32) (hi / 64 % 4) = some m ∧ hi / 256 % 8 + hi / 32 % 2 = 0 ∧
      BitVec.ofNat 3 (hi / 2048 % 8) = size := by
  have hsize := size.isLt
  have hof {n : Nat} (h : n = size.toNat) : BitVec.ofNat 3 n = size := by rw [h, BitVec.ofNat_toNat, BitVec.setWidth_eq]
  cases m with
  | short k => exact absurd hm (by simp [modeOk])
  | offset imm => exact absurd rfl (hne imm)
  | postInc =>
    refine ⟨by simp only [lmBits]; omega, ?_, by simp only [lmBits]; omega, hof (by simp only [lmBits]; omega)⟩
    simp only [lmBits, show 2048 * size.toNat / 16384 = 0 by omega, show 2048 * size.toNat % 32 = 0 by omega,
      show 2048 * size.toNat / 64 % 4 = 0 by omega]
    rfl
  | preDec =>
    refine ⟨by simp only [lmBits]; omega, ?_, by simp only [lmBits]; omega, hof (by simp only [lmBits]; omega)⟩
    simp only [lmBits, show (16384 + 2048 * size.toNat) / 16384 = 1 by omega,
      show (16384 + 2048 * size.toNat) % 32 = 0 by omega, show (16384 + 2048 * size.toNat) / 64 % 4 = 0 by omega]
    rfl
  | index b k =>
    have hb : b < 32 := of_decide_eq_true hm
    have hk := k.isLt
    refine ⟨by simp only [lmBits]; omega, ?_, by simp only [lmBits]; omega, hof (by simp only [lmBits]; omega)⟩
    simp only [lmBits, show (32768 + 2048 * size.toNat + 64 * k.toNat + b) / 16384 = 2 by omega,
      show (32768 + 2048 * size.toNat + 64 * k.toNat + b) % 32 = b by omega,
      show (32768 + 2048 * size.toNat + 64 * k.toNat + b) / 64 % 4 = k.toNat by omega]
    simp [lmMode]

theorem memWord_of_not_offset (i lm : Nat) {m : AddrMode} (size : BitVec 3) (hne : ∀ imm, m ≠ .offset imm) :
    memWord i lm d a m size = longWord lm d a (lmBits m size.toNat) := by
  cases m with
  | offset imm => exact absurd rfl (hne imm)
  | short | postInc | preDec | index => rfl

theorem upper_imm_size (imm : BitVec 12) (size : BitVec 3) :
    16 * imm.toNat + size.toNat < 65536 ∧ (16 * imm.toNat + size.toNat) % 16 = size.toNat ∧
      BitVec.ofNat 12 ((16 * imm.toNat + size.toNat) / 16) = imm ∧ size.toNat / 8 = 0 := by
  have hsize := size.isLt
  obtain ⟨hhi, hfn, hup⟩ := upper_imm_fn imm (show size.toNat < 16 by omega)
  exact ⟨hhi, hfn, hup, by omega⟩

theorem readBack_load {m : AddrMode} (size : BitVec 3) (hm : modeOk m = true) (hd : d < 32) (ha : a < 32) :
    ReadBack (memWord 0x05 0x07 d a m size) (.load d a m size) := by
  by_cases hne : ∀ imm, m ≠ .offset imm
  · obtain ⟨hhi, hmode, hz, hsize⟩ := lmBits_fields size hm hne
    rw [memWord_of_not_offset _ _ _ hne]
    refine readBack_of_parts ⟨by decide, hd, ha, hhi⟩ ?_
    simp only [decodeParts, hmode, hz, hsize, whenZero_zero]
  · obtain ⟨imm, rfl⟩ := not_forall_not.mp hne
    obtain ⟨hhi, hfn, hup, hz⟩ := upper_imm_size imm size
    rw [memWord]
    refine readBack_of_parts ⟨by decide, hd, ha, hhi⟩ ?_
    simp only [decodeParts, hfn, hup, hz, BitVec.ofNat_toNat, BitVec.setWidth_eq, whenZero_zero]

theorem readBack_store {m : AddrMode} (size : BitVec 3) (hm : modeOk m = true) (hd : d < 32) (ha : a < 32) :
    ReadBack (memWord 0x06 0x08 d a m size) (.store d a m size) := by
  by_cases hne : ∀ imm, m ≠ .offset imm
  · obtain ⟨hhi, hmode, hz, hsize⟩ := lmBits_fields size hm hne
    rw [memWord_of_not_offset _ _ _ hne]
    refine readBack_of_parts ⟨by decide, hd, ha, hhi⟩ ?_
    simp only [decodeParts, hmode, hz, hsize, whenZero_zero]
  · obtain ⟨imm, rfl⟩ := not_forall_not.mp hne
    obtain ⟨hhi, hfn, hup, hz⟩ := upper_imm_size imm size
    rw [memWord]
    refine readBack_of_parts ⟨by decide, hd, ha, hhi⟩ ?_
    simp only [decodeParts, hfn, hup, hz, BitVec.ofNat_toNat, BitVec.setWidth_eq, whenZero_zero]

/-- The parts of a branch's offset, put together again. -/
theorem jump_parts {M : Nat} (hM : M < 32) (hd : d < 32) (off : BitVec 20) :
    let ra := 2 * (off.toNat / 65536)
    Parts M d ra (off.toNat % 65536) ∧ ra % 2 = 0 ∧ BitVec.ofNat 20 (ra / 2 * 65536 + off.toNat % 65536) = off := by
  have hlt := off.isLt
  refine ⟨⟨hM, hd, by omega, by omega⟩, by omega, ?_⟩
  rw [show 2 * (off.toNat / 65536) / 2 * 65536 + off.toNat % 65536 = off.toNat by omega, BitVec.ofNat_toNat, BitVec.setWidth_eq]

theorem readBack_branch (nz : Bool) (off : BitVec 20) (hd : d < 32) :
    ReadBack (jumpWord (if nz then 0x0A else 0x09) d off) (.branch nz d off) := by
  cases nz with
  | false =>
    obtain ⟨hp, hz, hoff⟩ := jump_parts (M := 0x09) (by decide) hd off
    refine readBack_of_parts (M := 0x09) hp ?_
    simp only [decodeParts, hz, hoff, whenZero_zero]
  | true =>
    obtain ⟨hp, hz, hoff⟩ := jump_parts (M := 0x0A) (by decide) hd off
    refine readBack_of_parts (M := 0x0A) hp ?_
    simp only [decodeParts, hz, hoff, whenZero_zero]

theorem readBack_br (off : BitVec 20) : ReadBack (jumpWord 0x0B 0 off) (.br off) := by
  obtain ⟨hp, hz, hoff⟩ := jump_parts (M := 0x0B) (by decide) (show 0 < 32 by decide) off
  refine readBack_of_parts hp ?_
  simp only [decodeParts, hz, hoff]
  rfl

theorem readBack_call (off : BitVec 20) (slide16 : Bool) :
    ReadBack (jumpWord 0x0C (16 * slide16.toNat) off) (.call off slide16) := by
  obtain ⟨hp, hz, hoff⟩ := jump_parts (M := 0x0C) (d := 16 * slide16.toNat) (by decide) (by cases slide16 <;> decide) off
  refine readBack_of_parts hp ?_
  simp only [decodeParts, hz, hoff]
  cases slide16 <;> rfl

theorem readBack_callr (slide16 : Bool) (ha : a < 32) :
    ReadBack (longWord 0x0D 0 a (2048 + 64 * slide16.toNat)) (.callr a slide16) := by
  refine readBack_of_parts ⟨by decide, by decide, ha, by cases slide16 <;> decide⟩ ?_
  cases slide16 <;> rfl

theorem readBack_repi (h1 : 1 ≤ n) (h64 : n ≤ 64) : ReadBack (longWord 0x0E 0 0 (16 * (n - 1) + 1)) (.repi n) := by
  have himm := toNat_imm (hi := 16 * (n - 1) + 1) (by omega)
  refine readBack_of_parts ⟨by decide, by decide, by decide, by omega⟩ ?_
  simp only [decodeParts, himm, show (16 * (n - 1) + 1) % 16 = 1 by omega,
    show 0 + 0 + (16 * (n - 1) + 1) / 16 / 64 = 0 by omega, show (16 * (n - 1) + 1) / 16 % 64 + 1 = n by omega,
    whenZero_zero]
  rfl

theorem readBack_hubcall (imm : BitVec 12) (hd : d < 32) (ha : a < 32) :
    ReadBack (longWord 0x0F d a (16 * imm.toNat + 2)) (.hubcall d a imm) := by
  obtain ⟨hhi, hfn, hup⟩ := upper_imm_fn imm (show 2 < 16 by decide)
  refine readBack_of_parts ⟨by decide, hd, ha, hhi⟩ ?_
  simp only [decodeParts, hfn, hup]

theorem readBack_crr (imm : BitVec 12) (hd : d < 32) :
    ReadBack (longWord 0x0F d 0 (16 * imm.toNat + 4)) (.crr d imm) := by
  obtain ⟨hhi, hfn, hup⟩ := upper_imm_fn imm (show 4 < 16 by decide)
  refine readBack_of_parts ⟨by decide, hd, by decide, hhi⟩ ?_
  simp only [decodeParts, hfn, hup, whenZero_zero]

theorem readBack_crw (imm : BitVec 12) (ha : a < 32) :
    ReadBack (longWord 0x0F 0 a (16 * imm.toNat + 5)) (.crw imm a) := by
  obtain ⟨hhi, hfn, hup⟩ := upper_imm_fn imm (show 5 < 16 by decide)
  refine readBack_of_parts ⟨by decide, by decide, ha, hhi⟩ ?_
  simp only [decodeParts, hfn, hup, whenZero_zero]

theorem readBack_pcrr (imm : BitVec 12) (hd : d < 32) : ReadBack (longWord 0x10 d 0 (16 * imm.toNat)) (.pcrr d imm) := by
  obtain ⟨hhi, hfn, hup⟩ := upper_imm_fn imm (show 0 < 16 by decide)
  rw [← Nat.add_zero (16 * imm.toNat)]
  refine readBack_of_parts ⟨by decide, hd, by decide, hhi⟩ ?_
  simp only [decodeParts, hfn, hup, if_true]

theorem readBack_pcrw (imm : BitVec 12) (ha : a < 32) :
    ReadBack (longWord 0x10 0 a (16 * imm.toNat + 1)) (.pcrw imm a) := by
  obtain ⟨hhi, hfn, hup⟩ := upper_imm_fn imm (show 1 < 16 by decide)
  refine readBack_of_parts ⟨by decide, by decide, ha, hhi⟩ ?_
  simp only [decodeParts, hfn, hup, if_true]

end

theorem readBack_encodeLong {op : SpokeOp} (h : longOk op = true) : ReadBack (encodeLong op) op := by
  cases op with
  | alu f d a b =>
    simp only [longOk, Bool.and_eq_true, Bool.or_eq_true, Bool.not_eq_true', decide_eq_true_eq] at h
    obtain ⟨⟨⟨⟨hf, hd⟩, ha⟩, hb⟩, hu⟩ := h
    rcases hf with hlt | ⟨hcmp, hcode⟩
    · rw [encodeLong_compare (by omega)]
      exact readBack_compare hlt hd ha hb
    · rw [encodeLong_alu hcmp]
      exact readBack_alu hcmp hcode hd ha hb fun hun => hu.resolve_left (by simp [hun])
  | alui f d a v =>
    simp only [longOk, Bool.and_eq_true, Bool.or_eq_true, decide_eq_true_eq] at h
    obtain ⟨⟨⟨hf, hd⟩, ha⟩, hok⟩ := h
    by_cases hcmp : cmpCode f = 8
    · rw [encodeLong_alui hcmp]
      exact readBack_alui hcmp (hf.resolve_left (by omega)) hok hd ha
    · rw [encodeLong_comparei hcmp]
      have hle : cmpCode f ≤ 8 := by cases f <;> decide
      exact readBack_comparei (by omega) hok hd ha
  | leapc d imm => exact readBack_leapc imm (by simpa [longOk] using h)
  | sel d r a b =>
    simp only [longOk, Bool.and_eq_true, decide_eq_true_eq] at h
    obtain ⟨⟨⟨hd, hr⟩, ha⟩, hb⟩ := h
    exact readBack_sel hd hr ha hb
  | load d a m size =>
    simp only [longOk, Bool.and_eq_true, decide_eq_true_eq] at h
    obtain ⟨⟨hd, ha⟩, hm⟩ := h
    exact readBack_load size hm hd ha
  | store d a m size =>
    simp only [longOk, Bool.and_eq_true, decide_eq_true_eq] at h
    obtain ⟨⟨hd, ha⟩, hm⟩ := h
    exact readBack_store size hm hd ha
  | branch nz r off => exact readBack_branch nz off (by simpa [longOk] using h)
  | br off => exact readBack_br off
  | call off slide16 => exact readBack_call off slide16
  | callr a slide16 => exact readBack_callr slide16 (by simpa [longOk] using h)
  | jr a => exact readBack_of_parts ⟨by decide, by decide, by simpa [longOk] using h, by decide⟩ rfl
  | ret => cases h
  | rep r => exact readBack_of_parts ⟨by decide, by decide, by simpa [longOk] using h, by decide⟩ rfl
  | repi n =>
    obtain ⟨h1, h64⟩ : 1 ≤ n ∧ n ≤ 64 := by simpa [longOk] using h
    exact readBack_repi h1 h64
  | wait => exact readBack_of_parts ⟨by decide, by decide, by decide, by decide⟩ rfl
  | waitJob d => exact readBack_of_parts ⟨by decide, by simpa [longOk] using h, by decide, by decide⟩ rfl
  | fence => exact readBack_of_parts ⟨by decide, by decide, by decide, by decide⟩ rfl
  | hubcall d a n =>
    obtain ⟨hd, ha⟩ : d < 32 ∧ a < 32 := by simpa [longOk] using h
    exact readBack_hubcall n hd ha
  | excRet => exact readBack_of_parts ⟨by decide, by decide, by decide, by decide⟩ rfl
  | crr d n => exact readBack_crr n (by simpa [longOk] using h)
  | crw n a => exact readBack_crw n (by simpa [longOk] using h)
  | pcrr d n => exact readBack_pcrr n (by simpa [longOk] using h)
  | pcrw n a => exact readBack_pcrw n (by simpa [longOk] using h)
  | intoff d => exact readBack_of_parts ⟨by decide, by simpa [longOk] using h, by decide, by decide⟩ rfl
  | inton => exact readBack_of_parts ⟨by decide, by decide, by decide, by decide⟩ rfl
  | reserved p => cases h

/-! ### The 16-bit forms read back -/

/-- The halfword `h` is one of 16 bits and decodes to `op` (R41). -/
structure ReadBackShort (h : BitVec 16) (op : SpokeOp) : Prop where
  decodes : decodeShort h = op
  short : h.getLsbD 15 = false

theorem readBackShort_of_parts {n low : Nat} {op : SpokeOp} (hn : n < 32) (hlow : low < 1024)
    (hop : decodeShortParts n low = op) : ReadBackShort (shortWord n low) op :=
  ⟨(decodeShort_shortWord hn hlow).trans hop, shortWord_bit15 hn hlow⟩

theorem shortAlu_shortCode {g : Alu} (h : shortCode g ≠ 0) : shortAlu (shortCode g) = some g ∧ shortCode g < 0x0D := by
  revert h
  cases g <;> decide

theorem readBackShort_alu {g : Alu} {d a b : Nat} (hcode : shortCode g ≠ 0) (hd : d < 32) (ha : a < 32) (hb : b < 32)
    (hform : if g = .mov then b = 0 else a = d) :
    ReadBackShort (shortWord (shortCode g) (32 * d + (if g = .mov then a else b))) (.alu g d a b) := by
  obtain ⟨hg, hlt⟩ := shortAlu_shortCode hcode
  have hlow {x : Nat} (hx : x < 32) : (32 * d + x) / 32 = d ∧ (32 * d + x) % 32 = x := by omega
  by_cases hmov : g = .mov
  · subst hmov
    obtain rfl : b = 0 := hform
    obtain ⟨hrd, hra⟩ := hlow ha
    refine readBackShort_of_parts (by omega) (by simp; omega) ?_
    simp only [decodeShortParts, hcode, hlt, hg, if_true, if_false, hrd, hra]
  · rw [if_neg hmov] at hform
    obtain rfl := hform
    obtain ⟨hrd, hrb⟩ := hlow hb
    rw [if_neg hmov]
    refine readBackShort_of_parts (by omega) (by omega) ?_
    simp only [decodeShortParts, hcode, hlt, hg, if_true, if_false, hrd, hrb]

theorem readBackShort_alui {d : Nat} {v : W64} (hd : d < 32) (hv : v = sext (v.extractLsb' 0 5)) :
    ReadBackShort (shortWord 0x0D (32 * d + v.toNat % 32)) (.alui .add d d v) := by
  have himm : BitVec.ofNat 5 (32 * d + v.toNat % 32) = v.extractLsb' 0 5 := by
    apply BitVec.eq_of_toNat_eq
    simp
  refine readBackShort_of_parts (by decide) (by omega) ?_
  simp [decodeShortParts, himm, ← hv, show (32 * d + v.toNat % 32) / 32 = d by omega]

/-- The low bits of a short load or store give back its registers and its offset. -/
theorem shortMem_fields {d a : Nat} (k : BitVec 4) (hd : 8 ≤ d) (hd' : d < 16) (ha : 8 ≤ a) (ha' : a < 16) :
    let low := 128 * (d - 8) + 16 * (a - 8) + k.toNat
    low < 1024 ∧ 8 + low / 128 = d ∧ 8 + low / 16 % 8 = a ∧ BitVec.ofNat 4 low = k := by
  have hk := k.isLt
  refine ⟨by omega, by omega, by omega, BitVec.eq_of_toNat_eq ?_⟩
  rw [BitVec.toNat_ofNat]
  omega

theorem readBackShort_load {d a : Nat} (k : BitVec 4) (hd : 8 ≤ d) (hd' : d < 16) (ha : 8 ≤ a) (ha' : a < 16) :
    ReadBackShort (shortWord 0x10 (128 * (d - 8) + 16 * (a - 8) + k.toNat)) (.load d a (.short k) 6) := by
  obtain ⟨hlow, hrd, hra, hoff⟩ := shortMem_fields k hd hd' ha ha'
  refine readBackShort_of_parts (by decide) hlow ?_
  simp [decodeShortParts, hrd, hra, hoff]

theorem readBackShort_store {d a : Nat} (k : BitVec 4) (hd : 8 ≤ d) (hd' : d < 16) (ha : 8 ≤ a) (ha' : a < 16) :
    ReadBackShort (shortWord 0x11 (128 * (d - 8) + 16 * (a - 8) + k.toNat)) (.store d a (.short k) 6) := by
  obtain ⟨hlow, hrd, hra, hoff⟩ := shortMem_fields k hd hd' ha ha'
  refine readBackShort_of_parts (by decide) hlow ?_
  simp [decodeShortParts, hrd, hra, hoff]

theorem readBackShort_branch {nz : Bool} {r : Nat} {off : BitVec 20} (hr : 8 ≤ r) (hr' : r < 16)
    (hoff : off = (off.extractLsb' 0 9).signExtend 20) :
    ReadBackShort (shortWord ((if nz then 0x1C else 0x18) + (r - 8) / 2) ((r - 8) % 2 * 512 + off.toNat % 512))
      (.branch nz r off) := by
  have hext : BitVec.ofNat 9 ((r - 8) % 2 * 512 + off.toNat % 512) = off.extractLsb' 0 9 := by
    apply BitVec.eq_of_toNat_eq
    simp
  have hlow : ((r - 8) % 2 * 512 + off.toNat % 512) / 512 = (r - 8) % 2 := by omega
  have hcode {n : Nat} (hn : n = 0x18 + (r - 8) / 2 ∨ n = 0x1C + (r - 8) / 2) :
      decodeShortParts n ((r - 8) % 2 * 512 + off.toNat % 512) = .branch (n / 4 % 2 = 1) r off := by
    have hreg : 8 + (n % 4 * 2 + (r - 8) % 2) = r := by omega
    simp only [decodeShortParts, hext, ← hoff, hlow, hreg, show n ≠ 0 by omega, show ¬ n < 0x0D by omega,
      show n ≠ 0x0D by omega, show n ≠ 0x0E by omega, show n ≠ 0x0F by omega, show n ≠ 0x10 by omega,
      show n ≠ 0x11 by omega, show ¬ n < 0x18 by omega, if_false]
  cases nz with
  | false =>
    have hnz : decide ((0x18 + (r - 8) / 2) / 4 % 2 = 1) = false := decide_eq_false (by omega)
    exact readBackShort_of_parts (n := 0x18 + (r - 8) / 2) (by omega) (by omega) ((hcode (.inl rfl)).trans (by rw [hnz]))
  | true =>
    have hnz : decide ((0x1C + (r - 8) / 2) / 4 % 2 = 1) = true := decide_eq_true (by omega)
    exact readBackShort_of_parts (n := 0x1C + (r - 8) / 2) (by omega) (by omega) ((hcode (.inr rfl)).trans (by rw [hnz]))

theorem readBackShort_encodeShort {op : SpokeOp} (h : shortOk op = true) : ReadBackShort (encodeShort op) op := by
  cases op with
  | alu f d a b =>
    simp only [shortOk, Bool.and_eq_true, decide_eq_true_eq] at h
    obtain ⟨⟨⟨⟨hcode, hd⟩, ha⟩, hb⟩, hform⟩ := h
    refine readBackShort_alu hcode hd ha hb ?_
    by_cases hmov : f = .mov
    · simpa [hmov] using hform
    · simpa [hmov] using hform
  | alui f d a v =>
    simp only [shortOk, Bool.and_eq_true, decide_eq_true_eq] at h
    obtain ⟨⟨⟨rfl, hd⟩, rfl⟩, hv⟩ := h
    exact readBackShort_alui hd hv
  | rep r =>
    have hr : r < 32 := of_decide_eq_true h
    refine readBackShort_of_parts (by decide) (by omega) ?_
    simp [decodeShortParts, show 32 * r / 32 = r by omega, show 32 * r % 32 = 0 by omega]
  | ret => exact ⟨by decide, by decide⟩
  | load d a m size =>
    cases m with
    | short k =>
      simp only [shortOk, Bool.and_eq_true, decide_eq_true_eq] at h
      obtain ⟨⟨⟨⟨hd, hd'⟩, ha⟩, ha'⟩, rfl⟩ := h
      exact readBackShort_load k hd hd' ha ha'
    | offset | postInc | preDec | index => cases h
  | store d a m size =>
    cases m with
    | short k =>
      simp only [shortOk, Bool.and_eq_true, decide_eq_true_eq] at h
      obtain ⟨⟨⟨⟨hd, hd'⟩, ha⟩, ha'⟩, rfl⟩ := h
      exact readBackShort_store k hd hd' ha ha'
    | offset | postInc | preDec | index => cases h
  | branch nz r off =>
    simp only [shortOk, Bool.and_eq_true, decide_eq_true_eq] at h
    obtain ⟨⟨hr, hr'⟩, hoff⟩ := h
    exact readBackShort_branch hr hr' hoff
  | _ => cases h

/-- Settles O56: the parts of each instruction's word decode to the instruction, form by form. -/
theorem spokeEncodingsRoundTrip : Obligations.SpokeEncodingsRoundTrip := by
  intro op
  refine ⟨fun h => ?_, fun h => ?_⟩
  · obtain ⟨hop, hbit⟩ := readBack_encodeLong h
    exact ⟨hop, hbit⟩
  · obtain ⟨hop, hbit⟩ := readBackShort_encodeShort h
    exact ⟨hop, hbit⟩

end Sys2Proof.Machine
end

section
/-! SUPPORT. Instructions of a core: compares, branches, calls, loads and stores, control registers, exceptions, waiting, repeat prefixes; and the queue. -/

namespace Sys2Proof.Machine

/-! ### The queue -/

/-- Settles O1: `step` on a queue that is not empty. -/
theorem stepRunsFrontCommand : Obligations.StepRunsFrontCommand := by
  intro s i rest h
  rw [step, h]

/-- While the device is held, a cycle advances the model's own clock alone. -/
theorem tickOp_of_held {s : State} (h : s.boot.phase = .held) : tickOp s = { s with ticks := s.ticks + 1 } := if_pos h

/-- Settles O2: `step` on the empty queue is the cycle. -/
theorem emptyQueuePassesOneCycle : Obligations.EmptyQueuePassesOneCycle := by
  intro s h
  exact ⟨tickOp s, by rw [step, h], tickOp_of_held⟩

/-! ### Compares (R75) -/

/-- Instruction `i` writes the truth of `p` to register d, steps over itself, and that is all. -/
def WritesTruth (s : State) (c d : Nat) (i : Instr) (len : Nat) (p : Prop) : Prop :=
  ∃ t v, exec i s = .next t ∧ RegAndPc s t c d v (pcOf s c + BitVec.ofNat 64 len) ∧ ((p ∧ v = 1) ∨ (¬ p ∧ v = 0))

theorem truth_cases {b : Bool} {p : Prop} (h : b = true ↔ p) : (p ∧ truth b = 1) ∨ (¬ p ∧ truth b = 0) := by
  cases b with
  | true => exact .inl ⟨h.mp rfl, rfl⟩
  | false => exact .inr ⟨fun hp => Bool.false_ne_true (h.mpr hp), rfl⟩

theorem Writes.truth {s : State} {c d len : Nat} {i : Instr} {b : Bool} {p : Prop} (h : Writes s c d i len (truth b))
    (hb : b = true ↔ p) : WritesTruth s c d i len p := by
  obtain ⟨t, ht, hwrites⟩ := h
  exact ⟨t, _, ht, hwrites, truth_cases hb⟩

section
variable (A B : W64)

theorem slt_iff : A.slt B = true ↔ A.toInt < B.toInt := by simp [BitVec.slt]

theorem ult_iff : A.ult B = true ↔ A.toNat < B.toNat := by simp [BitVec.ult]

theorem sle_iff : A.sle B = true ↔ A.toInt ≤ B.toInt := by simp [BitVec.sle]

theorem ule_iff : A.ule B = true ↔ A.toNat ≤ B.toNat := by simp [BitVec.ule]

end

/-- Settles O4: each compare issues its operation, whose result is the truth of its condition. -/
theorem comparesWriteTruth : Obligations.ComparesWriteTruth := by
  intro s c d a b imm wide hd A B I gives
  refine ⟨fun h hc hform => ?two, fun h => ?imm⟩
  case two =>
    have htwo (f : Alu) {i : Instr} {x : Bool} {p : Prop} (hi : exec i s = .next (issueAlu s f c d a b wide))
        (hf : f.divides = false) (hx : aluFn f A B = truth x) (hp : x = true ↔ p) :
        WritesTruth s c d i (formLen wide) p := by
      have hwrites := writes_alu f h hd hc (hform.imp_right .inr) hi hf
      rw [show aluFn f (rd s c a) (rd s c b) = truth x from hx] at hwrites
      exact hwrites.truth hp
    exact ⟨htwo .ceq rfl rfl rfl beq_iff_eq, htwo .cne rfl rfl rfl bne_iff_ne, htwo .clt rfl rfl rfl (slt_iff A B),
      htwo .cltu rfl rfl rfl (ult_iff A B), htwo .cle rfl rfl rfl (sle_iff A B), htwo .cleu rfl rfl rfl (ule_iff A B)⟩
  case imm =>
    have himm (f : Alu) {i : Instr} {x : Bool} {p : Prop} (hi : exec i s = .next (issue s c 4 (.alui f d a I)))
        (hx : aluFn f A I = truth x) (hp : x = true ↔ p) : WritesTruth s c d i 4 p :=
      (writes_long_alui h hd hi hx).truth hp
    exact ⟨himm .ceq rfl rfl beq_iff_eq, himm .cne rfl rfl bne_iff_ne, himm .clt rfl rfl (slt_iff A I),
      himm .cltu rfl rfl (ult_iff A I), himm .cle rfl rfl (sle_iff A I), himm .cleu rfl rfl (ule_iff A I),
      himm .cgt rfl rfl (slt_iff I A), himm .cgtu rfl rfl (ult_iff I A)⟩

/-! ### Branches and jumps (R81 to R84) -/

theorem relTarget_eq (s : State) (c : Nat) (off : BitVec 20) :
    relTarget s c off = pcOf s c + off.signExtend 64 * 2 := rfl

/-- The issue of a legal instruction that completes. -/
theorem issue_completes {s t : State} {c len : Nat} {op : SpokeOp} (h : CanIssue s c len)
    (hi : illegalOf (isSpoke c) (isHub c) (len = 4) op = none) (h1 : ∀ r, op ≠ .rep r) (h2 : ∀ n, op ≠ .repi n)
    (hrun : runOp s c len op = .ok t) : issue s c len op = t := by
  rw [issue_runs h hi h1 h2, hrun]
  rfl

theorem issue_branch {s : State} {c r : Nat} {wide : Bool} (nz : Bool) (off : BitVec 20) (h : CanIssue s c (formLen wide)) :
    issue s c (formLen wide) (.branch nz r off) =
      if (rd s c r != 0) == nz then setPc s c (relTarget s c off) else advance s c (formLen wide) :=
  issue_completes h (legal_form rfl rfl (by simp [opRegs, CodesFit])) (by simp) (by simp) (runOp_branch s c _ r nz off)

/-- Settles O6: a branch tests its register, a jump its alignment, and the rest is the program counter. -/
theorem branchesMoveOnlyThePc : Obligations.BranchesMoveOnlyThePc := by
  intro s c r a off wide here rel
  refine ⟨fun h => ⟨?bz, ?bnz⟩, fun h => ⟨?br, fun heven => ?jr⟩⟩
  case bz =>
    refine congrArg Host.Outcome.next ((issue_branch false off h).trans ?_)
    by_cases hz : rd s c r = 0#64 <;> simp [hz, relTarget_eq, advance, here, rel]
  case bnz =>
    refine congrArg Host.Outcome.next ((issue_branch true off h).trans ?_)
    by_cases hz : rd s c r = 0#64 <;> simp [hz, relTarget_eq, advance, here, rel]
  case br =>
    exact congrArg Host.Outcome.next
      (issue_completes h (legal_long rfl rfl) (by simp) (by simp) (runOp_br s c 4 off))
  case jr =>
    have hop : runOp s c 4 (.jr a) = .ok (setPc s c (rd s c a)) := by rw [runOp_jr, if_neg (by omega)]
    exact congrArg Host.Outcome.next (issue_completes h (legal_long rfl rfl) (by simp) (by simp) hop)

/-! ### A call and its return (R33, R34) -/

theorem toNat_mkRecord (slide16 : Bool) (ret : W64) :
    (mkRecord (if slide16 then 1 else 0) ret).toNat =
      (if slide16 then 1 else 0) * 2 ^ 46 + ret.toNat % 2 ^ 40 / 2 * 2 := by
  rw [mkRecord, BitVec.toNat_ofNat]
  cases slide16 <;> simp only [Bool.false_eq_true, if_false, if_true] <;> omega

theorem recSlide_mkRecord (slide16 : Bool) (ret : W64) :
    recSlide (mkRecord (if slide16 then 1 else 0) ret) = if slide16 then 1 else 0 := by
  rw [recSlide, toNat_mkRecord]
  cases slide16 <;> simp only [Bool.false_eq_true, if_false, if_true] <;> omega

theorem recTarget_mkRecord (slide16 : Bool) {ret : W64} (hlt : ret.toNat < 2 ^ 40) (heven : ret.toNat % 2 = 0) :
    recTarget (mkRecord (if slide16 then 1 else 0) ret) = ret := by
  apply BitVec.eq_of_toNat_eq
  rw [recTarget, toNat_mkRecord, BitVec.toNat_ofNat]
  cases slide16 <;> simp only [Bool.false_eq_true, if_false, if_true] <;> omega

theorem returnSlide_mkRecord (slide16 : Bool) (ret : W64) :
    returnSlide (mkRecord (if slide16 then 1 else 0) ret) = callSlide slide16 := by
  rw [returnSlide, recSlide_mkRecord]
  cases slide16 <;> rfl

theorem recordAt_setRecord (c : Nat) (k : Core) (pos : Nat) (v : Option W64) : recordAt c (setRecord c k pos v) pos = v := by
  simp [recordAt, setRecord]

/-- What a core reads in its registers depends on its k-registers, its window file and where its window is. -/
theorem rd_congr {s u : State} {c : Nat} (hk : (core u c).kregs = (core s c).kregs)
    (hw : (core u c).window = (core s c).window) (hwp : (core u c).wp = (core s c).wp) (r : Nat) : rd u c r = rd s c r := by
  simp [rd, getR, physReg, hk, hw, hwp]

theorem issue_ret_of_record {s t : State} {c : Nat} (h : CanIssue s c 2) (hret : retTo s c = .ok t) : issue s c 2 .ret = t :=
  issue_completes h (by simpa using legal_short rfl rfl (by simp [opRegs])) (by simp) (by simp) hret

/-- Settles O8: the record that the call leaves is the one that the return reads. -/
theorem callThenReturnRestores : Obligations.CallThenReturnRestores := by
  intro s t u c off slide16 k d hissue hfit hres hlt heven hcall hissue' hret
  obtain ⟨honly, hcore, -⟩ := issue_call_of_fits (op := .call off slide16) hissue hfit
    (legal_long rfl rfl) (by simp) (by simp) (runOp_call s c 4 off slide16)
  obtain rfl : issue s c 4 (.call off slide16) = t := Host.Outcome.next.inj hcall
  set t := issue s c 4 (.call off slide16)
  have hret4 : (k.pc + 4).toNat % 2 = 0 := by
    rw [BitVec.toNat_add]
    have : (4 : W64).toNat = 4 := rfl
    omega
  have hwp : (core t c).wp = k.wp + callSlide slide16 := by rw [hcore]; rfl
  have hrec : recordAt c (core t c) (core t c).wp = some (mkRecord (if slide16 then 1 else 0) (k.pc + 4)) := by
    rw [hwp, hcore]
    exact recordAt_setRecord _ _ _ _
  have hbot : (core t c).bot = k.bot := by rw [hcore]; rfl
  obtain ⟨v, hv, -, hvcore⟩ := retTo_of_record hrec (by rw [recSlide_mkRecord]; split <;> decide)
    (by rw [returnSlide_mkRecord, hbot, hwp]; omega)
  obtain rfl : v = u := (issue_ret_of_record hissue' hv).symm.trans (Host.Outcome.next.inj hret)
  rw [returnSlide_mkRecord, recTarget_mkRecord slide16 hlt hret4, hwp] at hvcore
  have hwp' : (core v c).wp = k.wp := by rw [hvcore]; simp
  refine ⟨by rw [pcOf, hvcore], hwp', fun r _ => rd_congr ?_ ?_ hwp' r⟩
  · rw [hvcore, hcore]; rfl
  · rw [hvcore, hcore]; rfl

/-! ### Loads and stores (R47, R48, R76 to R79) -/

theorem OnlyCore.refl (s : State) (c : Nat) : OnlyCore s s c := ⟨rfl, fun _ _ => rfl⟩

theorem OnlyCore.then_wr {s t : State} {c : Nat} (h : OnlyCore s t c) (r : Nat) (v : W64) : OnlyCore s (wr t c r v) c :=
  h.then_modCore _

theorem OnlyCore.then_setPc {s t : State} {c : Nat} (h : OnlyCore s t c) (pc : W64) : OnlyCore s (setPc t c pc) c :=
  h.then_modCore _

theorem OnlyCore.mem {s t : State} {c : Nat} (h : OnlyCore s t c) : t.mem = s.mem := by rw [h.rest]

theorem rd_setPc (s : State) (c r : Nat) (pc : W64) : rd (setPc s c pc) c r = rd s c r :=
  rd_congr (by simp [setPc]) (by simp [setPc]) (by simp [setPc]) r

theorem rd_advance (s : State) (c len r : Nat) : rd (advance s c len) c r = rd s c r := rd_setPc s c r _

theorem pcOf_wr (s : State) (c r : Nat) (v : W64) : pcOf (wr s c r v) c = pcOf s c := by
  rw [pcOf, wr, core_modCore_same, setR_keeps]
  rfl

@[simp] theorem pcOf_setPc (s : State) (c : Nat) (pc : W64) : pcOf (setPc s c pc) c = pc := by simp [pcOf, setPc]

theorem pcOf_advance (s : State) (c len : Nat) : pcOf (advance s c len) c = pcOf s c + BitVec.ofNat 64 len := by
  simp [advance]

section
variable (s : State) (c a n : Nat) (mode : AddrMode)

theorem baseUpdate_eq : baseUpdate s c a mode n = s ∨ autoMod mode = true ∧ ∃ v, baseUpdate s c a mode n = wr s c a v := by
  cases mode
  case postInc => exact .inr ⟨rfl, _, rfl⟩
  case preDec => exact .inr ⟨rfl, _, rfl⟩
  all_goals exact .inl rfl

theorem onlyCore_baseUpdate : OnlyCore s (baseUpdate s c a mode n) c := by
  obtain h | ⟨-, v, h⟩ := baseUpdate_eq s c a n mode
  · rw [h]; exact .refl s c
  · rw [h]; exact (OnlyCore.refl s c).then_wr a v

theorem pcOf_baseUpdate : pcOf (baseUpdate s c a mode n) c = pcOf s c := by
  obtain h | ⟨-, v, h⟩ := baseUpdate_eq s c a n mode
  · rw [h]
  · rw [h, pcOf_wr]

theorem rd_baseUpdate {r : Nat} (ha : a < 32) (hr : r < 32) (h : autoMod mode = true → r ≠ a) :
    rd (baseUpdate s c a mode n) c r = rd s c r := by
  obtain hs | ⟨hauto, v, hs⟩ := baseUpdate_eq s c a n mode
  · rw [hs]
  · rw [hs, rd_wr_other s c ha hr (h hauto)]

end

/-- The state in which a load or store makes its access: the base updated, the instruction stepped over. -/
def atAccess (s : State) (c a : Nat) (mode : AddrMode) (n : Nat) : State :=
  advance (baseUpdate s c a mode n) c (modeLen mode)

theorem onlyCore_atAccess (s : State) (c a : Nat) (mode : AddrMode) (n : Nat) : OnlyCore s (atAccess s c a mode n) c :=
  (onlyCore_baseUpdate s c a n mode).then_setPc _

theorem pcOf_atAccess (s : State) (c a : Nat) (mode : AddrMode) (n : Nat) :
    pcOf (atAccess s c a mode n) c = pcOf s c + BitVec.ofNat 64 (modeLen mode) := by
  rw [atAccess, pcOf_advance, pcOf_baseUpdate]

theorem rd_atAccess (s : State) (c a : Nat) (mode : AddrMode) (n : Nat) {r : Nat} (ha : a < 32) (hr : r < 32)
    (h : autoMod mode = true → r ≠ a) : rd (atAccess s c a mode n) c r = rd s c r := by
  rw [atAccess, rd_advance, rd_baseUpdate s c a n mode ha hr h]

theorem addrTrap_eq_none {ea : W64} {n : Nat} (hlt : ea.toNat < 2 ^ 40) (hal : ea.toNat % n = 0) : addrTrap ea n = none := by
  simp only [addrTrap, show ea.toNat / 2 ^ 40 = 0 by omega, hal]
  rfl

theorem legal_mode (mode : AddrMode) {spoke hub : Bool} {op : SpokeOp} (hp : isPriv op = false)
    (hr : isReserved spoke hub op = false) (hregs : opRegs op = []) : illegalOf spoke hub (modeLen mode = 4) op = none := by
  cases mode
  case short => exact legal_short hp hr (by simp [hregs])
  all_goals exact legal_long hp hr

section
variable {s : State} {c d a : Nat} {mode : AddrMode} {size : BitVec 3}

theorem issue_load (h : CanIssue s c (modeLen mode)) (hlt : (effAddr s c a mode (sizeBytes size)).toNat < 2 ^ 40)
    (hal : (effAddr s c a mode (sizeBytes size)).toNat % sizeBytes size = 0) (hsize : size ≠ 7)
    (hauto : autoMod mode = true → d ≠ a) :
    let r := dataRead (atAccess s c a mode (sizeBytes size)) c (effAddr s c a mode (sizeBytes size)).toNat (sizeBytes size)
    issue s c (modeLen mode) (.load d a mode size) = wr r.2 c d (loadExt size r.1) := by
  have hres : isReserved (isSpoke c) (isHub c) (.load d a mode size) = false := by
    cases hm : autoMod mode with
    | false => simpa [isReserved, hm] using hsize
    | true => simpa [isReserved, hauto hm] using hsize
  refine issue_completes h (legal_mode mode rfl hres rfl) (by simp) (by simp) ?_
  rw [runOp_load, loadTo]
  simp only [addrTrap_eq_none hlt hal]
  rfl

theorem issue_store (h : CanIssue s c (modeLen mode)) (hlt : (effAddr s c a mode (sizeBytes size)).toNat < 2 ^ 40)
    (hal : (effAddr s c a mode (sizeBytes size)).toNat % sizeBytes size = 0) (hsize : size.toNat % 2 = 0) :
    issue s c (modeLen mode) (.store d a mode size) =
      dataWrite (atAccess s c a mode (sizeBytes size)) c (effAddr s c a mode (sizeBytes size)).toNat (sizeBytes size)
        ((rd s c d).toNat % 2 ^ (8 * sizeBytes size)) := by
  have hres : isReserved (isSpoke c) (isHub c) (.store d a mode size) = false := by simp [isReserved, hsize]
  refine issue_completes h (legal_mode mode rfl hres rfl) (by simp) (by simp) ?_
  rw [runOp_store, storeFrom]
  simp only [addrTrap_eq_none hlt hal]
  rfl

end

theorem isOwn_spoke {c a : Nat} (hc : isSpoke c = true) (ha : a < 0x10000) : isOwn c a = true := by
  simp [isOwn, not_hub_of_spoke hc, ha]

theorem dataRead_own (s : State) {c a : Nat} (n : Nat) (hc : isSpoke c = true) (ha : a < 0x10000) :
    dataRead s c a n = (rdMem s (scratchBase c + a) n, s) := by simp [dataRead, isOwn_spoke hc ha, ownRead, hc]

theorem dataWrite_own (s : State) {c a : Nat} (n v : Nat) (hc : isSpoke c = true) (ha : a < 0x10000) :
    dataWrite s c a n v = wrMem s (scratchBase c + a) n v := by simp [dataWrite, isOwn_spoke hc ha, ownWrite, hc]

theorem rdByte_mem_congr {s t : State} (h : t.mem = s.mem) (a : Nat) : rdByte t a = rdByte s a := by simp [rdByte, h]

theorem rdMem_mem_congr {s t : State} (h : t.mem = s.mem) (a n : Nat) : rdMem t a n = rdMem s a n := by
  rw [rdMem, rdMem, rdBytes_congr n a fun i _ => rdByte_mem_congr h (a + i)]

theorem wrBytes_frame (bs : List Byte) (s : State) (a : Nat) : wrBytes s a bs = { s with mem := (wrBytes s a bs).mem } := by
  induction bs generalizing s a with
  | nil => rfl
  | cons b bs ih => rw [wrBytes, ih]; rfl

theorem wrMem_frame (s : State) (a n v : Nat) : wrMem s a n v = { s with mem := (wrMem s a n v).mem } := wrBytes_frame _ s a

theorem wrMem_cores (s : State) (a n v : Nat) : (wrMem s a n v).cores = s.cores := by rw [wrMem_frame]

/-- Settles O5: an access at its effective address, and its frame where it stays in the core's own scratch. -/
theorem loadsAndStoresComplete : Obligations.LoadsAndStoresComplete := by
  intro s c d a mode size hd ha n ea s1 at' hissue hlt hal
  have honly : OnlyCore s s1 c := onlyCore_atAccess s c a mode n
  have hpc : pcOf s1 c = pcOf s c + BitVec.ofNat 64 (modeLen mode) := pcOf_atAccess s c a mode n
  refine ⟨fun hsize hauto => ?load, fun hsize => ?store⟩
  case load =>
    refine ⟨_, congrArg Host.Outcome.next (issue_load hissue hlt hal hsize hauto), rfl, fun hspoke hown => ?_⟩
    have hread := dataRead_own s1 n hspoke hown
    rw [show dataRead (atAccess s c a mode (sizeBytes size)) c (effAddr s c a mode (sizeBytes size)).toNat (sizeBytes size) =
      (rdMem s1 at' n, s1) from hread]
    refine ⟨honly.then_wr _ _, by rw [pcOf_wr, hpc], ?_, fun r hr hrd hra => ?_⟩
    · rw [rd_wr_same, rdMem_mem_congr honly.mem]
    · rw [rd_wr_other s1 c hd hr hrd]
      exact rd_atAccess s c a mode n ha hr hra
  case store =>
    refine ⟨_, congrArg Host.Outcome.next (issue_store hissue hlt hal hsize), rfl, fun hspoke hown => ?_⟩
    rw [show dataWrite (atAccess s c a mode (sizeBytes size)) c (effAddr s c a mode (sizeBytes size)).toNat (sizeBytes size)
      ((rd s c d).toNat % 2 ^ (8 * sizeBytes size)) = wrMem s1 at' n ((rd s c d).toNat % 2 ^ (8 * n)) from
      dataWrite_own s1 n _ hspoke hown]
    have hcore (c' : Nat) : core (wrMem s1 at' n ((rd s c d).toNat % 2 ^ (8 * n))) c' = core s1 c' :=
      core_congr (wrMem_cores _ _ _ _) c'
    refine ⟨?_, fun c' hc => (hcore c').trans (honly.others c' hc), by rw [pcOf, hcore, ← hpc, pcOf], ?_, fun b hb => ?_,
      fun r hr hra => ?_⟩
    · rw [wrMem_frame, honly.rest]
    · rw [rdMem_wrMem, Nat.mod_mod]
    · rw [rdByte_wrMem_other s1 _ hb, rdByte_mem_congr honly.mem]
    · rw [rd, hcore]
      exact rd_atAccess s c a mode n ha hr hra

/-! ### Control registers (R7, R39, R59, R91) -/

/-- Issue of a legal long instruction that completes. -/
theorem issue_long_completes {s t : State} {c : Nat} {op : SpokeOp} (h : CanIssue s c 4)
    (hi : illegalOf (isSpoke c) (isHub c) true op = none) (h1 : ∀ r, op ≠ .rep r) (h2 : ∀ n, op ≠ .repi n)
    (hrun : runOp s c 4 op = .ok t) : issue s c 4 op = t := issue_completes h (by simpa using hi) h1 h2 hrun

theorem isPairLo_cases {n : Nat} (h : isPairLo n = true) : n = 0x004 ∨ n = 0x006 ∨ n = 0x008 ∨ n = 0x014 := by
  simpa [isPairLo] using h

/-- The word that a read of control register `n` delivers: a captured high half, or the register's value (R7). -/
def crDelivered (s : State) (c n : Nat) : W32 :=
  if isPairLo (n - 1) = true ∧ n ≠ 0 then (shadow s c (2 ^ 40 + n)).getD (crValue c (core s c) n) else crValue c (core s c) n

theorem crRead_eq (s : State) (c n : Nat) :
    (crRead s c n).1 = crDelivered s c n ∧ (crRead s c n).2 = { s with shadows := (crRead s c n).2.shadows } := by
  unfold crRead pairRead crDelivered
  simp only [Nat.add_sub_cancel_left, Bool.and_true, show 1 ≤ 2 ^ 40 + n by omega, decide_true, Bool.true_and]
  by_cases hlo : isPairLo n = true
  · have hnot : ¬ (isPairLo (n - 1) = true ∧ n ≠ 0) := by
      rintro ⟨hprev, -⟩
      have h := isPairLo_cases hlo
      have h' := isPairLo_cases hprev
      omega
    rw [if_pos hlo, if_neg hnot]
    exact ⟨rfl, rfl⟩
  · rw [if_neg hlo]
    by_cases hn : n = 0
    · subst hn
      rw [if_neg (by decide), if_neg (by decide)]
      exact ⟨rfl, rfl⟩
    · rw [show 2 ^ 40 + n - 1 - 2 ^ 40 = n - 1 by omega]
      by_cases hprev : isPairLo (n - 1) = true
      · rw [if_pos hprev, if_pos ⟨hprev, hn⟩]
        cases shadow s c (2 ^ 40 + n) <;> exact ⟨rfl, rfl⟩
      · rw [if_neg hprev, if_neg fun h => hprev h.1]
        exact ⟨rfl, rfl⟩

theorem rd_advance_wr_same (s : State) (c d len : Nat) (v : W64) :
    rd (advance (wr s c d v) c len) c d = if d = 0 then 0 else v := by rw [rd_advance, rd_wr_same]

theorem issue_crr {s : State} {c d : Nat} {n : BitVec 12} (h : CanIssue s c 4) :
    issue s c 4 (.crr d n) = advance (wr (crRead s c n.toNat).2 c d (zext (crRead s c n.toNat).1)) c 4 :=
  issue_long_completes h (legal_long rfl rfl) (by simp) (by simp) (runOp_crr s c 4 d n)

/-- A register result after captured halves changed: of the rest nothing changes. -/
theorem advance_wr_of_shadows {s u : State} (hu : u = { s with shadows := u.shadows }) (c : Nat) {d : Nat} (hd : d < 32)
    (v : W64) :
    let t := advance (wr u c d v) c 4
    t = { s with cores := t.cores, shadows := t.shadows } ∧ rd t c d = (if d = 0 then 0 else v) ∧
      pcOf t c = (core s c).pc + 4 ∧ ∀ r, r < 32 → r ≠ d → rd t c r = rd s c r := by
  have hcore : core u c = core s c := core_congr (by rw [hu]) c
  refine ⟨?_, rd_advance_wr_same u c d 4 v, ?_, fun r hr hne => ?_⟩
  · rw [hu]; rfl
  · rw [pcOf_advance, pcOf_wr, pcOf, hcore]; rfl
  · rw [rd_advance, rd_wr_other _ c hd hr hne, rd, hcore, rd]

/-- `CRR` delivers the register and steps over itself; of the rest only the captured halves may change. -/
theorem exec_crr_effect {s : State} {c d : Nat} {n : BitVec 12} (h : CanIssue s c 4) (hd : d < 32) :
    ∃ t, exec (.crr c d n) s = .next t ∧ t = { s with cores := t.cores, shadows := t.shadows } ∧
      rd t c d = (if d = 0 then 0 else (crDelivered s c n.toNat).setWidth 64) ∧ pcOf t c = (core s c).pc + 4 ∧
      ∀ r, r < 32 → r ≠ d → rd t c r = rd s c r := by
  obtain ⟨hval, hrest⟩ := crRead_eq s c n.toNat
  rw [← hval]
  exact ⟨_, congrArg Host.Outcome.next (issue_crr h), advance_wr_of_shadows hrest c hd _⟩

theorem crwOp_of_not_compare {s : State} {c n : Nat} (h : n ≠ 0x017) (v : W32) :
    crwOp s c n v = modCore s c fun k => crWrite c k n v := if_neg h

/-- `CRW` of a register other than the timer compare changes the core as the register's access rule lets it. -/
theorem exec_crw_effect {s : State} {c a m : Nat} (h : CanIssue s c 4) (hm : m < 4096) (hne : m ≠ 0x017) :
    ∃ t, exec (.crw c (BitVec.ofNat 12 m) a) s = .next t ∧ OnlyCore s t c ∧
      core t c = crWrite c { core s c with pc := (core s c).pc + 4 } m ((rd s c a).setWidth 32) := by
  have hm' : (BitVec.ofNat 12 m).toNat = m := by rw [BitVec.toNat_ofNat]; omega
  have hissue : issue s c 4 (.crw (BitVec.ofNat 12 m) a) = crwOp (advance s c 4) c m ((rd s c a).setWidth 32) :=
    issue_long_completes h (legal_long rfl rfl) (by simp) (by simp) (by rw [runOp_crw, hm'])
  refine ⟨_, congrArg Host.Outcome.next (hissue.trans (crwOp_of_not_compare hne _)),
    ((OnlyCore.refl s c).then_setPc _).then_modCore _, ?_⟩
  rw [core_modCore_same]
  simp [advance, setPc, pcOf]

theorem legal_priv {spoke wide : Bool} {op : SpokeOp} (hr : isReserved spoke true op = false) (hregs : opRegs op = []) :
    illegalOf spoke true wide op = none := by simp [illegalOf, hr, hregs]

/-- Issue of an instruction of MAJOR `0x10` on a Hub core (R92). -/
theorem issue_priv {s t : State} {c : Nat} {op : SpokeOp} (h : CanIssue s c 4) (hhub : isHub c = true)
    (hr : isReserved (isSpoke c) true op = false) (hregs : opRegs op = []) (h2 : ∀ n, op ≠ .repi n)
    (hrun : runOp s c 4 op = .ok t) : issue s c 4 op = t :=
  issue_long_completes h (by rw [hhub]; exact legal_priv hr hregs) (by rintro r rfl; cases hregs) h2 hrun

theorem issue_pcrw {s : State} {c a : Nat} {n : BitVec 12} (h : CanIssue s c 4) (hhub : isHub c = true) :
    issue s c 4 (.pcrw n a) = pcrWrite (advance s c 4) c n.toNat ((rd s c a).setWidth 32) :=
  issue_priv h hhub rfl rfl (by simp) (runOp_pcrw s c 4 n a)

theorem pcrWrite_locked {s : State} {c n : Nat} (v : W32) (hlock : s.boot.measureLock = true) (hlo : 0x060 ≤ n)
    (hhi : n < 0x06C) : pcrWrite s c n v = s := by
  have h1 : n ≠ 0x040 := by omega
  have h2 : ¬ n < 0x050 := by omega
  simp [pcrWrite, h1, h2, hlo, hhi, hlock]

/-- `INTOFF` delivers the old interrupt enable and clears it (R519). -/
theorem exec_intoff_effect {s : State} {c d : Nat} (h : CanIssue s c 4) (hhub : isHub c = true) :
    ∃ t, exec (.intoff c d) s = .next t ∧ OnlyCore s t c ∧ (core t c).hubIntEnable = false ∧
      rd t c d = (if d = 0 then 0 else if (core s c).hubIntEnable then 1 else 0) ∧ pcOf t c = (core s c).pc + 4 := by
  have hissue := issue_priv h hhub rfl rfl (by simp) (runOp_intoff s c 4 d)
  have hregs := rd_advance_wr_same s c d 4 (truth (core s c).hubIntEnable)
  have hpc : pcOf (advance (wr s c d (truth (core s c).hubIntEnable)) c 4) c = (core s c).pc + 4 := by
    rw [pcOf_advance, pcOf_wr]; rfl
  refine ⟨_, congrArg Host.Outcome.next hissue, (((OnlyCore.refl s c).then_wr _ _).then_setPc _).then_modCore _, by simp,
    ?_, ?_⟩
  · rw [← show (if d = 0 then 0 else truth (core s c).hubIntEnable) =
      (if d = 0 then 0 else if (core s c).hubIntEnable then 1 else 0) from rfl, ← hregs]
    exact rd_congr (by simp) (by simp) (by simp) d
  · rw [← hpc]
    simp [pcOf]

theorem exec_inton_effect {s : State} {c : Nat} (h : CanIssue s c 4) (hhub : isHub c = true) :
    ∃ t, exec (.inton c) s = .next t ∧ OnlyCore s t c ∧
      core t c = { core s c with pc := (core s c).pc + 4, hubIntEnable := true } :=
  ⟨_, congrArg Host.Outcome.next (issue_priv h hhub rfl rfl (by simp) (runOp_inton s c 4)),
    ((OnlyCore.refl s c).then_setPc _).then_modCore _, by simp [advance, setPc, pcOf]⟩

theorem exec_pcrr_effect {s : State} {c d : Nat} (n : BitVec 12) (h : CanIssue s c 4) (hhub : isHub c = true) (hd : d < 32) :
    ∃ t, exec (.pcrr c d n) s = .next t ∧
      RegAndPc s t c d ((pcrRead s c n.toNat).setWidth 64) ((core s c).pc + 4) :=
  ⟨_, congrArg Host.Outcome.next (issue_priv h hhub rfl rfl (by simp) (runOp_pcrr s c 4 d n)),
    regAndPc_advance_wr s c d _ 4 hd⟩

/-- Settles O11: each access is its operation on the core's record, on the Hub's registers or on the measurement registers. -/
theorem controlRegisterAccessCompletes : Obligations.ControlRegisterAccessCompletes := by
  refine ⟨fun s c d a n hd h => ?spoke, fun s c d a n hd h hhub => ?hub⟩
  case spoke =>
    intro k v at' high value leaves
    have hcrw {m : Nat} (hm : m < 4096) (hne : m ≠ 0x017) {k' : Core}
        (hk : crWrite c { k with pc := k.pc + 4 } m v = { k' with pc := k.pc + 4 }) : leaves (.crw c (at' m) a) k' := by
      obtain ⟨t, ht, honly, hcore⟩ := exec_crw_effect (a := a) h hm hne
      exact ⟨t, ht, honly, hcore.trans hk⟩
    exact ⟨exec_crr_effect h hd, hcrw (by decide) (by decide) rfl, hcrw (by decide) (by decide) rfl,
      hcrw (by decide) (by decide) rfl, hcrw (by decide) (by decide) rfl, hcrw (by decide) (by decide) rfl,
      hcrw (by decide) (by decide) rfl, hcrw (by decide) (by decide) rfl⟩
  case hub =>
    intro k v next
    have hpcrw (n : BitVec 12) {t : State} (ht : pcrWrite next c n.toNat v = t) :
        Host.Outcome.next (issue s c 4 (.pcrw n a)) = (.next t : Host.Outcome State Fault Refusal) :=
      congrArg _ ((issue_pcrw h hhub).trans ht)
    refine ⟨exec_pcrr_effect n h hhub hd, hpcrw _ rfl, fun hA hopen => hpcrw _ ?info,
      fun hlock hlo hhi => hpcrw _ (pcrWrite_locked v hlock hlo hhi), fun hA hbit => hpcrw _ ?lock,
      exec_intoff_effect h hhub, exec_inton_effect h hhub⟩
    case info =>
      have hopen' : (decide (c = hubA) && !next.boot.measureLock) = true := by
        simp only [hA, decide_true, Bool.true_and, Bool.not_eq_true']
        exact hopen
      exact if_pos hopen'
    case lock =>
      have hbit' : bitOf v 0 = true := hbit
      exact (if_pos hA).trans (if_pos hbit')

/-! ### Exceptions (R53 to R57) -/

/-- Entry to the handler with a window that slides without a spill (R56). -/
theorem enterHandler_enters {s : State} {c : Nat} (h : (core s c).wp + 48 ≤ (core s c).bot + fileSize c) (info : W32)
    (pc fpc : W64) (addr : Option W64) : Enters s (enterHandler s c info pc fpc addr) c info pc fpc addr := by
  have hup := slideUp_of_fits (s := modCore s c fun k =>
    { k with excInfo := info, excPc := pc, excFpc := fpc, excAddr := addr.getD k.excAddr }) (c := c) (d := 24) 2 pc
    (by simpa using h)
  unfold enterHandler
  simp only [hup]
  refine ⟨((onlyCore_modCore s c _).then_modCore _).then_modCore _, ?_⟩
  simp only [core_modCore_same]
  rfl

/-- A fault of a core that takes exceptions enters its handler (R54, R56). -/
theorem raiseTrap_enters {s : State} {c : Nat} (h : EntryOpen c (core s c)) (e : Trap) (pc fpc : W64) (wide : Bool) :
    Enters s (raiseTrap s c e pc fpc wide) c (excInfoWord e.cause e.sub wide false 0) pc fpc e.addr := by
  obtain ⟨hen, hact, hfit⟩ := h
  have hgo : (excActive (core s c) || !excEn (core s c)) = false := by simp [hen, hact]
  rw [raiseTrap, hgo]
  exact enterHandler_enters hfit _ pc fpc e.addr

/-- Issue of a legal instruction that faults. -/
theorem issue_faults {s : State} {c len : Nat} {op : SpokeOp} {e : Trap} (h : CanIssue s c len)
    (hi : illegalOf (isSpoke c) (isHub c) (len = 4) op = none) (h1 : ∀ r, op ≠ .rep r) (h2 : ∀ n, op ≠ .repi n)
    (hrun : runOp s c len op = .trap s e) : issue s c len op = raiseTrap s c e (pcOf s c) (pcOf s c) (len = 4) := by
  rw [issue_runs h hi h1 h2, hrun]
  rfl

/-- A legal long instruction whose operands fault enters the handler with the fault. -/
theorem issue_long_enters {s : State} {c : Nat} {op : SpokeOp} {e : Trap} (hopen : EntryOpen c (core s c))
    (h : CanIssue s c 4) (hp : isPriv op = false) (hr : isReserved (isSpoke c) (isHub c) op = false)
    (h1 : ∀ r, op ≠ .rep r) (h2 : ∀ n, op ≠ .repi n) (hrun : runOp s c 4 op = .trap s e) :
    Enters s (issue s c 4 op) c (excInfoWord e.cause e.sub true false 0) (pcOf s c) (pcOf s c) e.addr := by
  rw [issue_faults h (by simpa using legal_long hp hr) h1 h2 hrun]
  exact raiseTrap_enters hopen e _ _ true

theorem issue_illegal {s : State} {c len sub : Nat} {op : SpokeOp} (h : CanIssue s c len)
    (hi : illegalOf (isSpoke c) (isHub c) (len = 4) op = some sub) :
    issue s c len op = raiseTrap s c (trapIllegal sub) (pcOf s c) (pcOf s c) (len = 4) := by
  obtain ⟨hmay, hfetch⟩ := h
  simp [issue, hmay, hfetch, hi]

/-- An instruction that was fetched can be fetched in full. -/
theorem fetchOk_of_fetchOp {s : State} {c len : Nat} {a : W64} {op : SpokeOp} (h : fetchOp s c a = some (len, op)) :
    fetchOk c a len = true := by
  unfold fetchOp at h
  simp only at h
  split at h
  · cases h
  · next h2 =>
    split at h
    · obtain ⟨rfl, -⟩ : 2 = len ∧ _ = op := by simpa using h
      simpa using h2
    · split at h
      · cases h
      · next h4 =>
        obtain ⟨rfl, -⟩ : 4 = len ∧ _ = op := by simpa using h
        simpa using h4

theorem illegalOf_reserved (spoke hub wide : Bool) : illegalOf spoke hub wide (.reserved false) = some 0 := rfl

theorem illegalOp_of_reserved {s : State} {c len : Nat} (hmay : mayIssue s c = true)
    (h : fetchOp s c (pcOf s c) = some (len, .reserved false)) :
    illegalOp s c = raiseTrap s c (trapIllegal 0) (pcOf s c) (pcOf s c) (len = 4) := by
  rw [← issue_illegal ⟨hmay, fetchOk_of_fetchOp h⟩ (illegalOf_reserved _ _ _)]
  simp [illegalOp, h, illegalOf_reserved]

theorem fetchFaultOp_of_none {s : State} {c : Nat} (hmay : mayIssue s c = true) (h : fetchOp s c (pcOf s c) = none) :
    fetchFaultOp s c = raiseTrap s c (trapFetch (pcOf s c)) (pcOf s c) (pcOf s c) false := by
  simp [fetchFaultOp, hmay, h, raiseFetch]

theorem interruptEntryOp_of_takable {s : State} {c : Nat} (hmay : mayIssue s c = true)
    (h : intTakable c (core s c) = true) : interruptEntryOp s c =
      enterHandler s c (excInfoWord (0x10 + lowestInt (core s c)) 0 false false 0) (pcOf s c) (pcOf s c) none := by
  simp only [interruptEntryOp, hmay, h]
  rfl

/-- `EXC_RET` from a handler's frame whose caller's window is resident (R57). -/
theorem excRetTo_of_record {s : State} {c : Nat} {r : W64} (hrec : recordAt c (core s c) (core s c).wp = some r)
    (hslide : recSlide r = 2) (heven : (core s c).excPc.toNat % 2 = 0) (hres : (core s c).bot + 24 ≤ (core s c).wp) :
    ∃ t, excRetTo s c = .ok t ∧ OnlyCore s t c ∧
      core t c = { setRecord c (core s c) (core s c).wp none with
        wp := (core s c).wp - 24, pc := (core s c).excPc, excInfo := (core s c).excInfo &&& 0xFFDFFFFF } := by
  obtain ⟨honly, hcore⟩ := slideDown_of_resident hres
  have hodd : ¬ (core s c).excPc.toNat % 2 = 1 := by omega
  refine ⟨_, by simp only [excRetTo, hodd, hrec, hslide]; rfl, honly.then_modCore _, ?_⟩
  rw [core_modCore_same, hcore]
  rfl

/-- Settles O12: each cause reaches the entry to the handler, and `EXC_RET` the slide back from it. -/
theorem exceptionsEnterAndReturn : Obligations.ExceptionsEnterAndReturn := by
  refine ⟨fun s c len hmay hopen => ⟨fun hfetch _ => ?illegal, fun hfetch => ?fetch, fun htake => ?interrupt⟩,
    fun s c r h hrec hslide heven hres => ?ret⟩
  case illegal =>
    refine ⟨_, rfl, ?_⟩
    rw [illegalOp_of_reserved hmay hfetch]
    exact raiseTrap_enters hopen _ _ _ _
  case fetch =>
    refine ⟨_, rfl, ?_⟩
    rw [fetchFaultOp_of_none hmay hfetch]
    exact raiseTrap_enters hopen _ _ _ _
  case interrupt =>
    refine ⟨_, rfl, ?_⟩
    rw [interruptEntryOp_of_takable hmay htake]
    obtain ⟨-, -, hfit⟩ := hopen
    exact enterHandler_enters hfit _ _ _ _
  case ret =>
    obtain ⟨t, ht, honly, hcore⟩ := excRetTo_of_record hrec hslide heven hres
    exact ⟨t, congrArg Host.Outcome.next (issue_long_completes h (legal_long rfl rfl) (by simp) (by simp)
      ((runOp_excRet s c 4).trans ht)), honly, hcore⟩

/-! ### Instructions that fault (R54, R72, R76, R82) -/

theorem addrTrap_address {ea : W64} {n : Nat} (h : 2 ^ 40 ≤ ea.toNat) : addrTrap ea n = some (trapAddress ea) :=
  if_pos (by omega)

theorem addrTrap_align {ea : W64} {n : Nat} (h : ea.toNat < 2 ^ 40) (hal : ea.toNat % n ≠ 0) :
    addrTrap ea n = some (trapAlign ea) := by
  rw [addrTrap, if_neg (by omega), if_pos hal]

theorem loadTo_of_trap {s : State} {c len d a : Nat} {mode : AddrMode} {size : BitVec 3} {e : Trap}
    (h : addrTrap (effAddr s c a mode (sizeBytes size)) (sizeBytes size) = some e) :
    loadTo s c len d a mode size = .trap s e := by
  simp [loadTo, h]

theorem storeFrom_of_trap {s : State} {c len d a : Nat} {mode : AddrMode} {size : BitVec 3} {e : Trap}
    (h : addrTrap (effAddr s c a mode (sizeBytes size)) (sizeBytes size) = some e) :
    storeFrom s c len d a mode size = .trap s e := by
  simp [storeFrom, h]

theorem retTo_of_no_record {s : State} {c : Nat} (h : recordAt c (core s c) (core s c).wp = none) :
    retTo s c = .trap s (trapWindow 1) := by simp [retTo, h]

/-- Settles O13: each operand fault is the fault of its instruction, which writes nothing and enters the handler. -/
theorem faultingInstructionsTrap : Obligations.FaultingInstructionsTrap := by
  intro s c d a b imm size hopen pc ea
  refine ⟨fun h => ⟨fun hsize hbig => ?ld, fun hsize hlt hal => ?st, fun hzero htrap => ?div, fun hodd => ?jr⟩,
    fun h hrec => ?ret⟩
  case ld =>
    have hsize' : isReserved (isSpoke c) (isHub c) (.load d a (.offset imm) size) = false := by
      simpa [isReserved, autoMod] using hsize
    have hrun := (runOp_load s c 4 d a (.offset imm) size).trans (loadTo_of_trap (addrTrap_address hbig))
    have henters := issue_long_enters hopen h rfl hsize' (by simp) (by simp) hrun
    exact ⟨_, rfl, henters⟩
  case st =>
    have hsize' : isReserved (isSpoke c) (isHub c) (.store d a (.offset imm) size) = false := by simp [isReserved, hsize]
    have hrun := (runOp_store s c 4 d a (.offset imm) size).trans (storeFrom_of_trap (addrTrap_align hlt hal))
    have henters := issue_long_enters hopen h rfl hsize' (by simp) (by simp) hrun
    exact ⟨_, rfl, henters⟩
  case div =>
    have hdiv : divideTraps s c .div (rd s c b) = true := by simp [divideTraps, Alu.divides, hzero, htrap]
    have hrun : runOp s c 4 (.alu .div d a b) = .trap s trapDivide := by rw [runOp_alu, if_pos hdiv]
    have henters := issue_long_enters hopen h rfl rfl (by simp) (by simp) hrun
    exact ⟨_, rfl, henters⟩
  case jr =>
    have hrun : runOp s c 4 (.jr a) = .trap s (trapAlign (rd s c a)) := by rw [runOp_jr, if_pos hodd]
    have henters := issue_long_enters hopen h rfl rfl (by simp) (by simp) hrun
    exact ⟨_, rfl, henters⟩
  case ret =>
    have hissue := issue_faults h (by simpa using legal_short rfl rfl (by simp [opRegs])) (by simp) (by simp)
      ((runOp_ret s c 2).trans (retTo_of_no_record hrec))
    refine ⟨_, congrArg Host.Outcome.next hissue, ?_⟩
    exact raiseTrap_enters hopen _ _ _ _

/-! ### Tokens that go back (R474) -/

/-- Only the governor's accounts and requests differ. -/
def OnlyGov (s t : State) : Prop := t = { s with gov := t.gov }

theorem OnlyGov.trans {s t u : State} (hst : OnlyGov s t) (htu : OnlyGov t u) : OnlyGov s u := by
  rw [OnlyGov, htu, hst]

theorem OnlyGov.core {s t : State} (h : OnlyGov s t) (c : Nat) : core t c = core s c := core_congr (by rw [h]) c

theorem onlyGov_giveBack (s : State) (tokens : Nat) (class0 : Bool) : OnlyGov s (giveBack s tokens class0) := by
  cases class0 <;> rfl

theorem onlyGov_foldl_giveBack (l : List Request) (s : State) :
    OnlyGov s (l.foldl (fun s r => giveBack s r.tokens r.class0) s) := by
  induction l generalizing s with
  | nil => rfl
  | cons r l ih => exact (onlyGov_giveBack s _ _).trans (ih _)

theorem onlyGov_withdraw (s : State) (work : Work) : OnlyGov s (withdraw s work) := by
  have h := onlyGov_foldl_giveBack ((dropRequests s work).gov.granted.filter fun r => r.work = work) (dropRequests s work)
  exact (show OnlyGov s (dropRequests s work) from rfl).trans (h.trans rfl)

/-- A core's record without its token. -/
def withoutToken (k : Core) : Core := { k with holds := false, tokenC0 := if k.holds then false else k.tokenC0 }

theorem withoutToken_of_not_holds {k : Core} (h : k.holds = false) : withoutToken k = k := by
  cases k
  simp_all [withoutToken]

theorem dropSpokeToken_effect (s : State) (c : Nat) :
    dropSpokeToken s c = { s with cores := (dropSpokeToken s c).cores, gov := (dropSpokeToken s c).gov } ∧
      (∀ c', c' ≠ c → core (dropSpokeToken s c) c' = core s c') ∧
      core (dropSpokeToken s c) c = withoutToken (core s c) := by
  have hw := onlyGov_withdraw s (.spoke c)
  unfold dropSpokeToken
  generalize withdraw s (.spoke c) = u at hw
  simp only
  cases hh : (core u c).holds with
  | true =>
    have hg := onlyGov_giveBack u 1 (core u c).tokenC0
    refine ⟨?_, fun c' hne => ?_, ?_⟩
    · rw [if_pos rfl, hw.trans hg]; rfl
    · rw [if_pos rfl, core_modCore_other _ hne, hg.core, hw.core]
    · rw [if_pos rfl, core_modCore_same, hg.core, hw.core, withoutToken, ← hw.core, hh]; rfl
  | false =>
    refine ⟨?_, fun c' _ => hw.core c', ?_⟩
    · rw [if_neg (by simp), hw]
    · rw [if_neg (by simp), ← hw.core, withoutToken_of_not_holds hh]

/-! ### Waiting (R85, R86, R88, R89) -/

/-- A gated core stands past its instruction, without its token. -/
theorem gatedAs_gate (s : State) (c : Nat) (r : RunState) : GatedAs s (gate s c 4 r) c r := by
  obtain ⟨hrest, hothers, hcore⟩ := dropSpokeToken_effect (advance s c 4) c
  have hadv : core (advance s c 4) c = { core s c with pc := (core s c).pc + 4 } := by simp [advance, setPc, pcOf]
  rw [hadv] at hcore
  refine ⟨?_, fun c' hne => ?_, ?_⟩
  · rw [gate, modCore, setCore, hrest]; rfl
  · rw [gate, core_modCore_other _ hne, hothers c' hne, advance, setPc, core_modCore_other _ hne]
  · rw [gate, core_modCore_same, hcore]; rfl

theorem wakeCore_of_not_ready {s : State} {c : Nat} (h : intReady (core s c) = false) : wakeCore s c = s := by
  simp [wakeCore, h]

theorem intReady_gate {s : State} {c : Nat} (r : RunState) (h : intReady (core s c) = false) :
    intReady (core (gate s c 4 r) c) = false := by
  obtain ⟨-, -, hcore⟩ := gatedAs_gate s c r
  rw [hcore]
  exact h

theorem issue_wait {s : State} {c : Nat} (h : CanIssue s c 4) : issue s c 4 .wait = wakeCore (gate s c 4 .wait) c :=
  issue_long_completes h (legal_long rfl rfl) (by simp) (by simp) (runOp_wait s c 4)

theorem issue_waitJob {s : State} {c : Nat} (d : Nat) (h : CanIssue s c 4) (hspoke : isSpoke c = true) :
    issue s c 4 (.waitJob d) = waitJobOp s c 4 d :=
  issue_long_completes h (legal_long rfl (by simp [isReserved, hspoke])) (by simp) (by simp) (runOp_waitJob s c 4 d)

theorem waitJobOp_of_job {s : State} {c : Nat} (d : Nat) (h : jobOf s c ≠ none) :
    waitJobOp s c 4 d = wakeCore (gate (endJob s c 0) c 4 (.waitJob d)) c := by
  rw [waitJobOp, if_pos (Option.isSome_iff_ne_none.mpr h)]

theorem waitJobOp_of_no_job {s : State} {c : Nat} (d : Nat) (h : jobOf s c = none) :
    waitJobOp s c 4 d = wakeCore (gate s c 4 (.waitJob d)) c := by simp [waitJobOp, h]

theorem issue_hubcall {s : State} {c : Nat} (d a : Nat) (n : BitVec 12) (h : CanIssue s c 4) (hhub : isHub c = false) :
    issue s c 4 (.hubcall d a n) = hubcallOp s c 4 d n (rd s c a) :=
  issue_long_completes h (legal_long rfl (by simp [isReserved, hhub])) (by simp) (by simp) (runOp_hubcall s c 4 d a n)

/-- `FENCE` holds the core while an access is unacknowledged (R88). -/
theorem fenceOp_effect (s : State) (c : Nat) :
    OnlyCore s (fenceOp s c 4) c ∧ core (fenceOp s c 4) c = { core s c with
      pc := (core s c).pc + 4, run := if (core s c).unacked = 0 then (core s c).run else .fence } := by
  have honly := (OnlyCore.refl s c).then_setPc (pcOf s c + BitVec.ofNat 64 4)
  have hadv : core (advance s c 4) c = { core s c with pc := (core s c).pc + 4 } := by simp [advance, setPc, pcOf]
  unfold fenceOp
  simp only [hadv]
  split
  · exact ⟨honly, hadv⟩
  · exact ⟨honly.then_modCore _, by rw [core_modCore_same, hadv]⟩

/-- The acknowledgement of an ordinary access (R15). -/
theorem ackOp_ordinary {s : State} {c : Nat} (h : (core s c).unacked ≠ 0) :
    ackOp s c 32 = modCore s c fun k =>
      { k with unacked := k.unacked - 1, run := if k.run = .fence && k.unacked = 1 then .running else k.run } := by
  simp [ackOp, h]

/-! ### The end of a `HUBCALL` (R89) -/

theorem readmit_effect (s : State) (c : Nat) :
    readmit s c = { s with cores := (readmit s c).cores, gov := (readmit s c).gov } ∧
      core (readmit s c) c = { core s c with run := if isSpoke c then .readmitting else .granted } := by
  unfold readmit
  split
  · exact ⟨by rw [askAdmission_frame]; rfl, (core_askAdmission _ _ _ _ c).trans (core_modCore_same s c _)⟩
  · exact ⟨rfl, core_modCore_same s c _⟩

/-- The answer reaches the register of a waiting `HUBCALL`, and the core asks for readmission. -/
theorem hubcallEnd_effect {s : State} {c d : Nat} (v : W64) (hrun : (core s c).run = .hubcall d) :
    hubcallEnd s c v = { s with cores := (hubcallEnd s c v).cores, gov := (hubcallEnd s c v).gov } ∧
      rd (hubcallEnd s c v) c d = (if d = 0 then 0 else v) ∧ (core (hubcallEnd s c v) c).hubRequest = none ∧
      (core (hubcallEnd s c v) c).run = if isSpoke c then .readmitting else .granted := by
  have hend : hubcallEnd s c v = readmit (modCore (wr s c d v) c fun k => { k with hubRequest := none }) c := by
    rw [hubcallEnd, hrun]
  obtain ⟨hrest, hcore⟩ := readmit_effect (modCore (wr s c d v) c fun k => { k with hubRequest := none }) c
  rw [← hend, core_modCore_same] at hcore
  refine ⟨hend.trans (hrest.trans (by rw [hend]; rfl)), ?_, by rw [hcore], by rw [hcore]⟩
  rw [← rd_wr_same s c d v]
  exact rd_congr (by rw [hcore]) (by rw [hcore]) (by rw [hcore]) d

theorem inHubcall_of_run {s : State} {c d : Nat} (hrun : (core s c).run = .hubcall d) (h : (core s c).frozen = false) :
    inHubcall s c = true := by simp [inHubcall, hrun, h]

/-- A record that waits with room for it, of a type that PF0 does not see. -/
theorem emit_of_room {s : State} {island rtype : Nat} (source : Nat) (payload : List W32) (ht : rtype ∉ diagTypes)
    (h : recordsWaiting s island < 4) :
    emit s island source rtype payload =
      { s with fs := { s.fs with raised := s.fs.raised ++ [(island, { source, rtype, payload })] } } := by
  simp [emit, diagRecord, ht, raiseRecord, h]

theorem waitEndOp_of_granted {s : State} {c : Nat} (hrun : (core s c).run = .granted) (hon : coreOn s c = true)
    (hfrozen : (core s c).frozen = false) (hwheel : isSpoke c = true → wheelRuns s (c / 16) = true) :
    waitEndOp s c = modCore s c fun k => { k with run := .running } := by
  have hw : (!isSpoke c || wheelRuns s (c / 16)) = true := by
    cases hs : isSpoke c with
    | true => simp [hwheel hs]
    | false => rfl
  simp [waitEndOp, hrun, hon, hfrozen, hw]

/-- Settles O10: a wait gates the core, a fence watches its accesses, and each end readmits or runs it. -/
theorem waitsAndFencesEnd : Obligations.WaitsAndFencesEnd := by
  refine ⟨fun s c d a n h => ⟨fun hint => ⟨?wait, fun hspoke hjob => ?waitJob⟩, fun hspoke hjob => ?endJob,
      fun hhub => ?hubcall⟩,
    fun s c w => ⟨fun h => ?fence, fun hun hw => ?ack⟩,
    fun s c d v hd hfrozen => ⟨fun _ hrun => ⟨?answer, fun hroom => ?timeout⟩, fun hrun hon hwheel => ?ended⟩⟩
  case wait =>
    refine ⟨_, congrArg Host.Outcome.next ((issue_wait h).trans (wakeCore_of_not_ready (intReady_gate _ hint))),
      gatedAs_gate s c _⟩
  case waitJob =>
    exact ⟨_, congrArg Host.Outcome.next ((issue_waitJob d h hspoke).trans ((waitJobOp_of_no_job d hjob).trans
      (wakeCore_of_not_ready (intReady_gate _ hint)))), gatedAs_gate s c _⟩
  case endJob => exact congrArg Host.Outcome.next ((issue_waitJob d h hspoke).trans (waitJobOp_of_job d hjob))
  case hubcall =>
    have hgate := gatedAs_gate s c (.hubcall d)
    have hout : (gate s c 4 (.hubcall d)).out = s.out := by rw [hgate.1]
    refine ⟨_, gate s c 4 (.hubcall d), congrArg Host.Outcome.next (issue_hubcall d a n h hhub), hgate, ?_,
      fun c' hne => (core_congr (hubInt_cores _ _ _) c').trans (core_modCore_other _ hne _),
      (core_congr (hubInt_cores _ _ _) c).trans (core_modCore_same _ c _)⟩
    rw [← hout]
    rfl
  case fence =>
    obtain ⟨honly, hcore⟩ := fenceOp_effect s c
    exact ⟨_, congrArg Host.Outcome.next (issue_long_completes h (legal_long rfl rfl) (by simp) (by simp)
      (runOp_fence s c 4)), honly, hcore⟩
  case ack =>
    subst hw
    refine ⟨_, congrArg Host.Outcome.next (ackOp_ordinary hun), onlyCore_modCore s c _, ?_⟩
    simp
  case answer =>
    refine ⟨_, congrArg Host.Outcome.next (if_pos (inHubcall_of_run hrun hfrozen)), hubcallEnd_effect v hrun⟩
  case timeout =>
    have hemit := emit_of_room c [w32 c] (show 0x011 ∉ diagTypes by decide) hroom
    have hop : hubcallTimeoutOp s c = hubcallEnd (emit s (coreIsland c) c 0x011 [w32 c]) c ones64 :=
      if_pos (inHubcall_of_run hrun hfrozen)
    rw [hemit, ones64_eq] at hop
    obtain ⟨hrest, hval, -, hend⟩ := hubcallEnd_effect (s := { s with fs := { s.fs with
      raised := s.fs.raised ++ [(coreIsland c, { source := c, rtype := 0x011, payload := [w32 c] })] } }) (-1) hrun
    rw [← hop] at hrest hval hend
    refine ⟨_, rfl, ?_, ?_, hval, hend⟩
    · rw [hrest]
    · rw [hrest]
  case ended =>
    exact ⟨_, congrArg Host.Outcome.next (waitEndOp_of_granted hrun hon hfrozen hwheel), onlyCore_modCore s c _,
      core_modCore_same s c _⟩

/-! ### Repeat prefixes over an `ADD d, d, b` (R49 to R52, R83) -/

/-- Of the core only its registers and its program counter differ. -/
structure RegsOnly (s t : State) (c : Nat) : Prop where
  only : OnlyCore s t c
  fields : core t c = { core s c with pc := (core t c).pc, kregs := (core t c).kregs, window := (core t c).window }

section
variable {s t u : State} {c : Nat}

theorem OnlyCore.trans (hst : OnlyCore s t c) (htu : OnlyCore t u c) : OnlyCore s u c :=
  ⟨by rw [htu.rest, hst.rest], fun c' hne => (htu.others c' hne).trans (hst.others c' hne)⟩

theorem RegsOnly.trans (hst : RegsOnly s t c) (htu : RegsOnly t u c) : RegsOnly s u c :=
  ⟨hst.only.trans htu.only, by rw [htu.fields, hst.fields]⟩

theorem RegsOnly.run (h : RegsOnly s t c) : (core t c).run = (core s c).run := by rw [h.fields]

theorem RegsOnly.intTakable (h : RegsOnly s t c) : intTakable c (core t c) = intTakable c (core s c) := by
  rw [h.fields]; rfl

theorem regsOnly_setPc (s : State) (c : Nat) (pc : W64) : RegsOnly s (setPc s c pc) c :=
  ⟨(OnlyCore.refl s c).then_setPc pc, by simp [setPc]⟩

theorem regsOnly_wr (s : State) (c r : Nat) (v : W64) : RegsOnly s (wr s c r v) c := by
  refine ⟨(OnlyCore.refl s c).then_wr r v, ?_⟩
  rw [wr, core_modCore_same, setR_keeps]

theorem regsOnly_advance_wr (s : State) (c d len : Nat) (v : W64) : RegsOnly s (advance (wr s c d v) c len) c :=
  (regsOnly_wr s c d v).trans (regsOnly_setPc _ c _)

end

/-- One run of the repeated instruction at `fpc`. -/
def addOnce (s : State) (c d b len : Nat) (fpc : W64) : State :=
  advance (wr (setPc s c fpc) c d (rd s c d + rd s c b)) c len

theorem runOp_addOnce (s : State) (c d b len : Nat) (fpc : W64) :
    runOp (setPc s c fpc) c len (.alu .add d d b) = .ok (addOnce s c d b len fpc) := by
  rw [runOp_alu, rd_setPc, rd_setPc]
  rfl

theorem regsOnly_addOnce (s : State) (c d b len : Nat) (fpc : W64) : RegsOnly s (addOnce s c d b len fpc) c :=
  (regsOnly_setPc s c fpc).trans (regsOnly_advance_wr _ c d len _)

theorem rd_addOnce_same (s : State) (c b len : Nat) {d : Nat} (fpc : W64) (hd : d ≠ 0) :
    rd (addOnce s c d b len fpc) c d = rd s c d + rd s c b := by
  rw [addOnce, rd_advance_wr_same, if_neg hd]

theorem rd_addOnce_other (s : State) (c b len : Nat) {d q : Nat} (fpc : W64) (hd : d < 32) (hq : q < 32) (hne : q ≠ d) :
    rd (addOnce s c d b len fpc) c q = rd s c q := by
  rw [addOnce, rd_advance, rd_wr_other _ c hd hq hne, rd_setPc]

/-- What `n` runs of `ADD d, d, b` leave. -/
structure Added (s t : State) (c d b n : Nat) : Prop where
  regs : RegsOnly s t c
  sum : rd t c d = rd s c d + BitVec.ofNat 64 n * rd s c b

/-- One run and then `n` make `n + 1`. -/
theorem sum_succ (A B : W64) (n : Nat) : A + B + BitVec.ofNat 64 n * B = A + BitVec.ofNat 64 (n + 1) * B := by
  rw [BitVec.ofNat_add, BitVec.add_mul, show BitVec.ofNat 64 1 * B = B from BitVec.one_mul B, BitVec.add_assoc,
    BitVec.add_comm (BitVec.ofNat 64 n * B)]

section
variable {c d b : Nat} (hd : d < 32) (hb : b < 32) (hd0 : d ≠ 0) (hdb : d ≠ b)
include hd hb hd0 hdb

/-- `REPI` runs it `n` times. -/
theorem repiLoop_add (len n : Nat) (fpc : W64) {s : State} (hrun : (core s c).run = .running) :
    let t := repiLoop c len fpc (.alu .add d d b) n s
    RegsOnly s t c ∧ rd t c d = rd s c d + BitVec.ofNat 64 n * rd s c b ∧ pcOf t c = fpc + BitVec.ofNat 64 len ∧
      ∀ q, q < 32 → q ≠ d → rd t c q = rd s c q := by
  induction n generalizing s with
  | zero =>
    refine ⟨regsOnly_setPc s c _, ?_, pcOf_setPc s c _, fun q _ _ => rd_setPc s c q _⟩
    rw [repiLoop, rd_setPc]
    simp
  | succ n ih =>
    have honce := regsOnly_addOnce s c d b len fpc
    have hrun' : (core (addOnce s c d b len fpc) c).run = .running := honce.run.trans hrun
    have hstep : repiLoop c len fpc (.alu .add d d b) (n + 1) s =
        repiLoop c len fpc (.alu .add d d b) n (addOnce s c d b len fpc) := by
      simp [repiLoop, runOp_addOnce, hrun']
    obtain ⟨hregs, hsum, hpc, hothers⟩ := ih hrun'
    rw [hstep]
    refine ⟨honce.trans hregs, ?_, hpc, fun q hq hne => ?_⟩
    · rw [hsum, rd_addOnce_same _ _ _ _ _ hd0, rd_addOnce_other _ _ _ _ _ hd hb hdb.symm,
        sum_succ]
    · rw [hothers q hq hne, rd_addOnce_other _ _ _ _ _ hd hq hne]

/-- `REP` runs it `n` times and counts its register down by `n`. -/
theorem repLoop_add {r : Nat} (hr : r < 32) (hr0 : r ≠ 0) (hrd : r ≠ d) (hrb : r ≠ b) (len n : Nat) (pre fpc : W64) {s : State}
    (hrun : (core s c).run = .running) (hint : intTakable c (core s c) = false) :
    let t := repLoop c r len pre fpc (.alu .add d d b) n s
    RegsOnly s t c ∧ rd t c r = rd s c r - BitVec.ofNat 64 n ∧ rd t c d = rd s c d + BitVec.ofNat 64 n * rd s c b ∧
      pcOf t c = fpc + BitVec.ofNat 64 len ∧ ∀ q, q < 32 → q ≠ r → q ≠ d → rd t c q = rd s c q := by
  induction n generalizing s with
  | zero =>
    refine ⟨regsOnly_setPc s c _, ?_, ?_, pcOf_setPc s c _, fun q _ _ _ => rd_setPc s c q _⟩
    · rw [repLoop, rd_setPc]; simp
    · rw [repLoop, rd_setPc]; simp
  | succ n ih =>
    let a := addOnce s c d b len fpc
    let u := wr a c r (rd a c r - 1)
    have hu : RegsOnly s u c := (regsOnly_addOnce s c d b len fpc).trans (regsOnly_wr a c r _)
    have hrun' : (core u c).run = .running := hu.run.trans hrun
    have hint' : intTakable c (core u c) = false := hu.intTakable.trans hint
    have ha : (core a c).run = .running := (regsOnly_addOnce s c d b len fpc).run.trans hrun
    have hother (q : Nat) (hq : q < 32) (hne : q ≠ r) (hne' : q ≠ d) : rd u c q = rd s c q := by
      rw [rd_wr_other a c hr hq hne, rd_addOnce_other _ _ _ _ _ hd hq hne']
    have hcount : rd u c r = rd s c r - 1 := by
      rw [rd_wr_same, if_neg hr0, rd_addOnce_other _ _ _ _ _ hd hr hrd]
    have hsum : rd u c d = rd s c d + rd s c b := by
      rw [rd_wr_other a c hr hd hrd.symm, rd_addOnce_same _ _ _ _ _ hd0]
    have hstep : repLoop c r len pre fpc (.alu .add d d b) (n + 1) s =
        repLoop c r len pre fpc (.alu .add d d b) n u := by
      simp only [repLoop, runOp_addOnce]
      rw [if_neg (not_not.mpr ha)]
      exact if_neg (by rw [hint']; simp)
    obtain ⟨hregs, hcount', hsum', hpc, hothers⟩ := ih hrun' hint'
    rw [hstep]
    refine ⟨hu.trans hregs, ?_, ?_, hpc, fun q hq hne hne' => (hothers q hq hne hne').trans (hother q hq hne hne')⟩
    · rw [hcount', hcount, BitVec.ofNat_add, BitVec.sub_sub, BitVec.add_comm]; rfl
    · rw [hsum', hsum, hother b hb hrb.symm hdb.symm, sum_succ]

end

/-- A repeat may run an `ADD` that does not write its count register (R52). -/
theorem illegalRepeat_add {spoke hub : Bool} {d b l : Nat} {count : Option Nat} (hl : l = 2 ∨ l = 4)
    (hshort : l = 2 → d < 24 ∧ b < 24) (hcount : ∀ r ∈ count, r ≠ d) :
    illegalRepeat spoke hub (l = 4) count (.alu .add d d b) = none := by
  have hregs : (!decide (l = 4) && (opRegs (.alu .add d d b)).any (24 ≤ ·)) = false := by
    obtain rfl | rfl := hl
    · obtain ⟨hd, hb⟩ := hshort rfl
      simp [opRegs, hd, hb]
    · rfl
  have hlegal : illegalOf spoke hub (l = 4) (.alu .add d d b) = none := by
    simp only [illegalOf, isPriv, isReserved, hregs]
    rfl
  have hwrites : (count.any fun r => writesReg r (.alu .add d d b)) = false := by
    cases count with
    | none => rfl
    | some r => exact decide_eq_false (hcount r rfl).symm
  rw [illegalRepeat, hlegal]
  show (if (count.any fun r => writesReg r (.alu .add d d b)) = true then some 4 else none) = none
  rw [if_neg (by rw [hwrites]; exact Bool.false_ne_true)]

/-- Issue of a legal instruction is its run. -/
theorem issue_legal {s : State} {c len : Nat} {op : SpokeOp} (h : CanIssue s c len)
    (hi : illegalOf (isSpoke c) (isHub c) (len = 4) op = none) : issue s c len op = runIssued s c len op := by
  obtain ⟨hmay, hfetch⟩ := h
  simp [issue, hmay, hfetch, hi]

theorem run_of_mayIssue {s : State} {c : Nat} (h : mayIssue s c = true) : (core s c).run = .running := by
  simp only [mayIssue, Bool.and_eq_true, decide_eq_true_eq] at h
  obtain ⟨⟨⟨⟨_, hrun⟩, _⟩, _⟩, _⟩ := h
  exact hrun

/-- Settles O9: the loop of `REP` and of `REPI` by induction on its count. -/
theorem repeatsRunTheirCount : Obligations.RepeatsRunTheirCount := by
  intro s c r d b l n wide hr hd hb hr0 hd0 hrd hrb hdb hint hl hshort
  have hpc (len : Nat) : pcOf s c + BitVec.ofNat 64 len + BitVec.ofNat 64 l = pcOf s c + BitVec.ofNat 64 (len + l) := by
    rw [BitVec.ofNat_add, BitVec.add_assoc]
  refine ⟨fun h hc hfetch => ?rep, fun h hfetch => ?repi⟩
  case rep =>
    have hissue : issue s c (formLen wide) (.rep r) = repLoop c r l (pcOf s c) (pcOf s c + BitVec.ofNat 64 (formLen wide))
        (.alu .add d d b) (rd s c r).toNat s := by
      rw [issue_legal h (legal_form rfl rfl (by simpa [opRegs] using hc))]
      simp only [runIssued, prefixOp, hfetch,
        illegalRepeat_add (count := some r) hl hshort (by simpa using hrd)]
    obtain ⟨hregs, hcount, hsum, hend, hothers⟩ := repLoop_add hd hb hd0 hdb hr hr0 hrd hrb l (rd s c r).toNat (pcOf s c)
      (pcOf s c + BitVec.ofNat 64 (formLen wide)) (run_of_mayIssue h.1) hint
    rw [BitVec.ofNat_toNat, BitVec.setWidth_eq] at hcount hsum
    exact ⟨_, congrArg Host.Outcome.next hissue, hregs.only, hcount.trans (BitVec.sub_self _), hsum, hend.trans (hpc _),
      hothers⟩
  case repi =>
    have hissue : issue s c 4 (.repi (n.toNat + 1)) =
        repiLoop c l (pcOf s c + BitVec.ofNat 64 4) (.alu .add d d b) (n.toNat + 1) s := by
      rw [issue_legal h (by simpa using legal_long rfl rfl)]
      simp only [runIssued, prefixOp, show fetchOp s c (pcOf s c + BitVec.ofNat 64 4) = some (l, .alu .add d d b) from hfetch,
        illegalRepeat_add (count := none) hl hshort (by simp)]
    obtain ⟨hregs, hsum, hend, hothers⟩ := repiLoop_add hd hb hd0 hdb l (n.toNat + 1) (pcOf s c + BitVec.ofNat 64 4)
      (run_of_mayIssue h.1)
    exact ⟨_, congrArg Host.Outcome.next hissue, hregs.only, hsum, hend.trans (hpc _), hothers⟩

end Sys2Proof.Machine
end

section
/-! SUPPORT. Banks, Wheel DMA and broadcasts. -/

namespace Sys2Proof.Machine

/-! ### Banks (R100 to R107): the addresses of a bank's registers, owner writes, the end of a wipe, a starved request -/

theorem ownerAddr_ne_statusAddr (b : Nat) : ownerAddr b ≠ statusAddr b := by
  unfold ownerAddr statusAddr
  split <;> simp only [aFw, aWheel] <;> omega

theorem ownerAddr_ne_shareAddr {b : Nat} (h : isShared b = true) : ownerAddr b ≠ shareAddr b := by
  simp only [ownerAddr, h, if_true, shareAddr, aFw]; omega

theorem statusAddr_ne_shareAddr {b : Nat} (h : isShared b = true) : statusAddr b ≠ shareAddr b := by
  simp only [statusAddr, h, if_true, shareAddr, aFw]; omega

theorem onlyGov_askTokens (s : State) (work : Work) (n : Nat) (class0 : Bool) : OnlyGov s (askTokens s work n class0) := rfl

theorem onlyGov_wakeWheel (s : State) (w : Nat) (class0 : Bool) : OnlyGov s (wakeWheel s w class0) := by
  unfold wakeWheel
  split
  · exact onlyGov_askTokens s _ _ _
  · rfl

/-- The state in which an owner write of bank `b` is decided: its Wheel has been woken where the bank is a pool bank. -/
def ownerWoken (s : State) (b : Nat) : State := if b < 64 then s else wakeWheel s (poolWheel b) false

theorem onlyGov_ownerWoken (s : State) (b : Nat) : OnlyGov s (ownerWoken s b) := by
  unfold ownerWoken
  split
  · rfl
  · exact onlyGov_wakeWheel s _ _

theorem ownerWoken_gov (s : State) (b : Nat) :
    (ownerWoken s b).gov = if b < 64 then s.gov else (wakeWheel s (poolWheel b) false).gov := apply_ite State.gov _ _ _

theorem OnlyGov.reg {s t : State} (h : OnlyGov s t) (a : Nat) : reg t a = reg s a := by rw [h]; rfl

theorem handoverBy_of_on {s : State} {b : Nat} (hex : bankExists s b = true) (hon : bankRegOn s b = true) (m : Nat) (v : W32) :
    handoverBy s m b v = handoverOp (ownerWoken s b) m b v := by
  by_cases hb : b < 64
  · simp [handoverBy, isShared, hb, guarded, hon, ownerWoken]
  · have hpresent : wheelAbsent s (poolWheel b) = false := (by simpa [bankExists, hb] using hex : _ ∧ _).2
    have hwheel : wheelOn s (poolWheel b) = true := by simpa [bankRegOn, isShared, hb] using hon
    simp [handoverBy, isShared, hb, onWheel, hpresent, guarded, hwheel, ownerWoken]

theorem OnlyGov.bankOwner {s u : State} (h : OnlyGov s u) (b : Nat) : bankOwner u b = bankOwner s b := by
  simp only [Machine.bankOwner, regF, h.reg]

theorem OnlyGov.wiping {s u : State} (h : OnlyGov s u) (b : Nat) : wiping u b = wiping s b := by
  simp only [Machine.wiping, regB, h.reg]

theorem OnlyGov.validOwner {s u : State} (h : OnlyGov s u) (b o : Nat) : validOwner u b o = validOwner s b o := by rw [h]; rfl

/-- The registers after an owner write that changes the owner, before the wipe that it may ask for (R101). -/
def ownerChanged (s : State) (m b : Nat) (v : W32) : State :=
  let s' := bankResult (setReg s (ownerAddr b) (v &&& ownerBits b)) b m 1
  setRegF (if isShared b then setReg s' (shareAddr b) 0 else s') (statusAddr b) 0 11 (bankOwner s b)

/-- What an owner write that changes the owner does (R101, R102): on the registers alone. -/
def handedOver (s : State) (m b : Nat) (v : W32) : State :=
  if bitOf v 13 then setRegB (ownerChanged s m b v) (statusAddr b) 17 true else ownerChanged s m b v

theorem handoverOp_of_valid {s : State} {m b : Nat} {v : W32} (hm : m = bankOwner s b ∨ m = hubA) (hw : wiping s b = false)
    (hvalid : validOwner s b (fld v 0 11) = true) (hnew : fld v 0 11 ≠ bankOwner s b) :
    handoverOp s m b v = handedOver s m b v := by
  have hmine : ¬ (m ≠ bankOwner s b ∧ m ≠ hubA) := by tauto
  simp [handoverOp, hw, hvalid, hnew, hmine, handedOver, ownerChanged]

theorem handoverOp_of_wiping {s : State} {m b : Nat} (v : W32) (hm : m = bankOwner s b ∨ m = hubA) (hw : wiping s b = true) :
    handoverOp s m b v = bankResult s b m 3 := by
  have hmine : ¬ (m ≠ bankOwner s b ∧ m ≠ hubA) := by tauto
  simp [handoverOp, hw, hmine]

theorem handoverOp_of_foreign {s : State} {m b : Nat} (v : W32) (hown : m ≠ bankOwner s b) (hhub : m ≠ hubA)
    (hprev : m ≠ regF s (statusAddr b) 0 11) : handoverOp s m b v = violate s m vHandover (ownerAddr b) := by
  simp [handoverOp, hown, hhub, hprev]

theorem bitOf_setFld_other (w : W32) {lo len i : Nat} (v : Nat) (h : i < lo ∨ lo + len ≤ i) :
    bitOf (setFld w lo len v) i = bitOf w i := by
  rw [bitOf, getLsbD_setFld, if_neg (by omega), bitOf]

theorem OnlyRegs.setRegF {s t : State} (h : OnlyRegs s t) (a lo len v : Nat) : OnlyRegs s (setRegF t a lo len v) := h.setReg _ _

theorem OnlyRegs.setRegB {s t : State} (h : OnlyRegs s t) (a i : Nat) (v : Bool) : OnlyRegs s (setRegB t a i v) := h.setReg _ _

theorem OnlyRegs.ite {s t u : State} {p : Prop} [Decidable p] (ht : OnlyRegs s t) (hu : OnlyRegs s u) :
    OnlyRegs s (if p then t else u) := by
  split
  · exact ht
  · exact hu

theorem OnlyRegs.rest {s t : State} (h : OnlyRegs s t) : t = { s with regs := t.regs } := by
  obtain ⟨regs, rfl⟩ := h
  rfl

theorem onlyRegs_bankResult {s t : State} (h : OnlyRegs s t) (b m code : Nat) : OnlyRegs s (bankResult t b m code) :=
  (h.setRegF _ _ _ _).setRegF _ _ _ _

theorem onlyRegs_handedOver (s : State) (m b : Nat) (v : W32) : OnlyRegs s (handedOver s m b v) := by
  have hresult := onlyRegs_bankResult ((OnlyRegs.refl s).setReg (ownerAddr b) (v &&& ownerBits b)) b m 1
  have hchanged : OnlyRegs s (ownerChanged s m b v) := ((hresult.setReg _ _).ite hresult).setRegF _ _ _ _
  exact (hchanged.setRegB _ _ _).ite hchanged

theorem reg_bankResult_other {s : State} {b x : Nat} (h : x ≠ statusAddr b) (m code : Nat) :
    reg (bankResult s b m code) x = reg s x := (reg_setRegF_other _ h).trans (reg_setRegF_other _ h)

theorem reg_bankResult_status (s : State) (b m code : Nat) :
    reg (bankResult s b m code) (statusAddr b) = setFld (setFld (reg s (statusAddr b)) 29 3 code) 18 11 m := by
  simp [bankResult, setRegF]

/-- The clearing of a shared bank's `SHARE` leaves every other register alone. -/
theorem reg_shareCleared {s : State} {b x : Nat} (h : isShared b = true → x ≠ shareAddr b) :
    reg (if isShared b then setReg s (shareAddr b) 0 else s) x = reg s x := by
  split
  · next hsh => exact reg_setReg_other _ (h hsh) _
  · rfl

theorem reg_handedOver_other {s : State} {m b x : Nat} {v : W32} (h : x ≠ statusAddr b) :
    reg (handedOver s m b v) x = reg (ownerChanged s m b v) x := by
  unfold handedOver
  split
  · exact reg_setRegB_other _ h _
  · rfl

/-- The owner register after a handover holds the written bits. -/
theorem owner_handedOver (s : State) (m b : Nat) (v : W32) : reg (handedOver s m b v) (ownerAddr b) = v &&& ownerBits b := by
  have hos := ownerAddr_ne_statusAddr b
  rw [reg_handedOver_other hos, ownerChanged, reg_setRegF_other _ hos, reg_shareCleared ownerAddr_ne_shareAddr,
    reg_bankResult_other hos, reg_setReg_same]

theorem share_handedOver (s : State) (m : Nat) {b : Nat} (v : W32) (hsh : isShared b = true) :
    reg (handedOver s m b v) (shareAddr b) = 0 := by
  have hss := (statusAddr_ne_shareAddr hsh).symm
  rw [reg_handedOver_other hss, ownerChanged, reg_setRegF_other _ hss, if_pos hsh, reg_setReg_same]

/-- The status word before the wipe: `LAST_RESULT` 1, the writer, the owner before. -/
theorem status_ownerChanged (s : State) (m b : Nat) (v : W32) :
    reg (ownerChanged s m b v) (statusAddr b) =
      setFld (setFld (setFld (reg s (statusAddr b)) 29 3 1) 18 11 m) 0 11 (bankOwner s b) := by
  rw [ownerChanged, setRegF, reg_setReg_same, reg_shareCleared statusAddr_ne_shareAddr, reg_bankResult_status,
    reg_setReg_other _ (ownerAddr_ne_statusAddr b).symm]

theorem fld_status_handedOver {s : State} {m b lo len : Nat} (v : W32) (h : lo + len ≤ 17 ∨ 18 ≤ lo) :
    regF (handedOver s m b v) (statusAddr b) lo len = regF (ownerChanged s m b v) (statusAddr b) lo len := by
  unfold handedOver
  split
  · rw [setRegB, regF, setRegF, reg_setReg_same, fld_setFld_other _ _ (by omega), regF]
  · rfl

theorem wiping_handedOver {s : State} {m b : Nat} {v : W32} (hw : wiping s b = false) :
    wiping (handedOver s m b v) b = v.getLsbD 13 := by
  unfold handedOver wiping
  split
  · next hv => rw [regB_setRegB_same _ _ _ (by omega)]; exact (show v.getLsbD 13 = true from hv).symm
  · next hv =>
    rw [regB, status_ownerChanged, bitOf_setFld_other _ _ (by omega), bitOf_setFld_other _ _ (by omega),
      bitOf_setFld_other _ _ (by omega)]
    exact (show bitOf _ 17 = false from hw).trans (Bool.eq_false_iff.mpr hv).symm

theorem fld_lt (w : W32) (lo len : Nat) : fld w lo len < 2 ^ len := Nat.mod_lt _ (Nat.two_pow_pos _)

/-- The fields of a bank's status word after a handover: the owner before, the writer, and that it was carried out. -/
theorem status_handedOver (s : State) {m : Nat} (b : Nat) (v : W32) (hm : m < 2048) :
    regF (handedOver s m b v) (statusAddr b) 0 11 = bankOwner s b ∧
      regF (handedOver s m b v) (statusAddr b) 18 11 = m ∧ regF (handedOver s m b v) (statusAddr b) 29 3 = 1 := by
  have hown : bankOwner s b < 2 ^ 11 := fld_lt _ _ _
  refine ⟨?_, ?_, ?_⟩ <;> rw [fld_status_handedOver v (by omega), regF, status_ownerChanged]
  · rw [fld_setFld_same _ _ (by omega), Nat.mod_eq_of_lt hown]
  · rw [fld_setFld_other _ _ (by omega), fld_setFld_same _ _ (by omega), Nat.mod_eq_of_lt (by omega)]
  · rw [fld_setFld_other _ _ (by omega), fld_setFld_other _ _ (by omega), fld_setFld_same _ _ (by omega)]; rfl

theorem bankOwner_bankResult (s : State) (b m code : Nat) : bankOwner (bankResult s b m code) b = bankOwner s b := by
  rw [bankOwner, regF, reg_bankResult_other (ownerAddr_ne_statusAddr b), bankOwner, regF]

theorem wiping_bankResult (s : State) (b m code : Nat) : wiping (bankResult s b m code) b = wiping s b := by
  rw [wiping, regB, reg_bankResult_status, bitOf_setFld_other _ _ (by omega), bitOf_setFld_other _ _ (by omega), wiping, regB]

theorem result_bankResult (s : State) (b m code : Nat) :
    regF (bankResult s b m code) (statusAddr b) 29 3 = code % 8 := by
  rw [regF, reg_bankResult_status, fld_setFld_other _ _ (by omega), fld_setFld_same _ _ (by omega)]; rfl

theorem bankWipeDoneOp_of_wiping {s : State} {b : Nat} (h : wiping s b = true) :
    bankWipeDoneOp s b = setRegB (wipeMem s (bankBase b) (bankBase b + bankSize b)) (statusAddr b) 17 false := if_pos h

theorem rdByte_setRegB (s : State) (a i : Nat) (v : Bool) (x : Nat) : rdByte (setRegB s a i v) x = rdByte s x := rfl

theorem dmaStarvedOp_of_new {s : State} {b : Nat} (dma : Nat) (h8 : 8 ≤ b) (hon : bankOn s b = true) (hnew : b ∉ s.starved)
    (hroom : recordsWaiting s (bankIsland b) < 4) :
    dmaStarvedOp s b dma = setRegB { s with
      starved := s.starved ++ [b],
      fs := { s.fs with raised := s.fs.raised ++ [(bankIsland b,
        { source := dma, rtype := 0x014, payload := [w32 (if b < 64 then b else poolIdx b), w32 dma] })] } }
      (statusAddr b) 16 true := by
  rw [dmaStarvedOp, if_neg (by simp [hon, hnew, h8]), emit_of_room dma _ (by decide) hroom]
  simp [isShared]

/-- Settles O15. An owner write is decided in `ownerWoken s b`, in which only the governor's requests differ from `s`. -/
theorem banksChangeHands : Obligations.BanksChangeHands := by
  unfold Obligations.BanksChangeHands
  refine ⟨fun s m b v hb hex hon hm hm11 => ?_, fun s m b v hex hon hown hhub hprev => ?_,
    fun s b dma hb => ⟨fun hw => ?_, fun h8 hbank hnew hroom => ?_⟩⟩
  · have hexec : exec (.handoverWrite m b v) s = .next (handoverOp (ownerWoken s b) m b v) :=
      congrArg Host.Outcome.next (handoverBy_of_on hex hon m v)
    have hgov := onlyGov_ownerWoken s b
    rw [hexec, ← ownerWoken_gov]
    generalize ownerWoken s b = u at *
    rw [← hgov.bankOwner b, ← hgov.wiping b] at *
    refine ⟨fun hw hvalid hnew => ?_, fun hw => ?_⟩
    · rw [← hgov.validOwner b] at hvalid
      rw [handoverOp_of_valid hm hw hvalid hnew]
      have hrest := (onlyRegs_handedOver u m b v).rest
      obtain ⟨hprev, hwriter, hresult⟩ := status_handedOver u b v hm11
      exact ⟨_, rfl, by rw [hrest, hgov], by rw [hrest], owner_handedOver u m b v, hprev, hwriter, hresult,
        wiping_handedOver hw, fun h64 => share_handedOver u m v (decide_eq_true h64)⟩
    · rw [handoverOp_of_wiping v hm hw]
      have hrest := (onlyRegs_bankResult (OnlyRegs.refl u) b m 3).rest
      exact ⟨_, rfl, by rw [hrest, hgov], by rw [hrest], bankOwner_bankResult u b m 3, result_bankResult u b m 3,
        (wiping_bankResult u b m 3).trans hw⟩
  · have hexec : exec (.handoverWrite m b v) s = .next (handoverOp (ownerWoken s b) m b v) :=
      congrArg Host.Outcome.next (handoverBy_of_on hex hon m v)
    have hgov := onlyGov_ownerWoken s b
    rw [hexec, ← ownerWoken_gov]
    generalize ownerWoken s b = u at *
    rw [← hgov.bankOwner b] at hown
    rw [regF, ← hgov.reg, ← regF] at hprev
    rw [handoverOp_of_foreign v hown hhub hprev]
    exact ⟨_, rfl, by rw [hgov]; rfl, rfl, by rw [hgov]; rfl⟩
  · have hexec : exec (.bankWipeDone b) s = .next (setRegB (wipeMem s (bankBase b) (bankBase b + bankSize b)) (statusAddr b) 17 false) :=
      congrArg Host.Outcome.next (if_pos hw)
    refine ⟨_, hexec, rfl, regB_setRegB_same _ _ _ (by omega), ?_, fun a hlo hhi => ?_, fun a hout => ?_⟩
    · exact congrArg (fld · 0 11) (reg_setRegB_other _ (ownerAddr_ne_statusAddr b) _)
    · exact (rdByte_wipeMem s _ _ a).trans (if_pos ⟨hlo, hhi⟩)
    · exact (rdByte_wipeMem s _ _ a).trans (if_neg (by omega))
  · rw [show exec (.dmaStarved b dma) s = .next (dmaStarvedOp s b dma) from rfl, dmaStarvedOp_of_new dma h8 hbank hnew hroom]
    exact ⟨_, rfl, rfl, regB_setRegB_same _ _ _ (by omega), rfl⟩

/-! ### Parts of a memory range -/

theorem length_rdBytes (s : State) : ∀ n a, (rdBytes s a n).length = n
  | 0, _ => rfl
  | n + 1, a => congrArg (· + 1) (length_rdBytes s n (a + 1))

theorem take_rdBytes (s : State) : ∀ k n a : Nat, k ≤ n → (rdBytes s a n).take k = rdBytes s a k
  | 0, _, _, _ => rfl
  | k + 1, n + 1, a, h => congrArg (rdByte s a :: ·) (take_rdBytes s k n (a + 1) (Nat.le_of_succ_le_succ h))

theorem drop_rdBytes (s : State) : ∀ (k n a : Nat), (rdBytes s a n).drop k = rdBytes s (a + k) (n - k)
  | 0, _, _ => rfl
  | k + 1, 0, _ => by simp [rdBytes]
  | k + 1, n + 1, a => by
    have hrest := drop_rdBytes s k n (a + 1)
    rw [Nat.add_right_comm, Nat.add_assoc] at hrest
    simpa [rdBytes] using hrest

theorem take_drop_rdBytes (s : State) {off k n : Nat} (h : off + k ≤ n) (a : Nat) :
    ((rdBytes s a n).drop off).take k = rdBytes s (a + off) k := by
  rw [drop_rdBytes, take_rdBytes s _ _ _ (by omega)]

theorem slice_of_le {bs : List Byte} {off n : Nat} (h : off + n ≤ bs.length) : slice bs off n = (bs.drop off).take n := by
  have hlen : n - (bs.drop off).length = 0 := by rw [List.length_drop]; omega
  rw [slice, fitBytes, hlen, zeros, List.replicate_zero, List.append_nil]

/-- A field of bytes inside their length is spelled by the bytes of that part. -/
theorem field_of_le {bs : List Byte} {off n : Nat} (h : off + n ≤ bs.length) : field bs off n = leNat ((bs.drop off).take n) :=
  congrArg leNat (slice_of_le h)

/-- A part of a range that was written holds that part of the bytes. -/
theorem rdMem_wrBytes_part (s : State) (a : Nat) (bs : List Byte) {off n : Nat} (h : off + n ≤ bs.length) :
    rdMem (wrBytes s a bs) (a + off) n = field bs off n := by
  rw [rdMem, field_of_le h, ← take_drop_rdBytes _ h, rdBytes_wrBytes]

theorem field_rdBytes (s : State) (a : Nat) {off k n : Nat} (h : off + k ≤ n) :
    field (rdBytes s a n) off k = rdMem s (a + off) k := by
  rw [field_of_le (by rwa [length_rdBytes]), take_drop_rdBytes s h, rdMem]

theorem leNat_lt (bs : List Byte) : leNat bs < 2 ^ (8 * bs.length) := by
  induction bs with
  | nil => simp [leNat]
  | cons b bs ih =>
    have hb : b.toNat < 256 := b.isLt
    rw [List.length_cons, show 8 * (bs.length + 1) = 8 * bs.length + 8 by omega, pow_add, leNat]
    omega

theorem rdMem_lt (s : State) (a n : Nat) : rdMem s a n < 2 ^ (8 * n) := by
  simpa only [rdMem, length_rdBytes] using leNat_lt (rdBytes s a n)

theorem rdMem_congr {s t : State} {a n : Nat} (h : ∀ i < n, rdByte s (a + i) = rdByte t (a + i)) : rdMem s a n = rdMem t a n := by
  rw [rdMem, rdBytes_congr n a h, rdMem]

/-! ### The two ends of a beat (R111): plain address and view -/

/-- The plain address of a byte of an aliased range. -/
def plainAddr (a : Nat) : Nat := ((bankAt a).map fun e => e.2.2).getD a

/-- The view through which an address reaches its bank. -/
def viewAt (a : Nat) : Nat := ((bankAt a).map fun e => e.2.1).getD 0

theorem dmaFetch_eq (s : State) (a n : Nat) : dmaFetch s a n = rdBytes s (plainAddr a) n := by
  unfold dmaFetch plainAddr
  cases bankAt a <;> rfl

theorem viewValue_eq (view old v bits : Nat) :
    viewValue view old v bits = if view = 0 then v else if view = 1 then old ||| v else old &&& (2 ^ bits - 1 - v) := by
  match view with
  | 0 => rfl
  | 1 => rfl
  | n + 2 => simp [viewValue]

theorem viewValue_lt (view : Nat) {old v bits : Nat} (hold : old < 2 ^ bits) (hv : v < 2 ^ bits) :
    viewValue view old v bits < 2 ^ bits := by
  rw [viewValue_eq]
  split
  · exact hv
  · split
    · exact Nat.or_lt_two_pow hold hv
    · exact lt_of_le_of_lt Nat.and_le_left hold

/-- What a beat of words `data` leaves at `p` of `t`, from `s`: each word as its view says, and every other byte as it was. -/
structure WordsPut (s t : State) (p view : Nat) (data : List Byte) (k : Nat) : Prop where
  rest : t = { s with mem := t.mem }
  word : ∀ i < k, rdMem t (p + 8 * i) 8 = viewValue view (rdMem s (p + 8 * i) 8) (field data (8 * i) 8) 64
  other : ∀ a, a < p ∨ p + 8 * k ≤ a → rdByte t a = rdByte s a

theorem field_lt (bs : List Byte) (off n : Nat) : field bs off n < 2 ^ (8 * n) := by
  have hlen : (slice bs off n).length = n := by simp [slice, fitBytes, zeros]; omega
  simpa only [field, hlen] using leNat_lt (slice bs off n)

theorem wordsPut_foldl (s : State) (p view : Nat) (data : List Byte) (k : Nat) :
    WordsPut s ((List.range k).foldl (fun s i =>
      wrMem s (p + 8 * i) 8 (viewValue view (rdMem s (p + 8 * i) 8) (field data (8 * i) 8) 64)) s) p view data k := by
  induction k with
  | zero => exact ⟨rfl, fun i hi => absurd hi (by omega), fun _ _ => rfl⟩
  | succ k ih =>
    rw [List.range_succ, List.foldl_append]
    generalize (List.range k).foldl _ s = u at ih
    have hold : rdMem u (p + 8 * k) 8 = rdMem s (p + 8 * k) 8 := rdMem_congr fun i hi => ih.other _ (by omega)
    simp only [List.foldl_cons, List.foldl_nil, hold]
    refine ⟨by rw [wrMem_frame, ih.rest], fun i hi => ?_, fun a ha => ?_⟩
    · by_cases hik : i = k
      · subst hik
        rw [rdMem_wrMem, Nat.mod_eq_of_lt (viewValue_lt view (rdMem_lt s _ 8) (field_lt data _ 8))]
      · rw [← ih.word i (by omega)]
        exact rdMem_congr fun j hj => rdByte_wrMem_other _ _ (by omega)
    · exact (rdByte_wrMem_other _ _ (by omega)).trans (ih.other a (by omega))

theorem dmaPut_words (s : State) (a k : Nat) {data : List Byte} (hlen : data.length = 8 * k) :
    WordsPut s (dmaPut s a data) (plainAddr a) (viewAt a) data k := by
  have hplain : ∀ p, WordsPut s (wrBytes s p data) p 0 data k := fun p =>
    ⟨wrBytes_frame _ _ _, fun i hi => rdMem_wrBytes_part s p data (by omega), fun b hb => rdByte_wrBytes_other _ _ (by omega)⟩
  unfold dmaPut plainAddr viewAt
  split
  · next b p hb => simpa [hb] using hplain p
  · next b view p hview hb =>
    simp only [hb, Option.map_some, Option.getD_some, hlen, Nat.mul_div_cancel_left k (show 0 < 8 by omega)]
    exact wordsPut_foldl s p view data k
  · next hb => simpa [hb] using hplain a

/-! ### Wheel DMA (R112, R113) -/

theorem wheelAbsent_of_on {s : State} {w : Nat} (h : wheelOn s w = true) : wheelAbsent s w = false := by
  simp only [wheelOn, Bool.and_eq_true, Bool.not_eq_true'] at h
  exact h.1.2

theorem wdmaGoBy_awake {s : State} {c : Nat} (hon : wheelOn s (c / 16) = true) (hpark : parked s (c / 16) = false) :
    wdmaGoBy s c c = wdmaGoOp s c c := by
  simp [wdmaGoBy, onWheel, wheelAbsent_of_on hon, guarded, hon, granted, wakeWheel_of_not_parked false hpark]

theorem wdmaGoOp_of_valid {s : State} {m c : Nat} (hbusy : wdmaBusy s c = false) (hvalid : wdmaValid s c = true)
    (hlen : wdmaLen s c ≠ 0) :
    wdmaGoOp s m c = setRegB { s with wdma := smSet s.wdma c {} { moved := 0, starter := m } } (wdmaAddr c 0x14) 1 true := by
  have hlen' : wdmaLen { s with wdma := smSet s.wdma c {} { moved := 0, starter := m } } c ≠ 0 := hlen
  simp [wdmaGoOp, hbusy, hvalid, hlen']

theorem wdmaGoOp_of_invalid {s : State} {m c : Nat} (hbusy : wdmaBusy s c = false) (hvalid : wdmaValid s c = false) :
    wdmaGoOp s m c = setRegF (setRegB s (wdmaAddr c 0x14) 2 true) (wdmaAddr c 0x14) 4 2 1 := by
  simp [wdmaGoOp, hbusy, hvalid]

theorem regB_setRegF_other (s : State) (a : Nat) {lo len i : Nat} (v : Nat) (h : i < lo ∨ lo + len ≤ i) :
    regB (setRegF s a lo len v) a i = regB s a i := by
  rw [regB, setRegF, reg_setReg_same, bitOf_setFld_other _ _ h, regB]

/-- The slot at the rotation pointer is the one that a beat serves, when it is active. -/
theorem wdmaBeatOp_of_next {s : State} {c : Nat} (hactive : wdmaActive s c = true) (hnext : smGet s.wdmaNext (c / 16) 0 = c % 16) :
    wdmaBeatOp s (c / 16) = wdmaBeatSlot { s with wdmaNext := smSet s.wdmaNext (c / 16) 0 ((c % 16 + 1) % 16) } c := by
  have hfirst : 16 * (c / 16) + (c % 16 + 0) % 16 = c := by omega
  simp only [wdmaBeatOp, hnext, List.range_succ_eq_map, List.map_cons, hfirst, List.find?_cons, hactive]

/-- An access of the DMA to a bank that is not being wiped only notes that the bank was served (R107). -/
theorem dmaTouch_effect {s : State} {a : Nat} (h : ∀ b, bankOf a = some b → wiping s b = false) :
    dmaTouch s a = { s with starved := (dmaTouch s a).starved } := by
  unfold dmaTouch
  split
  · next b hb =>
    have hsettled : settleBank s b = s := by simp [settleBank, bankWipeDoneOp, h b hb]
    rw [hsettled]; rfl
  · rfl

section
variable {s : State} {c a : Nat}

theorem wdmaRead_granted (hon : endpointOn s c a = true) (hbusy : wdmaScratchBusy s c a = false) (n : Nat) :
    wdmaRead s c a n = (rdBytes (dmaTouch s a) (plainAddr a) n, dmaTouch s a) := by
  simp [wdmaRead, hon, hbusy, dmaFetch_eq]

theorem wdmaWrite_granted (hon : endpointOn s c a = true) (hbusy : wdmaScratchBusy s c a = false) (data : List Byte) :
    wdmaWrite s c a data = dmaPut (dmaTouch s a) a data := by
  simp [wdmaWrite, hon, hbusy]

end

/-- A DMA endpoint of a slot that a beat reaches: granted, on, not the scratch of a running Spoke, no wipe under way. -/
structure Reachable (s : State) (c a : Nat) (write : Bool) : Prop where
  granted : wdmaGrants s c a write = true
  on : endpointOn s c a = true
  quiet : wdmaScratchBusy s c a = false
  settled : ∀ b, bankOf a = some b → wiping s b = false

theorem Reachable.not_refused {s : State} {c a : Nat} {write : Bool} (h : Reachable s c a write) :
    wdmaRefused s c a write = false := by simp [wdmaRefused, h.granted]

theorem Reachable.of_starved {s t : State} {c a : Nat} {write : Bool} (h : Reachable s c a write)
    (ht : t = { s with starved := t.starved }) : Reachable t c a write := by
  rw [ht]
  exact ⟨h.granted, h.on, h.quiet, h.settled⟩

/-- What a read and a write between two endpoints within reach do: the words of the source as they stood, through the view of
the destination. -/
theorem copyBeat_effect {s : State} {c src dst : Nat} (hsrc : Reachable s c src false) (hdst : Reachable s c dst true) (k : Nat) :
    ∃ t, wdmaWrite (wdmaRead s c src (8 * k)).2 c dst (wdmaRead s c src (8 * k)).1 = t ∧
      t = { s with mem := t.mem, starved := t.starved } ∧
      (∀ i < k, rdMem t (plainAddr dst + 8 * i) 8 =
        viewValue (viewAt dst) (rdMem s (plainAddr dst + 8 * i) 8) (rdMem s (plainAddr src + 8 * i) 8) 64) ∧
      ∀ a, a < plainAddr dst ∨ plainAddr dst + 8 * k ≤ a → rdByte t a = rdByte s a := by
  have hread := dmaTouch_effect hsrc.settled
  rw [wdmaRead_granted hsrc.on hsrc.quiet]
  generalize dmaTouch s src = u at *
  have hdst' := hdst.of_starved hread
  have hwrite := dmaTouch_effect hdst'.settled
  rw [wdmaWrite_granted hdst'.on hdst'.quiet]
  generalize dmaTouch u dst = u' at *
  have hread' : u.mem = s.mem := by rw [hread]
  have hmem : u'.mem = s.mem := by rw [hwrite, hread']
  have hput := dmaPut_words u' dst k (length_rdBytes u (8 * k) (plainAddr src))
  refine ⟨_, rfl, by rw [hput.rest, hwrite, hread], fun i hi => ?_, fun a ha => ?_⟩
  · rw [hput.word i hi, field_rdBytes _ _ (by omega), rdMem_mem_congr hmem, rdMem_mem_congr hread']
  · rw [hput.other a ha, rdByte_mem_congr hmem]

/-- The bytes that one beat of a slot moves (R112). -/
def beatSize (s : State) (c src dst : Nat) : Nat :=
  if src % 64 = 0 ∧ dst % 64 = 0 ∧ (smGet s.wdma c {}).moved + 64 ≤ wdmaLen s c then 64 else 8

theorem beatSize_words (s : State) (c src dst : Nat) : ∃ k, beatSize s c src dst = 8 * k := by
  unfold beatSize
  split
  · exact ⟨8, rfl⟩
  · exact ⟨1, rfl⟩

theorem wdmaBeatSlot_of_reachable {s : State} {c src dst : Nat} (hs : src = regPair s (wdmaAddr c 0) + (smGet s.wdma c {}).moved)
    (hd : dst = regPair s (wdmaAddr c 8) + (smGet s.wdma c {}).moved)
    (hsrc : Reachable s c src false) (hdst : Reachable s c dst true) :
    wdmaBeatSlot s c =
      let t := wdmaWrite (wdmaRead s c src (beatSize s c src dst)).2 c dst (wdmaRead s c src (beatSize s c src dst)).1
      { t with wdma := smSet t.wdma c {} { smGet s.wdma c {} with moved := (smGet s.wdma c {}).moved + beatSize s c src dst } } := by
  unfold wdmaBeatSlot
  simp only [← hs, ← hd, hsrc.not_refused, hdst.not_refused, Bool.false_eq_true, if_false, beatSize, Bool.and_eq_true,
    decide_eq_true_eq, and_assoc]

/-- One beat between two endpoints within reach: `k` words, and the slot's progress. -/
theorem wdmaBeatSlot_effect {s : State} {c src dst : Nat} (hs : src = regPair s (wdmaAddr c 0) + (smGet s.wdma c {}).moved)
    (hd : dst = regPair s (wdmaAddr c 8) + (smGet s.wdma c {}).moved)
    (hsrc : Reachable s c src false) (hdst : Reachable s c dst true) :
    ∃ k t, beatSize s c src dst = 8 * k ∧ wdmaBeatSlot s c = t ∧
      t = { s with mem := t.mem, wdma := t.wdma, starved := t.starved } ∧
      (∀ i < k, rdMem t (plainAddr dst + 8 * i) 8 =
        viewValue (viewAt dst) (rdMem s (plainAddr dst + 8 * i) 8) (rdMem s (plainAddr src + 8 * i) 8) 64) ∧
      (∀ a, a < plainAddr dst ∨ plainAddr dst + 8 * k ≤ a → rdByte t a = rdByte s a) ∧
      (smGet t.wdma c {}).moved = (smGet s.wdma c {}).moved + 8 * k := by
  obtain ⟨k, hk⟩ := beatSize_words s c src dst
  obtain ⟨t, hcopy, hrest, hwords, hother⟩ := copyBeat_effect hsrc hdst k
  have hbeat := wdmaBeatSlot_of_reachable hs hd hsrc hdst
  simp only [hk, hcopy] at hbeat
  exact ⟨k, _, hk, hbeat, by rw [hrest], hwords, hother, by rw [smGet_smSet_same]⟩

/-- Settles O16. -/
theorem wheelDmaMovesItsBytes : Obligations.WheelDmaMovesItsBytes := by
  unfold Obligations.WheelDmaMovesItsBytes
  intro s c hspoke hon hpark
  have hexec : exec (.wdmaGo c c) s = .next (wdmaGoOp s c c) := congrArg Host.Outcome.next (wdmaGoBy_awake hon hpark)
  refine ⟨fun hbusy hvalid hlen => ?_, fun hbusy hvalid => ?_, ?_, fun hbusy hlen => ?_⟩
  · rw [hexec, wdmaGoOp_of_valid hbusy hvalid hlen]
    exact ⟨_, rfl, rfl, regB_setRegB_same _ _ _ (by omega), smGet_smSet_same _ _ _ _⟩
  · rw [hexec, wdmaGoOp_of_invalid hbusy hvalid]
    refine ⟨_, rfl, rfl, ?_, ?_, ?_⟩
    · rw [wdmaBusy, regB_setRegF_other _ _ _ (by omega), regB_setRegB_other _ _ (by omega)]; exact hbusy
    · rw [regB_setRegF_other _ _ _ (by omega), regB_setRegB_same _ _ _ (by omega)]
    · exact regF_setRegF_same _ _ _ (by omega)
  · intro moved src dst n plain view hactive hnext hgsrc hgdst honsrc hondst hqsrc hqdst _ _ hsettled
    have hsrc : Reachable { s with wdmaNext := smSet s.wdmaNext (c / 16) 0 ((c % 16 + 1) % 16) } c src false :=
      ⟨hgsrc, honsrc, hqsrc, fun b hb => hsettled b (.inl hb)⟩
    have hdst : Reachable { s with wdmaNext := smSet s.wdmaNext (c / 16) 0 ((c % 16 + 1) % 16) } c dst true :=
      ⟨hgdst, hondst, hqdst, fun b hb => hsettled b (.inr hb)⟩
    obtain ⟨k, t, hk, hbeat, hrest, hwords, hother, hmoved⟩ := wdmaBeatSlot_effect rfl rfl hsrc hdst
    have hn : n = 8 * k := hk
    refine ⟨t, congrArg Host.Outcome.next ((wdmaBeatOp_of_next hactive hnext).trans hbeat), by rw [hrest], fun i hi => ?_,
      fun a ha => hother a (hn ▸ ha), hmoved.trans (congrArg (moved + ·) hn.symm)⟩
    exact (hwords i (by omega)).trans (viewValue_eq _ _ _ 64)
  · exact congrArg Host.Outcome.next (if_pos (by simp [hbusy, hlen]))

/-! ### Broadcasts of a Hub core (R114, R115) -/

theorem wheelWrite_scratch {s : State} {m w off n v : Nat} (hm : isHub m = true) (hoff : off < 0x100000)
    (hstop : spokeStopped s (16 * w + off / 0x10000) = true) : wheelWrite s m w off n v = wrMem s (aWheel w off) n v := by
  have hpart : wheelPart w off = .scratch (16 * w + off / 0x10000) := if_pos hoff
  simp [wheelWrite, hpart, hm, hstop]

theorem wheelOn_mem_congr {s t : State} (h : t = { s with mem := t.mem }) (w : Nat) : wheelOn t w = wheelOn s w := by
  rw [h]; rfl

@[simp] theorem hub_setHub_same (s : State) (m : Nat) (h : HubRegs) : hub (setHub s m h) m = h :=
  smGet_smSet_same _ _ _ _

@[simp] theorem hub_modCore (s : State) (c m : Nat) (f : Core → Core) : hub (modCore s c f) m = hub s m := rfl

@[simp] theorem core_setHub (s : State) (m c : Nat) (h : HubRegs) : core (setHub s m h) c = core s c := rfl

/-- A broadcast to one Wheel that runs, into the scratch of a Spoke that stands still. -/
theorem bcastOp_one {s : State} {m w off n v : Nat} (hm : isHub m = true) (hgroup : groupWheels s m = [w])
    (hon : wheelOn s w = true) (hpark : parked s w = false) (hoff : off < 0x100000)
    (hstop : spokeStopped s (16 * w + off / 0x10000) = true) :
    bcastOp s m off n v = modCore (setHub (wrMem s (aWheel w off) n v) m (bcastSent (hub s m) w)) m
      fun k => { k with unacked := k.unacked + 1 } := by
  have hplain : ¬ (0x300000 ≤ off ∧ off < 0x320000) := by omega
  have hmem := wrMem_frame s (aWheel w off) n v
  have hwrote : wheelOn (wrMem s (aWheel w off) n v) w = true := (wheelOn_mem_congr hmem w).trans hon
  have hhub : hub (wrMem s (aWheel w off) n v) m = hub s m := by rw [hmem]; rfl
  simp [bcastOp, hm, hgroup, hon, hplain, wakeWheel_of_not_parked false hpark, wheelWrite_scratch hm hoff hstop, hwrote, hhub]

theorem ackOp_bcast {s : State} {m w : Nat} (hm : isHub m = true) (hw : w < 32) (h : (core s m).unacked ≠ 0) :
    ackOp s m w = modCore (setHub s m (bcastAcked (hub s m) w)) m fun k =>
      { k with unacked := k.unacked - 1, run := if k.run = .fence && k.unacked = 1 then .running else k.run } := by
  simp [ackOp, h, hm, hw]

/-- Settles O17. -/
theorem broadcastsReachTheGroup : Obligations.BroadcastsReachTheGroup := by
  unfold Obligations.BroadcastsReachTheGroup
  intro s m w off size v hm hw
  refine ⟨fun hgroup hon hpark hoff hstop hsize hal => ?_, fun hun => ?_⟩
  · have hvalid : off < 0x1000000 ∧ [1, 2, 4, 8].contains size ∧ off % size = 0 :=
      ⟨by omega, List.contains_iff_mem.mpr hsize, hal⟩
    have hexec : exec (.bcastWrite m off size v) s = .next (bcastOp s m off size v.toNat) :=
      congrArg Host.Outcome.next (if_pos (by simpa only [Bool.and_eq_true, decide_eq_true_eq, and_assoc] using hvalid))
    rw [hexec, bcastOp_one hm hgroup hon hpark hoff hstop]
    have hmem := wrMem_frame s (aWheel w off) size v.toNat
    have hcore : core (wrMem s (aWheel w off) size v.toNat) m = core s m := core_congr (wrMem_cores _ _ _ _) m
    have hbytes : (modCore (setHub (wrMem s (aWheel w off) size v.toNat) m (bcastSent (hub s m) w)) m
        fun k => { k with unacked := k.unacked + 1 }).mem = (wrMem s (aWheel w off) size v.toNat).mem := rfl
    refine ⟨_, rfl, by rw [hmem]; rfl, ?_, fun a ha => ?_, by simp [bcastSent], by simp [bcastSent], by simp [hcore]⟩
    · rw [rdMem_mem_congr hbytes, rdMem_wrMem]
    · rw [rdByte_mem_congr hbytes, rdByte_wrMem_other _ _ ha]
  · rw [show exec (.accessAcknowledged m w) s = .next (ackOp s m w) from rfl, ackOp_bcast hm hw hun]
    exact ⟨_, rfl, rfl, by simp [bcastAcked, Nat.sub_eq_zero_iff_le], by simp [bcastAcked], by simp⟩

end Sys2Proof.Machine
end

section
/-! SUPPORT. Cranks: commands of the accumulator, the lanes and the areas, taint, holds and claims. -/

namespace Sys2Proof.Machine

/-! ### A Wheel's Crank and its two contexts -/

@[simp] theorem crank_setCrank_same (s : State) (w : Nat) (k : Crank) : crank (setCrank s w k) w = k := smGet_smSet_same _ _ _ _

theorem crank_setCrank_other (s : State) {w v : Nat} (h : v ≠ w) (k : Crank) : crank (setCrank s w k) v = crank s v :=
  smGet_smSet_other _ h _ _ _

theorem ctx_of_crank {s t : State} {w : Nat} (h : crank t w = crank s w) (x : Nat) : ctx t w x = ctx s w x := by
  rw [ctx, h, ctx]

/-- What a context's change leaves of the Crank. -/
theorem crank_setCtx (s : State) (w x : Nat) (c : Ctx) :
    crank (setCtx s w x c) w = if x = 0 then { crank s w with a := c } else { crank s w with b := c } := crank_setCrank_same _ _ _

theorem crank_setCtx_other (s : State) {w v : Nat} (h : v ≠ w) (x : Nat) (c : Ctx) : crank (setCtx s w x c) v = crank s v :=
  crank_setCrank_other s h _

@[simp] theorem ctx_setCtx_same (s : State) (w x : Nat) (c : Ctx) : ctx (setCtx s w x c) w x = c := by
  rw [ctx, crank_setCtx]
  split <;> rfl

theorem ctx_setCtx_other (s : State) {w x y : Nat} (c : Ctx) (hx : x < 2) (hy : y < 2) (h : y ≠ x) :
    ctx (setCtx s w x c) w y = ctx s w y := by
  obtain rfl | rfl : x = 0 ∨ x = 1 := by omega
  · obtain rfl : y = 1 := by omega
    simp [ctx, crank_setCtx]
  · obtain rfl : y = 0 := by omega
    simp [ctx, crank_setCtx]

/-- A Crank that keeps both contexts. -/
theorem ctx_setCrank (s : State) (w : Nat) {k : Crank} (ha : k.a = (crank s w).a) (hb : k.b = (crank s w).b) (x : Nat) :
    ctx (setCrank s w k) w x = ctx s w x := by
  simp [ctx, ha, hb]

/-- Only Wheel w's Crank changed, and of its contexts only x. -/
structure OnlyCtx (s t : State) (w x : Nat) : Prop where
  frame : t = { s with cranks := t.cranks }
  wheels : ∀ v, v ≠ w → crank t v = crank s v
  otherCtx : ctx t w (1 - x) = ctx s w (1 - x)

section
variable {s t u : State} {w x : Nat}

theorem OnlyCtx.refl (s : State) (w x : Nat) : OnlyCtx s s w x := ⟨rfl, fun _ _ => rfl, rfl⟩

theorem OnlyCtx.then_setCtx (h : OnlyCtx s t w x) (hx : x < 2) (c : Ctx) : OnlyCtx s (setCtx t w x c) w x :=
  ⟨by rw [setCtx, setCrank, h.frame], fun v hv => (crank_setCtx_other t hv x c).trans (h.wheels v hv),
    (ctx_setCtx_other t c hx (by omega) (by omega)).trans h.otherCtx⟩

theorem OnlyCtx.then_setCrank (h : OnlyCtx s t w x) {k : Crank} (ha : k.a = (crank t w).a) (hb : k.b = (crank t w).b) :
    OnlyCtx s (setCrank t w k) w x :=
  ⟨by rw [setCrank, h.frame], fun v hv => (crank_setCrank_other t hv k).trans (h.wheels v hv),
    (ctx_setCrank t w ha hb _).trans h.otherCtx⟩

theorem OnlyCtx.trans (h : OnlyCtx s t w x) (h' : OnlyCtx t u w x) : OnlyCtx s u w x :=
  ⟨by rw [h'.frame, h.frame], fun v hv => (h'.wheels v hv).trans (h.wheels v hv), h'.otherCtx.trans h.otherCtx⟩

theorem OnlyCtx.regs (h : OnlyCtx s t w x) : t.regs = s.regs := by rw [h.frame]

/-- The other context and the classes being as they were, so is what may preempt. -/
theorem OnlyCtx.canPreempt (h : OnlyCtx s t w x) (hcls : (ctx t w x).cls = (ctx s w x).cls) : canPreempt t w x = canPreempt s w x := by
  have hpre : preemptUpto t w = preemptUpto s w := by
    rw [preemptUpto, regF, reg, h.regs]; rfl
  have hoth : ctx t w (other x) = ctx s w (other x) := h.otherCtx
  rw [Machine.canPreempt, hoth, hcls, hpre, Machine.canPreempt]

/-! ### A command of the FIFO that ends well -/

theorem ctx_addCycles (s : State) (w x n : Nat) (mac : Bool) :
    ctx (addCycles s w x n mac) w x =
      { ctx s w x with macAge := if mac then 0 else min 4 ((ctx s w x).macAge + n) } := by
  simp only [addCycles]
  refine (ctx_setCrank _ w ?_ ?_ x).trans (ctx_setCtx_same _ _ _ _) <;> rfl

theorem OnlyCtx.then_addCycles (h : OnlyCtx s t w x) (hx : x < 2) (n : Nat) (mac : Bool) :
    OnlyCtx s (addCycles t w x n mac) w x := by
  simp only [addCycles]
  refine (h.then_setCtx hx _).then_setCrank ?_ ?_ <;> rfl

/-- A checked command whose operation ends well: counted, with the operation's context up to the age of the multiply. -/
theorem crankApply_done {k : CrankCmd} {f : Ctx → CrankCmd → Ctx × CrankEnd} {c' : Ctx} (hx : x < 2)
    (hfields : crankFieldsOk k = true) (hlegal : crankStateOk (ctx s w x) k.op = true) (hf : f (ctx s w x) k = (c', .done)) :
    OnlyCtx s (crankApply s w x k f) w x ∧
      ∃ age, ctx (crankApply s w x k f) w x = { c' with completed := c'.completed + 1, macAge := age } := by
  have hrun : crankApply s w x k f =
      ctxDone (addCycles (setCtx s w x c') w x (crankCycles (ctx s w x) k) (k.op = 0x08 || k.op = 0x10)) w x := by
    simp [crankApply, hfields, hlegal, hf]
  rw [hrun]
  have honly := ((OnlyCtx.refl s w x).then_setCtx hx c').then_addCycles hx (crankCycles (ctx s w x) k) (k.op = 0x08 || k.op = 0x10)
  have hctx := ctx_addCycles (setCtx s w x c') w x (crankCycles (ctx s w x) k) (k.op = 0x08 || k.op = 0x10)
  generalize addCycles (setCtx s w x c') w x (crankCycles (ctx s w x) k) (k.op = 0x08 || k.op = 0x10) = u at *
  rw [ctx_setCtx_same] at hctx
  rw [ctxDone, ctx_setCtx_same, hctx]
  exact ⟨honly.then_setCtx hx _, _, rfl⟩

theorem refillFifo_of_no_overflow (h : (ctx s w x).overflow = []) : refillFifo s w x = s := by
  simp [refillFifo, h]

/-- The head of the FIFO, of the row's own operation, runs: the FIFO moves on and the command is applied. -/
theorem crankRow_head {op : Nat} {k : CrankCmd} {rest : List W64} {f : Ctx → CrankCmd → Ctx × CrankEnd}
    {after : State → CrankCmd → State} (h : CrankHead s w x op k rest) (hwait : syncsWaits (ctx s w x) k = false) :
    crankRow s w x op f after =
      let t := crankApply (setCtx s w x { ctx s w x with fifo := rest }) w x k f
      if running t w x then after t k else t := by
  obtain ⟨v, hfifo, rfl⟩ := h.first
  have hready : (ctxReady s w x && ((crankCmd v).op = op || !crankOps.contains (crankCmd v).op)) = true := by
    simp [h.ready, h.isOp]
  have hrun : runCtx s w x = s := if_pos h.runs
  have hfull : refillFifo (setCtx s w x { ctx s w x with fifo := rest }) w x = setCtx s w x { ctx s w x with fifo := rest } :=
    refillFifo_of_no_overflow (by rw [ctx_setCtx_same]; exact h.full)
  simp only [crankRow, hfifo, hready, if_true, hrun, hwait, Bool.false_eq_true, if_false, hfull]

end

/-! ### The commands of the accumulator and of the areas (R133 to R136) -/

section
variable {s : State} {w x : Nat} {rest : List W64} {k : CrankCmd} {op : Nat}

/-- A command other than a `SYNCS` that is too early does not wait. -/
theorem syncsWaits_eq_false {c : Ctx} (h : k.op ≠ 0x04 ∨ k.n ≤ c.sXferCount) : syncsWaits c k = false := by
  rcases h with h | h
  · simp [syncsWaits, h]
  · simp [syncsWaits, Nat.not_lt.mpr h]

/-- An operation of a command that ends well, leaves the context's state and its count alone, and does `g`, up to the age of the
multiply. -/
structure OpDoes (f : Ctx → CrankCmd → Ctx × CrankEnd) (c : Ctx) (k : CrankCmd) (g : Ctx → Ctx) : Prop where
  ends : (f c k).2 = .done
  state : (f c k).1.state = c.state
  completed : (f c k).1.completed = c.completed
  same : { (f c k).1 with macAge := 0 } = { g c with macAge := 0 }

theorem crankRow_did {f : Ctx → CrankCmd → Ctx × CrankEnd} (after : State → CrankCmd → State) {g : Ctx → Ctx} (hx : x < 2)
    (h : CrankHead s w x op k rest) (hwait : k.op ≠ 0x04 ∨ k.n ≤ (ctx s w x).sXferCount)
    (hf : OpDoes f { ctx s w x with fifo := rest } k g) :
    ∃ u, crankRow s w x op f after = after u k ∧ CrankDid s u w x rest g ∧ running u w x = true := by
  have hrow := crankRow_head (f := f) (after := after) h (syncsWaits_eq_false hwait)
  have honly := (OnlyCtx.refl s w x).then_setCtx hx { ctx s w x with fifo := rest }
  have hctx := ctx_setCtx_same s w x { ctx s w x with fifo := rest }
  generalize setCtx s w x { ctx s w x with fifo := rest } = u at *
  obtain ⟨happly, age, hage⟩ := crankApply_done (s := u) (c' := (f (ctx u w x) k).1) hx h.fields
    (by rw [hctx, h.isOp]; exact h.legal) (Prod.ext rfl (by rw [hctx]; exact hf.ends))
  rw [hctx] at hage
  have hruns : running (crankApply u w x k f) w x = true := by
    rw [running, hage]
    exact decide_eq_true (hf.state.trans (of_decide_eq_true h.runs))
  have hall := honly.trans happly
  refine ⟨crankApply u w x k f, hrow.trans (if_pos hruns), ⟨hall.frame, hall.wheels, hall.otherCtx, age, hage.trans ?_⟩, hruns⟩
  rw [hf.completed]
  exact congrArg (fun d : Ctx => { d with completed := (ctx s w x).completed + 1, macAge := age }) hf.same

/-- A command that nothing follows. -/
theorem crankRow_noAfter {f : Ctx → CrankCmd → Ctx × CrankEnd} {g : Ctx → Ctx} (hx : x < 2)
    (h : CrankHead s w x op k rest) (hop : op ≠ 0x04 ∨ k.n ≤ (ctx s w x).sXferCount)
    (hf : OpDoes f { ctx s w x with fifo := rest } k g) :
    ∃ t, .next (crankRow s w x op f noAfter) = (.next t : Host.Outcome State Fault Refusal) ∧ CrankDid s t w x rest g := by
  obtain ⟨t, hrow, hdid, -⟩ := crankRow_did noAfter hx h (h.isOp ▸ hop) hf
  exact ⟨t, congrArg _ hrow, hdid⟩

theorem CrankDid.only {t : State} {g : Ctx → Ctx} (h : CrankDid s t w x rest g) : OnlyCtx s t w x := ⟨h.frame, h.wheels, h.otherCtx⟩

/-- A yield point at which nothing preempts only starts the count of R126 again. -/
theorem CrankDid.yieldPoint {t : State} {g : Ctx → Ctx} (h : CrankDid s t w x rest g)
    (hcls : (g { ctx s w x with fifo := rest }).cls = (ctx s w x).cls) (hpre : canPreempt s w x = false) :
    CrankDid s (yieldPoint t w x) w x rest g := by
  obtain ⟨age, hdid⟩ := h.did
  have hyield := (OnlyCtx.refl t w x).then_setCrank (k := { crank t w with sinceYield := 0, overrunLogged := false }) rfl rfl
  have hctx := ctx_setCrank t w (k := { crank t w with sinceYield := 0, overrunLogged := false }) rfl rfl x
  have hall := h.only.trans hyield
  have hstay : canPreempt (setCrank t w { crank t w with sinceYield := 0, overrunLogged := false }) w x = false := by
    rw [hall.canPreempt (by rw [hctx, hdid]; exact hcls), hpre]
  have hpoint : Machine.yieldPoint t w x = setCrank t w { crank t w with sinceYield := 0, overrunLogged := false } :=
    if_neg (by simp [hstay])
  rw [hpoint]
  exact ⟨hall.frame, hall.wheels, hall.otherCtx, age, hctx.trans hdid⟩

theorem setAreaDws_frame : ∀ (vs : List W64) (c : Ctx) (a : Nat), setAreaDws c a vs = { c with area := (setAreaDws c a vs).area }
  | [], _, _ => rfl
  | v :: vs, c, a => by rw [setAreaDws, setAreaDws_frame vs]; rfl

theorem opDoes_setAreaDws {f : Ctx → CrankCmd → Ctx × CrankEnd} {c : Ctx} {a : Nat} {vs : List W64}
    (hf : f c k = (setAreaDws c a vs, .done)) {g : Ctx → Ctx} (hg : g c = setAreaDws c a vs) : OpDoes f c k g := by
  have hframe := setAreaDws_frame vs c a
  exact ⟨by rw [hf], by rw [hf, hframe], by rw [hf, hframe], by rw [hf, hg]⟩

end

/-- The tainted result of a command may go where it is aimed. -/
theorem not_leaks {taint inside : Bool} (h : taint = false ∨ inside = true) : (taint && !inside) = false := by
  rcases h with h | h <;> simp [h]

/-- `MODE` that has no tokens to ask for or to return is a yield point only (R128). -/
theorem afterMode_of_settled {t : State} {w x : Nat} {k : CrankCmd}
    (h : k.flags = 1 ∧ 14 ≤ (ctx t w x).tokens ∨ k.flags = 0 ∧ (ctx t w x).tokens ≤ 10) : afterMode w x t k = yieldPoint t w x := by
  rcases h with ⟨hf, ht⟩ | ⟨hf, ht⟩
  · simp [afterMode, hf, Nat.not_lt.mpr ht]
  · simp [afterMode, hf, Nat.not_lt.mpr ht]

/-- Settles O19. Each clause: the head of the FIFO runs (`crankRow_did`), and its operation is the one stated. -/
theorem crankPublicCommandsComplete : Obligations.CrankPublicCommandsComplete := by
  unfold Obligations.CrankPublicCommandsComplete
  refine ⟨fun s w x k rest hx => ⟨fun h hmode => ?_, fun h hmode => ?_, fun h => ?_, fun h => ?_, fun h => ?_, fun h htaint => ?_,
      fun h htaint => ?_⟩,
    fun s w x k rest hx => ⟨fun h htaint => ?_, fun h => ?_, fun h hcount => ?_, fun h => ?_, fun h hpre => ?_,
      fun h hpre htok => ?_⟩⟩
  · refine crankRow_noAfter hx h (.inl (by decide)) ?_
    have hf : crankAccclr { ctx s w x with fifo := rest } k = ({ ctx s w x with fifo := rest, acc := 0, taintAcc := false }, .done) := by
      simp [crankAccclr, hmode]
    exact ⟨by rw [hf], by rw [hf], by rw [hf], by rw [hf]⟩
  · refine crankRow_noAfter hx h (.inl (by decide)) ?_
    have hf : crankAccclr { ctx s w x with fifo := rest } k =
        ({ ctx s w x with fifo := rest, laneAcc := [], temps := [], taintLane := false }, .done) := by
      simp [crankAccclr, hmode]
    exact ⟨by rw [hf], by rw [hf], by rw [hf], by rw [hf]⟩
  · exact crankRow_noAfter hx h (.inl (by decide)) ⟨rfl, rfl, rfl, rfl⟩
  · exact crankRow_noAfter hx h (.inl (by decide)) ⟨rfl, rfl, rfl, rfl⟩
  · exact crankRow_noAfter hx h (.inl (by decide)) ⟨rfl, rfl, rfl, rfl⟩
  · exact crankRow_noAfter hx h (.inl (by decide)) (opDoes_setAreaDws (if_neg (by simp [not_leaks htaint])) rfl)
  · refine crankRow_noAfter hx h (.inl (by decide)) ?_
    have hf : crankCarry { ctx s w x with fifo := rest } k =
      (setAreaDw { ctx s w x with fifo := rest } k.dst (b2w ((ctx s w x).acc.getLsbD k.n)), .done) := if_neg (by simp [not_leaks htaint])
    exact ⟨by rw [hf], by rw [hf]; rfl, by rw [hf]; rfl, by rw [hf]; rfl⟩
  · exact crankRow_noAfter hx h (.inl (by decide)) (opDoes_setAreaDws (if_neg (by simp [not_leaks htaint])) rfl)
  · exact crankRow_noAfter hx h (.inl (by decide)) (opDoes_setAreaDws rfl rfl)
  · exact crankRow_noAfter hx h (.inr hcount) ⟨rfl, rfl, rfl, rfl⟩
  · obtain ⟨u, hrow, hdid, -⟩ := crankRow_did (afterNotify w x) hx h (.inl (by rw [h.isOp]; decide)) ⟨rfl, rfl, rfl, rfl⟩ (f := crankIdle) (g := id)
    obtain ⟨age, hctx⟩ := hdid.did
    refine ⟨afterNotify w x u k, u, congrArg Host.Outcome.next hrow, hdid, ?_⟩
    simp only [afterNotify, hctx]
    rfl
  · obtain ⟨u, hrow, hdid, -⟩ := crankRow_did (afterYield w x) hx h (.inl (by rw [h.isOp]; decide)) ⟨rfl, rfl, rfl, rfl⟩ (f := crankIdle) (g := id)
    exact ⟨_, congrArg Host.Outcome.next hrow, hdid.yieldPoint rfl hpre⟩
  · obtain ⟨u, hrow, hdid, -⟩ := crankRow_did (afterMode w x) hx h (.inl (by rw [h.isOp]; decide)) ⟨rfl, rfl, rfl, rfl⟩ (f := crankMode)
      (g := fun c => { c with laneMode := k.flags = 1 })
    obtain ⟨age, hctx⟩ := hdid.did
    have hmode : afterMode w x u k = yieldPoint u w x := afterMode_of_settled (by rw [hctx]; exact htok)
    exact ⟨_, congrArg Host.Outcome.next (hrow.trans hmode), hdid.yieldPoint rfl hpre⟩

/-! ### Lane commands (R133): what one operation does to each of the sixteen lanes -/

/-- Lane accumulators: what a change of every lane leaves in each. -/
theorem laneAcc_foldl (c : Ctx) (g : BitVec 80 → Nat → BitVec 80) (n : Nat) :
    let d := (List.range n).foldl (fun d i => setLaneAcc d i (g (laneAcc d i) i)) c
    d = { c with laneAcc := d.laneAcc } ∧ ∀ i, laneAcc d i = if i < n then g (laneAcc c i) i else laneAcc c i := by
  induction n with
  | zero => exact ⟨rfl, fun _ => rfl⟩
  | succ n ih =>
    simp only [List.range_succ, List.foldl_append, List.foldl_cons, List.foldl_nil]
    generalize (List.range n).foldl _ c = d at *
    obtain ⟨hframe, hlane⟩ := ih
    refine ⟨by rw [hframe]; rfl, fun i => ?_⟩
    by_cases hi : i = n
    · subst hi
      simpa [setLaneAcc, laneAcc] using congrArg (g · i) (hlane i)
    · have hother : laneAcc (setLaneAcc d n (g (laneAcc d n) n)) i = laneAcc d i := smGet_smSet_other _ hi _ _ _
      rw [hother, hlane]
      grind

/-- Temporaries: what a change of every lane leaves in each. -/
theorem temp_foldl (c : Ctx) (v : Nat → W32) (n : Nat) :
    let d := (List.range n).foldl (fun d i => setTemp d i (v i)) c
    d = { c with temps := d.temps } ∧ ∀ i, temp d i = if i < n then v i else temp c i := by
  induction n with
  | zero => exact ⟨rfl, fun _ => rfl⟩
  | succ n ih =>
    simp only [List.range_succ, List.foldl_append, List.foldl_cons, List.foldl_nil]
    generalize (List.range n).foldl _ c = d at *
    obtain ⟨hframe, hlane⟩ := ih
    refine ⟨by rw [hframe]; rfl, fun i => ?_⟩
    by_cases hi : i = n
    · subst hi
      simp [setTemp, temp]
    · have hother : temp (setTemp d n (v n)) i = temp d i := smGet_smSet_other _ hi _ _ _
      rw [hother, hlane]
      grind

/-- Half `p` of a doubleword replaced by an element. -/
def withHalf (d : W64) (p : Nat) (v : W32) : W64 :=
  BitVec.ofNat 64 (if p = 0 then d.toNat / 2 ^ 32 * 2 ^ 32 + v.toNat else d.toNat % 2 ^ 32 + 2 ^ 32 * v.toNat)

theorem toNat_half (d : W64) (q : Nat) : (d.extractLsb' q 32).toNat = d.toNat / 2 ^ q % 4294967296 := by
  rw [BitVec.extractLsb'_toNat, Nat.shiftRight_eq_div_pow]

theorem toNat_withHalf_lo (d : W64) (v : W32) : (withHalf d 0 v).toNat = d.toNat / 4294967296 * 4294967296 + v.toNat := by
  have hd : d.toNat < 18446744073709551616 := d.isLt
  have hv : v.toNat < 4294967296 := v.isLt
  exact (BitVec.toNat_ofNat _ _).trans (Nat.mod_eq_of_lt (show _ < 18446744073709551616 by simp only [if_true]; omega))

theorem toNat_withHalf_hi (d : W64) (v : W32) : (withHalf d 1 v).toNat = d.toNat % 4294967296 + 4294967296 * v.toNat := by
  have hv : v.toNat < 4294967296 := v.isLt
  exact (BitVec.toNat_ofNat _ _).trans (Nat.mod_eq_of_lt (show _ < 18446744073709551616 by simp only [Nat.one_ne_zero, if_false]; omega))

theorem extract_withHalf (d : W64) {p q : Nat} (v : W32) (hp : p < 2) (hq : q < 2) :
    (withHalf d p v).extractLsb' (32 * q) 32 = if q = p then v else d.extractLsb' (32 * q) 32 := by
  have hv : v.toNat < 4294967296 := v.isLt
  apply BitVec.eq_of_toNat_eq
  have hlo : (2 : Nat) ^ (32 * 0) = 1 := rfl
  have hhi : (2 : Nat) ^ (32 * 1) = 4294967296 := rfl
  obtain rfl | rfl : p = 0 ∨ p = 1 := by omega
  · rw [toNat_half, toNat_withHalf_lo]
    obtain rfl | rfl : q = 0 ∨ q = 1 := by omega
    · rw [if_pos rfl, hlo]; omega
    · rw [if_neg (by omega), toNat_half, hhi]; omega
  · rw [toNat_half, toNat_withHalf_hi]
    obtain rfl | rfl : q = 0 ∨ q = 1 := by omega
    · rw [if_neg (by omega), toNat_half, hlo]; omega
    · rw [if_pos rfl, hhi]; omega

theorem areaElem_eq (c : Ctx) (a st i : Nat) :
    areaElem c a st i = (areaDw c (a + i * 2 ^ st / 2)).extractLsb' (32 * (i * 2 ^ st % 2)) 32 := rfl

theorem setAreaElem_eq (c : Ctx) (a st i : Nat) (v : W32) : setAreaElem c a st i v =
    setAreaDw c (a + i * 2 ^ st / 2) (withHalf (areaDw c (a + i * 2 ^ st / 2)) (i * 2 ^ st % 2) v) := rfl

theorem areaDw_setAreaDw_same (c : Ctx) (a : Nat) (v : W64) : areaDw (setAreaDw c a v) a = v := smGet_smSet_same _ _ _ _

theorem areaDw_setAreaDw_other (c : Ctx) {a b : Nat} (h : b ≠ a) (v : W64) : areaDw (setAreaDw c a v) b = areaDw c b :=
  smGet_smSet_other _ h _ _ _

theorem areaElem_setAreaElem_same (c : Ctx) (a st i : Nat) (v : W32) : areaElem (setAreaElem c a st i v) a st i = v := by
  rw [areaElem_eq, setAreaElem_eq, areaDw_setAreaDw_same, extract_withHalf _ _ (by omega) (by omega), if_pos rfl]

/-- Two different elements of one stride share no bit. -/
theorem areaElem_setAreaElem_other (c : Ctx) (a st : Nat) {i j : Nat} (v : W32) (h : j ≠ i) :
    areaElem (setAreaElem c a st i v) a st j = areaElem c a st j := by
  have hne : j * 2 ^ st ≠ i * 2 ^ st := fun heq => h (Nat.eq_of_mul_eq_mul_right (Nat.two_pow_pos st) heq)
  rw [areaElem_eq, setAreaElem_eq, areaElem_eq]
  by_cases hdw : a + j * 2 ^ st / 2 = a + i * 2 ^ st / 2
  · rw [← hdw, areaDw_setAreaDw_same, extract_withHalf _ _ (by omega) (by omega), if_neg (by omega)]
  · rw [areaDw_setAreaDw_other _ hdw]

theorem areaElem_foldl (c : Ctx) (a st : Nat) (v : Nat → W32) (n : Nat) :
    let d := (List.range n).foldl (fun d i => setAreaElem d a st i (v i)) c
    d = { c with area := d.area } ∧ ∀ i, areaElem d a st i = if i < n then v i else areaElem c a st i := by
  induction n with
  | zero => exact ⟨rfl, fun _ => rfl⟩
  | succ n ih =>
    simp only [List.range_succ, List.foldl_append, List.foldl_cons, List.foldl_nil]
    generalize (List.range n).foldl _ c = d at *
    obtain ⟨hframe, helem⟩ := ih
    refine ⟨by rw [hframe]; rfl, fun i => ?_⟩
    by_cases hi : i = n
    · subst hi
      simp [areaElem_setAreaElem_same]
    · rw [areaElem_setAreaElem_other _ _ _ _ hi, helem]
      grind

/-- A lane command that nothing follows, by what its operation leaves. -/
theorem crankRow_leaves {s : State} {w x op : Nat} {k : CrankCmd} {rest : List W64} {f : Ctx → CrankCmd → Ctx × CrankEnd}
    {p : Ctx → Prop} (hx : x < 2) (h : CrankHead s w x op k rest) (hop : op ≠ 0x04) {c' : Ctx}
    (hf : f { ctx s w x with fifo := rest } k = (c', .done)) (hstate : c'.state = (ctx s w x).state)
    (hcount : c'.completed = (ctx s w x).completed) (hp : p c') :
    ∃ t d, (.next (crankRow s w x op f noAfter) : Host.Outcome State Fault Refusal) = .next t ∧
      CrankDid s t w x rest (fun _ => d) ∧ p d := by
  obtain ⟨t, hrow, hdid⟩ := crankRow_noAfter (f := f) (g := fun _ => c') hx h (.inl hop)
    ⟨by rw [hf], by rw [hf]; exact hstate, by rw [hf]; exact hcount, by rw [hf]⟩
  exact ⟨t, c', hrow, hdid, hp⟩

/-- What a `MACL` leaves in lane i. -/
def maclLane (c : Ctx) (k : CrankCmd) (old : BitVec 80) (i : Nat) : BitVec 80 :=
  let X := if k.flags.testBit 4 then temp c i else areaElem c k.xa (k.flags % 8) i
  let Y := if k.flags.testBit 3 then areaElem c k.ya 0 0 else areaElem c k.ya (k.flags % 8) i
  if k.flags.testBit 5 then old - BitVec.ofNat 80 (X.toNat * Y.toNat) else old + BitVec.ofNat 80 (X.toNat * Y.toNat)

theorem crankMacl_effect (c : Ctx) (k : CrankCmd) : ∃ c', crankMacl c k = (c', .done) ∧
    c' = { c with laneAcc := c'.laneAcc, macAge := c'.macAge,
                  taintLane := c.taintLane || (!k.flags.testBit 4 && inS k.xa) || inS k.ya } ∧
    ∀ i, i < 16 → laneAcc c' i = maclLane c k (laneAcc c i) i := by
  have hf : crankMacl c k = ({ (List.range 16).foldl (fun d i => setLaneAcc d i (maclLane c k (laneAcc d i) i)) c with
      taintLane := c.taintLane || (!k.flags.testBit 4 && inS k.xa) || inS k.ya, macAge := 0 }, .done) := rfl
  obtain ⟨hframe, hlane⟩ := laneAcc_foldl c (maclLane c k) 16
  generalize (List.range 16).foldl _ c = d at *
  exact ⟨_, hf, by rw [hframe], fun i hi => (hlane i).trans (if_pos hi)⟩

theorem crankLq_effect (c : Ctx) (k : CrankCmd) : ∃ c', crankLq c k = (c', .done) ∧
    c' = { c with temps := c'.temps, taintLane := c.taintLane || inS k.ya } ∧
    ∀ i, i < 16 → temp c' i = (laneAcc c i).setWidth 32 * areaElem c k.ya 0 0 := by
  have hf : crankLq c k = ({ (List.range 16).foldl (fun d i =>
      setTemp d i ((laneAcc c i).extractLsb' 0 32 * areaElem c k.ya 0 0)) c with taintLane := c.taintLane || inS k.ya }, .done) := rfl
  obtain ⟨hframe, hlane⟩ := temp_foldl c (fun i => (laneAcc c i).extractLsb' 0 32 * areaElem c k.ya 0 0) 16
  generalize (List.range 16).foldl _ c = d at *
  refine ⟨_, hf, by rw [hframe], fun i hi => ?_⟩
  rw [BitVec.setWidth_eq_extractLsb' (by omega)]
  exact (hlane i).trans (if_pos hi)

/-- What an `LLD` leaves in lane i. -/
def loadedLane (c : Ctx) (k : CrankCmd) (i : Nat) : BitVec 80 :=
  if k.flags.testBit 5 then (areaElem c k.xa (k.flags % 8) i).signExtend 80 else (areaElem c k.xa (k.flags % 8) i).setWidth 80

theorem crankLld_effect (c : Ctx) (k : CrankCmd) : ∃ c', crankLld c k = (c', .done) ∧
    c' = { c with laneAcc := c'.laneAcc, taintLane := c.taintLane || inS k.xa } ∧
    ∀ i, i < 16 → laneAcc c' i = loadedLane c k i := by
  have hf : crankLld c k = ({ (List.range 16).foldl (fun d i => setLaneAcc d i (loadedLane c k i)) c with
      taintLane := c.taintLane || inS k.xa }, .done) := rfl
  obtain ⟨hframe, hlane⟩ := laneAcc_foldl c (fun _ => loadedLane c k) 16
  generalize (List.range 16).foldl _ c = d at *
  exact ⟨_, hf, by rw [hframe], fun i hi => (hlane i).trans (if_pos hi)⟩

theorem crankLst_effect {c : Ctx} {k : CrankCmd} (htaint : c.taintLane = false ∨ inS k.dst = true) :
    ∃ c', crankLst c k = (c', .done) ∧ c' = { c with area := c'.area } ∧
      ∀ i, i < 16 → areaElem c' k.dst (k.flags % 8) i = (laneAcc c i).extractLsb' (if k.flags.testBit 4 then 32 else 0) 32 := by
  have hf : crankLst c k = ((List.range 16).foldl (fun d i => setAreaElem d k.dst (k.flags % 8) i
      ((laneAcc c i).extractLsb' (if k.flags.testBit 4 then 32 else 0) 32)) c, .done) := if_neg (by simp [not_leaks htaint])
  obtain ⟨hframe, hlane⟩ := areaElem_foldl c k.dst (k.flags % 8)
    (fun i => (laneAcc c i).extractLsb' (if k.flags.testBit 4 then 32 else 0) 32) 16
  generalize (List.range 16).foldl _ c = d at *
  exact ⟨_, hf, hframe, fun i hi => (hlane i).trans (if_pos hi)⟩

/-- Settles O20. -/
theorem crankLaneCommandsComplete : Obligations.CrankLaneCommandsComplete := by
  unfold Obligations.CrankLaneCommandsComplete
  intro s w x k rest hx
  refine ⟨fun h => ?_, fun h => ?_, fun h => ?_, fun h htaint => ?_⟩
  · obtain ⟨c', hf, hframe, hlane⟩ := crankMacl_effect { ctx s w x with fifo := rest } k
    exact crankRow_leaves hx h (by decide) hf (by rw [hframe]) (by rw [hframe]) ⟨hframe, hlane⟩
  · obtain ⟨c', hf, hframe, hlane⟩ := crankLq_effect { ctx s w x with fifo := rest } k
    exact crankRow_leaves hx h (by decide) hf (by rw [hframe]) (by rw [hframe]) ⟨hframe, hlane⟩
  · obtain ⟨c', hf, hframe, hlane⟩ := crankLld_effect { ctx s w x with fifo := rest } k
    exact crankRow_leaves hx h (by decide) hf (by rw [hframe]) (by rw [hframe]) ⟨hframe, hlane⟩
  · obtain ⟨c', hf, hframe, hlane⟩ := crankLst_effect (c := { ctx s w x with fifo := rest }) htaint
    exact crankRow_leaves hx h (by decide) hf (by rw [hframe]) (by rw [hframe]) ⟨hframe, hlane⟩

/-! ### A command that would carry tainted values to P (R136) -/

section
variable {s t : State} {w x : Nat}

theorem onlyCtx_startCtx (s : State) (w : Nat) {y : Nat} (hy : y < 2) : OnlyCtx s (startCtx s w y) w y := by
  simp only [startCtx]
  refine ((OnlyCtx.refl s w y).then_setCtx hy _).then_setCrank ?_ ?_ <;> rfl

/-- A switch touches the other context at most. -/
theorem onlyCtx_switchOn (s : State) (w : Nat) (hx : x < 2) : OnlyCtx s (switchOn s w x) w (1 - x) := by
  unfold switchOn
  simp only
  split
  · exact onlyCtx_startCtx s w (by simp only [other]; omega)
  · exact OnlyCtx.refl s w _

theorem OnlyCtx.resetCountOf (h : OnlyCtx s t w x) (m : Nat) : resetCountOf t m = resetCountOf s m := by rw [h.frame]; rfl

theorem OnlyCtx.pendingViolations (h : OnlyCtx s t w x) : t.fw = s.fw := by rw [h.frame]

theorem OnlyCtx.mem (h : OnlyCtx s t w x) : t.mem = s.mem := by rw [h.frame]

theorem dropFifo_of_no_overflow (h : (ctx s w x).overflow = []) :
    dropFifo s w x = setCtx s w x { ctx s w x with fifo := [], overflow := [] } := by
  simp [dropFifo, h]

/-- What a context in `ERROR` after a tainted result shows: the code, the violation of its holder, its areas as they were. -/
structure Stopped (s t : State) (w x : Nat) : Prop where
  pending : t.fw.pending = s.fw.pending ++
    [{ master := (ctx s w x).holder, kind := 3, addr := aWheel w 0x308000, resetCount := resetCountOf s (ctx s w x).holder }]
  state : (ctx t w x).state = .error
  code : (ctx t w x).errCode = 3
  area : (ctx t w x).area = (ctx s w x).area
  mem : t.mem = s.mem

theorem ctxError_taint (hx : x < 2) (h : (ctx s w x).overflow = []) : Stopped s (ctxError s w x .taint) w x := by
  have hdrop := dropFifo_of_no_overflow h
  have honly := (OnlyCtx.refl s w x).then_setCtx hx { ctx s w x with fifo := [], overflow := [] }
  have hctx := ctx_setCtx_same s w x { ctx s w x with fifo := [], overflow := [] }
  rw [← hdrop] at honly hctx
  generalize hu : dropFifo s w x = u at *
  have herr := honly.then_setCtx hx { ctx u w x with
    state := .error, errCode := 3, errIndex := (ctx u w x).completed % 65536 }
  have hectx := ctx_setCtx_same u w x { ctx u w x with
    state := .error, errCode := 3, errIndex := (ctx u w x).completed % 65536 }
  have hend : ctxError s w x .taint = switchOn (violate (setCtx u w x { ctx u w x with
      state := .error, errCode := 3, errIndex := (ctx u w x).completed % 65536 }) (ctx u w x).holder vSArea (aWheel w 0x308000)) w x := by
    simp only [ctxError, hu]
    rfl
  rw [hend]
  generalize setCtx u w x _ = v at *
  have hswitch := onlyCtx_switchOn (violate v (ctx u w x).holder vSArea (aWheel w 0x308000)) w hx
  have hkeep : ctx (switchOn (violate v (ctx u w x).holder vSArea (aWheel w 0x308000)) w x) w x = ctx v w x := by
    have h1 := hswitch.otherCtx
    rw [show 1 - (1 - x) = x by omega] at h1
    exact h1
  have hholder : (ctx u w x).holder = (ctx s w x).holder := by rw [hctx]
  refine ⟨?_, by rw [hkeep, hectx], by rw [hkeep, hectx], by rw [hkeep, hectx, hctx], by rw [hswitch.mem]; exact herr.mem⟩
  rw [hswitch.pendingViolations, hholder, ← herr.resetCountOf, ← herr.pendingViolations]
  rfl

/-- The head of the FIFO whose result is tainted and aimed at P. -/
theorem crankRow_taint {op : Nat} {k : CrankCmd} {rest : List W64} {f : Ctx → CrankCmd → Ctx × CrankEnd} (hx : x < 2)
    (h : CrankHead s w x op k rest) (hop : op ≠ 0x04)
    (hf : f { ctx s w x with fifo := rest } k = ({ ctx s w x with fifo := rest }, .taint)) :
    ∃ t, (.next (crankRow s w x op f noAfter) : Host.Outcome State Fault Refusal) = .next t ∧ Stopped s t w x := by
  have hrow := crankRow_head (f := f) (after := noAfter) h (syncsWaits_eq_false (.inl (h.isOp ▸ hop)))
  have honly := (OnlyCtx.refl s w x).then_setCtx hx { ctx s w x with fifo := rest }
  have hctx := ctx_setCtx_same s w x { ctx s w x with fifo := rest }
  generalize setCtx s w x { ctx s w x with fifo := rest } = u at *
  have hlegal : crankStateOk (ctx u w x) k.op = true := by rw [hctx, h.isOp]; exact h.legal
  have happly : crankApply u w x k f =
      ctxError (addCycles (setCtx u w x (ctx u w x)) w x (crankCycles (ctx u w x) k) (k.op = 0x08 || k.op = 0x10)) w x .taint := by
    rw [← hctx] at hf
    simp [crankApply, h.fields, hlegal, hf]
  have hall := (honly.then_setCtx hx (ctx u w x)).then_addCycles hx (crankCycles (ctx u w x) k) (k.op = 0x08 || k.op = 0x10)
  have hcycles := ctx_addCycles (setCtx u w x (ctx u w x)) w x (crankCycles (ctx u w x) k) (k.op = 0x08 || k.op = 0x10)
  rw [ctx_setCtx_same] at hcycles
  generalize addCycles (setCtx u w x (ctx u w x)) w x (crankCycles (ctx u w x) k) (k.op = 0x08 || k.op = 0x10) = v at *
  rw [hctx] at hcycles
  have hstop : Stopped v (ctxError v w x .taint) w x := ctxError_taint hx (by rw [hcycles]; exact h.full)
  have hholder : (ctx v w x).holder = (ctx s w x).holder := by rw [hcycles]
  have harea : (ctx v w x).area = (ctx s w x).area := by rw [hcycles]
  refine ⟨ctxError v w x .taint, congrArg _ (hrow.trans ?_), ?_, hstop.state, hstop.code, hstop.area.trans harea,
    hstop.mem.trans hall.mem⟩
  · rw [happly]; exact ite_self _
  · rw [hstop.pending, hholder, hall.resetCountOf, hall.pendingViolations]

end

/-- Settles O22. -/
theorem crankTaintStopsLeaks : Obligations.CrankTaintStopsLeaks := by
  unfold Obligations.CrankTaintStopsLeaks
  intro s w x k rest hx
  refine ⟨fun h ht hd => ?_, fun h ht hd => ?_, fun h ht hd => ?_, fun h ht hd => ?_⟩
  · obtain ⟨t, hrow, hstop⟩ := crankRow_taint (f := crankAccstw) hx h (by decide) (if_pos (by simp [ht, hd]))
    exact ⟨t, hrow, hstop.pending, hstop.state, hstop.code, hstop.area, hstop.mem⟩
  · obtain ⟨t, hrow, hstop⟩ := crankRow_taint (f := crankCarry) hx h (by decide) (if_pos (by simp [ht, hd]))
    exact ⟨t, hrow, hstop.pending, hstop.state, hstop.code, hstop.area, hstop.mem⟩
  · obtain ⟨t, hrow, hstop⟩ := crankRow_taint (f := crankLst) hx h (by decide) (if_pos (by simp [ht, hd]))
    exact ⟨t, hrow, hstop.pending, hstop.state, hstop.code, hstop.area, hstop.mem⟩
  · obtain ⟨t, hrow, hstop⟩ := crankRow_taint (f := crankMovb) hx h (by decide) (if_pos (by simp [ht, hd]))
    exact ⟨t, hrow, hstop.pending, hstop.state, hstop.code, hstop.area, hstop.mem⟩

/-! ### Which claim is granted (R10, R122, R155) -/

/-- The better of the claim so far and the next one. -/
def betterClaim (rotate : Nat) (b : Option Claim) (c : Claim) : Option Claim :=
  match b with
  | none => some c
  | some d =>
    if c.cls < d.cls || (c.cls = d.cls && (c.master + 1024 - rotate % 1024) % 1024 < (d.master + 1024 - rotate % 1024) % 1024)
    then some c else some d

theorem bestClaim_eq (cs : List Claim) (rotate : Nat) : bestClaim cs rotate = cs.foldl (betterClaim rotate) none := rfl

theorem betterClaim_cls (rotate : Nat) (b : Option Claim) (c : Claim) :
    ∃ e, betterClaim rotate b c = some e ∧ e.cls ≤ c.cls ∧ ∀ d, b = some d → e.cls ≤ d.cls := by
  cases b with
  | none => exact ⟨c, rfl, le_rfl, fun _ h => nomatch h⟩
  | some d =>
    simp only [betterClaim]
    split
    · next h =>
      refine ⟨c, rfl, le_rfl, fun d' hd => ?_⟩
      cases hd
      simp at h
      omega
    · next h =>
      refine ⟨d, rfl, ?_, fun d' hd => by cases hd; exact le_rfl⟩
      simp at h
      omega

/-- The best of some claims has the highest class of all; there is none only where there are no claims. -/
theorem foldl_betterClaim (rotate : Nat) (cs : List Claim) (b : Option Claim) (h : b ≠ none ∨ cs ≠ []) :
    ∃ e, cs.foldl (betterClaim rotate) b = some e ∧ (∀ d ∈ cs, e.cls ≤ d.cls) ∧ ∀ d, b = some d → e.cls ≤ d.cls := by
  induction cs generalizing b with
  | nil =>
    obtain ⟨d, rfl⟩ := Option.ne_none_iff_exists'.mp (h.resolve_right (by simp))
    exact ⟨d, rfl, by simp, fun d' hd => by cases hd; exact le_rfl⟩
  | cons c cs ih =>
    obtain ⟨e, he, hc, hb⟩ := betterClaim_cls rotate b c
    obtain ⟨f, hf, hcs, hprev⟩ := ih (betterClaim rotate b c) (.inl (by rw [he]; simp))
    have hfe := hprev e he
    refine ⟨f, hf, fun d hd => ?_, fun d hd => hfe.trans (hb d hd)⟩
    rcases List.mem_cons.mp hd with rfl | hd
    · exact hfe.trans hc
    · exact hcs d hd

theorem bestClaim_none {cs : List Claim} {rotate : Nat} (h : bestClaim cs rotate = none) : cs = [] := by
  by_contra hne
  obtain ⟨e, he, -, -⟩ := foldl_betterClaim rotate cs none (.inr hne)
  rw [bestClaim_eq, he] at h
  cases h

theorem bestClaim_some {cs : List Claim} {rotate : Nat} {c : Claim} (h : bestClaim cs rotate = some c) :
    ∀ d ∈ cs, c.cls ≤ d.cls := by
  intro d hd
  obtain ⟨e, he, hcs, -⟩ := foldl_betterClaim rotate cs none (.inr (List.ne_nil_of_mem hd))
  rw [bestClaim_eq, he] at h
  cases h
  exact hcs d hd

/-- A grant goes to a claim of the highest class; it draws a free value at most. -/
theorem pickClaim_spec {s v : State} {cs : List Claim} {rotate : Nat} {c : Claim} (h : pickClaim s cs rotate = (some c, v)) :
    (∀ d ∈ cs, c.cls ≤ d.cls) ∧ (v = s ∨ v = { s with draws := s.draws + 1 }) := by
  have hsplit : ∀ d ∈ cs, d ∈ cs.filter (fun c => !isHub c.master) ∨ d ∈ cs.filter (fun c => isHub c.master) := by
    intro d hd
    by_cases hh : isHub d.master = true <;> simp [hd, hh]
  unfold pickClaim at h
  split at h
  · next b g hb hg =>
    have hbs := bestClaim_some hb
    have hgs := bestClaim_some hg
    have hall : ∀ n, n ≤ b.cls → n ≤ g.cls → ∀ d ∈ cs, n ≤ d.cls := fun n h1 h2 d hd =>
      (hsplit d hd).elim (fun hd => h1.trans (hbs d hd)) (fun hd => h2.trans (hgs d hd))
    split at h
    · cases h; exact ⟨hall _ le_rfl (by omega), .inl rfl⟩
    · split at h
      · cases h; exact ⟨hall _ (by omega) le_rfl, .inl rfl⟩
      · cases h
        refine ⟨hall _ ?_ ?_, .inr rfl⟩ <;> split <;> omega
  · next b hb hg =>
    cases h
    have hnone := bestClaim_none hg
    refine ⟨fun d hd => ?_, .inl rfl⟩
    rcases hsplit d hd with hd | hd
    · exact bestClaim_some hb d hd
    · rw [hnone] at hd; cases hd
  · next hb =>
    have hnone := bestClaim_none hb
    simp only [Prod.mk.injEq] at h
    obtain ⟨hg, rfl⟩ := h
    refine ⟨fun d hd => ?_, .inl rfl⟩
    rcases hsplit d hd with hd | hd
    · rw [hnone] at hd; cases hd
    · exact bestClaim_some hg d hd

/-! ### Holds of a context (R121, R122, R131, R132, R139 to R141, R126) -/

section
variable {s t : State} {m w x : Nat}

theorem onWheel_awake (hon : wheelOn s w = true) (m a : Nat) (f : State → State) : onWheel s m w a f = f s := by
  simp [onWheel, wheelAbsent_of_on hon, guarded, hon]

theorem ctxClaimOp_new (huser : crankUser m w = true) (hheld : heldCtx s m w = none) (hnew : ∀ c ∈ (crank s w).claims, c.master ≠ m) :
    ctxClaimOp s m w = setCrank s w
      { crank s w with claims := (crank s w).claims ++ [{ master := m, cls := classOf s m, sign := signOf s m }] } := by
  have hany : ((crank s w).claims.any fun c => c.master = m) = false := by simpa using hnew
  simp [ctxClaimOp, huser, hheld, hany]

theorem crankGrantOp_first {v : State} {cl : Claim} (hon : wheelOn s w = true) (hfree : (crank s w).a.state = .free)
    (hpick : pickClaim s (crank s w).claims (crank s w).rotate = (some cl, v)) : crankGrantOp s w = grantCtx v w 0 cl := by
  have hfirst : [0, 1].find? (fun x => (ctx s w x).state = .free) = some 0 := by
    simp [List.find?, ctx, hfree]
  simp only [crankGrantOp, hon, hfirst, hpick]

/-- A grant of context A: the claim leaves, the context is its holder's. -/
theorem grantCtx_first (v : State) (w : Nat) (cl : Claim) :
    ∃ u, grantCtx v w 0 cl = interrupt u cl.master 0x10 ∧ u = { v with cranks := u.cranks } ∧
      crank u w = { crank v w with claims := (crank v w).claims.filter (fun d => d.master ≠ cl.master), rotate := cl.master + 1,
                                   a := { state := .waiting, holder := cl.master, job := jobNumber v cl.master, cls := cl.cls,
                                          sign := cl.sign } } := by
  refine ⟨_, rfl, rfl, ?_⟩
  rw [crank_setCtx, crank_setCrank_same]
  rfl

theorem cmdHiOp_push {v : W32} (hheld : heldCtx s m w = some x) (herr : (ctx s w x).state ≠ .error)
    (hroom : (ctx s w x).fifo.length < 64) (hreq : (ctx s w x).requested = true) :
    cmdHiOp s m w x v = setCtx s w x { ctx s w x with fifo := (ctx s w x).fifo ++ [v ++ (ctx s w x).cmdLo] } := by
  simp only [cmdHiOp, hheld, if_true, herr, if_false, Nat.not_le.mpr hroom, pushCmd, hreq]

/-- Discarding the FIFO leaves the context's hold, and all memory. -/
theorem dropFifo_effect (s : State) (w x : Nat) :
    ctx (dropFifo s w x) w x = { ctx s w x with fifo := [], overflow := [] } ∧
      dropFifo s w x = { s with cranks := (dropFifo s w x).cranks, cores := (dropFifo s w x).cores } := by
  simp only [dropFifo]
  split
  · exact ⟨ctx_setCtx_same _ _ _ _, rfl⟩
  · exact ⟨ctx_setCtx_same _ _ _ _, rfl⟩

theorem ctx_of_onlyGov (h : OnlyGov s t) (w x : Nat) : ctx t w x = ctx s w x := by rw [h]; rfl

/-- A hold that ends: the context is wiped of everything but its tokens and what R139 keeps. -/
theorem endCtx_effect (s : State) (w : Nat) (hx : x < 2) :
    (ctx (endCtx s w x) w x).state = .wiping ∧ (ctx (endCtx s w x) w x).area = [] ∧ (ctx (endCtx s w x) w x).acc = 0 ∧
      (ctx (endCtx s w x) w x).fifo = [] ∧ (ctx (endCtx s w x) w x).tokens = (ctx s w x).tokens ∧ (endCtx s w x).mem = s.mem := by
  have hgov := (onlyGov_withdraw (dropFifo s w x) (.ctx w x)).trans (onlyGov_withdraw _ (.ctxGrow w x))
  obtain ⟨hctx, hdrop⟩ := dropFifo_effect s w x
  have hmem : (dropFifo s w x).mem = s.mem := by rw [hdrop]
  simp only [endCtx]
  generalize withdraw (withdraw (dropFifo s w x) (.ctx w x)) (.ctxGrow w x) = u at *
  have htok : (ctx u w x).tokens = (ctx s w x).tokens := by rw [ctx_of_onlyGov hgov, hctx]
  have humem : u.mem = s.mem := by rw [hgov]; exact hmem
  have hkeep : ∀ c : Ctx, ctx (switchOn (setCtx u w x c) w x) w x = c := fun c => by
    have h := (onlyCtx_switchOn (setCtx u w x c) w hx).otherCtx
    rw [show 1 - (1 - x) = x by omega, ctx_setCtx_same] at h
    exact h
  rw [hkeep, (onlyCtx_switchOn _ w hx).mem]
  exact ⟨rfl, rfl, rfl, rfl, htok, humem⟩

theorem crankWipeDoneOp_clean (hx : x < 2) (h : (ctx s w x).state = .wiping) :
    crankWipeDoneOp s w x true = setCtx (giveBack s (ctx s w x).tokens ((ctx s w x).cls = 0)) w x
      { ({} : Ctx) with completed := (ctx s w x).completed, errCode := (ctx s w x).errCode, errIndex := (ctx s w x).errIndex,
                        sXferCount := (ctx s w x).sXferCount } := by
  simp [crankWipeDoneOp, hx, h]

@[simp] theorem chBank_setChBank_same (s : State) (m : Nat) (b : ChBank) : chBank (setChBank s m b) m = b :=
  smGet_smSet_same _ _ _ _

theorem chCode_ok (s : State) (m : Nat) : chCode s m cOk = setChBank s m { chBank s m with code := cOk } := rfl

/-- The doublewords of a key that a transfer carries. -/
def keyDws (t : Xfer) : List W64 :=
  (List.range ((t.key.length + 7) / 8)).map fun i => BitVec.ofNat 64 (field t.key (8 * i) 8)

theorem sAreaTransferOp_accepted {t : Xfer} (htake : takeXfer w s.chamber.xfers = some (t, [])) (hacc : xferAccepted s t = true) :
    sAreaTransferOp s w = setChBank (setCtx { s with chamber := { s.chamber with xfers := [] } } t.wheel t.ctx
      { setAreaDws (ctx s t.wheel t.ctx) (2048 + t.index) (keyDws t) with sXferCount := (ctx s t.wheel t.ctx).sXferCount + 1 })
      t.master { chBank s t.master with code := cOk } := by
  have hacc' : xferAccepted { s with chamber := { s.chamber with xfers := [] } } t = true := hacc
  simp only [sAreaTransferOp, htake, hacc', if_true, chCode_ok]
  rfl

theorem yieldOverrunOp_first (hrun : running s w 0 = true) (hpre : canPreempt s w 0 = true)
    (hwarn : yieldWarn s w < (crank s w).sinceYield) (hlog : (crank s w).overrunLogged = false) (hroom : recordsWaiting s w < 4) :
    yieldOverrunOp s w = { setCrank s w { crank s w with overrunLogged := true } with
      fs := { s.fs with raised := s.fs.raised ++
        [(w, { source := (ctx s w 0).holder, rtype := 0x020, payload := [w32 (ctx s w 0).holder] })] } } := by
  have hfirst : [0, 1].find? (running s w) = some 0 := by simp [List.find?, hrun]
  simp only [yieldOverrunOp, hfirst, hpre, hlog, hwarn, decide_true, Bool.not_false, Bool.and_self, if_true]
  exact emit_of_room _ _ (by decide) hroom

end

/-- Settles O23. -/
theorem crankContextsAreHeldAndWiped : Obligations.CrankContextsAreHeldAndWiped := by
  unfold Obligations.CrankContextsAreHeldAndWiped
  intro s v' m w x v cl t hx hon hpark
  have hwake := wakeWheel_of_not_parked false hpark
  refine ⟨fun huser hheld hnew => ?_, fun hfree hpick => ?_, fun hheld herr hroom hreq => ?_, fun hheld => ?_, fun hwipe => ?_,
    fun htake hw hc hacc => ?_, fun hrun hx0 hpre hwarn hlog hroom => ?_⟩
  · refine congrArg Host.Outcome.next ((onWheel_awake hon m _ _).trans ?_)
    rw [hwake]
    exact ctxClaimOp_new huser hheld hnew
  · obtain ⟨hcls, hv⟩ := pickClaim_spec hpick
    obtain ⟨u, hgrant, hrest, hcrank⟩ := grantCtx_first v' w cl
    have hsame : crank v' w = crank s w ∧ jobNumber v' cl.master = jobNumber s cl.master := by
      rcases hv with rfl | rfl <;> exact ⟨rfl, rfl⟩
    rw [hsame.1, hsame.2] at hcrank
    exact ⟨hcls, hv, u, congrArg Host.Outcome.next ((crankGrantOp_first hon hfree hpick).trans hgrant), hrest, hcrank⟩
  · refine congrArg Host.Outcome.next ((onWheel_awake hon m _ _).trans ?_)
    rw [if_pos hx, hwake]
    exact cmdHiOp_push hheld herr hroom hreq
  · have hexec : exec (.ctxRelease m w) s = .next (endCtx s w x) := by
      refine congrArg Host.Outcome.next ((onWheel_awake hon m _ _).trans ?_)
      simp only [hwake, ctxReleaseOp, hheld]
    exact ⟨_, hexec, endCtx_effect s w hx⟩
  · have hexec : exec (.crankWipeDone w x true) s = .next _ := congrArg Host.Outcome.next (crankWipeDoneOp_clean hx hwipe)
    have hgov := onlyGov_giveBack s (ctx s w x).tokens ((ctx s w x).cls = 0)
    refine ⟨_, hexec, ?_, ctx_setCtx_same _ _ _ _⟩
    rw [setCtx, setCrank, hgov]
  · have hexec : exec (.sAreaTransfer w) s = .next _ := congrArg Host.Outcome.next (sAreaTransferOp_accepted htake hacc)
    subst hw hc
    have hacc0 : (setAreaDws (ctx s t.wheel t.ctx) (2048 + t.index) (keyDws t)).acc = (ctx s t.wheel t.ctx).acc := by
      rw [setAreaDws_frame]
    refine ⟨_, hexec, rfl, rfl, ?_, ?_, ?_⟩
    · rw [chBank_setChBank_same]; rfl
    · exact congrArg Ctx.sXferCount (ctx_setCtx_same _ _ _ _)
    · exact (congrArg Ctx.acc (ctx_setCtx_same _ _ _ _)).trans hacc0
  · subst hx0
    have hexec : exec (.yieldOverrun w) s = .next _ :=
      congrArg Host.Outcome.next (yieldOverrunOp_first hrun hpre hwarn hlog hroom)
    exact ⟨_, hexec, rfl, crank_setCrank_same _ _ _, rfl⟩

end Sys2Proof.Machine
end

section
/-! SUPPORT. Lanes: commands, images, delivery, claims and wipes. -/

namespace Sys2Proof.Machine

/-! ### A lane's registers and commands (R155 to R169): how a write reaches the lane -/

@[simp] theorem lane_setLane_same (s : State) (l : Nat) (k : Lane) : lane (setLane s l k) l = k := smGet_smSet_same _ _ _ _

theorem lane_setLane_other (s : State) {l j : Nat} (h : j ≠ l) (k : Lane) : lane (setLane s l k) j = lane s j :=
  smGet_smSet_other _ h _ _ _

section
variable {s t u : State} {m l : Nat} {k k' : Lane}

theorem LaneDid.refl (s : State) (l : Nat) : LaneDid s s l (lane s l) := ⟨rfl, fun _ _ => rfl, rfl⟩

theorem LaneDid.then_setLane (h : LaneDid s t l k) (k' : Lane) : LaneDid s (setLane t l k') l k' :=
  ⟨by rw [setLane, h.frame], fun j hj => (lane_setLane_other t hj k').trans (h.others j hj), lane_setLane_same _ _ _⟩

theorem laneDid_setLane (s : State) (l : Nat) (k : Lane) : LaneDid s (setLane s l k) l k := (LaneDid.refl s l).then_setLane k

theorem LaneDid.trans (h : LaneDid s t l k) (h' : LaneDid t u l k') : LaneDid s u l k' :=
  ⟨by rw [h'.frame, h.frame], fun j hj => (h'.others j hj).trans (h.others j hj), h'.did⟩

/-- A use of a slot is judged by the cores, jobs and the Chamber, which a change of lanes leaves. -/
theorem LaneDid.useCheck (h : LaneDid s t l k) (m i usage : Nat) (rom : Bool) : useCheck t m i usage rom = useCheck s m i usage rom := by
  rw [h.frame]; rfl

theorem LaneDid.slot (h : LaneDid s t l k) (i : Nat) : slot t i = slot s i := by rw [h.frame]; rfl

theorem LaneDid.slotBytes (h : LaneDid s t l k) (i : Nat) : slotBytes t i = slotBytes s i := by rw [h.frame]; rfl

theorem LaneDid.domOn (h : LaneDid s t l k) (d : Nat) : domOn t d = domOn s d := by rw [h.frame]; rfl

theorem LaneDid.contextKey (h : LaneDid s t l k) : contextKey t = contextKey s := by rw [h.frame]; rfl

theorem holdsLane_iff : holdsLane s m l = true ↔ (lane s l).state.held = true ∧ (lane s l).holder = m := by
  simp [holdsLane]

theorem LaneMine.holder (h : LaneMine s m l) : (lane s l).holder = m := (holdsLane_iff.mp h.holds).2

theorem LaneMine.not_busy (h : LaneMine s m l) : (lane s l).state ≠ .busy := by
  rcases h.state with h | h <;> rw [h] <;> decide

theorem LaneMine.not_error (h : LaneMine s m l) : (lane s l).state ≠ .error := by
  rcases h.state with h | h <;> rw [h] <;> decide

/-- An access to a lane's block on an island that runs, its Wheel awake. -/
theorem laneAccess_awake (hon : laneOn s l = true) (hawake : isHubLane l = true ∨ parked s (l / 2) = false)
    (off size : Nat) (v : W64) : laneAccess s m l off size v = laneWrite s m l off size v := by
  unfold laneAccess onLane
  by_cases hhub : isHubLane l = true
  · simp [hhub, guarded, hon]
  · have hwheel : wheelOn s (l / 2) = true := by simpa [laneOn, hhub] using hon
    rw [if_neg hhub, onWheel_awake hwheel, if_neg hhub, wakeWheel_of_not_parked false (hawake.resolve_left hhub)]

theorem LaneDid.laneGo (h : LaneDid s t l k) (hadm : k.admitted = (lane s l).admitted) : laneGo t l = laneGo s l := by
  have hruns : wheelRuns t (l / 2) = wheelRuns s (l / 2) := by rw [h.frame]; rfl
  have hhub : hubOn t = hubOn s := by rw [h.frame]; rfl
  rw [Machine.laneGo, h.did, hadm, hruns, hhub, Machine.laneGo]

/-- The lane with an item in its empty queue. -/
def queued (s : State) (l : Nat) (i : LaneItem) : State := setLane s l { lane s l with queue := [i] }

theorem laneDid_queued (s : State) (l : Nat) (i : LaneItem) : LaneDid s (queued s l i) l { lane s l with queue := [i] } :=
  laneDid_setLane s l _

/-- The lane, its item taken out of the queue again. -/
def taken (s : State) (l : Nat) (i : LaneItem) : State := setLane (queued s l i) l (lane s l)

theorem laneDid_taken (s : State) (l : Nat) (i : LaneItem) : LaneDid s (taken s l i) l (lane s l) :=
  (laneDid_queued s l i).then_setLane _

/-- An item that the lane may take at once, and that leaves nothing in the queue. -/
theorem laneArrive_taken (h : LaneMine s m l) {i : LaneItem} (htake : laneCanTake (queued s l i) l i = true)
    (hempty : (lane (laneItem (taken s l i) l i) l).queue = []) : laneArrive s l i = laneItem (taken s l i) l i := by
  have hask : ∀ work : Bool, (work && !(lane s l).requested && !isHubLane l) = false := fun work => by
    rcases h.asked with ha | ha <;> simp [ha]
  have hqueue : setLane s l { lane s l with queue := (lane s l).queue ++ [i], requested := (lane s l).requested || false } =
      queued s l i := by rw [h.empty, Bool.or_false]; rfl
  have hback : setLane (queued s l i) l { lane (queued s l i) l with queue := [] } = taken s l i := by
    rw [(laneDid_queued s l i).did, taken]
    exact congrArg (setLane _ l) (by rw [← h.empty])
  have hmay : ((lane (queued s l i) l).state.held && (lane (queued s l i) l).state ≠ .busy && laneCanTake (queued s l i) l i) = true := by
    rw [(laneDid_queued s l i).did, htake]
    rcases h.state with hs | hs <;> simp [hs, LaneState.held]
  have hdrain : laneDrain (lane (queued s l i) l).queue.length (queued s l i) l = laneItem (taken s l i) l i := by
    have hq : (lane (queued s l i) l).queue = [i] := by rw [(laneDid_queued s l i).did]
    rw [hq]
    simp only [List.length_singleton, laneDrain, hq, hmay, if_true, hback]
  have hroom : ¬ 512 < laneQueued (lane (laneItem (taken s l i) l i) l) := by simp [laneQueued, hempty]
  simp only [laneArrive, hask, hqueue, Bool.false_eq_true, if_false, hdrain, hroom]

/-- An item that changes the lane alone and leaves nothing queued: the whole access. -/
theorem laneDid_of_item (h : LaneMine s m l) {i : LaneItem} (htake : laneCanTake (queued s l i) l i = true)
    (hitem : LaneDid (taken s l i) t l k) (hrun : laneItem (taken s l i) l i = t) (hempty : k.queue = []) :
    laneArrive s l i = t ∧ LaneDid s t l k := by
  subst hrun
  exact ⟨laneArrive_taken h htake (by rw [hitem.did, hempty]), (laneDid_taken s l i).trans hitem⟩

/-! ### The fields of a command word (R158) -/

theorem toNat_w32 {n : Nat} (h : n < 4294967296) : (w32 n).toNat = n := (BitVec.toNat_ofNat _ _).trans (Nat.mod_eq_of_lt h)

theorem fld_w32 {n : Nat} (h : n < 4294967296) (lo len : Nat) : fld (w32 n) lo len = n / 2 ^ lo % 2 ^ len := by
  rw [fld, toNat_w32 h, Nat.shiftRight_eq_div_pow]

/-- A command word whose fields are within their widths has them back. -/
structure WordFields (w : W32) (op alg pad outLen block dest : Nat) : Prop where
  op : fld w 28 4 = op
  alg : fld w 24 4 = alg
  pad : fld w 16 8 = pad
  outLen : fld w 8 8 = outLen
  block : bitOf w 2 = decide (block = 1)
  zero : fld w 3 5 = 0
  dest : fld w 0 2 = dest

theorem wordFields_laneWord {op alg pad outLen block dest : Nat} (hop : op < 16) (halg : alg < 16) (hpad : pad < 256)
    (hlen : outLen < 256) (hblock : block < 2) (hdest : dest < 4) :
    WordFields (laneWord op alg pad outLen block dest) op alg pad outLen block dest := by
  have hword : laneWord op alg pad outLen block dest =
      w32 (op * 268435456 + alg * 16777216 + pad * 65536 + outLen * 256 + block * 4 + dest) := by
    simp [laneWord, Nat.shiftLeft_eq]
  have hlt : op * 268435456 + alg * 16777216 + pad * 65536 + outLen * 256 + block * 4 + dest < 4294967296 := by omega
  rw [hword]
  refine ⟨?_, ?_, ?_, ?_, ?_, ?_, ?_⟩
  · rw [fld_w32 hlt]; norm_num; omega
  · rw [fld_w32 hlt]; norm_num; omega
  · rw [fld_w32 hlt]; norm_num; omega
  · rw [fld_w32 hlt]; norm_num; omega
  · rw [bitOf, BitVec.getLsbD, toNat_w32 hlt, Nat.testBit_eq_decide_div_mod_eq]
    exact decide_eq_decide.mpr (by norm_num; omega)
  · rw [fld_w32 hlt]; norm_num; omega
  · rw [fld_w32 hlt]; norm_num; omega

end

/-! ### The commands of a lane that its master holds (R158 to R166) -/

section
variable {s s' t u : State} {m l : Nat} {k k' : Lane} {w : W32}

theorem laneCmdWrite_mine (h : LaneMine s m l) (w : W32) : laneCmdWrite s m l w = laneArrive s l (.cmd w (romWrite s m)) := by
  have hw : (w.setWidth 64).setWidth 32 = w := by simp
  rw [laneCmdWrite, laneAccess_awake h.powered h.awake]
  simp only [laneWrite, h.user, h.holds, laneHolderOff, hw]
  rfl

theorem laneData_mine (h : LaneMine s m l) (size : Nat) (v : W64) :
    laneAccess s m l 0x800 size v = laneArrive s l (.data (leBytes size v.toNat)) := by
  rw [laneAccess_awake h.powered h.awake]
  simp only [laneWrite, h.user, h.holds, laneHolderOff]
  rfl

theorem laneLength_mine (h : LaneMine s m l) (v : W64) : laneAccess s m l 0x014 8 v = laneArrive s l (.write 0x014 8 v) := by
  rw [laneAccess_awake h.powered h.awake]
  simp only [laneWrite, h.user, h.holds, laneHolderOff]
  rfl

theorem laneGo_queued (h : LaneMine s m l) (i : LaneItem) : laneGo (queued s l i) l = true :=
  ((laneDid_queued s l i).laneGo rfl).trans h.works

/-- A command that need not wait for Drip is taken at once. -/
theorem canTake_cmd (h : LaneMine s m l) (rom : Bool) (hexport : exportWaits (queued s l (.cmd w rom)) l w = false) :
    laneCanTake (queued s l (.cmd w rom)) l (.cmd w rom) = true := by
  simp [laneCanTake, laneGo_queued h, hexport]

theorem exportWaits_of_op {op alg pad outLen block dest : Nat} (hw : WordFields w op alg pad outLen block dest) (hop : op ≠ 7) :
    exportWaits u l w = false := by
  simp [exportWaits, hw.op, hop]

/-- What a legal command does, by its `OP`. -/
def laneCmdOf (s : State) (l : Nat) (w : W32) (rom : Bool) : Nat → State
  | 1 => laneInit s l w
  | 2 => laneAbsorbSlot s l w rom
  | 3 => laneAbsorbHold s l
  | 4 => laneFinish s l w
  | 5 => laneSave s l
  | 6 => laneRestore s l
  | 7 => laneExport s l
  | _ => laneImport s l

/-- A command that starts afresh, or of a message under way. -/
theorem laneCmd_eq {op alg pad outLen block dest : Nat} (hw : WordFields w op alg pad outLen block dest) (hstate : (lane u l).state ≠ .error)
    (hlo : 1 ≤ op) (hhi : op ≤ 8) (hstart : op = 1 ∨ op = 6 ∨ op = 8 ∨ (lane u l).started = true) (rom : Bool) :
    laneCmd u l w rom = laneCmdOf u l w rom op := by
  have hbad : (decide (op = 0) || decide (8 < op) || decide ((0 : Nat) ≠ 0)) = false := by simp; omega
  have hfresh : (!(decide (op = 1) || decide (op = 6) || decide (op = 8)) && !(lane u l).started) = false := by
    rcases hstart with rfl | rfl | rfl | h <;> simp [*]
  simp only [laneCmd, hw.op, hw.zero, hstate, decide_false, Bool.false_and, Bool.false_eq_true, if_false, hbad, hfresh]
  rfl

/-- A command of the holder, started afresh or of a message under way, that the lane takes at once and that changes the lane
alone. -/
theorem laneCmd_did {op alg pad outLen block dest : Nat} (h : LaneMine s m l) (hw : WordFields w op alg pad outLen block dest)
    (hop : 1 ≤ op ∧ op ≤ 8 ∧ op ≠ 7) (hstart : op = 1 ∨ op = 6 ∨ op = 8 ∨ (lane s l).started = true)
    (hrun : ∀ u, LaneDid s u l (lane s l) → ∃ t, laneCmdOf u l w (romWrite s m) op = t ∧ LaneDid u t l k)
    (hempty : k.queue = []) :
    ∃ t, (.next (laneCmdWrite s m l w) : Host.Outcome State Fault Refusal) = .next t ∧ LaneDid s t l k := by
  have htaken := laneDid_taken s l (.cmd w (romWrite s m))
  obtain ⟨t, hcmd, hdid⟩ := hrun _ htaken
  have heq := laneCmd_eq hw (by rw [htaken.did]; exact h.not_error) hop.1 hop.2.1 (by rwa [htaken.did]) (romWrite s m)
  obtain ⟨harrive, hall⟩ := laneDid_of_item h (canTake_cmd h _ (exportWaits_of_op hw hop.2.2)) hdid (heq.trans hcmd) hempty
  exact ⟨t, congrArg _ ((laneCmdWrite_mine h w).trans harrive), hall⟩

/-- Absorbing without a declared length. -/
theorem laneAbsorb_undeclared (hk : lane u l = k) (hd : k.declared = 0) (bs : List Byte) :
    laneAbsorb u l bs = setLane u l (laneFeed k bs) := by
  simp [laneAbsorb, hk, hd]

theorem laneFeed_queue (k : Lane) (bs : List Byte) : (laneFeed k bs).queue = k.queue := rfl

theorem laneInit_of_valid {alg : Nat} (hw : fld w 24 4 = alg) (hvalid : algValid alg = true) :
    laneInit u l w = setLane u l (laneNew (lane u l) alg) := by
  simp [laneInit, hw, hvalid]

theorem laneAbsorbSlot_of_use {rom : Bool} (hk : lane u l = k) (hdecl : k.declared = 0)
    (hblock : bitOf w 2 = true → k.buffer = []) (hdom : domOn u 26 = true)
    (huse : useCheck u k.holder k.slot (useDigest + useDerive) (isHubLane l && rom) = 0) :
    laneAbsorbSlot u l w rom = setLane (setLane u l { k with
        taint := true, deriveOk := k.deriveOk && decide (attrUsage (slot u k.slot).attr &&& useDerive ≠ 0) }) l
      (laneFeed { k with taint := true, deriveOk := k.deriveOk && decide (attrUsage (slot u k.slot).attr &&& useDerive ≠ 0) }
        (slotPadded k.alg (slotBytes u k.slot) (BitVec.ofNat 8 (fld w 16 8)) (bitOf w 2))) := by
  have haligned : (bitOf w 2 && !laneAligned k) = false := by
    cases hb : bitOf w 2
    · rfl
    · simp [laneAligned, hblock hb]
  simp only [laneAbsorbSlot, hk, haligned, Bool.false_eq_true, if_false, hdom, if_true, huse]
  refine laneAbsorb_undeclared (lane_setLane_same _ _ _) ?_ _
  exact hdecl

theorem laneAbsorbHold_undeclared (hk : lane u l = k) (hdecl : k.declared = 0) :
    laneAbsorbHold u l = setLane (setLane u l { k with taint := k.taint || k.holdTaint, deriveOk := k.deriveOk && k.holdDerive }) l
      (laneFeed { k with taint := k.taint || k.holdTaint, deriveOk := k.deriveOk && k.holdDerive } k.hold) := by
  simp only [laneAbsorbHold, hk]
  refine laneAbsorb_undeclared (lane_setLane_same _ _ _) ?_ _
  exact hdecl

theorem laneFinish_of_len {n : Nat} (hk : lane u l = k) (hn : fld w 8 8 = n) (hlo : 1 ≤ n) (hhi : n ≤ 64) :
    laneFinish u l w = setLane u l { k with state := .busy, finishing := some w } := by
  have hbad : (decide (64 < n) || decide (n = 0) && algShake k.alg) = false := by
    simp [Nat.not_lt.mpr hhi, show n ≠ 0 by omega]
  simp only [laneFinish, hk, hn, hbad, Bool.false_eq_true, if_false]

theorem laneSave_of_aligned (hk : lane u l = k) (hbuf : k.buffer = []) (htaint : k.taint = false) :
    laneSave u l = setLane u l { k with ctxImage := imageMap (laneImage k) } := by
  simp [laneSave, hk, laneAligned, hbuf, htaint]

theorem laneRestore_of_ok (hk : lane u l = k) (him : imageOk (imageBytes k.ctxImage 256) = true) :
    laneRestore u l = setLane u l (laneLoad k (imageBytes k.ctxImage 256) false true) := by
  simp [laneRestore, hk, him]

theorem laneImport_of_ok {key im plain : List Byte} (hk : lane u l = k) (hkey : contextKey u = some key)
    (him : im = imageBytes k.wrapImage 304) (hplain : plain = gcmCrypt key (slice im 16 12) (slice im 32 256))
    (htag : gcmTag key (slice im 16 12) (im.take 16) (slice im 32 256) = slice im 288 16)
    (hhead : im.take 16 = wrapHead u l (field plain 2 1)) :
    laneImport u l = setLane u l (laneLoad k plain ((field plain 3 1).testBit 0) ((field plain 3 1).testBit 1)) := by
  have hgood : (decide (gcmTag key (slice im 16 12) (im.take 16) (slice im 32 256) ≠ slice im 288 16) ||
      decide (im.take 16 ≠ wrapHead u l (field plain 2 1))) = false := by simp [htag, ← hhead]
  simp only [laneImport, hk, hkey, ← him, ← hplain, hgood, Bool.false_eq_true, if_false]

end

/-! ### Images as maps, and how a wrapped image is made (R168, R169) -/

theorem smGet_foldl_zipIdx (bs : List Byte) (m : SMap Byte) (start i : Nat) :
    smGet ((bs.zipIdx start).foldl (fun m e => smSet m e.2 0 e.1) m) i 0 =
      if start ≤ i ∧ i < start + bs.length then bs.getD (i - start) 0 else smGet m i 0 := by
  induction bs generalizing m start with
  | nil => simp
  | cons b bs ih =>
    rw [List.zipIdx_cons, List.foldl_cons, ih]
    by_cases hi : i = start
    · subst hi; simp
    · rw [smGet_smSet_other _ hi]
      simp only [List.length_cons]
      split
      · next h =>
        rw [if_pos (by omega), show i - start = (i - (start + 1)) + 1 by omega, List.getD_cons_succ]
      · next h => rw [if_neg (by omega)]

theorem smGet_imageMap (bs : List Byte) (i : Nat) : smGet (imageMap bs) i 0 = bs.getD i 0 := by
  rw [imageMap, smGet_foldl_zipIdx]
  split
  · rfl
  · exact (List.getD_eq_default _ _ (by omega)).symm

/-- A part of a stored image is that part of its bytes. -/
theorem slice_imageBytes_imageMap (a b c : List Byte) {n : Nat} (hn : a.length + b.length ≤ n) :
    slice (imageBytes (imageMap (a ++ b ++ c)) n) a.length b.length = b := by
  have hlen : (imageBytes (imageMap (a ++ b ++ c)) n).length = n := by simp [imageBytes]
  rw [slice_of_le (by omega)]
  refine List.ext_getElem (by rw [List.length_take, List.length_drop]; omega) fun i h1 hi => ?_
  have hget : smGet (imageMap (a ++ b ++ c)) (a.length + i) 0 = b[i] := by
    rw [smGet_imageMap, List.append_assoc, List.getD_append_right _ _ _ _ (by omega), Nat.add_sub_cancel_left,
      List.getD_append _ _ _ _ hi, List.getD_eq_getElem _ _ hi]
  rw [List.getElem_take, List.getElem_drop]
  simpa only [imageBytes, List.getElem_map, List.getElem_range] using hget

theorem length_wordBytes (ws : List W32) : (wordBytes ws).length = 4 * ws.length := by
  simp [wordBytes, List.length_flatMap]; omega

theorem length_drawWords (n : Nat) (s : State) : (drawWords n s).1.length = n := by
  induction n generalizing s with
  | zero => rfl
  | succ n ih => simp [drawWords, ih]

theorem drawWords_of_lanes (n : Nat) (s : State) (lanes : SMap Lane) :
    drawWords n { s with lanes } = ((drawWords n s).1, { (drawWords n s).2 with lanes }) := by
  induction n generalizing s with
  | zero => rfl
  | succ n ih =>
    have hrest := ih (drawWord s).2
    simp only [drawWords]
    exact congrArg (fun r : List W32 × State => ((drawWord s).1 :: r.1, r.2)) hrest

theorem length_dripTake {s s' : State} {n : Nat} {ws : List W32} (h : dripTake s n = some (ws, s')) : ws.length = n := by
  unfold dripTake at h
  split at h
  · cases h
  · split at h
    · cases h; simp; omega
    · split at h
      · cases h; simp [length_drawWords]; omega
      · cases h

/-- What Drip delivers does not depend on the lanes. -/
theorem dripTake_of_lanes {s s' : State} {n : Nat} {ws : List W32} (h : dripTake s n = some (ws, s')) (lanes : SMap Lane) :
    dripTake { s with lanes } n = some (ws, { s' with lanes }) := by
  have hrefills : dripRefills { s with lanes } = dripRefills s := rfl
  have hready : (!domOn { s with lanes } 28 || healthFailed { s with lanes }) = (!domOn s 28 || healthFailed s) := rfl
  unfold dripTake at h ⊢
  rw [hready, hrefills]
  split at h
  · cases h
  · next hgo =>
    rw [if_neg hgo]
    split at h
    · next hpool => cases h; exact if_pos hpool
    · next hpool =>
      rw [if_neg hpool]
      split at h
      · next hre =>
        cases h
        have hdraw := drawWords_of_lanes (n - s.drip.pool.length) { s with drip := { s.drip with pool := [] } } lanes
        simp only [hre, if_true, hdraw]
      · cases h

theorem length_wrapHead (s : State) (l alg : Nat) : (wrapHead s l alg).length = 16 := by
  simp [wrapHead, zeros]

theorem fitBytes_of_length {n : Nat} {bs : List Byte} (h : bs.length = n) : fitBytes n bs = bs := by
  simp [fitBytes, h, zeros, List.take_of_length_le (Nat.le_of_eq h)]

/-- The IV of an exported image stands at its place. -/
theorem laneExportIv_effect (s : State) (l : Nat) (key : List Byte) {iv : List Byte} (hiv : iv.length = 12) :
    laneExportIv s l key iv = { s with lanes := (laneExportIv s l key iv).lanes } ∧
      (lane (laneExportIv s l key iv) l).queue = (lane s l).queue ∧
      slice (imageBytes (lane (laneExportIv s l key iv) l).wrapImage 304) 16 12 = iv := by
  refine ⟨rfl, by simp only [laneExportIv, lane_setLane_same], ?_⟩
  simp only [laneExportIv, lane_setLane_same]
  have hpart := fun c => slice_imageBytes_imageMap (wrapHead s l (lane s l).alg) iv c (n := 304)
    (by rw [length_wrapHead, hiv]; omega)
  rw [length_wrapHead, hiv] at hpart
  rw [List.append_assoc _ _ (gcmTag _ _ _ _), List.append_assoc _ (zeros 4)]
  exact hpart _

/-- A wrapped image of an aligned context, Drip delivering (R169). -/
theorem laneExport_of_key {s s' : State} {l : Nat} {key : List Byte} {ws : List W32} (halign : laneAligned (lane s l) = true)
    (hkey : contextKey s = some key) (hdrip : dripTake s 3 = some (ws, s')) :
    laneExport s l = laneExportIv s' l key (wordBytes ws) := by
  simp only [laneExport, halign, hkey, hdrip, Bool.not_true, Bool.false_eq_true, if_false]

theorem exec_export_effect {s s' : State} {m l : Nat} {key : List Byte} {ws : List W32} (h : LaneMine s m l)
    (hstart : (lane s l).started = true) (hbuf : (lane s l).buffer = []) (hkey : contextKey s = some key)
    (hdrip : dripTake s 3 = some (ws, s')) :
    ∃ t, exec (.exportWrapped m l) s = .next t ∧ t = { s' with lanes := t.lanes } ∧
      slice (imageBytes (lane t l).wrapImage 304) 16 12 = fitBytes 12 (wordBytes ws) := by
  have hw := wordFields_laneWord (op := 7) (alg := 0) (pad := 0) (outLen := 0) (block := 0) (dest := 0)
    (by omega) (by omega) (by omega) (by omega) (by omega) (by omega)
  have hiv : (wordBytes ws).length = 12 := by rw [length_wordBytes, length_dripTake hdrip]
  set w := laneWord 7 0 0 0 0 0
  have hgives : ∀ t k, LaneDid s t l k → dripTake t 3 = some (ws, { s' with lanes := t.lanes }) := fun t k ht => by
    rw [ht.frame]
    exact dripTake_of_lanes hdrip t.lanes
  have hexport : exportWaits (queued s l (.cmd w (romWrite s m))) l w = false := by
    simp [exportWaits, hgives _ _ (laneDid_queued s l _)]
  have htaken := laneDid_taken s l (.cmd w (romWrite s m))
  have hcmd := laneCmd_eq hw (u := taken s l (.cmd w (romWrite s m))) (by rw [htaken.did]; exact h.not_error) (by omega) (by omega)
    (by rw [htaken.did]; tauto) (romWrite s m)
  have hrun : laneCmd (taken s l (.cmd w (romWrite s m))) l w (romWrite s m) = _ :=
    hcmd.trans (laneExport_of_key (by rw [htaken.did]; exact decide_eq_true hbuf) (htaken.contextKey.trans hkey) (hgives _ _ htaken))
  obtain ⟨hframe, hqueue, hslice⟩ :=
    laneExportIv_effect { s' with lanes := (taken s l (.cmd w (romWrite s m))).lanes } l key hiv
  have hlane : lane { s' with lanes := (taken s l (.cmd w (romWrite s m))).lanes } l = lane s l := htaken.did
  have harrive := laneArrive_taken h (canTake_cmd h _ hexport) (i := .cmd w (romWrite s m))
    (by rw [laneItem, hrun, hqueue, hlane, h.empty])
  refine ⟨_, congrArg Host.Outcome.next ((laneCmdWrite_mine h w).trans (harrive.trans hrun)), ?_,
    hslice.trans (fitBytes_of_length hiv).symm⟩
  rw [hframe]

theorem laneWriteReg_length {u : State} {l : Nat} {k : Lane} (hk : lane u l = k) (habs : k.absorbed = 0) (v : W64) :
    laneWriteReg u l 0x014 8 v = setLane u l { k with declared := v } := by
  have hparts : v.toNat % 4294967296 + 4294967296 * (v.toNat / 4294967296) = v.toNat := Nat.mod_add_div _ _
  have hword : BitVec.ofNat 64 (v.toNat % 4294967296 + 4294967296 * (v.toNat / 4294967296)) = v := by
    rw [hparts, BitVec.ofNat_toNat, BitVec.setWidth_eq]
  simp [laneWriteReg, hk, habs, hword]

theorem LaneDid.wrapHead {s t : State} {l : Nat} (h : LaneDid s t l (lane s l)) (alg : Nat) : wrapHead t l alg = wrapHead s l alg := by
  have howner : ∀ m, wrapOwner t m = wrapOwner s m := fun m => by rw [h.frame]; rfl
  simp only [Machine.wrapHead, h.did, howner]

/-- Settles O24. Each command reaches the lane at once (`laneCmd_did`); what it does there is its own lemma. -/
theorem laneMessagesAndImagesComplete : Obligations.LaneMessagesAndImagesComplete := by
  unfold Obligations.LaneMessagesAndImagesComplete
  refine ⟨fun s m l size alg pad block v h => ⟨fun hvalid => ?_, fun hstart hdecl hsize => ?_, fun habs => ?_,
      fun hstart hdecl hblock hdom huse => ?_, fun hstart hdecl => ?_⟩,
    fun s s' m l key ws h => ⟨fun hstart hbuf htaint => ?_, fun him => ?_, fun hstart hbuf hkey hdrip => ?_,
      fun hkey htag hhead => ?_⟩⟩
  · have hw := wordFields_laneWord (op := 1) (pad := 0) (outLen := 0) (block := 0) (dest := 0) (by omega) alg.isLt (by omega)
      (by omega) (by omega) (by omega)
    refine laneCmd_did h hw (by omega) (.inl rfl) (fun u hu => ⟨_, laneInit_of_valid hw.alg hvalid, ?_⟩) h.empty
    rw [hu.did]
    exact laneDid_setLane u l _
  · have hitem : ∀ u, LaneDid s u l (lane s l) → laneItem u l (.data (leBytes size v.toNat)) =
        setLane u l (laneFeed (lane s l) (leBytes size v.toNat)) := fun u hu => by
      have herr : (lane u l).state ≠ .error := by rw [hu.did]; exact h.not_error
      have hst : (lane u l).started = true := by rw [hu.did]; exact hstart
      simp only [laneItem, herr, if_false, hst, Bool.not_true, Bool.false_eq_true]
      exact laneAbsorb_undeclared hu.did hdecl _
    have hfree : laneCanTake (queued s l (.data (leBytes size v.toNat))) l (.data (leBytes size v.toNat)) = true := laneGo_queued h _
    obtain ⟨harrive, hdid⟩ := laneDid_of_item h hfree (laneDid_setLane _ l _) (hitem _ (laneDid_taken s l _))
      (k := laneFeed (lane s l) (leBytes size v.toNat)) h.empty
    exact ⟨_, congrArg Host.Outcome.next ((laneData_mine h size v).trans harrive), hdid⟩
  · have hitem : ∀ u, LaneDid s u l (lane s l) → laneItem u l (.write 0x014 8 v) = setLane u l { lane s l with declared := v } :=
      fun u hu => laneWriteReg_length hu.did habs v
    obtain ⟨harrive, hdid⟩ := laneDid_of_item h rfl (laneDid_setLane _ l _) (hitem _ (laneDid_taken s l _))
      (k := { lane s l with declared := v }) h.empty
    exact ⟨_, congrArg Host.Outcome.next ((laneLength_mine h v).trans harrive), hdid⟩
  · have hw := wordFields_laneWord (op := 2) (alg := 0) (outLen := 0) (block := b2n block) (dest := 0) (by omega) (by omega) pad.isLt
      (by omega) (by cases block <;> decide) (by omega)
    have hbit : bitOf (laneWord 2 0 pad.toNat 0 (b2n block) 0) 2 = block := by rw [hw.block]; cases block <;> rfl
    refine laneCmd_did h hw (by omega) (.inr (.inr (.inr hstart))) (fun u hu => ⟨_, laneAbsorbSlot_of_use hu.did hdecl
      (by rw [hbit]; exact hblock) ((hu.domOn 26).trans hdom) (by rw [hu.useCheck, h.holder]; exact huse), ?_⟩) h.empty
    rw [hw.pad, hbit, hu.slot, hu.slotBytes, BitVec.ofNat_toNat, BitVec.setWidth_eq]
    exact (laneDid_setLane u l _).then_setLane _
  · have hw := wordFields_laneWord (op := 3) (alg := 0) (pad := 0) (outLen := 0) (block := 0) (dest := 0) (by omega) (by omega)
      (by omega) (by omega) (by omega) (by omega)
    exact laneCmd_did h hw (by omega) (.inr (.inr (.inr hstart))) (fun u hu => ⟨_, laneAbsorbHold_undeclared hu.did hdecl,
      (laneDid_setLane u l _).then_setLane _⟩) h.empty
  · have hw := wordFields_laneWord (op := 5) (alg := 0) (pad := 0) (outLen := 0) (block := 0) (dest := 0) (by omega) (by omega)
      (by omega) (by omega) (by omega) (by omega)
    exact laneCmd_did h hw (by omega) (.inr (.inr (.inr hstart))) (fun u hu => ⟨_, laneSave_of_aligned hu.did hbuf htaint,
      laneDid_setLane u l _⟩) h.empty
  · have hw := wordFields_laneWord (op := 6) (alg := 0) (pad := 0) (outLen := 0) (block := 0) (dest := 0) (by omega) (by omega)
      (by omega) (by omega) (by omega) (by omega)
    refine laneCmd_did h hw (by omega) (.inr (.inl rfl)) (fun u hu => ?_) h.empty
    have hrestore := laneRestore_of_ok hu.did him
    exact ⟨_, hrestore, laneDid_setLane u l _⟩
  · exact exec_export_effect h hstart hbuf hkey hdrip
  · have hw := wordFields_laneWord (op := 8) (alg := 0) (pad := 0) (outLen := 0) (block := 0) (dest := 0) (by omega) (by omega)
      (by omega) (by omega) (by omega) (by omega)
    refine laneCmd_did h hw (by omega) (.inr (.inr (.inl rfl))) (fun u hu => ?_) h.empty
    have himport := laneImport_of_ok hu.did (hu.contextKey.trans hkey) rfl rfl htag (by rw [hu.wrapHead]; exact hhead)
    exact ⟨_, himport, laneDid_setLane u l _⟩

/-! ### An interrupt may wake its core; it leaves everything but cores, tokens asked for, and outputs -/

/-- Only cores, the governor's requests and the outputs differ, and no store is stalled or released. -/
structure Roused (s t : State) : Prop where
  frame : t = { s with cores := t.cores, gov := t.gov, out := t.out }
  stalled : ∀ m, (core t m).stalled = (core s m).stalled

section
variable {s t u : State}

theorem Roused.trans (h : Roused s t) (h' : Roused t u) : Roused s u :=
  ⟨by rw [h'.frame, h.frame], fun m => (h'.stalled m).trans (h.stalled m)⟩

theorem roused_refl (s : State) : Roused s s := ⟨rfl, fun _ => rfl⟩

theorem roused_modCore (s : State) (c : Nat) {f : Core → Core} (hf : (f (core s c)).stalled = (core s c).stalled) :
    Roused s (modCore s c f) := by
  refine ⟨rfl, fun m => ?_⟩
  by_cases hm : m = c
  · subst hm; rw [core_modCore_same, hf]
  · rw [core_modCore_other _ hm]

theorem roused_wr (s : State) (c r : Nat) (v : W64) : Roused s (wr s c r v) := by
  refine roused_modCore s c ?_
  unfold setR
  split
  · rfl
  · split <;> rfl

theorem roused_askAdmission (s : State) (work : Work) (n : Nat) (class0 : Bool) : Roused s (askAdmission s work n class0) :=
  ⟨by rw [askAdmission_frame], fun m => by rw [core_askAdmission]⟩

theorem roused_readmit (s : State) (c : Nat) : Roused s (readmit s c) := by
  unfold readmit
  split
  · exact (roused_modCore s c rfl).trans (roused_askAdmission _ _ _ _)
  · exact roused_modCore s c rfl

theorem roused_wakeCore (s : State) (c : Nat) : Roused s (wakeCore s c) := by
  unfold wakeCore
  simp only
  split
  · split
    · exact roused_readmit s c
    · exact (roused_wr s c _ _).trans (roused_readmit _ c)
    · exact roused_refl s
  · exact roused_refl s

theorem roused_interrupt (s : State) (c v : Nat) : Roused s (interrupt s c v) :=
  (roused_modCore s c rfl).trans (roused_wakeCore _ c)

theorem roused_laneInt (s : State) (l m : Nat) : Roused s (laneInt s l m) := by
  unfold laneInt
  split
  · exact ⟨rfl, fun _ => rfl⟩
  · exact roused_interrupt s m _

theorem Roused.lane (h : Roused s t) (l : Nat) : lane t l = lane s l := by rw [h.frame]; rfl

theorem Roused.fw (h : Roused s t) : t.fw = s.fw := by rw [h.frame]

theorem Roused.slot (h : Roused s t) (i : Nat) : slot t i = slot s i := by rw [h.frame]; rfl

end

/-! ### Extents of the Chamber (R171) -/

@[simp] theorem slot_setSlot_same (s : State) (i : Nat) (v : Slot) : slot (setSlot s i v) i = v := smGet_smSet_same _ _ _ _

theorem slot_setSlot_other (s : State) {i j : Nat} (h : j ≠ i) (v : Slot) : slot (setSlot s i v) j = slot s j :=
  smGet_smSet_other _ h _ _ _

theorem foldl_setSlot (i : Nat) (f : Nat → Slot) (n : Nat) (s : State) :
    let t := (List.range n).foldl (fun s k => setSlot s (i + k) (f k)) s
    (∃ slots, t = { s with chamber := { s.chamber with slots } }) ∧ ∀ j, j < n → slot t (i + j) = f j := by
  induction n with
  | zero => exact ⟨⟨_, rfl⟩, fun _ h => absurd h (by omega)⟩
  | succ n ih =>
    simp only [List.range_succ, List.foldl_append, List.foldl_cons, List.foldl_nil]
    generalize (List.range n).foldl _ s = t at *
    obtain ⟨⟨slots, rfl⟩, hslot⟩ := ih
    refine ⟨⟨_, rfl⟩, fun j hj => ?_⟩
    by_cases hjn : j = n
    · subst hjn; exact slot_setSlot_same _ _ _
    · rw [slot_setSlot_other _ (by omega)]
      exact hslot j (by omega)

theorem attrSlots_pos (a : W32) : 0 < attrSlots a := by unfold attrSlots; omega

/-- An extent's first slot holds it; only slots changed. -/
theorem putExtent_effect (s : State) (i : Nat) (v : Slot) :
    (∃ slots, putExtent s i v = { s with chamber := { s.chamber with slots } }) ∧ slot (putExtent s i v) i = { v with head := i } := by
  obtain ⟨hframe, hslot⟩ := foldl_setSlot i (fun k => if k = 0 then { v with head := i } else { state := v.state, head := i })
    (attrSlots v.attr) s
  exact ⟨hframe, hslot 0 (attrSlots_pos _)⟩

/-! ### Delivery of a digest (R160, R165, R166) -/

/-- A lane whose output has been put where `DEST` says: finished, and its holder told. -/
def delivered (s : State) (l : Nat) (k : Lane) : State :=
  laneInt (setLane s l { k with state := .finished, started := false, finishing := none }) l k.holder

section
variable {s t : State} {l : Nat} {k : Lane} {w : W32}

theorem laneRun_of_quiet (hqueue : (lane t l).queue = []) (hstall : (core t (lane t l).holder).stalled = false) : laneRun t l = t := by
  have hdrain : laneDrain (lane t l).queue.length t l = t := by rw [hqueue]; rfl
  simp only [laneRun, hdrain, hstall, Bool.and_false, Bool.false_and, Bool.false_eq_true, if_false]

theorem laneOpDoneOp_of_finishing (hfin : (lane s l).finishing = some w) (hgo : laneGo s l = true) :
    laneOpDoneOp s l = laneRun (laneDeliver s l w) l := by
  simp [laneOpDoneOp, hfin, hgo]

theorem not_underrun (h : k.declared = 0 ∨ k.declared.toNat ≤ k.absorbed) :
    (decide (k.declared ≠ 0) && decide (k.absorbed < k.declared.toNat)) = false := by
  rcases h with h | h
  · simp [h]
  · simp [Nat.not_lt.mpr h]

/-- The end of a delivery that succeeds, from the state into which the output was put. -/
theorem delivered_ends {v : State} {k' : Lane} (hv : v = { s with chamber := v.chamber }) (hholder : k'.holder = k.holder)
    (hqueue : k'.queue = []) (hstall : (core s k.holder).stalled = false) :
    laneRun (delivered v l k') l = delivered v l k' ∧
      ∃ u, delivered v l k' = laneInt u l k.holder ∧ u = { s with lanes := u.lanes, chamber := v.chamber } ∧
        lane (delivered v l k') l = { k' with state := .finished, started := false, finishing := none } ∧
        ∀ i, slot (delivered v l k') i = slot v i := by
  have hrouse := roused_laneInt (setLane v l { k' with state := .finished, started := false, finishing := none }) l k'.holder
  have hlane : lane (delivered v l k') l = { k' with state := .finished, started := false, finishing := none } :=
    (hrouse.lane l).trans (lane_setLane_same _ _ _)
  refine ⟨laneRun_of_quiet (by rw [hlane]; exact hqueue) ?_, _, by rw [delivered, hholder], by rw [setLane, hv], hlane,
    fun i => hrouse.slot i⟩
  rw [hlane]
  refine (hrouse.stalled _).trans ?_
  have hcore : core (setLane v l { k' with state := .finished, started := false, finishing := none }) k'.holder = core v k'.holder := rfl
  rw [hcore, hv, hholder]
  exact hstall

theorem laneDeliver_result (hk : lane s l = k) (hdecl : k.declared = 0 ∨ k.declared.toNat ≤ k.absorbed) (hdest : fld w 0 2 = 0)
    (htaint : k.taint = false) : laneDeliver s l w = delivered s l (laneResult k (laneOutput k (fld w 8 8))) := by
  simp only [laneDeliver, hk, not_underrun hdecl, Bool.false_eq_true, if_false, hdest, htaint]
  rfl

theorem laneDeliver_hold (hk : lane s l = k) (hdecl : k.declared = 0 ∨ k.declared.toNat ≤ k.absorbed) (hdest : fld w 0 2 = 1) :
    laneDeliver s l w = delivered s l (laneHold k (laneOutput k (fld w 8 8))) := by
  simp only [laneDeliver, hk, not_underrun hdecl, Bool.false_eq_true, if_false, hdest]
  rfl

theorem laneDeliver_slot (hk : lane s l = k) (hdecl : k.declared = 0 ∨ k.declared.toNat ≤ k.absorbed) (hdest : fld w 0 2 = 2)
    (hok : deriveOkFor s l (laneOutput k (fld w 8 8)).length = true) :
    laneDeliver s l w = delivered (deriveInto s k.slot (laneOutput k (fld w 8 8))) l (laneHold k (laneOutput k (fld w 8 8))) := by
  simp only [laneDeliver, hk, not_underrun hdecl, Bool.false_eq_true, if_false, hdest, hok, if_true]
  rfl

theorem laneDeliver_compare (hk : lane s l = k) (hdecl : k.declared = 0 ∨ k.declared.toNat ≤ k.absorbed) (hdest : fld w 0 2 = 3) :
    laneDeliver s l w = delivered s l (
      let c := laneCompare k (isHubLane l) (laneOutput k (fld w 8 8))
      if c.taint then c else laneResult c (laneOutput k (fld w 8 8))) := by
  simp only [laneDeliver, hk, not_underrun hdecl, Bool.false_eq_true, if_false, hdest]
  split <;> rfl

/-- The lane after a refused delivery. -/
def refused (k : Lane) : Lane := { k with started := false, state := .error, err := lTaint }

/-- The refused lane, its holder's violation on the way. -/
def refusedLane (s : State) (l : Nat) (k : Lane) : State :=
  setLane (setLane (violate s k.holder vSArea (laneAddr l 0x100)) l { k with started := false }) l (refused k)

/-- A delivery that fails with a code. -/
def deliveryFailed (s : State) (l code : Nat) : State :=
  let t := laneError (setLane s l { lane s l with started := false }) l code
  setLane t l { lane t l with finishing := none }

theorem laneDeliver_taint (hk : lane s l = k) (hdecl : k.declared = 0 ∨ k.declared.toNat ≤ k.absorbed) (hdest : fld w 0 2 = 0)
    (htaint : k.taint = true) :
    laneDeliver s l w = deliveryFailed (violate s k.holder vSArea (laneAddr l 0x100)) l lTaint := by
  simp only [laneDeliver, hk, not_underrun hdecl, Bool.false_eq_true, if_false, hdest]
  exact if_pos htaint

/-- A tainted delivery to `RESULT` is refused: the lane in `ERROR`, nothing delivered. -/
theorem deliveryFailed_taint (hk : lane s l = k) (hfin : k.finishing.isSome = true) :
    deliveryFailed (violate s k.holder vSArea (laneAddr l 0x100)) l lTaint =
      setLane (laneInt (refusedLane s l k) l k.holder) l { refused k with finishing := none } := by
  subst hk
  have hlane : lane (laneInt (refusedLane s l (lane s l)) l (lane s l).holder) l = refused (lane s l) :=
    ((roused_laneInt _ _ _).lane l).trans (lane_setLane_same _ _ _)
  have herror : laneError (setLane (violate s (lane s l).holder vSArea (laneAddr l 0x100)) l
      { lane (violate s (lane s l).holder vSArea (laneAddr l 0x100)) l with started := false }) l lTaint =
      laneInt (refusedLane s l (lane s l)) l (lane s l).holder := by
    have hviolate : lane (violate s (lane s l).holder vSArea (laneAddr l 0x100)) l = lane s l := rfl
    simp only [laneError, lane_setLane_same, hviolate, hfin, decide_true, Bool.true_and, Bool.true_or, if_true]
    rfl
  simp only [deliveryFailed, herror, hlane]

end

theorem deriveInto_effect {s : State} {i : Nat} (out : List Byte) :
    (∃ slots, deriveInto s i out = { s with chamber := { s.chamber with slots } }) ∧
      (slot (deriveInto s i out) i).state = .loaded ∧ (slot (deriveInto s i out) i).attr = (slot s i).attr ∧
      (slot (deriveInto s i out) i).key = fitBytes (attrLen (slot s i).attr) out := by
  obtain ⟨hframe, hslot⟩ := putExtent_effect s i { slot s i with state := .loaded, key := fitBytes (attrLen (slot s i).attr) out }
  exact ⟨hframe, by rw [deriveInto, hslot], by rw [deriveInto, hslot], by rw [deriveInto, hslot]⟩

theorem laneCompare_eq (k : Lane) (hub : Bool) (out : List Byte) :
    laneCompare k hub out =
      { k with matchP := decide (out = (List.range out.length).map fun i => smGet k.expected i 0),
               matchN := hub && decide (out = ((List.range out.length).map fun i => smGet k.expected i 0).map fun b => 0xFF ^^^ b) } := by
  simp only [laneCompare, imageBytes, xorPad, BitVec.xor_comm]
  rfl

/-- Settles O25. -/
theorem laneDeliversItsDigest : Obligations.LaneDeliversItsDigest := by
  unfold Obligations.LaneDeliversItsDigest
  intro s m l outLen dest w
  refine ⟨fun h hstart hlo hhi => ?_, fun hfin hgo hbusy hqueue hstall hdecl => ?_⟩
  · have hw := wordFields_laneWord (op := 4) (alg := 0) (pad := 0) (block := 0) (by omega) (by omega) (by omega) outLen.isLt
      (by omega) dest.isLt
    exact laneCmd_did h hw (by omega) (.inr (.inr (.inr hstart))) (fun u hu => ⟨_, laneFinish_of_len hu.did hw.outLen hlo hhi,
      laneDid_setLane u l _⟩) h.empty
  · have hexec : exec (.laneOpDone l) s = .next (laneRun (laneDeliver s l w) l) :=
      congrArg Host.Outcome.next (laneOpDoneOp_of_finishing hfin hgo)
    rw [hexec]
    refine ⟨fun hdest htaint => ?_, fun hdest htaint => ?_, fun hdest => ?_, fun hdest hok => ?_, fun hdest => ?_⟩
    · obtain ⟨hquiet, u, hint, hframe, hlane, -⟩ := delivered_ends (v := s) (l := l)
        (k' := laneResult (lane s l) (laneOutput (lane s l) (fld w 8 8))) rfl rfl hqueue hstall
      rw [laneDeliver_result rfl hdecl hdest htaint, hquiet]
      exact ⟨_, u, rfl, hint, hframe, hlane, fun h => nomatch h⟩
    · have hrouse := roused_laneInt (refusedLane s l (lane s l)) l (lane s l).holder
      have hlane := lane_setLane_same (laneInt (refusedLane s l (lane s l)) l (lane s l).holder) l
        { refused (lane s l) with finishing := none }
      rw [laneDeliver_taint rfl hdecl hdest htaint, deliveryFailed_taint rfl (by rw [hfin]; rfl), laneRun_of_quiet (by rw [hlane]; exact hqueue)
        (by rw [hlane]; exact (hrouse.stalled _).trans hstall)]
      refine ⟨_, rfl, by rw [hlane]; rfl, by rw [hlane]; rfl, by rw [hlane]; rfl, ?_⟩
      exact congrArg Firewall.pending hrouse.fw
    · obtain ⟨hquiet, u, hint, hframe, hlane, -⟩ := delivered_ends (v := s) (l := l)
        (k' := laneHold (lane s l) (laneOutput (lane s l) (fld w 8 8))) rfl rfl hqueue hstall
      rw [laneDeliver_hold rfl hdecl hdest, hquiet]
      exact ⟨_, u, rfl, hint, hframe, hlane, fun h => nomatch h⟩
    · obtain ⟨⟨slots, hslots⟩, hstate, hattr, hkey⟩ := deriveInto_effect (s := s) (i := (lane s l).slot)
        (laneOutput (lane s l) (fld w 8 8))
      obtain ⟨hquiet, u, hint, hframe, hlane, hslot⟩ := delivered_ends (s := s)
        (v := deriveInto s (lane s l).slot (laneOutput (lane s l) (fld w 8 8))) (l := l)
        (k' := laneHold (lane s l) (laneOutput (lane s l) (fld w 8 8))) (by rw [hslots]) rfl hqueue hstall
      rw [laneDeliver_slot rfl hdecl hdest hok, hquiet]
      refine ⟨_, u, rfl, hint, ?_, hlane, fun _ => ?_⟩
      · rw [hframe]; rfl
      · rw [hslot]; exact ⟨hstate, hattr, hkey⟩
    · obtain ⟨hquiet, u, hint, hframe, hlane, -⟩ := delivered_ends (v := s) (l := l)
        (k' := let c := laneCompare (lane s l) (isHubLane l) (laneOutput (lane s l) (fld w 8 8))
          if c.taint then c else laneResult c (laneOutput (lane s l) (fld w 8 8))) rfl (by dsimp only; split <;> rfl)
        (by dsimp only; split <;> exact hqueue) hstall
      rw [laneDeliver_compare rfl hdecl hdest, hquiet]
      refine ⟨_, u, rfl, hint, hframe, hlane.trans ?_, fun h => nomatch h⟩
      rw [laneCompare_eq]
      rfl

/-! ### Claims, grants, releases and wipes of a lane (R155 to R157, R167) -/

section
variable {s v : State} {m l : Nat} {c : Claim}

/-- A claim of a master that holds and awaits no lane of the group, for a lane that nobody holds. -/
theorem laneClaimOp_free (huser : laneUser m l = true) (hfree : (lane s l).state = .free)
    (hnew : ∀ j ∈ laneGroup l, holdsLane s m j = false ∧ ∀ c ∈ (lane s j).claims, c.master ≠ m) :
    laneClaimOp s m l = setLane s l
      { lane s l with claims := (lane s l).claims ++ [{ master := m, cls := classOf s m, sign := signOf s m }] } := by
  have hnone : ((laneGroup l).any fun j => holdsLane s m j || (lane s j).claims.any fun c => c.master = m) = false := by
    simpa using hnew
  have hheld : (lane s l).state.held = false := by rw [hfree]; rfl
  simp only [laneClaimOp, huser, Bool.not_true, Bool.false_eq_true, if_false, hnone, yieldCheck, lane_setLane_same, hheld,
    Bool.false_and]

theorem laneClaim_write (huser : laneUser m l = true) : laneWrite s m l 0x000 4 1 = laneClaimOp s m l := by
  simp [laneWrite, huser]

theorem laneGrantOp_of_pick (hfree : (lane s l).state = .free) (hon : laneOn s l = true)
    (hpick : pickClaim s (lane s l).claims (lane s l).rotate = (some c, v)) : laneGrantOp s l = grantLane v l c := by
  simp only [laneGrantOp, hfree, hon, decide_true, Bool.and_self, if_true, hpick]

/-- A lane that a claim has been granted. -/
def grantedLane (k : Lane) (c : Claim) : Lane :=
  { laneKept k with state := .ready, holder := c.master, cls := c.cls, sign := c.sign, rotate := c.master + 1,
                    claims := k.claims.filter fun d => d.master ≠ c.master }

theorem lane_grantLane (s : State) (l : Nat) (c : Claim) : lane (grantLane s l c) l = grantedLane (lane s l) c :=
  ((roused_laneInt (setLane s l (grantedLane (lane s l) c)) l c.master).lane l).trans (lane_setLane_same _ _ _)

/-- A hold that ends with nothing queued. -/
theorem endLane_effect (hqueue : (lane s l).queue = []) :
    endLane s l = { s with lanes := (endLane s l).lanes, gov := (endLane s l).gov } ∧
      lane (endLane s l) l = { laneKept (lane s l) with
        state := .wiping, holder := (lane s l).holder, cls := (lane s l).cls, sign := (lane s l).sign,
        admitted := (lane s l).admitted } := by
  have hgov := onlyGov_withdraw s (.lane l)
  have hlane : lane (withdraw s (.lane l)) l = lane s l := by rw [hgov]; rfl
  have hend : endLane s l = setLane (withdraw s (.lane l)) l { laneKept (lane s l) with
      state := .wiping, holder := (lane s l).holder, cls := (lane s l).cls, sign := (lane s l).sign,
      admitted := (lane s l).admitted } := by
    simp only [endLane, hlane, hqueue, if_true]
  rw [hend, lane_setLane_same]
  exact ⟨by rw [setLane, hgov], rfl⟩

theorem laneRelease_write (h : LaneMine s m l) : laneWrite s m l 0x008 4 1 = endLane s l := by
  simp [laneWrite, h.user, h.holds]

theorem laneWipeDoneOp_effect (h : (lane s l).state = .wiping) :
    laneWipeDoneOp s l = { s with lanes := (laneWipeDoneOp s l).lanes, gov := (laneWipeDoneOp s l).gov } ∧
      lane (laneWipeDoneOp s l) l = laneKept (lane s l) := by
  have hgov : OnlyGov s (if (lane s l).admitted then giveBack s 2 ((lane s l).cls = 0) else s) := by
    split
    · exact onlyGov_giveBack s _ _
    · rfl
  have hdone : laneWipeDoneOp s l =
      setLane (if (lane s l).admitted then giveBack s 2 ((lane s l).cls = 0) else s) l (laneKept (lane s l)) := if_pos h
  rw [hdone, lane_setLane_same]
  exact ⟨by rw [setLane, hgov], rfl⟩

end

/-- Settles O26. -/
theorem lanesAreHeldAndWiped : Obligations.LanesAreHeldAndWiped := by
  unfold Obligations.LanesAreHeldAndWiped
  intro s v m l c
  refine ⟨fun huser hon hawake hfree hnew => ?_, fun hpick hfree hon => ?_, fun h => ?_, fun hwipe => ?_⟩
  · have hexec : exec (.laneClaim m l) s = .next _ := congrArg Host.Outcome.next
      ((laneAccess_awake hon hawake 0x000 4 1).trans ((laneClaim_write huser).trans (laneClaimOp_free huser hfree hnew)))
    exact ⟨_, hexec, laneDid_setLane s l _⟩
  · obtain ⟨hcls, hv⟩ := pickClaim_spec hpick
    have hlane : lane v l = lane s l := by rcases hv with rfl | rfl <;> rfl
    have hgrant := lane_grantLane v l c
    rw [hlane] at hgrant
    exact ⟨hcls, hv, _, _, congrArg Host.Outcome.next (laneGrantOp_of_pick hfree hon hpick), rfl, rfl, hgrant⟩
  · have hexec : exec (.laneRelease m l) s = .next _ := congrArg Host.Outcome.next
      ((laneAccess_awake h.powered h.awake 0x008 4 1).trans (laneRelease_write h))
    exact ⟨_, hexec, endLane_effect h.empty⟩
  · exact ⟨_, rfl, laneWipeDoneOp_effect hwipe⟩

end Sys2Proof.Machine
end

section
/-! SUPPORT. Records, and the Chamber: slots, the device secret, keys that move. -/

namespace Sys2Proof.Machine

/-! ### Records (R455, R457): one raised by an island leaves all but Flowstone and its drop counters -/

/-- Only Flowstone changed, and of the registers only its two drop counters. -/
structure Logged (s t : State) : Prop where
  frame : t = { s with regs := t.regs, fs := t.fs }
  regs : ∀ a, a ≠ aFs 0x02C → a ≠ aFs 0x00C → reg t a = reg s a

section
variable {s t u : State}

theorem logged_refl (s : State) : Logged s s := ⟨rfl, fun _ _ _ => rfl⟩

theorem Logged.trans (h : Logged s t) (h' : Logged t u) : Logged s u :=
  ⟨by rw [h'.frame, h.frame], fun a h1 h2 => (h'.regs a h1 h2).trans (h.regs a h1 h2)⟩

theorem reg_fs_congr {s t : State} (h : t.regs = s.regs) (a : Nat) : reg t a = reg s a := by rw [reg, h, reg]

theorem logged_countDrop (s : State) : Logged s (countDrop s) := by
  refine ⟨rfl, fun a h1 h2 => ?_⟩
  unfold countDrop bump
  refine reg_setReg_other s ?_ _
  split
  · exact h1
  · exact h2

theorem logged_raiseRecord (s : State) (island source rtype : Nat) (payload : List W32) :
    Logged s (raiseRecord s island source rtype payload) := by
  unfold raiseRecord
  split
  · exact ⟨rfl, fun _ _ _ => rfl⟩
  · split
    · exact ⟨rfl, (logged_countDrop s).regs⟩
    · exact ⟨rfl, (logged_countDrop s).regs⟩

/-- A record whose type is not directed to PF0. -/
theorem logged_emit (s : State) (island source : Nat) {rtype : Nat} (payload : List W32) (h : rtype ∉ diagTypes) :
    Logged s (emit s island source rtype payload) := by
  have hplain : diagRecord s source rtype payload = s := if_neg (by simpa using h)
  rw [emit, hplain]
  exact logged_raiseRecord s _ _ _ _

end

/-! ### The Chamber's commands (R170 to R177) -/

section
variable {s t : State} {m i : Nat}

/-- A command that the Chamber takes from a master whose bank is not busy, its arguments written. -/
theorem chAccess_open (h : ChamberOpen s m) (f : State → State) : chAccess s m f = f s := by
  obtain ⟨hdom, hcore, -⟩ := h
  simp [chAccess, guarded, hdom, hcore]

/-- The bank with its arguments in and `BUSY` shown. -/
def chTaken (s : State) (m : Nat) (b : ChBank) : State := setChBank (setChBank s m b) m { b with busy := true }

theorem chStart_of_idle {b : ChBank} (h : b.busy = false) (f : State → State) : chStart (setChBank s m b) m f = f (chTaken s m b) := by
  rw [chStart, chBank_setChBank_same, h]
  rfl

theorem chBank_chTaken (s : State) (m : Nat) (b : ChBank) : chBank (chTaken s m b) m = { b with busy := true } :=
  chBank_setChBank_same _ _ _

theorem chTaken_frame (s : State) (m : Nat) (b : ChBank) :
    ∃ banks, chTaken s m b = { s with chamber := { s.chamber with banks } } := ⟨_, rfl⟩

theorem chResult_ok (s : State) (m : Nat) (result resultHi : W32) :
    chResult s m cOk result resultHi = setChBank s m { chBank s m with code := cOk, result, resultHi } := rfl

end

/-! ### Slot commands (R170 to R175) -/

section
variable {s t : State} {m i : Nat} {a : W32}

theorem slot_setChBank (s : State) (m i : Nat) (b : ChBank) : slot (setChBank s m b) i = slot s i := rfl

/-- A command of a master whose bank takes it, its arguments in `b`. -/
theorem chAccess_run (h : ChamberOpen s m) {b : ChBank} (hb : b.busy = (chBank s m).busy) {f g : State → State}
    (hg : g s = chStart (setChBank s m b) m f) : chAccess s m g = f (chTaken s m b) :=
  (chAccess_open h g).trans (hg.trans (chStart_of_idle (hb.trans h.2.2) f))

theorem chBank_of_slots {s t : State} (h : ∃ slots, t = { s with chamber := { s.chamber with slots } }) (m : Nat) :
    chBank t m = chBank s m := by
  obtain ⟨slots, rfl⟩ := h
  rfl

theorem wipeExtent_effect (s : State) (i : Nat) :
    (∃ slots, wipeExtent s i = { s with chamber := { s.chamber with slots } }) ∧ slot (wipeExtent s i) i = {} := by
  obtain ⟨hframe, hslot⟩ := foldl_setSlot i (fun _ => {}) (attrSlots (slot s i).attr) s
  exact ⟨hframe, hslot 0 (attrSlots_pos _)⟩

theorem slotAlloc_effect {b : ChBank} (hok : attrOk s m a = true) (hrun : findRun s (attrSlots a) = some i) :
    ∃ t, slotAllocOp (chTaken s m b) m a = t ∧ t = { s with chamber := t.chamber } ∧
      chBank t m = { b with busy := true, code := 0, result := w32 i, resultHi := 0 } ∧
      slot t i = { state := .reserved, attr := a, head := i, allocBy := m, allocJob := jobNumber s m } := by
  obtain ⟨⟨slots, hframe⟩, hslot⟩ := putExtent_effect (chTaken s m b) i
    { state := .reserved, attr := a, allocBy := m, allocJob := jobNumber s m }
  have hok' : attrOk (chTaken s m b) m a = true := hok
  have hrun' : findRun (chTaken s m b) (attrSlots a) = some i := hrun
  have halloc : slotAllocOp (chTaken s m b) m a = chResult (putExtent (chTaken s m b) i
      { state := .reserved, attr := a, allocBy := m, allocJob := jobNumber s m }) m cOk (w32 i) 0 := by
    simp only [slotAllocOp, hok', hrun', Bool.not_true, Bool.false_eq_true, if_false]
    rfl
  have hbank := chBank_of_slots ⟨slots, hframe⟩ m
  rw [chBank_chTaken] at hbank
  rw [halloc, chResult_ok, hbank]
  exact ⟨_, rfl, by rw [hframe]; rfl, chBank_setChBank_same _ _ _, hslot⟩

theorem slotFree_effect {b : ChBank} (hi : fld a 0 16 = i) (hhead : (slot s i).head = i) (hstate : (slot s i).state ≠ .empty)
    (huse : mayUse s m i false = true) :
    ∃ t, slotFreeOp (chTaken s m b) m a = t ∧ t = { s with chamber := t.chamber } ∧ slot t i = {} ∧ (chBank t m).code = 0 := by
  obtain ⟨⟨slots, hframe⟩, hslot⟩ := wipeExtent_effect (chTaken s m b) i
  have hfirst : isHead (chTaken s m b) i = true := by simp [isHead, show slot (chTaken s m b) i = slot s i from rfl, hhead]
  have hstate' : (slot (chTaken s m b) i).state ≠ .empty := hstate
  have huse' : mayUse (chTaken s m b) m i false = true := huse
  have hfree : slotFreeOp (chTaken s m b) m a = chCode (wipeExtent (chTaken s m b) i) m cOk := by
    simp only [slotFreeOp, hi, hfirst, hstate', huse', Bool.not_true, Bool.false_eq_true, if_false]
  rw [hfree, chCode_ok]
  exact ⟨_, rfl, by rw [hframe]; rfl, hslot, by rw [chBank_setChBank_same]; rfl⟩

theorem slotInfo_effect {b : ChBank} (hi : fld a 0 16 = i) (hhead : isHead s i = true) :
    slotInfoOp (chTaken s m b) m a = setChBank (chTaken s m b) m
      { b with busy := true, code := 0, result := (slot s i).attr, resultHi := w32 (slot s i).state.num } := by
  have hhead' : isHead (chTaken s m b) i = true := hhead
  simp only [slotInfoOp, hi, hhead', Bool.not_true, Bool.false_eq_true, if_false, chResult_ok, chBank_chTaken]
  rfl

theorem exec_slotAlloc (h : ChamberOpen s m) (a : W32) :
    exec (.slotAlloc m a) s = .next (slotAllocOp (chTaken s m { chBank s m with arg0 := a }) m a) :=
  congrArg Host.Outcome.next (chAccess_run (b := { chBank s m with arg0 := a }) (f := fun s => slotAllocOp s m a) h rfl rfl)

theorem exec_slotFree (h : ChamberOpen s m) (a : W32) :
    exec (.slotFree m a) s = .next (slotFreeOp (chTaken s m { chBank s m with arg0 := a }) m a) :=
  congrArg Host.Outcome.next (chAccess_run (b := { chBank s m with arg0 := a }) (f := fun s => slotFreeOp s m a) h rfl rfl)

theorem exec_slotInfo (h : ChamberOpen s m) (a : W32) :
    exec (.slotInfo m a) s = .next (slotInfoOp (chTaken s m { chBank s m with arg0 := a }) m a) :=
  congrArg Host.Outcome.next (chAccess_run (b := { chBank s m with arg0 := a }) (f := fun s => slotInfoOp s m a) h rfl rfl)

theorem fld_w32_slot (h : i < 65536) : fld (w32 i) 0 16 = i := by
  rw [fld_w32 (by omega)]; norm_num; omega

theorem chamberDoneOp_of_still (h : ∀ x ∈ s.chamber.xfers, x.master ≠ m) :
    chamberDoneOp s m = setChBank s m { chBank s m with busy := false } := if_neg (by simpa using h)

/-! ### The device secret in slot 0 (R186, R196, R205) -/

theorem logged_otpLog (s : State) (source a r marg : Nat) : Logged s (otpLog s source a r marg) := by
  have hfirst : Logged s (if marg ≠ 0 then emit s islOtp source 0x040 (w32 a :: words64 marg) else s) := by
    split
    · exact logged_emit s _ _ _ (by decide)
    · exact logged_refl s
  unfold otpLog
  simp only
  split
  · exact hfirst.trans (logged_emit _ _ _ _ (by decide))
  · exact hfirst

theorem logged_otpLogWords (s : State) (source : Nat) (as : List Nat) : Logged s (otpLogWords s source as) := by
  unfold otpLogWords
  induction as generalizing s with
  | nil => exact logged_refl s
  | cons a as ih => exact (logged_otpLog s _ _ _ _).trans (ih _)

theorem reg_aOtp_logged (h : Logged s t) {off : Nat} (hoff : off < 0x10000) : reg t (aOtp off) = reg s (aOtp off) :=
  h.regs _ (by simp only [aOtp, aFs]; omega) (by simp only [aOtp, aFs]; omega)

/-- The array's contents as reads see them. -/
def SameArray (s t : State) : Prop :=
  t.otp.cells = s.otp.cells ∧ t.otp.marginal = s.otp.marginal ∧ t.otp.redirect = s.otp.redirect

theorem SameArray.otpReadWord (h : SameArray s t) (a : Nat) : otpReadWord t a = otpReadWord s a := by
  obtain ⟨hcells, hmarg, hred⟩ := h
  simp only [Machine.otpReadWord, otpCell, cellOnes, cellMarg, hcells, hmarg, hred]

theorem SameArray.deviceSecret (h : SameArray s t) (hkey : reg t (aOtp 0x11C) = reg s (aOtp 0x11C)) :
    deviceSecret t = deviceSecret s := by
  have hdis : keyDisabled t = keyDisabled s := congrArg (fun v => decide (fld v 0 3 ≠ 0)) hkey
  have hdata : (List.range 8).map (fun i => otpData t (192 + i)) = (List.range 8).map fun i => otpData s (192 + i) :=
    List.map_congr_left fun i hi => by
      have hi8 : ¬ 512 ≤ 192 + i := by have := List.mem_range.mp hi; omega
      simp only [otpData, hi8, decide_false, Bool.false_and, Bool.false_eq_true, if_false, h.otpReadWord]
  rw [Machine.deviceSecret, hdis, hdata, Machine.deviceSecret]

/-- The load of slot 0 in an idle controller: the device secret, `BUSY` given back. -/
theorem slot0LoadOp_effect (hdom : domOn s 26 = true) (hwait : s.otp.slot0Waiting = true) (hidle : s.otp.command = none) :
    ∃ t, slot0LoadOp s = t ∧
      t = { s with otp := { s.otp with slot0Waiting := false }, regs := t.regs, chamber := t.chamber, fs := t.fs } ∧
      otpBusy t = false ∧ slot t 0 = { state := .loaded, attr := mkAttr 4 hubA 2 useDerive 1, head := 0, key := deviceSecret s } := by
  have hload : slot0LoadOp s =
      let u := otpLogWords (showOtpBusy { s with otp := { s.otp with slot0Waiting := false } }) 0x431
        (secretWords (showOtpBusy { s with otp := { s.otp with slot0Waiting := false } }))
      setSlot u 0 { state := .loaded, attr := mkAttr 4 hubA 2 useDerive 1, head := 0, key := deviceSecret u } :=
    if_pos (by simp [hdom, hwait, hidle])
  have hlogged := logged_otpLogWords (showOtpBusy { s with otp := { s.otp with slot0Waiting := false } }) 0x431
    (secretWords (showOtpBusy { s with otp := { s.otp with slot0Waiting := false } }))
  have hbusy : otpBusy (showOtpBusy { s with otp := { s.otp with slot0Waiting := false } }) = false := by
    rw [otpBusy, showOtpBusy, regB_setRegB_same _ _ _ (by omega), hidle]; rfl
  have hkey : reg (showOtpBusy { s with otp := { s.otp with slot0Waiting := false } }) (aOtp 0x11C) = reg s (aOtp 0x11C) :=
    reg_setRegB_other _ (by simp only [aOtp]; omega) _
  have hframe : showOtpBusy { s with otp := { s.otp with slot0Waiting := false } } =
      { s with otp := { s.otp with slot0Waiting := false },
               regs := (showOtpBusy { s with otp := { s.otp with slot0Waiting := false } }).regs } := rfl
  generalize showOtpBusy { s with otp := { s.otp with slot0Waiting := false } } = v at *
  generalize otpLogWords v 0x431 (secretWords v) = u at *
  have hotp : u.otp = { s.otp with slot0Waiting := false } := by rw [hlogged.frame, hframe]
  have hsecret : deviceSecret u = deviceSecret s := SameArray.deviceSecret
    ⟨by rw [hotp], by rw [hotp], by rw [hotp]⟩ ((reg_aOtp_logged hlogged (by omega)).trans hkey)
  dsimp only at hload
  rw [hload, hsecret]
  refine ⟨_, rfl, ?_, ?_, slot_setSlot_same _ _ _⟩
  · rw [setSlot, hlogged.frame, hframe]
  · exact (congrArg (bitOf · 31) (reg_aOtp_logged hlogged (off := 0x010) (by omega))).trans hbusy

end

theorem attrUsage_slot0 : attrUsage (mkAttr 4 hubA 2 useDerive 1) = useDerive := by decide

/-- Settles O27. -/
theorem chamberSlotsComplete : Obligations.ChamberSlotsComplete := by
  unfold Obligations.ChamberSlotsComplete
  intro s m i a
  refine ⟨fun h hok hrun => ?_, fun h hi hhead hstate huse => ?_, fun h hi hhead => ?_, fun hstill => ?_, fun hdom hwait hidle => ?_⟩
  · obtain ⟨t, halloc, heffect⟩ := slotAlloc_effect (b := { chBank s m with arg0 := a }) hok hrun
    exact ⟨t, (exec_slotAlloc h _).trans (congrArg Host.Outcome.next halloc), heffect⟩
  · obtain ⟨t, hfree, heffect⟩ := slotFree_effect (b := { chBank s m with arg0 := w32 i }) (fld_w32_slot hi) hhead hstate huse
    exact ⟨t, (exec_slotFree h _).trans (congrArg Host.Outcome.next hfree), heffect⟩
  · have hinfo := slotInfo_effect (m := m) (b := { chBank s m with arg0 := w32 i }) (fld_w32_slot hi) hhead
    refine ⟨_, (exec_slotInfo h _).trans (congrArg Host.Outcome.next hinfo), rfl, ?_, rfl⟩
    rw [chBank_setChBank_same]
    cases (slot s i).state <;> rfl
  · exact ⟨_, congrArg Host.Outcome.next (chamberDoneOp_of_still hstill), rfl, chBank_setChBank_same _ _ _⟩
  · obtain ⟨t, hload, hframe, hbusy, hslot⟩ := slot0LoadOp_effect hdom hwait hidle
    exact ⟨t, congrArg Host.Outcome.next hload, hframe, hbusy, by rw [hslot], by rw [hslot], by rw [hslot]; exact attrUsage_slot0⟩

/-! ### Keys that move: transfers to a Crank and unwrapping (R131, R172, R174 to R177) -/

section
variable {s t : State} {m i : Nat} {a : W32}

theorem exec_xfer (h : ChamberOpen s m) (a b : W32) :
    exec (.xfer m a b) s = .next (xferOp (chTaken s m { chBank s m with arg0 := a, arg1 := b }) m a b) :=
  congrArg Host.Outcome.next (chAccess_run (b := { chBank s m with arg0 := a, arg1 := b }) (f := fun s => xferOp s m a b) h rfl rfl)

theorem exec_unwrapBegin (h : ChamberOpen s m) (a b c : W32) :
    exec (.unwrapBegin m a b c) s =
      .next (unwrapBeginOp (chTaken s m { chBank s m with arg0 := a, arg1 := b, arg2 := c }) m a b c) :=
  congrArg Host.Outcome.next (chAccess_run (b := { chBank s m with arg0 := a, arg1 := b, arg2 := c })
    (f := fun s => unwrapBeginOp s m a b c) h rfl rfl)

/-- The bank shows `BUSY`; its arguments are what they were. -/
def chBusy (s : State) (m : Nat) : State := setChBank s m { chBank s m with busy := true }

theorem exec_unwrapEnd (h : ChamberOpen s m) : exec (.unwrapEnd m) s = .next (unwrapEndOp (chBusy s m) m) := by
  have hrun : chStart s m (fun s => unwrapEndOp s m) = unwrapEndOp (chBusy s m) m := if_neg (by simp [h.2.2])
  exact congrArg Host.Outcome.next ((chAccess_open h _).trans hrun)

theorem spoke_not_gk (h : isSpoke m = true) : isGk m = false := by
  simp only [isSpoke, isGk, decide_eq_true_eq, Bool.and_eq_false_iff, decide_eq_false_iff_not] at h ⊢
  omega

/-- A Spoke's transfer that passes the checks of a use. -/
theorem xferOp_of_use {b : W32} (hspoke : isSpoke m = true) (hwheel : fld b 16 5 = 0) (hi : fld a 0 16 = i) (h2 : i ≠ 2)
    (huse : useCheck s m i useCrank (romWrite s m) = 0) (hfits : 8 * fld b 0 11 + (slot s i).key.length ≤ 16384) :
    xferOp s m a b = { s with chamber := { s.chamber with xfers := s.chamber.xfers ++
      [{ master := m, wheel := m / 16, ctx := b2n (bitOf b 11), index := fld b 0 11, key := (slot s i).key,
         job := jobNumber s m }] } } := by
  simp [xferOp, hspoke, hwheel, hi, h2, huse, Nat.not_lt.mpr hfits, spoke_not_gk hspoke]

theorem xferOp_of_violation {b : W32} (hspoke : isSpoke m = true) (hwheel : fld b 16 5 = 0) (hi : fld a 0 16 = i)
    (huse : useCheck s m i useCrank (romWrite s m) = cUseViolation) : xferOp s m a b =
      violate (setChBank s m { chBank s m with code := cUseViolation }) m vChamber (aCh 0) := by
  have hviolation : chViolation s m = violate (setChBank s m { chBank s m with code := cUseViolation }) m vChamber (aCh 0) := rfl
  rw [← hviolation]
  simp only [xferOp, hspoke, hwheel, hi, huse, spoke_not_gk hspoke]
  rfl

theorem unwrapBeginOp_of_use {b c : W32} (hi : fld a 0 16 = i) (hok : attrOk s m b = true) (hlo : 16 ≤ c.toNat) (hhi : c.toNat ≤ 4104)
    (hmod : c.toNat % 8 = 0) (huse : useCheck s m i useWrap (romWrite s m) = 0) (hroom : s.chamber.unwraps.length < 4)
    (hfree : ∀ x ∈ s.chamber.unwraps, x.master ≠ m) :
    unwrapBeginOp s m a b c = setChBank { s with chamber := { s.chamber with unwraps := s.chamber.unwraps ++
      [{ master := m, kek := i, attr := b, length := c.toNat, fed := [], job := jobNumber s m }] } } m
      { chBank s m with code := cOk } := by
  have hgood : (!attrOk s m b || decide (c.toNat < 16) || decide (4104 < c.toNat) || decide (c.toNat % 8 ≠ 0)) = false := by
    simp [hok, hmod, Nat.not_lt.mpr hlo, Nat.not_lt.mpr hhi]
  have hopen : (decide (4 ≤ s.chamber.unwraps.length) || s.chamber.unwraps.any fun u => u.master = m) = false := by
    simpa [Nat.not_le.mpr hroom] using hfree
  simp only [unwrapBeginOp, hgood, Bool.false_eq_true, if_false, hi, huse, hopen, chCode_ok]
  rfl

theorem chFeedOp_of_one {u : UnwrapBuf} (hone : s.chamber.unwraps = [u]) (hm : u.master = m) (hroom : u.fed.length + 4 ≤ 4104)
    (v : W32) : chFeedOp s m v = { s with chamber := { s.chamber with unwraps := [{ u with fed := u.fed ++ leBytes 4 v.toNat }] } } := by
  simp [chFeedOp, hone, hm]
  intro hfull
  omega

/-- The end of an unwrapping that gives a key of the announced length: a loaded extent, the buffer given back. -/
theorem unwrapEndOp_effect {u : UnwrapBuf} {p : List Byte} (hone : s.chamber.unwraps = [u]) (hm : u.master = m)
    (hlen : u.fed.length = u.length) (hkek : (slot s u.kek).state = .loaded)
    (hkey : kwpUnwrap (fitBytes 32 (slot s u.kek).key) u.fed = some p) (hp : p.length = attrLen u.attr)
    (hrun : findRun s (attrSlots u.attr) = some i) :
    ∃ t, unwrapEndOp s m = t ∧ t = { s with chamber := t.chamber } ∧ t.chamber.unwraps = [] ∧
      slot t i = { state := .loaded, attr := u.attr, key := p, head := i, allocBy := m, allocJob := jobNumber s m } ∧
      (chBank t m).result = w32 i := by
  obtain ⟨⟨slots, hframe⟩, hslot⟩ := putExtent_effect (dropUnwrap s m) i
    { state := .loaded, attr := u.attr, key := p, allocBy := m, allocJob := jobNumber s m }
  have hfind : s.chamber.unwraps.find? (fun u => u.master = m) = some u := by simp [hone, hm]
  have hrun' : findRun (dropUnwrap s m) (attrSlots u.attr) = some i := hrun
  have hend : unwrapEndOp s m = chResult (putExtent (dropUnwrap s m) i
      { state := .loaded, attr := u.attr, key := p, allocBy := m, allocJob := jobNumber s m }) m cOk (w32 i) 0 := by
    simp only [unwrapEndOp, hfind, hkek, ne_eq, not_true_eq_false, if_false, hlen, if_true, hkey, hp, hrun']
    rfl
  have hdrop : (dropUnwrap s m).chamber.unwraps = [] := by simp [dropUnwrap, hone, hm]
  rw [hend, chResult_ok]
  refine ⟨_, rfl, by rw [hframe]; rfl, ?_, hslot, by rw [chBank_setChBank_same]⟩
  rw [setChBank, hframe]
  exact hdrop

end

/-- Settles O28. -/
theorem chamberKeysMoveByRight : Obligations.ChamberKeysMoveByRight := by
  unfold Obligations.ChamberKeysMoveByRight
  intro s m i arg1 arg2 v u p h
  refine ⟨fun hspoke hwheel hi h2 huse hfits => ?_, fun hspoke hwheel hi huse => ?_,
    fun hi hok hlo hhi hmod huse hroom hfree => ?_, fun hone hm hroom => ?_, fun hone hm hlen hkek hkey hp hrun => ?_⟩
  · have hop := xferOp_of_use (s := chTaken s m { chBank s m with arg0 := w32 i, arg1 }) hspoke hwheel (fld_w32_slot hi) h2 huse hfits
    exact ⟨_, (exec_xfer h _ _).trans (congrArg Host.Outcome.next hop), rfl, rfl, rfl⟩
  · have hop := xferOp_of_violation (s := chTaken s m { chBank s m with arg0 := w32 i, arg1 }) hspoke hwheel (fld_w32_slot hi) huse
    exact ⟨_, (exec_xfer h _ _).trans (congrArg Host.Outcome.next hop), rfl, rfl⟩
  · have hop := unwrapBeginOp_of_use (s := chTaken s m { chBank s m with arg0 := w32 i, arg1, arg2 }) (fld_w32_slot hi) hok hlo hhi
      hmod huse hroom hfree
    exact ⟨_, (exec_unwrapBegin h _ _ _).trans (congrArg Host.Outcome.next hop), rfl, rfl, rfl⟩
  · have hexec : exec (.chFeed m v) s = .next _ :=
      congrArg Host.Outcome.next ((chAccess_open h _).trans (chFeedOp_of_one hone hm hroom v))
    exact ⟨_, hexec, rfl, rfl⟩
  · obtain ⟨t, hend, hframe, hunwraps, hslot, hresult⟩ := unwrapEndOp_effect (s := chBusy s m) (i := i) hone hm hlen hkek hkey hp hrun
    exact ⟨t, (exec_unwrapEnd h).trans (congrArg Host.Outcome.next hend), by rw [hframe]; rfl, hunwraps, by rw [hslot],
      by rw [hslot], by rw [hslot], hresult⟩

end Sys2Proof.Machine
end

section
/-! SUPPORT. The fuse controller, the life cycle and Lantern. -/

namespace Sys2Proof.Machine

/-! ### Fields of one register that do not meet -/

theorem regF_setRegF_other (s : State) (a : Nat) {lo len lo' len' : Nat} (v : Nat) (h : lo' + len' ≤ lo ∨ lo + len ≤ lo') :
    regF (setRegF s a lo len v) a lo' len' = regF s a lo' len' := by
  rw [regF, setRegF, reg_setReg_same, fld_setFld_other _ _ h, regF]

theorem regF_setRegB_other (s : State) (a : Nat) {i lo len : Nat} (v : Bool) (h : lo + len ≤ i ∨ i + 1 ≤ lo) :
    regF (setRegB s a i v) a lo len = regF s a lo len := regF_setRegF_other s a _ h

/-! ### Fuse commands of Hub-A (R190, R202, R203, R522) -/

section
variable {s t : State} {op a : Nat} {d : W32}

theorem otpData_congr (h : SameArray s t) (hoff : reg t (aOtp 0x120) = reg s (aOtp 0x120)) (a : Nat) : otpData t a = otpData s a := by
  have hown : ownerOff t = ownerOff s := regB_congr hoff 2
  simp only [otpData, hown, h.otpReadWord]

/-- The checks of a command see the array, the life-cycle state and the disable words. -/
theorem otpRefusal_congr (h : SameArray s t) (hoff : reg t (aOtp 0x120) = reg s (aOtp 0x120))
    (hlc : reg t (aLc 0x000) = reg s (aLc 0x000)) : otpRefusal t op a d = otpRefusal s op a d := by
  have hdata := otpData_congr h hoff
  have hstate : lcState t = lcState s := congrArg (fld · 0 3) hlc
  have hhidden : otpHidden t a = otpHidden s a := by simp only [otpHidden, show crit t 8 = crit s 8 from hoff]
  have hlocked (g : Nat) : groupLocked t g = groupLocked s g := by simp only [groupLocked, hdata]
  have hcrc (g : Nat) : groupCrc t g = groupCrc s g := by simp only [groupCrc, hdata]
  obtain ⟨hcells, hmarg, hred⟩ := h
  have hcell (a : Nat) : otpCell t a = otpCell s a := by simp only [otpCell, hred]
  have hspare : freeSpare t = freeSpare s := by simp only [freeSpare, hcells, hred]
  have hblank : groupBlank t 6 = groupBlank s 6 := by simp only [groupBlank, hcells, hmarg, hcell]
  simp only [otpRefusal, hstate, hhidden, hlocked, hcrc, hdata, hspare, hblank, hcells, hmarg, hcell]

theorem ite_lt_of_lt {p : Prop} [Decidable p] {x y n : Nat} (hx : x < n) (hy : y < n) : (if p then x else y) < n := by
  split <;> assumption

theorem otpRefusal_lt (s : State) (op a : Nat) (d : W32) : otpRefusal s op a d < 256 := by
  unfold otpRefusal
  repeat refine ite_lt_of_lt (by omega) ?_
  omega

theorem otpStart_of_accepted (hidle : otpBusy s = false) (hok : otpRefusal s op a d = 0) :
    ∃ t, otpStart s op a d = t ∧
      t = { s with
        regs := t.regs, fs := t.fs
        otp := { s.otp with command := some { op, addr := a, data := d }, pumpOn := s.otp.pumpOn || isProgramming op } } ∧
      otpBusy t = true ∧ (isProgramming op = true → regB t (aOtp 0x010) 29 = true) := by
  have hlog := logged_otpLogWords s hubA (otpChecked op a 0)
  simp only [otpStart, hidle, hok, Bool.false_eq_true, if_false, if_true]
  generalize otpLogWords s hubA (otpChecked op a 0) = u at hlog ⊢
  have hframe := hlog.frame
  by_cases hprog : isProgramming op = true
  · refine ⟨_, rfl, ?_, ?_, fun _ => ?_⟩
    · rw [if_pos hprog, hprog, Bool.or_true, hframe]; rfl
    · rw [if_pos hprog]
      exact (regB_setRegB_other _ _ (by omega) _).trans (regB_setRegB_same _ _ _ (by omega))
    · rw [if_pos hprog]
      exact regB_setRegB_same _ _ _ (by omega)
  · refine ⟨_, rfl, ?_, ?_, fun hp => absurd hp hprog⟩
    · rw [if_neg hprog, Bool.eq_false_of_not_eq_true hprog, Bool.or_false, hframe]; rfl
    · rw [if_neg hprog]
      exact regB_setRegB_same _ _ _ (by omega)

theorem otpStart_of_refused (hidle : otpBusy s = false) (hno : otpRefusal s op a d ≠ 0) :
    ∃ t, otpStart s op a d = t ∧ t = { s with regs := t.regs, fs := t.fs } ∧ otpBusy t = false ∧
      regF t (aOtp 0x010) 0 8 = otpRefusal s op a d := by
  have hlog := logged_otpLogWords s hubA (otpChecked op a (otpRefusal s op a d))
  have hlt := otpRefusal_lt s op a d
  simp only [otpStart, hidle, hno, Bool.false_eq_true, if_false]
  generalize otpLogWords s hubA (otpChecked op a (otpRefusal s op a d)) = u at hlog ⊢
  have hcode : regF (setOtpCode u (otpRefusal s op a d)) (aOtp 0x010) 0 8 = otpRefusal s op a d :=
    (regF_setRegF_same _ _ _ (by omega)).trans (Nat.mod_eq_of_lt hlt)
  have hbusy : otpBusy (setOtpCode u (otpRefusal s op a d)) = false :=
    (regB_setRegF_other _ _ _ (by omega)).trans ((regB_congr (reg_aOtp_logged hlog (by omega)) 31).trans hidle)
  have hframe : setOtpCode u (otpRefusal s op a d) = { s with regs := (setOtpCode u (otpRefusal s op a d)).regs, fs := u.fs } := by
    rw [setOtpCode, setRegF, hlog.frame]; rfl
  generalize setOtpCode u (otpRefusal s op a d) = w at hcode hbusy hframe ⊢
  by_cases h1 : op = 1
  · rw [if_pos h1]
    have hreg : reg (setReg w (aOtp 0x00C) 0) (aOtp 0x010) = reg w (aOtp 0x010) := reg_setReg_other w (by decide) 0
    exact ⟨_, rfl, by rw [hframe]; rfl, (regB_congr hreg 31).trans hbusy, (congrArg (fld · 0 8) hreg).trans hcode⟩
  · rw [if_neg h1]
    exact ⟨_, rfl, by rw [hframe], hbusy, hcode⟩

end

/-- What a command of Hub-A to the idle fuse controller does: `u` holds the address and the data that it writes first. -/
def FuseStarts (s : State) (c : Instr) (op a : Nat) (d : W32) : Prop :=
  (otpRefusal s op a d = 0 → ∃ t, exec c s = .next t ∧
    t = { s with
      regs := t.regs, fs := t.fs
      otp := { s.otp with command := some { op, addr := a, data := d }, pumpOn := s.otp.pumpOn || isProgramming op } } ∧
    otpBusy t = true ∧ (isProgramming op = true → regB t (aOtp 0x010) 29 = true)) ∧
  (otpRefusal s op a d ≠ 0 → ∃ t, exec c s = .next t ∧ t = { s with regs := t.regs, fs := t.fs } ∧ otpBusy t = false ∧
    regF t (aOtp 0x010) 0 8 = otpRefusal s op a d)

theorem fuseStarts_of_start {s u : State} {c : Instr} {op a : Nat} {d : W32} (hidle : otpBusy s = false)
    (hframe : u = { s with regs := u.regs }) (hregs : ∀ x, x ≠ aOtp 0x004 → x ≠ aOtp 0x008 → reg u x = reg s x)
    (hexec : exec c s = .next (otpStart u op a d)) : FuseStarts s c op a d := by
  have hsame : SameArray s u := by rw [hframe]; exact ⟨rfl, rfl, rfl⟩
  have href : otpRefusal u op a d = otpRefusal s op a d :=
    otpRefusal_congr hsame (hregs _ (by decide) (by decide)) (hregs _ (by decide) (by decide))
  have hidle' : otpBusy u = false := (regB_congr (hregs _ (by decide) (by decide)) 31).trans hidle
  refine ⟨fun hok => ?_, fun hno => ?_⟩
  · obtain ⟨t, ht, hft, hrest⟩ := otpStart_of_accepted hidle' (href.trans hok)
    rw [hexec, ht]
    exact ⟨t, rfl, by rw [hft, hframe], hrest⟩
  · obtain ⟨t, ht, hft, hbusy, hcode⟩ := otpStart_of_refused hidle' (by rwa [href])
    rw [hexec, ht]
    exact ⟨t, rfl, by rw [hft, hframe], hbusy, hcode.trans href⟩

/-! ### Programming of cells (R203, R204) -/

section
variable {s : State}

/-- Only the cells of the array changed. -/
def OnlyCells (s t : State) : Prop := t = { s with otp := { s.otp with cells := t.otp.cells, marginal := t.otp.marginal } }

theorem onlyCells_setCell (s : State) (c : Nat) (solid marg : BitVec 39) : OnlyCells s (setCell s c solid marg) := rfl

theorem cellOnes_setCell_same (s : State) (c : Nat) (target : BitVec 39) :
    cellOnes (setCell s c (target &&& ~~~(BitVec.ofNat 39 (cellOnes s c))) 0) c = cellOnes s c ||| target.toNat := by
  simp only [setCell, cellOnes, smGet_smSet_same, BitVec.ofNat_toNat, BitVec.setWidth_eq]
  generalize smGet s.otp.cells c 0 = x
  generalize smGet s.otp.marginal c 0 = y
  have hor : y ||| (0 : BitVec 39) = y := BitVec.or_zero
  rw [hor, ← BitVec.toNat_or]
  congr 1
  ext i hi
  simp only [BitVec.getElem_and, BitVec.getElem_or, BitVec.getElem_not]
  cases x[i] <;> cases y[i] <;> cases target[i] <;> rfl

theorem cell_setCell_other (s : State) {c c' : Nat} (h : c' ≠ c) (solid marg : BitVec 39) :
    cellOnes (setCell s c solid marg) c' = cellOnes s c' ∧ cellMarg (setCell s c solid marg) c' = cellMarg s c' := by
  simp only [setCell, cellOnes, cellMarg, smGet_smSet_other _ h, and_self]

/-- Pulses that no weak cell spoils. -/
theorem pulseCell_of_strong {c : Nat} {target weak : BitVec 39} (h : weak &&& target = 0) :
    pulseCell s c target weak = (setCell s c (target &&& ~~~(BitVec.ofNat 39 (cellOnes s c))) 0, true) := by
  have hneed : (target &&& ~~~(BitVec.ofNat 39 (cellOnes s c))) &&& weak = 0 := by
    rw [BitVec.and_assoc, BitVec.and_comm _ weak, ← BitVec.and_assoc, BitVec.and_comm target, h]
    simp
  rw [pulseCell, if_pos hneed]

end

/-! ### The ends of fuse commands (R186, R204, R205) -/

section
variable {s : State} {cmd : OtpCmd}

theorem secDed_result_le (w : Nat) : (secDed w).2 ≤ 3 := by
  unfold secDed
  simp only
  split_ifs
  · exact Nat.zero_le 3
  · exact Nat.le_of_ble_eq_true rfl
  · split <;> exact Nat.le_of_ble_eq_true rfl

theorem erasure_result_le (solid : Nat) (marg : List Nat) : (erasure solid marg).2 ≤ 3 := by
  unfold erasure
  split <;> exact Nat.le_of_ble_eq_true rfl

theorem eccDecode_result_le (solid marg : Nat) : (eccDecode solid marg).2 ≤ 3 := by
  unfold eccDecode
  simp only
  split_ifs
  · exact secDed_result_le _
  · exact erasure_result_le _ _
  · exact Nat.le_refl 3

theorem otpReadWord_result_le (s : State) (a : Nat) : (otpReadWord s a).2.1 ≤ 4 := by
  unfold otpReadWord
  simp only
  split
  · split <;> exact Nat.le_refl 4
  · exact (eccDecode_result_le _ _).trans (by decide)

theorem exec_otpCommandDone {weak : BitVec 39} (hdom : domOn s 27 = true) (hcmd : s.otp.command = some cmd) (h5 : cmd.op ≠ 5) :
    exec (.otpCommandDone weak) s =
      .next (showOtpBusy { otpFinish s cmd weak with otp := { (otpFinish s cmd weak).otp with command := none } }) := by
  have hwait : otpWaits s cmd = false := by simp [otpWaits, h5]
  have hdone : otpDone s weak =
      showOtpBusy { otpFinish s cmd weak with otp := { (otpFinish s cmd weak).otp with command := none } } := by
    simp only [otpDone, hdom, if_true, otpDoneOp, hcmd, hwait, Bool.false_eq_true, if_false]
  exact congrArg Host.Outcome.next hdone

/-- After a command `BUSY` shows only the load of slot 0. -/
theorem otpBusy_showOtpBusy (u : State) :
    otpBusy (showOtpBusy { u with otp := { u.otp with command := none } }) = u.otp.slot0Waiting :=
  regB_setRegB_same _ _ _ (by omega)

theorem regF_showOtpBusy (u : State) {lo len : Nat} (h : lo + len ≤ 31) :
    regF (showOtpBusy { u with otp := { u.otp with command := none } }) (aOtp 0x010) lo len = regF u (aOtp 0x010) lo len :=
  regF_setRegB_other _ _ _ (Or.inl h)

/-- What a read shows: the word, and how it decoded. -/
theorem readShown_effect (s : State) (v : W32) {r : Nat} (hr : r < 16) :
    ∃ u, setOtpCode (setRegF (setReg (setReg (setReg s (aOtp 0x00C) v) (aOtp 0x014) 0) (aOtp 0x018) 0) (aOtp 0x010) 8 4 r) 0 = u ∧
      u = { s with regs := u.regs } ∧ reg u (aOtp 0x00C) = v ∧ regF u (aOtp 0x010) 8 4 = r ∧ regF u (aOtp 0x010) 0 8 = 0 := by
  have honly := ((((OnlyRegs.refl s).setReg (aOtp 0x00C) v).setReg (aOtp 0x014) 0).setReg (aOtp 0x018) 0).setRegF (aOtp 0x010) 8 4 r
  refine ⟨_, rfl, (honly.setRegF (aOtp 0x010) 0 8 0).rest, ?_, ?_, regF_setRegF_same _ _ _ (by omega)⟩
  · rw [setOtpCode, reg_setRegF_other _ (by decide), reg_setRegF_other _ (by decide), reg_setReg_other _ (by decide),
      reg_setReg_other _ (by decide), reg_setReg_same]
  · rw [setOtpCode, regF_setRegF_other _ _ _ (by omega), regF_setRegF_same _ _ _ (by omega)]
    exact Nat.mod_eq_of_lt hr

theorem otpFinish_read {weak : BitVec 39} (hop : cmd.op = 1) (hm : (otpReadWord s cmd.addr).2.2 = 0)
    (hr : (otpReadWord s cmd.addr).2.1 ≠ rUncorrectable) :
    otpFinish s cmd weak = setOtpCode (setRegF (setReg (setReg (setReg s (aOtp 0x00C) (otpReadWord s cmd.addr).1)
      (aOtp 0x014) 0) (aOtp 0x018) 0) (aOtp 0x010) 8 4 (otpReadWord s cmd.addr).2.1) 0 := by
  have hlog : otpLog s hubA cmd.addr (otpReadWord s cmd.addr).2.1 0 = s := by
    simp [otpLog, hr]
  simp only [otpFinish, hop, hm, hlog, hr, if_false]
  rfl

theorem otpFinish_program {weak : BitVec 39} (hop : cmd.op = 2) (hweak : weak &&& otpTarget cmd.addr cmd.data = 0) :
    otpFinish s cmd weak = setOtpCode (setCell s (otpCell s cmd.addr) (otpTarget cmd.addr cmd.data &&&
      ~~~(BitVec.ofNat 39 (cellOnes s (otpCell s cmd.addr)))) 0) 0 := by
  simp only [otpFinish, hop, pulseAll, pulseCell_of_strong hweak, otpEnd]

/-- The end of a read that found no margin and no error. -/
theorem readEnd_effect {weak : BitVec 39} (hdom : domOn s 27 = true) (hcmd : s.otp.command = some cmd) (hop : cmd.op = 1)
    (hm : (otpReadWord s cmd.addr).2.2 = 0) (hr : (otpReadWord s cmd.addr).2.1 ≠ rUncorrectable) :
    ∃ t, exec (.otpCommandDone weak) s = .next t ∧ t = { s with regs := t.regs, otp := { s.otp with command := none } } ∧
      reg t (aOtp 0x00C) = (otpReadWord s cmd.addr).1 ∧ regF t (aOtp 0x010) 8 4 = (otpReadWord s cmd.addr).2.1 ∧
      regF t (aOtp 0x010) 0 8 = 0 ∧ otpBusy t = s.otp.slot0Waiting := by
  have hle := otpReadWord_result_le s cmd.addr
  have hexec := exec_otpCommandDone (weak := weak) hdom hcmd (by omega)
  obtain ⟨u, hu, hframe, hvalue, hresult, hcode⟩ := readShown_effect s (otpReadWord s cmd.addr).1
    (r := (otpReadWord s cmd.addr).2.1) (Nat.lt_of_le_of_lt (otpReadWord_result_le s cmd.addr) (by decide))
  rw [otpFinish_read hop hm hr, hu] at hexec
  have hwaiting : u.otp.slot0Waiting = s.otp.slot0Waiting := by rw [hframe]
  refine ⟨_, hexec, ?_, ?_, ?_, ?_, (otpBusy_showOtpBusy u).trans hwaiting⟩
  · rw [hframe]; rfl
  · exact (reg_setRegB_other _ (by decide) _).trans hvalue
  · exact (regF_showOtpBusy u (by omega)).trans hresult
  · exact (regF_showOtpBusy u (by omega)).trans hcode

/-- The end of a programming whose cells are strong. -/
theorem programEnd_effect {weak : BitVec 39} (hdom : domOn s 27 = true) (hcmd : s.otp.command = some cmd) (hop : cmd.op = 2)
    (hweak : weak &&& otpTarget cmd.addr cmd.data = 0) :
    ∃ t, exec (.otpCommandDone weak) s = .next t ∧
      t = { s with regs := t.regs, otp := { s.otp with command := none, cells := t.otp.cells, marginal := t.otp.marginal } } ∧
      cellOnes t (otpCell s cmd.addr) = cellOnes s (otpCell s cmd.addr) ||| (otpTarget cmd.addr cmd.data).toNat ∧
      (∀ c, c ≠ otpCell s cmd.addr → cellOnes t c = cellOnes s c ∧ cellMarg t c = cellMarg s c) ∧
      regF t (aOtp 0x010) 0 8 = 0 ∧ otpBusy t = s.otp.slot0Waiting := by
  have hexec := exec_otpCommandDone (weak := weak) hdom hcmd (by omega)
  rw [otpFinish_program hop hweak] at hexec
  refine ⟨_, hexec, rfl, cellOnes_setCell_same _ _ _, fun c hc => cell_setCell_other _ hc _ _, ?_, otpBusy_showOtpBusy _⟩
  exact (regF_showOtpBusy _ (by omega)).trans (regF_setRegF_same _ _ _ (by omega))

end

/-! ### Sensing and the idle pump (R199, R200, R204, R209) -/

theorem lcDecode_le (w : W32) : lcDecode w ≤ 4 := by
  unfold lcDecode
  cases hfind : (List.range 5).find? fun st => lcCode st = w with
  | none => exact Nat.le_refl 4
  | some st => exact Nat.le_of_lt_succ (List.mem_range.mp (List.mem_of_find?_eq_some hfind))

theorem lcVote_le {a b c n : Nat} (ha : a ≤ n) (hb : b ≤ n) (hc : c ≤ n) : lcVote a b c ≤ n := by
  unfold lcVote
  omega

theorem b2n_le (b : Bool) : b2n b ≤ 1 := by cases b <;> decide

/-- The life-cycle field of the latched word is the vote. -/
theorem lcState_latchLifecycle (s : State) :
    lcState (latchLifecycle s) = lcVote (lcDecode (crit s 0)) (lcDecode (crit s 1)) (lcDecode (crit s 2)) := by
  have hvote : lcVote (lcDecode (crit s 0)) (lcDecode (crit s 1)) (lcDecode (crit s 2)) ≤ 4 :=
    lcVote_le (lcDecode_le _) (lcDecode_le _) (lcDecode_le _)
  have h0 := b2n_le (lcInvalid (crit s 0))
  have h1 := b2n_le (lcInvalid (crit s 1))
  have h2 := b2n_le (lcInvalid (crit s 2))
  have hr := b2n_le s.lc.resumed
  have hword : reg (latchLifecycle s) (aLc 0x000) = w32 (2048 * b2n s.lc.resumed + 256 * (b2n (lcInvalid (crit s 0)) +
      2 * b2n (lcInvalid (crit s 1)) + 4 * b2n (lcInvalid (crit s 2))) +
      lcVote (lcDecode (crit s 0)) (lcDecode (crit s 1)) (lcDecode (crit s 2))) := by
    refine (reg_setReg_other _ (by decide) _).trans ?_
    split
    · exact (reg_setRegB_other _ (by decide) _).trans (reg_setReg_same _ _ _)
    · exact reg_setReg_same _ _ _
  rw [lcState, regF, hword]
  generalize lcVote (lcDecode (crit s 0)) (lcDecode (crit s 1)) (lcDecode (crit s 2)) = vote at hvote ⊢
  rw [fld_w32 (by omega)]
  rw [pow_zero, Nat.div_one]
  omega

theorem exec_sensingComplete {s : State} (hphase : s.boot.phase = .sensing) (hdom : domOn s 27 = true)
    (hnone : ∀ n ∈ [1, 2, 3, 4], inProgress (senseArray s) n = false) :
    exec .sensingComplete s = .next (settleDomains { latchLifecycle (senseArray s) with
      boot := { (latchLifecycle (senseArray s)).boot with phase := .up } }) := by
  have hany : [1, 2, 3, 4].any (inProgress (senseArray s)) = false := List.any_eq_false.mpr fun n hn => by simp [hnone n hn]
  have hsense : sensingOp s = settleDomains { latchLifecycle (senseArray s) with
      boot := { (latchLifecycle (senseArray s)).boot with phase := .up } } := by
    simp only [sensingOp, hphase, hdom, hany, decide_true, Bool.and_self, if_true, Bool.false_eq_true, if_false]
  exact congrArg Host.Outcome.next hsense

theorem pumpIdle_effect {s : State} (h : s.otp.command = none) :
    ∃ t, exec .pumpIdleOff s = .next t ∧ t = { s with regs := t.regs, otp := { s.otp with pumpOn := false } } ∧
      regB t (aOtp 0x010) 29 = false := by
  have hoff : pumpIdleOp s = setRegB { s with otp := { s.otp with pumpOn := false } } (aOtp 0x010) 29 false := by
    simp only [pumpIdleOp, h, Option.any_none, Bool.false_eq_true, if_false]
  exact ⟨_, congrArg Host.Outcome.next hoff, rfl, regB_setRegB_same _ _ _ (by omega)⟩

/-! ### Hub-A's commands -/

section
variable {s : State}

theorem otpWrite_command (u : State) {op : Nat} (hlo : 1 ≤ op) (hhi : op ≤ 6) :
    otpWrite u 0x000 (w32 op) = otpStart u op (reg u (aOtp 0x004)).toNat (reg u (aOtp 0x008)) := by
  have hfld : fld (w32 op) 0 4 = op := by
    rw [fld_w32 (by omega)]
    rw [pow_zero, Nat.div_one]
    omega
  simp only [otpWrite, if_true, hfld, hlo, hhi, decide_true, Bool.and_self]

theorem otpCommand_plain (hdom : domOn s 27 = true) {op : Nat} (hlo : 1 ≤ op) (hhi : op ≤ 6) :
    otpCommand s hubA op none none = otpStart s op (reg s (aOtp 0x004)).toNat (reg s (aOtp 0x008)) := by
  rw [← otpWrite_command s hlo hhi]
  simp only [otpCommand, guarded, hdom, if_true, byHubA, granted, decide_true]

theorem otpCommand_addr (hdom : domOn s 27 = true) {op a : Nat} (hlo : 1 ≤ op) (hhi : op ≤ 6) (ha : a < 4294967296) :
    otpCommand s hubA op (some a) none = otpStart (setReg s (aOtp 0x004) (w32 a)) op a (reg s (aOtp 0x008)) := by
  have hwrite := otpWrite_command (setReg s (aOtp 0x004) (w32 a)) hlo hhi
  rw [reg_setReg_same, toNat_w32 ha, reg_setReg_other _ (by decide)] at hwrite
  rw [← hwrite]
  simp only [otpCommand, guarded, hdom, if_true, byHubA, granted, decide_true]

theorem otpCommand_addr_data (hdom : domOn s 27 = true) {op a : Nat} (d : W32) (hlo : 1 ≤ op) (hhi : op ≤ 6) (ha : a < 4294967296) :
    otpCommand s hubA op (some a) (some d) =
      otpStart (setReg (setReg s (aOtp 0x004) (w32 a)) (aOtp 0x008) d) op a d := by
  have hwrite := otpWrite_command (setReg (setReg s (aOtp 0x004) (w32 a)) (aOtp 0x008) d) hlo hhi
  rw [reg_setReg_same, reg_setReg_other _ (by decide), reg_setReg_same, toNat_w32 ha] at hwrite
  rw [← hwrite]
  simp only [otpCommand, guarded, hdom, if_true, byHubA, granted, decide_true]

theorem fuseStarts_plain (hdom : domOn s 27 = true) (hidle : otpBusy s = false) {c : Instr} {op : Nat} (hlo : 1 ≤ op) (hhi : op ≤ 6)
    (hexec : exec c s = .next (otpCommand s hubA op none none)) :
    FuseStarts s c op (reg s (aOtp 0x004)).toNat (reg s (aOtp 0x008)) :=
  fuseStarts_of_start hidle rfl (fun _ _ _ => rfl) (hexec.trans (congrArg Host.Outcome.next (otpCommand_plain hdom hlo hhi)))

theorem fuseStarts_addr (hdom : domOn s 27 = true) (hidle : otpBusy s = false) {c : Instr} {op a : Nat} (hlo : 1 ≤ op) (hhi : op ≤ 6)
    (ha : a < 4294967296) (hexec : exec c s = .next (otpCommand s hubA op (some a) none)) :
    FuseStarts s c op a (reg s (aOtp 0x008)) :=
  fuseStarts_of_start hidle rfl (fun _ h4 _ => reg_setReg_other _ h4 _)
    (hexec.trans (congrArg Host.Outcome.next (otpCommand_addr hdom hlo hhi ha)))

theorem fuseStarts_addr_data (hdom : domOn s 27 = true) (hidle : otpBusy s = false) {c : Instr} {op a : Nat} {d : W32}
    (hlo : 1 ≤ op) (hhi : op ≤ 6) (ha : a < 4294967296) (hexec : exec c s = .next (otpCommand s hubA op (some a) (some d))) :
    FuseStarts s c op a d :=
  fuseStarts_of_start hidle rfl (fun _ h4 h8 => (reg_setReg_other _ h8 _).trans (reg_setReg_other _ h4 _))
    (hexec.trans (congrArg Host.Outcome.next (otpCommand_addr_data hdom d hlo hhi ha)))

end

/-- Settles O29: a command starts or leaves its code by `otpStart`, whose checks do not see the words just written; the ends and
the sensing are those of their lemmas. -/
theorem fuseCommandsComplete : Obligations.FuseCommandsComplete := by
  unfold Obligations.FuseCommandsComplete
  refine ⟨fun s addr g row data hdom hidle => ?_, fun s weak cmd => ?_⟩
  · have haddr := addr.isLt
    have hg := g.isLt
    have hrow := row.isLt
    have hread := fuseStarts_addr hdom hidle (c := .read hubA addr) (op := 1) (a := addr.toNat) (by omega) (by omega) (by omega) rfl
    have hprogram := fuseStarts_addr_data hdom hidle (c := .program hubA addr data) (op := 2) (a := addr.toNat) (d := data)
      (by omega) (by omega) (by omega) rfl
    have hlock := fuseStarts_addr hdom hidle (c := .lock hubA g) (op := 3) (a := 32 * g.toNat) (by omega) (by omega) (by omega) rfl
    have hseal := fuseStarts_addr hdom hidle (c := .sealCalc hubA g) (op := 4) (a := 32 * g.toNat) (by omega) (by omega) (by omega) rfl
    have huds := fuseStarts_plain hdom hidle (c := .genUds hubA) (op := 5) (by omega) (by omega) rfl
    have hrepair := fuseStarts_addr hdom hidle (c := .repair hubA row) (op := 6) (a := 8 * row.toNat) (by omega) (by omega) (by omega) rfl
    exact ⟨hread, hprogram, hlock, hseal, huds, hrepair⟩
  · exact ⟨readEnd_effect, programEnd_effect, pumpIdle_effect,
      fun hphase hdom hnone => ⟨exec_sensingComplete hphase hdom hnone, lcState_latchLifecycle _⟩⟩

/-! ### What the sequencer programs (R194, R204, R213) -/

/-- Of the state only cells, the pump and registers changed, and the pump runs. -/
def Sequenced (s t : State) : Prop :=
  t = { s with regs := t.regs, otp := { s.otp with cells := t.otp.cells, marginal := t.otp.marginal, pumpOn := true } }

/-- The solid ones of every cell word stay. -/
def KeepsOnes (s t : State) : Prop :=
  t.otp.redirect = s.otp.redirect ∧ ∀ c i, (cellOnes s c).testBit i = true → (cellOnes t c).testBit i = true

/-- The word at `a` holds the programmed bits of `d`. -/
def HoldsBits (s : State) (a : Nat) (d : W32) : Prop :=
  ∀ i < 32, d.getLsbD i = true → (cellOnes s (otpCell s a)).testBit i = true

section
variable {s t u : State} {a : Nat} {d : W32}

theorem Sequenced.trans (h : Sequenced s t) (h' : Sequenced t u) : Sequenced s u := by
  unfold Sequenced at *
  rw [h', h]

theorem KeepsOnes.trans (h : KeepsOnes s t) (h' : KeepsOnes t u) : KeepsOnes s u :=
  ⟨h'.1.trans h.1, fun c i hi => h'.2 c i (h.2 c i hi)⟩

theorem KeepsOnes.holds (h : KeepsOnes s t) (hs : HoldsBits s a d) : HoldsBits t a d := fun i hi hd => by
  have hcell : otpCell t a = otpCell s a := by simp only [otpCell, h.1]
  rw [hcell]
  exact h.2 _ i (hs i hi hd)

theorem seqProgram_effect (s : State) {a : Nat} (d : W32) (hraw : isRaw a = true) :
    Sequenced s (seqProgram s a d) ∧ KeepsOnes s (seqProgram s a d) ∧ HoldsBits (seqProgram s a d) a d := by
  have hprog : seqProgram s a d = setCell (pumpStart s) (otpCell s a) (otpTarget a d &&&
      ~~~(BitVec.ofNat 39 (cellOnes (pumpStart s) (otpCell s a)))) 0 :=
    congrArg Prod.fst (pulseCell_of_strong (s := pumpStart s) (c := otpCell s a) (BitVec.zero_and (x := otpTarget a d)))
  have hsame := cellOnes_setCell_same (pumpStart s) (otpCell s a) (otpTarget a d)
  have hother := fun (c : Nat) (hc : c ≠ otpCell s a) => (cell_setCell_other (pumpStart s) hc (otpTarget a d &&&
      ~~~(BitVec.ofNat 39 (cellOnes (pumpStart s) (otpCell s a)))) 0).1
  rw [← hprog] at hsame
  simp only [← hprog] at hother
  have hcell : otpCell (seqProgram s a d) a = otpCell s a := by rw [hprog]; rfl
  refine ⟨?_, ⟨by rw [hprog]; rfl, fun c i hi => ?_⟩, fun i hi hd => ?_⟩
  · rw [hprog]
    rfl
  · by_cases hc : c = otpCell s a
    · rw [hc, hsame, Nat.testBit_or, Bool.or_eq_true]
      exact Or.inl (hc ▸ hi)
    · rw [hother c hc]
      exact hi
  · rw [hcell, hsame, Nat.testBit_or, Bool.or_eq_true]
    refine Or.inr ?_
    rw [otpTarget, if_pos hraw, BitVec.testBit_toNat, BitVec.getLsbD_ofNat, BitVec.testBit_toNat, hd]
    simp only [Bool.and_true, decide_eq_true_eq]
    omega

theorem otpReadWord_of_crit (s : State) {a i : Nat} (hraw : isRaw a = true) (hi : critAddrs.idxOf? a = some i) :
    (otpReadWord s a).1 = resolveCrit i (cellOnes s (otpCell s a)) (cellMarg s (otpCell s a)) := by
  simp only [otpReadWord, hraw, hi, if_true]

/-- Resolution of the words of the life-cycle state and its marks keeps their solid ones (R199). -/
theorem bitOf_resolveCrit {i ones marg j : Nat} (hi : i ≤ 6) (hj : j < 32) (h : ones.testBit j = true) :
    bitOf (resolveCrit i ones marg) j = true := by
  have hones : (w32 (ones % 2 ^ 32)).getLsbD j = true := by
    rw [w32, BitVec.getLsbD_ofNat, Nat.testBit_mod_two_pow, h]
    simp [hj]
  have h11 : i ≠ 11 := by omega
  have h12 : i ≠ 12 := by omega
  simp only [resolveCrit, h11, h12, if_false, bitOf]
  split
  · exact hones
  · rw [BitVec.getLsbD_or, hones, Bool.true_or]

/-- The words that a transition programs read back at least the bits they hold. -/
theorem bitOf_otpData_of_holds (h : HoldsBits s a d) (ha : a ∈ [0, 1, 2, 4, 5, 6, 7]) {j : Nat} (hj : j < 32)
    (hd : d.getLsbD j = true) : bitOf (otpData s a) j = true := by
  have hword : ∃ i ≤ 6, isRaw a = true ∧ critAddrs.idxOf? a = some i ∧ a < 512 := by
    have hall : ∀ a ∈ [0, 1, 2, 4, 5, 6, 7], ∃ i ≤ 6, isRaw a = true ∧ critAddrs.idxOf? a = some i ∧ a < 512 := by decide
    exact hall a ha
  obtain ⟨i, hi, hraw, hidx, hlow⟩ := hword
  have hdata : otpData s a = (otpReadWord s a).1 := by
    rw [otpData, decide_eq_false (by omega)]
    rfl
  rw [hdata, otpReadWord_of_crit s hraw hidx]
  exact bitOf_resolveCrit hi hj (h j hj hd)

theorem otpData_and_of_holds (h : HoldsBits s a d) (ha : a ∈ [0, 1, 2, 4, 5, 6, 7]) : otpData s a &&& d = d := by
  apply BitVec.eq_of_getLsbD_eq
  intro j hj
  rw [BitVec.getLsbD_and]
  by_cases hd : d.getLsbD j = true
  · have hbit : (otpData s a).getLsbD j = true := bitOf_otpData_of_holds h ha hj hd
    rw [hbit, hd, Bool.and_self]
  · rw [Bool.eq_false_of_not_eq_true hd, Bool.and_false]

end

/-! ### One step of a transition (R213) -/

section
variable {s : State}

/-- Three raw words programmed in order. -/
theorem seqWords_effect (s : State) {a b c : Nat} (x y z : W32) (ha : isRaw a = true) (hb : isRaw b = true) (hc : isRaw c = true) :
    ∃ t, seqWords s [(a, x), (b, y), (c, z)] = t ∧ Sequenced s t ∧ HoldsBits t a x ∧ HoldsBits t b y ∧ HoldsBits t c z := by
  obtain ⟨hs1, -, ha1⟩ := seqProgram_effect s x ha
  obtain ⟨hs2, hk2, hb2⟩ := seqProgram_effect (seqProgram s a x) y hb
  obtain ⟨hs3, hk3, hc3⟩ := seqProgram_effect (seqProgram (seqProgram s a x) b y) z hc
  exact ⟨_, rfl, (hs1.trans hs2).trans hs3, (hk2.trans hk3).holds ha1, hk3.holds hb2, hc3⟩

theorem bitOf_w32_two_pow {n : Nat} (h : n < 32) : (w32 (2 ^ n)).getLsbD n = true := by
  rw [w32, BitVec.getLsbD_ofNat, Nat.testBit_two_pow_self]
  simp [h]

/-- A step that programs one of the state's copies, its marks, and the step after it. -/
theorem transitionStep_effect {target n a : Nat} (htrans : s.lc.transition = some { target, step := n }) (hdom : domOn s 27 = true)
    (hlo : 1 ≤ target) (hhi : target ≤ 4) (hn : n < 15) (hwords : stepWords target n = [(a, lcCode target)])
    (hact : transitionAct s target n = seqWords s (stepWords target n)) (ha : a ∈ [0, 1, 2]) :
    ∃ t, exec .transitionStep s = .next t ∧
      t = { s with
        regs := t.regs
        otp := { s.otp with cells := t.otp.cells, marginal := t.otp.marginal, pumpOn := true }
        lc := { s.lc with transition := some { target, step := nextStep target n } } } ∧
      stepDone t target n = true ∧ otpData t a &&& lcCode target = lcCode target := by
  have hmark : markAddr target ∈ [0, 1, 2, 4, 5, 6, 7] := by
    unfold markAddr
    interval_cases target <;> decide
  have hraw : ∀ b ∈ [0, 1, 2, 4, 5, 6, 7], isRaw b = true := by decide
  have hcopy : a ∈ [0, 1, 2, 4, 5, 6, 7] := List.mem_append_left [4, 5, 6, 7] ha
  obtain ⟨u, hu, hframe, hholds, hlow, hhigh⟩ := seqWords_effect s (lcCode target) (w32 (2 ^ n)) (w32 (2 ^ (16 + n)))
    (hraw a hcopy) (hraw _ hmark) (hraw _ hmark)
  have hstep : markStep (transitionAct s target n) target n = setReg u (aLc 0x00C) (otpData u (markAddr target)) := by
    rw [hact, hwords, ← hu]
    rfl
  have h15 : n ≠ 15 := by omega
  have hop : transitionStepOp s = { setReg u (aLc 0x00C) (otpData u (markAddr target)) with
      lc := { u.lc with transition := some { target, step := nextStep target n } } } := by
    simp only [transitionStepOp, htrans, hdom, Bool.not_true, Bool.false_eq_true, if_false, hstep, h15]
    rfl
  have hlc : u.lc = s.lc := by rw [hframe]
  have hdata := otpData_congr (s := u) (t := { setReg u (aLc 0x00C) (otpData u (markAddr target)) with
    lc := { u.lc with transition := some { target, step := nextStep target n } } }) ⟨rfl, rfl, rfl⟩ (reg_setReg_other _ (by decide) _)
  refine ⟨_, congrArg Host.Outcome.next hop, ?_, ?_, (congrArg (· &&& lcCode target) (hdata a)).trans (otpData_and_of_holds hholds hcopy)⟩
  · rw [hlc, hframe]
    rfl
  · rw [stepDone, hdata]
    exact Bool.and_eq_true_iff.mpr ⟨bitOf_otpData_of_holds hlow hmark (by omega) (bitOf_w32_two_pow (by omega)),
      bitOf_otpData_of_holds hhigh hmark (by omega) (bitOf_w32_two_pow (by omega))⟩

theorem eraseFault_effect {target block : Nat} (htrans : s.lc.transition = some { target, step := 3 }) (ht : 3 ≤ target)
    (hb : block < 16) :
    exec (.eraseFault block) s = .next (emit { s with lc := { s.lc with
      eraseFailed := s.lc.eraseFailed ++ [0x00F00000 + 0x10000 * block] } } islOtp 0x431 0x050 [w32 (0x00F00000 + 0x10000 * block)]) := by
  have hop : eraseFaultOp s block = emit { s with lc := { s.lc with
      eraseFailed := s.lc.eraseFailed ++ [0x00F00000 + 0x10000 * block] } } islOtp 0x431 0x050 [w32 (0x00F00000 + 0x10000 * block)] := by
    simp only [eraseFaultOp, eraseRuns, htrans, ht, hb, decide_true, Bool.and_self, if_true]
  exact congrArg Host.Outcome.next hop

/-! ### Requests (R210, R211) -/

/-- Where the answer to a request leaves the state before a transition starts. -/
def lcAnswered (s : State) (v : W32) : State :=
  setRegF (if fld v 0 3 = 2 ∧ (lcRefusal s (fld v 0 3) = 0 ∨ lcRefusal s (fld v 0 3) = 4) then
    otpLogWords s 0x431 [63, 95, 127, 159, 191, 223] else s) (aLc 0x008) 0 8 (lcRefusal s (fld v 0 3))

theorem lcAnswered_lc (s : State) (v : W32) : (lcAnswered s v).lc = s.lc := by
  have hset (u : State) (code : Nat) : (setRegF u (aLc 0x008) 0 8 code).lc = u.lc := rfl
  rw [lcAnswered, hset]
  split
  · rw [(logged_otpLogWords s 0x431 [63, 95, 127, 159, 191, 223]).frame]
  · rfl

theorem exec_lcRequest (hdom : domOn s 27 = true) (v : W32) : exec (.lcRequest hubA v) s = .next (lcRequestOp s v) := by
  have hmay : lcMayWrite s hubA 0x004 = true := rfl
  have hwrite : lcWrite s hubA 0x004 v = lcRequestOp s v := by
    simp only [lcWrite, lcAccess, guarded, hdom, hmay, if_true, lcWriteOp]
  exact congrArg Host.Outcome.next hwrite

theorem lcRequestOp_eq {v : W32} (hkey : fld v 16 16 = 0x5A7E) :
    lcRequestOp s v = if lcRefusal s (fld v 0 3) = 0 then startTransition (lcAnswered s v) (fld v 0 3) else lcAnswered s v := by
  have hseals : ([1, 2, 3, 4, 5, 6].map (32 * · + 31)) = [63, 95, 127, 159, 191, 223] := rfl
  simp only [lcRequestOp, hkey, ne_eq, not_true_eq_false, if_false, hseals, lcAnswered, Bool.and_eq_true, Bool.or_eq_true,
    decide_eq_true_eq]

end

/-- Settles O30: each of steps 5, 6 and 7 programs a copy of the state and its two marks, and what is programmed stays solid. -/
theorem transitionsAdvanceByMarkedSteps : Obligations.TransitionsAdvanceByMarkedSteps := by
  unfold Obligations.TransitionsAdvanceByMarkedSteps
  intro s v n a target block
  refine ⟨fun hdom hkey hcode => ?_, fun hdom hkey hcode => ?_, fun hdom hkey => ?_, fun htrans hdom hlo hhi hna => ?_,
    fun htrans ht hb => eraseFault_effect htrans ht hb⟩
  · rw [exec_lcRequest hdom, lcRequestOp_eq hkey, if_pos hcode, startTransition, lcAnswered_lc]
    rfl
  · rw [exec_lcRequest hdom, lcRequestOp_eq hkey, if_neg hcode]
    rfl
  · rw [exec_lcRequest hdom, lcRequestOp, if_pos hkey]
  · have hcases : (n = 5 ∧ a = 0) ∨ (n = 6 ∧ a = 1) ∨ (n = 7 ∧ a = 2) := by simpa using hna
    obtain ⟨rfl, rfl⟩ | ⟨rfl, rfl⟩ | ⟨rfl, rfl⟩ := hcases
    · exact transitionStep_effect htrans hdom hlo hhi (by decide) rfl rfl (by decide)
    · exact transitionStep_effect htrans hdom hlo hhi (by decide) rfl rfl (by decide)
    · exact transitionStep_effect htrans hdom hlo hhi (by decide) rfl rfl (by decide)

/-! ### The Lantern port (R216, R217, R220) -/

/-- The instruction register holds `ir`. -/
def irLoaded (s : State) (ir : BitVec 5) : State := { s with lc := { s.lc with ir } }

/-- The boundary register of a scan shifts out of `u`; its free word is the one at `s`'s place. -/
def scanned (s u : State) (ir : BitVec 5) : State :=
  emitOut { u with draws := s.draws + 1 } (.lantern Config.boundaryLength (Config.boundaryValue (pctlWord (irLoaded s ir))
    (fwpWord (irLoaded s ir)) (Config.freeWord s.draws).toNat % 2 ^ Config.boundaryLength))

section
variable {s : State} {off : BitVec 15} {v : W32} {dr : BitVec 96}

theorem lanternShift_of_up (hup : lanternUp s = true) (ir : BitVec 5) (bits n : Nat) :
    lanternShift s ir bits n = emitOut (irLoaded s ir) (.lantern bits n) := if_pos hup

theorem bypassOp_of_unlisted (hup : lanternUp s = true) {ir : BitVec 5} (h : ir.toNat ∉ [0x01, 0x02, 0x03, 0x08, 0x10, 0x11]) :
    bypassOp s ir = emitOut (irLoaded s ir) (.lantern 1 0) := by
  unfold bypassOp
  split
  case h_7 => exact lanternShift_of_up hup ir 1 0
  all_goals rename_i hir; exact absurd (by rw [hir]; decide) h

theorem boundaryOp_of_right (hup : lanternUp s = true) (hright : bitOf (rightsNow s) 6 = true) (ir : BitVec 5) :
    boundaryOp s ir = scanned s (if ir = 3 then { irLoaded s ir with
      lc := { (irLoaded s ir).lc with extest := Config.boundaryIn s.draws % 2 ^ Config.boundaryLength } } else irLoaded s ir) ir := by
  have hright' : bitOf (rightsNow (irLoaded s ir)) 6 = true := hright
  unfold irLoaded at hright'
  unfold boundaryOp
  simp only [hup, Bool.not_true, Bool.false_eq_true, if_false]
  rw [if_pos hright']
  by_cases h3 : ir = 3
  · rw [if_pos h3, if_pos h3]
    rfl
  · rw [if_neg h3, if_neg h3]
    rfl

theorem boundaryOp_of_refused (hup : lanternUp s = true) (hright : bitOf (rightsNow s) 6 = false) (ir : BitVec 5) :
    boundaryOp s ir = violate (irLoaded s ir) lantern vLantern 0 := by
  have hright' : ¬ bitOf (rightsNow (irLoaded s ir)) 6 = true := by
    rw [show rightsNow (irLoaded s ir) = rightsNow s from rfl, hright]
    decide
  unfold irLoaded at hright'
  unfold boundaryOp
  simp only [hup, Bool.not_true, Bool.false_eq_true, if_false]
  rw [if_neg hright']
  rfl

/-! ### The mailbox (R227, log 83) -/

/-- The 48 bits of a mailbox access to `off`. -/
def mailed (off : BitVec 15) (u : State) (data : W32) (write : Bool) : State :=
  emitOut u (.lantern 48 (data.toNat * 2 ^ 16 + off.toNat * 2 + b2n write))

theorem mailboxBits_eq (data : W32) (off : BitVec 15) (write : Bool) :
    mailboxBits data off.toNat write = data.toNat * 2 ^ 16 + off.toNat * 2 + b2n write := by
  rw [mailboxBits, Nat.mod_eq_of_lt off.isLt]

/-- A read of the mailbox, the access made. -/
theorem mailboxOp_read (hup : lanternUp s = true) {u : State}
    (hu : lcAccess (irLoaded s 0x10) lantern off.toNat (lcMayRead (irLoaded s 0x10) lantern off.toNat) id = u) :
    mailboxOp s false off.toNat v =
      mailed off u (if domOn u 27 && lcMayRead u lantern off.toNat then lcRead u off.toNat else 0) false := by
  rw [mailed, ← mailboxBits_eq, ← hu]
  unfold mailboxOp
  rw [hup]
  rfl

theorem mailbox_read (hup : lanternUp s = true) (hdom : domOn s 27 = true) (hmay : lcMayRead s lantern off.toNat = true) :
    mailboxOp s false off.toNat v = mailed off (irLoaded s 0x10) (lcRead s off.toNat) false := by
  have hmay' : lcMayRead (irLoaded s 0x10) lantern off.toNat = true := hmay
  have hdom' : domOn (irLoaded s 0x10) 27 = true := hdom
  have hread : lcRead (irLoaded s 0x10) off.toNat = lcRead s off.toNat := rfl
  have hacc : lcAccess (irLoaded s 0x10) lantern off.toNat (lcMayRead (irLoaded s 0x10) lantern off.toNat) id = irLoaded s 0x10 := by
    simp only [lcAccess, guarded, hdom', hmay', if_true, id]
  rw [mailboxOp_read hup hacc, hmay', hdom', Bool.and_self, if_pos rfl, hread]

theorem mailbox_read_refused (hup : lanternUp s = true) (hdom : domOn s 27 = true) (hmay : lcMayRead s lantern off.toNat = false) :
    mailboxOp s false off.toNat v = mailed off (violate (irLoaded s 0x10) lantern vLantern (aLc off.toNat)) 0 false := by
  have hmay' : lcMayRead (irLoaded s 0x10) lantern off.toNat = false := hmay
  have hdom' : domOn (irLoaded s 0x10) 27 = true := hdom
  have hmayAfter : lcMayRead (violate (irLoaded s 0x10) lantern vLantern (aLc off.toNat)) lantern off.toNat = false := hmay
  have hacc : lcAccess (irLoaded s 0x10) lantern off.toNat (lcMayRead (irLoaded s 0x10) lantern off.toNat) id =
      violate (irLoaded s 0x10) lantern vLantern (aLc off.toNat) := by
    simp only [lcAccess, guarded, hdom', hmay', if_true, Bool.false_eq_true, if_false, refusedKind]
  rw [mailboxOp_read hup hacc, hmayAfter, Bool.and_false, if_neg Bool.false_ne_true]

theorem mailbox_write (hup : lanternUp s = true) {u : State} (hwrite : lcWrite (irLoaded s 0x10) lantern off.toNat v = u) :
    mailboxOp s true off.toNat v = mailed off { u with draws := u.draws + 1 } (Config.freeWord u.draws) true := by
  unfold mailboxOp
  rw [hup]
  change emitOut (drawWord (lcWrite (irLoaded s 0x10) lantern off.toNat v)).2 (.lantern 48 (mailboxBits
    (drawWord (lcWrite (irLoaded s 0x10) lantern off.toNat v)).1 off.toNat true)) = _
  rw [hwrite, mailboxBits_eq]
  rfl

theorem lcWrite_loaded (hdom : domOn s 27 = true) (hmay : lcMayWrite s lantern off.toNat = true) :
    lcWrite (irLoaded s 0x10) lantern off.toNat v = lcWriteOp (irLoaded s 0x10) lantern off.toNat v := by
  have hmay' : lcMayWrite (irLoaded s 0x10) lantern off.toNat = true := hmay
  have hdom' : domOn (irLoaded s 0x10) 27 = true := hdom
  simp only [lcWrite, lcAccess, guarded, hdom', hmay', if_true]

theorem lcWrite_loaded_refused (hdom : domOn s 27 = true) (hmay : lcMayWrite s lantern off.toNat = false) :
    lcWrite (irLoaded s 0x10) lantern off.toNat v = violate (irLoaded s 0x10) lantern vLantern (aLc off.toNat) := by
  have hmay' : lcMayWrite (irLoaded s 0x10) lantern off.toNat = false := hmay
  have hdom' : domOn (irLoaded s 0x10) 27 = true := hdom
  simp only [lcWrite, lcAccess, guarded, hdom', hmay', if_true, Bool.false_eq_true, if_false, refusedKind]

/-! ### The device map (R217, R220) -/

/-- The address of an access, at a word. -/
def accessAddr (dr : BitVec 96) : Nat := (dr.extractLsb' 24 40).toNat / 4 * 4

/-- The 96 bits of an access. -/
def accessed (dr : BitVec 96) (u : State) (data : W32) : State := emitOut u (.lantern 96 (data.toNat * 2 ^ 64 + dr.toNat % 2 ^ 64))

theorem lnAccessOp_idle (hup : lanternUp s = true) (hgo : dr.getLsbD 0 = false) :
    lnAccessOp s dr = emitOut (irLoaded s 0x11) (.lantern 96 dr.toNat) := by
  unfold lnAccessOp
  simp only [hup, hgo, Bool.not_true, Bool.not_false, Bool.false_eq_true, if_false, if_true]
  rfl

theorem lnAccessOp_read (hup : lanternUp s = true) (hgo : dr.getLsbD 0 = true) (hread : dr.getLsbD 1 = false) :
    lnAccessOp s dr = accessed dr (lanternAccess (irLoaded s 0x11) (accessAddr dr) false (dr.extractLsb' 64 32)).2
      (lanternAccess (irLoaded s 0x11) (accessAddr dr) false (dr.extractLsb' 64 32)).1 := by
  unfold lnAccessOp
  simp only [hup, hgo, hread, Bool.not_true, Bool.false_eq_true, if_false]
  rfl

theorem lnAccessOp_write (hup : lanternUp s = true) (hgo : dr.getLsbD 0 = true) (hwrite : dr.getLsbD 1 = true) {u : State}
    (hu : (lanternAccess (irLoaded s 0x11) (accessAddr dr) true (dr.extractLsb' 64 32)).2 = u) :
    lnAccessOp s dr = accessed dr { u with draws := u.draws + 1 } (Config.freeWord u.draws) := by
  rw [← hu]
  unfold lnAccessOp
  simp only [hup, hgo, hwrite, Bool.not_true, Bool.false_eq_true, if_false, if_true]
  rfl

theorem debugAt_of_mapped {a : Nat} (h : target a ≠ .hole) : debugAt a = none := if_neg h

theorem lanternAccess_sram (u : State) {a : Nat} (w : W32) (ht : target a = .sram) (hmay : lanternMay u lantern 1 = true)
    (hon : hubOn u = true) : lanternAccess u a false w = (w32 (rdMem u a 4), u) := by
  have hgk : isGk lantern = false := by decide
  have hread : busRead u lantern a 4 = (rdMem u a 4, u) := by
    simp only [busRead, ht, targetOn, hon, hgk, targetRead, hmay, Bool.not_true, Bool.false_and, Bool.or_true, Bool.false_eq_true,
      if_false, if_true]
  simp only [lanternAccess, debugAt_of_mapped (show target a ≠ .hole by rw [ht]; exact fun h => Target.noConfusion h), hread,
    Bool.false_eq_true, if_false]

theorem lanternAccess_write (u : State) {a : Nat} (w : W32) (ht : target a ≠ .hole) :
    (lanternAccess u a true w).2 = busWrite u lantern a 4 w.toNat := by
  simp only [lanternAccess, debugAt_of_mapped ht, if_true]

/-- What an access of the debug actions' addresses does (R220). -/
theorem lanternAccess_hole_none (u : State) {a : Nat} (w : W32) (ht : target a = .hole) (hd : debugAt a = none) :
    lanternAccess u a false w = (0, violate u lantern vLantern a) := by
  have hgk : isGk lantern = false := by decide
  have hread : busRead u lantern a 4 = (0, violate u lantern vLantern a) := by
    simp only [busRead, ht, targetOn, hgk, targetRead, deny, refusedKind, Bool.not_true, Bool.false_and, Bool.false_eq_true,
      if_false, if_true]
  simp only [lanternAccess, hd, hread, Bool.false_eq_true, if_false]
  rfl

theorem lanternAccess_debug (u : State) {a : Nat} {d : Config.Debug} (w : W32) (hd : debugAt a = some d) :
    lanternAccess u a false w = debugOp u a false w d := by
  simp only [lanternAccess, hd]

end

/-! ### Challenges, certificates and sessions (R221 to R226) -/

section
variable {s : State} {m : Nat} {v r : W32}

/-- A granted write of a master that may make it. -/
theorem lcWrite_of_may {off : Nat} (hdom : domOn s 27 = true) (hmay : lcMayWrite s m off = true) :
    lcWrite s m off v = lcWriteOp s m off v := by
  simp only [lcWrite, lcAccess, guarded, hdom, hmay, if_true]

theorem dripTake_of_pool {n : Nat} (hdom : domOn s 28 = true) (hok : healthFailed s = false) (hpool : n ≤ s.drip.pool.length) :
    dripTake s n = some (s.drip.pool.take n, { s with drip := { s.drip with pool := s.drip.pool.drop n } }) := by
  simp only [dripTake, hdom, hok, hpool, Bool.not_true, Bool.or_self, Bool.false_eq_true, if_false, if_true]

theorem challengeReqOp_of_pool (hdom : domOn s 28 = true) (hok : healthFailed s = false) (hpool : 8 ≤ s.drip.pool.length) :
    challengeReqOp s = { s with
      drip := { s.drip with pool := s.drip.pool.drop 8 }
      lc := { s.lc with challenge := some (wordBytes (s.drip.pool.take 8)), challengeAsked := false } } := by
  have htake := dripTake_of_pool (s := dropChallenge s) (n := 8) hdom hok hpool
  simp only [challengeReqOp, htake]
  rfl

theorem certSource_of_master (hm : m = lantern ∨ m = 0x300) : certSource m = 1 ∨ certSource m = 2 := by
  obtain rfl | rfl := hm
  · exact Or.inl rfl
  · exact Or.inr rfl

/-- The registers that Lantern and PF0 may both write. -/
theorem lcMayWrite_open (hm : m = lantern ∨ m = 0x300) {off : Nat} (hoff : off = 0x030 ∨ off = 0x060) : lcMayWrite s m off = true := by
  obtain rfl | rfl := hoff <;> obtain rfl | rfl := hm <;> rfl

theorem lcMayWrite_submit (hm : m = lantern ∨ m = 0x300) (hheld : certHolder s = certSource m) : lcMayWrite s m 0x068 = true := by
  have hmay : lcMayWrite s m 0x068 = (decide (certHolder s ≠ 0) && decide (certHolder s = certSource m)) := rfl
  have hne : certSource m ≠ 0 := by
    have := certSource_of_master hm
    omega
  rw [hmay, hheld, decide_eq_true hne, decide_eq_true rfl]
  rfl

/-! #### The end of a submission -/

/-- A submission ended with `code`: its result shows, the buffer is wiped and free, nothing is pending. -/
def CertEnded (s t : State) (code : Nat) : Prop :=
  reg t (aLc 0x06C) = w32 code ∧ certHolder t = 0 ∧ t.lc.certPending = false ∧
    t.lc.certBuffer = [] ∧ t.lc.certChallenge = none ∧ t.lc.challenge = s.lc.challenge

theorem certEnd_effect (s : State) (code : Nat) :
    ∃ t, certEnd s code = t ∧ CertEnded s t code ∧ t.lc.session = s.lc.session ∧ t.lc.transition = s.lc.transition ∧
      t.lc.eraseFailed = s.lc.eraseFailed := by
  have hlog := logged_emit s islLantern lantern (rtype := 0x051)
    [w32 (leNat (certBytes s 2 1)), w32 (leNat (certBytes s 4 4)), w32 code] (by decide)
  unfold certEnd
  simp only
  generalize emit s islLantern lantern 0x051 [w32 (leNat (certBytes s 2 1)), w32 (leNat (certBytes s 4 4)), w32 code] = u at hlog ⊢
  have hlc : u.lc = s.lc := by rw [hlog.frame]
  have hwiped : (setReg (certWipe u) (aLc 0x06C) (w32 code)).lc =
      { s.lc with certBuffer := [], certPending := false, certFrom := 0, certChallenge := none } := by
    rw [← hlc]
    rfl
  have hholder : certHolder (setReg (certWipe u) (aLc 0x06C) (w32 code)) = 0 := by
    have hfree : reg (certWipe u) (aLc 0x060) = 0 :=
      (reg_setReg_other (setReg u (aLc 0x060) 0) (a := aLc 0x064) (by decide) 0).trans (reg_setReg_same _ _ _)
    have hreg : reg (setReg (certWipe u) (aLc 0x06C) (w32 code)) (aLc 0x060) = 0 := (reg_setReg_other _ (by decide) _).trans hfree
    rw [certHolder, regF, hreg]
    rfl
  refine ⟨_, rfl, ⟨reg_setReg_same _ _ _, hholder, ?_, ?_, ?_, ?_⟩, ?_, ?_, ?_⟩ <;> rw [hwiped]

theorem openSession_effect (s : State) {rights : W32} (hnone : s.lc.session = none) :
    ∃ t, openSession s rights = t ∧ t.lc = { s.lc with session := some rights } ∧ ∀ x, x ≠ aCh 0x104 → reg t x = reg s x := by
  have hopen : openSession s rights = if hubRight rights && domOn s 26 then
      reseed { s with lc := { s.lc with session := some rights } } 1 else { s with lc := { s.lc with session := some rights } } := by
    simp only [openSession, hnone, Option.isSome_none, Bool.false_eq_true, if_false]
    rfl
  rw [hopen]
  split
  · exact ⟨_, rfl, rfl, fun x hx => reg_setRegB_other _ hx _⟩
  · exact ⟨_, rfl, rfl, fun _ _ => rfl⟩

theorem certCheckOp_eq (hpend : s.lc.certPending = true) (hhub : hubOn s = true) (hpower : powerTarget s = 0)
    (hcrank : crank0Free s = true) :
    certCheckOp s = if certCode s ≠ 0 then certEnd s (certCode s)
      else if leNat (certBytes s 2 1) = 1 then openSession (certEnd s (certCode s)) (w32 (leNat (certBytes s 4 4)))
      else startTransition (certEnd s (certCode s)) (leNat (certBytes s 8 1)) := by
  simp only [certCheckOp, hpend, hhub, hpower, hcrank, Bool.and_self, if_true, ne_eq, not_true_eq_false, decide_false, Bool.not_true,
    Bool.or_self, Bool.false_eq_true, if_false]

theorem certCheck_opens (hpend : s.lc.certPending = true) (hhub : hubOn s = true) (hpower : powerTarget s = 0)
    (hcrank : crank0Free s = true) (hcode : certCode s = 0) (hkind : leNat (certBytes s 2 1) = 1) (hnone : s.lc.session = none) :
    ∃ t, exec .certCheck s = .next t ∧ CertEnded s t 0 ∧ t.lc.session = some (w32 (leNat (certBytes s 4 4))) ∧
      t.lc.transition = s.lc.transition := by
  obtain ⟨u, hu, ⟨hres, hhold, hend⟩, hsession, htrans, -⟩ := certEnd_effect s 0
  obtain ⟨t, ht, hlc, hregs⟩ := openSession_effect u (rights := w32 (leNat (certBytes s 4 4))) (hsession.trans hnone)
  have hop := certCheckOp_eq hpend hhub hpower hcrank
  rw [hcode, if_neg (by decide), if_pos hkind, hu, ht] at hop
  have hhold' : certHolder t = 0 := (congrArg (fld · 0 2) (hregs (aLc 0x060) (by decide))).trans hhold
  exact ⟨t, congrArg Host.Outcome.next hop, ⟨(hregs _ (by decide)).trans hres, hhold', by rw [hlc]; exact hend⟩, by rw [hlc],
    by rw [hlc]; exact htrans⟩

theorem certCheck_starts (hpend : s.lc.certPending = true) (hhub : hubOn s = true) (hpower : powerTarget s = 0)
    (hcrank : crank0Free s = true) (hcode : certCode s = 0) (hkind : leNat (certBytes s 2 1) ≠ 1) :
    ∃ t, exec .certCheck s = .next t ∧ CertEnded s t 0 ∧ t.lc.session = s.lc.session ∧
      t.lc.transition = some { target := leNat (certBytes s 8 1), step := 0 } := by
  obtain ⟨u, hu, hend, hsession, -, -⟩ := certEnd_effect s 0
  have hop := certCheckOp_eq hpend hhub hpower hcrank
  rw [hcode, if_neg (by decide), if_neg hkind, hu] at hop
  exact ⟨_, congrArg Host.Outcome.next hop, hend, hsession, rfl⟩

theorem certCheck_refuses (hpend : s.lc.certPending = true) (hhub : hubOn s = true) (hpower : powerTarget s = 0)
    (hcrank : crank0Free s = true) (hcode : certCode s ≠ 0) :
    ∃ t, exec .certCheck s = .next t ∧ CertEnded s t (certCode s) ∧ t.lc.session = s.lc.session ∧
      t.lc.transition = s.lc.transition := by
  obtain ⟨u, hu, hend, hsession, htrans, -⟩ := certEnd_effect s (certCode s)
  have hop := certCheckOp_eq hpend hhub hpower hcrank
  rw [if_pos hcode, hu] at hop
  exact ⟨_, congrArg Host.Outcome.next hop, hend, hsession, htrans⟩

theorem certTimeout_effect (hpend : s.lc.certPending = true) :
    ∃ t, exec .certTimeout s = .next t ∧ CertEnded s t 0x18 ∧ t.lc.session = s.lc.session ∧ t.lc.transition = s.lc.transition := by
  obtain ⟨u, hu, hend, hsession, htrans, -⟩ := certEnd_effect s 0x18
  exact ⟨u, congrArg Host.Outcome.next ((if_pos hpend).trans hu), hend, hsession, htrans⟩

theorem certClaimOp_of_free (hfree : certHolder s = 0) (hv : fld v 0 2 = certSource m) :
    certClaimOp s m v = setReg s (aLc 0x060) (w32 (certSource m)) := by
  simp only [certClaimOp, hfree, hv, decide_true, Bool.and_self, if_true]

theorem certSubmitOp_of_idle (hheld : certHolder s = certSource m) (hpend : s.lc.certPending = false) (hnone : s.lc.session = none) :
    certSubmitOp s = hubInt { s with lc := { s.lc with
      certPending := true, certFrom := certSource m, certChallenge := s.lc.challenge, challenge := none } } "INT_CERT" := by
  simp only [certSubmitOp, hpend, hnone, hheld, Option.isSome_none, Bool.false_eq_true, if_false]

/-! #### The end of a session -/

/-- The cores that a fold over a map's keys visits are released, the others unchanged. -/
theorem core_foldl_release (l : SMap Core) (u : State) :
    (∃ cores, l.foldl (fun s e => modCore s e.1 fun k => { k with lnHalted := false }) u = { u with cores }) ∧
      ∀ c, core (l.foldl (fun s e => modCore s e.1 fun k => { k with lnHalted := false }) u) c =
        if c ∈ l.map Prod.fst then { core u c with lnHalted := false } else core u c := by
  induction l generalizing u with
  | nil => exact ⟨⟨u.cores, rfl⟩, fun c => rfl⟩
  | cons e l ih =>
    obtain ⟨⟨cores, hframe⟩, hcore⟩ := ih (modCore u e.1 fun k => { k with lnHalted := false })
    refine ⟨⟨cores, hframe⟩, fun c => ?_⟩
    rw [List.foldl_cons, hcore, List.map_cons]
    by_cases hc : c = e.1
    · rw [hc, core_modCore_same, if_pos List.mem_cons_self]
      split <;> rfl
    · rw [core_modCore_other _ hc]
      simp only [List.mem_cons, hc, false_or]

theorem smGet_of_unlisted {β : Type} {m : SMap β} {k : Nat} (h : k ∉ m.map Prod.fst) (d : β) : smGet m k d = d := by
  induction m with
  | nil => rfl
  | cons e m ih =>
    rw [List.map_cons, List.mem_cons, not_or] at h
    rw [smGet, if_neg h.1]
    exact ih h.2

theorem releaseHalted_effect (u : State) :
    (∃ cores, releaseHalted u = { u with cores }) ∧ ∀ c, core (releaseHalted u) c = { core u c with lnHalted := false } := by
  obtain ⟨hframe, hcore⟩ := core_foldl_release u.cores u
  refine ⟨hframe, fun c => (hcore c).trans ?_⟩
  split
  · rfl
  · next h =>
    rw [core, smGet_of_unlisted h]
    unfold coreReset
    split_ifs <;> rfl

theorem closeSession_plain (hr : s.lc.session = some r) (hright : hubRight r = false) :
    ∃ t, closeSession s = t ∧ t = { s with cores := t.cores, lc := { s.lc with session := none } } ∧
      ∀ c, core t c = { core s c with lnHalted := false } := by
  obtain ⟨⟨cores, hframe⟩, hcore⟩ := releaseHalted_effect { s with lc := { s.lc with session := none } }
  have hclose : closeSession s = releaseHalted { s with lc := { s.lc with session := none } } := by
    simp only [closeSession, hr, hright, Bool.false_and, Bool.false_eq_true, if_false]
  exact ⟨_, hclose, by rw [hframe], hcore⟩

theorem closeSession_hubRight (hr : s.lc.session = some r) (hright : hubRight r = true) (hdom : domOn s 26 = true) :
    ∃ t, closeSession s = t ∧ t.lc = { s.lc with session := none } ∧ t.chamber.deriveCtx = 0 ∧ ∀ i, 4 ≤ i → slot t i = {} := by
  obtain ⟨⟨cores, hframe⟩, -⟩ := releaseHalted_effect { s with lc := { s.lc with session := none } }
  have hdom' : domOn { s with lc := { s.lc with session := none }, cores } 26 = true := hdom
  have hclose : closeSession s = reseed { s with lc := { s.lc with session := none }, cores } 0 := by
    simp only [closeSession, hr, hframe, hright, hdom', Bool.and_self, if_true]
  refine ⟨_, hclose, rfl, rfl, fun i hi => ?_⟩
  have hunlisted : i ∉ (s.chamber.slots.filter fun e => e.1 < 2).map Prod.fst := fun hmem => ?_
  · have hreset : slotReset i = {} := by rw [slotReset, if_neg (by omega), if_neg (by omega), if_neg (by omega)]
    exact (smGet_of_unlisted hunlisted (slotReset i)).trans hreset
  obtain ⟨e, he, hei⟩ := List.mem_map.mp hmem
  have hlow : e.1 < 2 := by simpa using (List.mem_filter.mp he).2
  omega

end

/-! ### The port and the sessions together -/

theorem lanternPort_instructions (s : State) (ir : BitVec 5) (hup : lanternUp s = true) :
    exec .idcode s = .next (emitOut (irLoaded s 0x01) (.lantern 32 idcodeValue)) ∧
    exec .lnUid s = .next (emitOut (irLoaded s 0x08) (.lantern 128 (leNat (otpBytes s 32 4)))) ∧
    (ir.toNat ∉ [0x01, 0x02, 0x03, 0x08, 0x10, 0x11] → exec (.bypass ir) s = .next (emitOut (irLoaded s ir) (.lantern 1 0))) ∧
    (∀ p ∈ [((0x01 : BitVec 5), Instr.idcode), (0x02, .sample), (0x03, .extest), (0x08, .lnUid), (0x10, .lnMailbox false 0 0),
        (0x11, .lnAccess 0)], exec (.bypass p.1) s = exec p.2 s) := by
  refine ⟨congrArg Host.Outcome.next (lanternShift_of_up hup _ _ _), congrArg Host.Outcome.next (lanternShift_of_up hup _ _ _),
    fun h => congrArg Host.Outcome.next (bypassOp_of_unlisted hup h), fun p hp => ?_⟩
  have haccess : exec (.lnAccess 0) s = .next (lanternShift s 0x11 96 0) :=
    congrArg Host.Outcome.next ((lnAccessOp_idle (dr := 0) hup rfl).trans (lanternShift_of_up hup 0x11 96 0).symm)
  simp only [List.mem_cons, List.not_mem_nil, or_false] at hp
  obtain rfl | rfl | rfl | rfl | rfl | rfl := hp
  · rfl
  · rfl
  · rfl
  · rfl
  · rfl
  · exact haccess.symm

theorem lanternPort_scans (s : State) (hup : lanternUp s = true) :
    (bitOf (rightsNow s) 6 = true →
      exec .sample s = .next (scanned s (irLoaded s 0x02) 0x02) ∧
      exec .extest s = .next (scanned s { irLoaded s 0x03 with
        lc := { (irLoaded s 0x03).lc with extest := Config.boundaryIn s.draws % 2 ^ Config.boundaryLength } } 0x03)) ∧
    (bitOf (rightsNow s) 6 = false →
      exec .sample s = .next (violate (irLoaded s 0x02) lantern vLantern 0) ∧
      exec .extest s = .next (violate (irLoaded s 0x03) lantern vLantern 0)) :=
  ⟨fun h => ⟨congrArg Host.Outcome.next (boundaryOp_of_right hup h 0x02), congrArg Host.Outcome.next (boundaryOp_of_right hup h 0x03)⟩,
    fun h => ⟨congrArg Host.Outcome.next (boundaryOp_of_refused hup h 0x02), congrArg Host.Outcome.next (boundaryOp_of_refused hup h 0x03)⟩⟩

theorem lanternPort_mailbox (s : State) (off : BitVec 15) (v : W32) (hup : lanternUp s = true) (hdom : domOn s 27 = true) :
    (lcMayRead s lantern off.toNat = true → exec (.lnMailbox false off v) s =
      .next (mailed off (irLoaded s 0x10) (lcRead s off.toNat) false)) ∧
    (lcMayRead s lantern off.toNat = false → exec (.lnMailbox false off v) s =
      .next (mailed off (violate (irLoaded s 0x10) lantern vLantern (aLc off.toNat)) 0 false)) ∧
    (lcMayWrite s lantern off.toNat = true → ∀ u, u = lcWriteOp (irLoaded s 0x10) lantern off.toNat v →
      exec (.lnMailbox true off v) s = .next (mailed off { u with draws := u.draws + 1 } (Config.freeWord u.draws) true)) ∧
    (lcMayWrite s lantern off.toNat = false → ∀ u, u = violate (irLoaded s 0x10) lantern vLantern (aLc off.toNat) →
      exec (.lnMailbox true off v) s = .next (mailed off { u with draws := u.draws + 1 } (Config.freeWord u.draws) true)) := by
  refine ⟨fun h => congrArg Host.Outcome.next (mailbox_read hup hdom h), fun h => congrArg Host.Outcome.next (mailbox_read_refused hup hdom h),
    fun h u hu => congrArg Host.Outcome.next (mailbox_write hup ?_), fun h u hu => congrArg Host.Outcome.next (mailbox_write hup ?_)⟩
  · exact (lcWrite_loaded hdom h).trans hu.symm
  · exact (lcWrite_loaded_refused hdom h).trans hu.symm

/-- What a read of an address of the map's holes does: a debug action, or a violation. -/
def holeRead (u : State) (a : Nat) (w : W32) : W32 × State :=
  match debugAt a with
  | none => (0, violate u lantern vLantern a)
  | some d => debugOp u a false w d

theorem lanternAccess_hole (u : State) {a : Nat} (w : W32) (ht : target a = .hole) : lanternAccess u a false w = holeRead u a w := by
  unfold holeRead
  cases hd : debugAt a with
  | none => exact lanternAccess_hole_none u w ht hd
  | some d => exact lanternAccess_debug u w hd

theorem lanternPort_access (s : State) (dr : BitVec 96) (hup : lanternUp s = true) :
    (dr.getLsbD 0 = false → exec (.lnAccess dr) s = .next (emitOut (irLoaded s 0x11) (.lantern 96 dr.toNat))) ∧
    (dr.getLsbD 0 = true → dr.getLsbD 1 = false → target (accessAddr dr) = .sram → lanternMay s lantern 1 = true → hubOn s = true →
      exec (.lnAccess dr) s = .next (accessed dr (irLoaded s 0x11) (w32 (rdMem s (accessAddr dr) 4)))) ∧
    (dr.getLsbD 0 = true → dr.getLsbD 1 = true → target (accessAddr dr) ≠ .hole → ∀ u,
      u = busWrite (irLoaded s 0x11) lantern (accessAddr dr) 4 (dr.extractLsb' 64 32).toNat →
      exec (.lnAccess dr) s = .next (accessed dr { u with draws := u.draws + 1 } (Config.freeWord u.draws))) ∧
    (dr.getLsbD 0 = true → dr.getLsbD 1 = false → target (accessAddr dr) = .hole →
      exec (.lnAccess dr) s = .next (accessed dr (holeRead (irLoaded s 0x11) (accessAddr dr) (dr.extractLsb' 64 32)).2
        (holeRead (irLoaded s 0x11) (accessAddr dr) (dr.extractLsb' 64 32)).1)) := by
  refine ⟨fun hgo => congrArg Host.Outcome.next (lnAccessOp_idle hup hgo), fun hgo hread ht hmay hon => ?_,
    fun hgo hwrite ht u hu => ?_, fun hgo hread ht => ?_⟩
  · have hacc := lanternAccess_sram (irLoaded s 0x11) (dr.extractLsb' 64 32) ht hmay hon
    have hop := lnAccessOp_read hup hgo hread
    rw [hacc] at hop
    exact congrArg Host.Outcome.next hop
  · have hacc := lanternAccess_write (irLoaded s 0x11) (dr.extractLsb' 64 32) ht
    exact congrArg Host.Outcome.next (lnAccessOp_write hup hgo hwrite (hacc.trans hu.symm))
  · have hop := lnAccessOp_read hup hgo hread
    rw [lanternAccess_hole _ _ ht] at hop
    exact congrArg Host.Outcome.next hop

theorem lanternEscapes (s : State) (hup : lanternUp s = true) :
    exec (.lanternEscape 0) s = .next s ∧
    exec (.lanternEscape 1) s = .next { s with lc := { s.lc with selected := false } } ∧
    exec (.lanternEscape 2) s = .next (irLoaded s 1) := by
  obtain ⟨hdom, hsel⟩ := Bool.and_eq_true_iff.mp hup
  have hkeep : { s with lc := { s.lc with selected := true } } = s := by rw [← hsel]
  have hreset : { s with lc := { s.lc with ir := 1, selected := true } } = irLoaded s 1 := by rw [← hsel]; rfl
  exact ⟨congrArg Host.Outcome.next ((if_pos hdom).trans hkeep), congrArg Host.Outcome.next (if_pos hdom),
    congrArg Host.Outcome.next ((if_pos hdom).trans hreset)⟩

/-! ### Challenges and sessions as commands -/

section
variable {s : State} {m : Nat} {v r : W32}

theorem exec_lnChallengeReq (hm : m = lantern ∨ m = 0x300) (hdom : domOn s 27 = true) :
    exec (.lnChallengeReq m) s = .next (challengeReqOp s) :=
  congrArg Host.Outcome.next (lcWrite_of_may (v := 1) hdom (lcMayWrite_open hm (Or.inl rfl)))

theorem exec_certClaim (hm : m = lantern ∨ m = 0x300) (hdom : domOn s 27 = true) :
    exec (.certClaim m v) s = .next (certClaimOp s m v) :=
  congrArg Host.Outcome.next (lcWrite_of_may hdom (lcMayWrite_open hm (Or.inr rfl)))

theorem exec_certSubmit (hm : m = lantern ∨ m = 0x300) (hdom : domOn s 27 = true) (hheld : certHolder s = certSource m) :
    exec (.certSubmit m) s = .next (certSubmitOp s) :=
  congrArg Host.Outcome.next (lcWrite_of_may (v := 1) hdom (lcMayWrite_submit hm hheld))

theorem exec_lnClose (hm : m = hubA ∨ m = lantern) (hdom : domOn s 27 = true) : exec (.lnClose m) s = .next (closeSession s) := by
  have hmay : lcMayWrite s m 0x020 = true := by obtain rfl | rfl := hm <;> rfl
  exact congrArg Host.Outcome.next (lcWrite_of_may (v := 1) hdom hmay)

theorem exec_lnAuthGrant (hdom : domOn s 27 = true) (hrom : inRom s = true) (hnone : s.lc.session = none)
    (hright : hubRight v = false) : exec (.lnAuthGrant hubA v) s = .next { s with lc := { s.lc with session := some v } } := by
  have hmay : lcMayWrite s hubA 0x02C = true := by
    rw [show lcMayWrite s hubA 0x02C = inRom s from rfl]
    exact hrom
  have hopen : openSession s v = { s with lc := { s.lc with session := some v } } := by
    simp only [openSession, hnone, Option.isSome_none, hright, Bool.false_and, Bool.false_eq_true, if_false]
  exact congrArg Host.Outcome.next ((lcWrite_of_may hdom hmay).trans hopen)

end

/-- Settles O31: each instruction of the port by its own lemma; a submission ends in `certEnd_effect`. -/
theorem lanternCompletes : Obligations.LanternCompletes := by
  unfold Obligations.LanternCompletes
  refine ⟨fun s ir off v dr hup => ?_, fun s m v r hdom => ?_⟩
  · obtain ⟨hid, huid, hbypass, hlisted⟩ := lanternPort_instructions s ir hup
    obtain ⟨hscan, hnoScan⟩ := lanternPort_scans s hup
    obtain ⟨hidle, hsram, hwrite, hhole⟩ := lanternPort_access s dr hup
    obtain ⟨h0, h1, h2⟩ := lanternEscapes s hup
    refine ⟨hid, huid, hbypass, hlisted, hscan, hnoScan, fun hdom => ?_,
      ⟨hidle, hsram, fun hgo hw ht => hwrite hgo hw ht _ rfl, hhole⟩, h0, h1, h2⟩
    obtain ⟨hread, hnoRead, hmail, hnoMail⟩ := lanternPort_mailbox s off v hup hdom
    exact ⟨hread, hnoRead, fun h => hmail h _ rfl, fun h => hnoMail h _ rfl⟩
  · refine ⟨fun hm hdrip hok hpool => ?_, rfl, fun hm hfree hv => ?_, fun hm hheld hpend hnone => ?_,
      fun hpend hhub hpower hcrank => ?_, certTimeout_effect, fun hrom hnone hright => exec_lnAuthGrant hdom hrom hnone hright,
      fun hm hr => ?_⟩
    · rw [exec_lnChallengeReq hm hdom, challengeReqOp_of_pool hdrip hok hpool]
    · rw [exec_certClaim hm hdom, certClaimOp_of_free hfree hv]
    · rw [exec_certSubmit hm hdom hheld, certSubmitOp_of_idle hheld hpend hnone]
    · exact ⟨certCheck_opens hpend hhub hpower hcrank, certCheck_starts hpend hhub hpower hcrank,
        certCheck_refuses hpend hhub hpower hcrank⟩
    · refine ⟨fun hright => ?_, fun hright hch => ?_⟩
      · rw [exec_lnClose hm hdom]
        obtain ⟨t, ht, hrest⟩ := closeSession_plain hr hright
        exact ⟨t, congrArg Host.Outcome.next ht, hrest⟩
      · rw [exec_lnClose hm hdom]
        obtain ⟨t, ht, hrest⟩ := closeSession_hubRight hr hright hch
        exact ⟨t, congrArg Host.Outcome.next ht, hrest⟩

end Sys2Proof.Machine
end

section
/-! SUPPORT. Drip, reset and the Wheel clocks. -/

namespace Sys2Proof.Machine

/-! ### Drip (R520) -/

section
variable {s : State} {m : Nat} {w : W32} {rest : List W32}

theorem exec_selftest (hdom : domOn s 28 = true) : exec (.selftest hubA) s = .next (selftestOp s) := by
  have hrun : guarded s hubA (aDrip 0x000) (domOn s 28) (fun s => byHubA s hubA (aDrip 0x000) selftestOp) = selftestOp s := by
    simp only [guarded, hdom, if_true, byHubA, granted, decide_true]
  exact congrArg Host.Outcome.next hrun

theorem selftestEnd_pass (htest : s.drip.testing = true) :
    ∃ t, exec (.selftestEnd true) s = .next t ∧ t = { s with regs := t.regs, drip := { s.drip with testing := false } } ∧
      regB t (aDrip 0x004) 8 = true ∧ healthFailed t = false :=
  ⟨_, congrArg Host.Outcome.next (if_pos htest), rfl,
    (regB_setRegB_other _ _ (by omega) _).trans (regB_setRegB_same _ _ _ (by omega)), regB_setRegB_same _ _ _ (by omega)⟩

theorem reg_bump (s : State) (a : Nat) (h : (reg s a).toNat < 2 ^ 32 - 1) : reg (bump s a) a = reg s a + 1 := by
  have hne : reg s a ≠ all32 := fun heq => by
    rw [heq] at h
    exact absurd h (by decide)
  rw [bump, reg_setReg_same, if_neg hne]

theorem selftestEnd_fail (htest : s.drip.testing = true) :
    ∃ t, exec (.selftestEnd false) s = .next t ∧ t = { s with regs := t.regs, drip := { s.drip with testing := false } } ∧
      ((reg s (aDrip 0x00C)).toNat < 2 ^ 32 - 1 → reg t (aDrip 0x00C) = reg s (aDrip 0x00C) + 1) :=
  ⟨_, congrArg Host.Outcome.next (if_pos htest), rfl, reg_bump { s with drip := { s.drip with testing := false } } _⟩

theorem healthFail_effect (hdom : domOn s 28 = true) :
    ∃ t, exec .healthFail s = .next t ∧ t = { s with regs := t.regs, drip := { s.drip with pool := [] } } ∧ healthFailed t = true :=
  ⟨_, congrArg Host.Outcome.next (if_pos hdom), rfl, regB_setRegB_same _ _ _ (by omega)⟩

theorem exec_dripData (hdom : domOn s 28 = true) (hm : isHub m = true) :
    exec (.dripData m) s = .next (emitOut (dripDataOp s).2 (.readData m ((dripDataOp s).1.setWidth 64))) := by
  have hrun : dripDataRead s m = emitOut (dripDataOp s).2 (.readData m ((dripDataOp s).1.setWidth 64)) := by
    simp only [dripDataRead, hdom, hm, Bool.not_true, Bool.false_eq_true, if_false]
  exact congrArg Host.Outcome.next hrun

theorem dripDataOp_of_pool (hdom : domOn s 28 = true) (hok : healthFailed s = false) (hpool : s.drip.pool = w :: rest) :
    dripDataOp s = (w, { s with drip := { s.drip with pool := rest } }) := by
  have htake := dripTake_of_pool (n := 1) hdom hok (by rw [hpool]; exact Nat.le_add_left 1 _)
  rw [hpool] at htake
  simp only [dripDataOp, htake, List.take_succ_cons, List.drop_succ_cons, List.drop_zero]

theorem dripDataOp_of_failed (hfail : healthFailed s = true) : dripDataOp s = (0, setRegB s (aDrip 0x004) 9 true) := by
  have htake : dripTake s 1 = none := by simp only [dripTake, hfail, Bool.or_true, if_true]
  simp only [dripDataOp, htake]

end

/-- Settles O44: a hardware consumer takes the pool's first words, none after a failed health test. -/
theorem entropyComesFromThePool : Obligations.EntropyComesFromThePool := by
  unfold Obligations.EntropyComesFromThePool
  intro s m w rest hdom
  refine ⟨⟨_, exec_selftest hdom, rfl, regB_setRegB_same _ _ _ (by omega)⟩, fun htest => ⟨selftestEnd_pass htest, selftestEnd_fail htest⟩,
    healthFail_effect hdom, fun hm => ⟨fun hok hpool => ?_, fun hfail => ?_⟩⟩
  · rw [exec_dripData hdom hm, dripDataOp_of_pool hdom hok hpool]
  · rw [exec_dripData hdom hm, dripDataOp_of_failed hfail]
    rfl

/-! ### Reset -/

/-- Settles O58: every map is empty, so each read gives its default; the named registers' defaults are those of the tables. -/
theorem resetIsAsStated : Obligations.ResetIsAsStated := by
  unfold Obligations.ResetIsAsStated
  have howner : ∀ b, b < 192 → regReset (ownerAddr b) = 0x200 := by decide +kernel
  have hreleased : ∀ p, p < 4 → bitOf (regReset (aPlat p 0x008)) 8 = false := by decide +kernel
  refine ⟨rfl, rfl, reset_memory_wf, fun a => rfl, fun a => rfl, fun d => rfl, hreleased, fun c => ⟨rfl, ?_⟩, howner, ?_⟩
  · rw [show core State.reset c = coreReset c from rfl]
    unfold coreReset
    split_ifs <;> rfl
  · decide +kernel

/-! ### Frequency steps (R469, R482) -/

/-- What a step of another Wheel leaves of Wheel `w`'s clock. -/
structure ClockKept (w : Nat) (s t : State) : Prop where
  step : wheelStep t w = wheelStep s w
  on : wheelOn t w = wheelOn s w
  parked : parked t w = parked s w
  stopped : s.pwr.relocking.contains w = true → t.pwr.relocking.contains w = true

section
variable {s t u : State} {w n : Nat}

theorem ClockKept.refl (w : Nat) (s : State) : ClockKept w s s := ⟨rfl, rfl, rfl, id⟩

theorem ClockKept.trans (h : ClockKept w s t) (h' : ClockKept w t u) : ClockKept w s u :=
  ⟨h'.step.trans h.step, h'.on.trans h.on, h'.parked.trans h.parked, h'.stopped ∘ h.stopped⟩

theorem domOn_of_otp {s t : State} (hreg : reg t 0x40020124 = reg s 0x40020124) (hdom : t.pwr.domains = s.pwr.domains) (d : Nat) :
    domOn t d = domOn s d := by
  have habsent (w : Nat) : wheelAbsent t w = wheelAbsent s w := by simp only [wheelAbsent, wheelDisable, hreg]
  have hstate : domState t d = domState s d := by simp only [domState, hdom]
  rw [domOn, hstate, habsent, domOn]

theorem wheelOn_congr {s t : State} (hreg : reg t 0x40020124 = reg s 0x40020124) (hdom : t.pwr.domains = s.pwr.domains) (w : Nat) :
    wheelOn t w = wheelOn s w := by
  have habsent : wheelAbsent t w = wheelAbsent s w := by simp only [wheelAbsent, wheelDisable, hreg]
  rw [wheelOn, habsent, domOn_of_otp hreg hdom, wheelOn]

theorem ite_iff_contains (l : List Nat) (i w : Nat) :
    (if l.contains i then l else l ++ [i]).contains w = (l.contains w || decide (w = i)) := by
  split
  · next h =>
    by_cases hw : w = i
    · rw [hw, h, Bool.true_or]
    · rw [decide_eq_false hw, Bool.or_false]
  · rw [List.contains_append]
    simp

/-- The step in its register, and the Wheels that relock with Wheel `i` among them. -/
def stepped (s : State) (i n : Nat) : State := setRegF s (aPwr (0x048 + 4 * (i / 8))) (4 * (i % 8)) 3 n
def relockingWith (s : State) (i : Nat) : List Nat := if s.pwr.relocking.contains i then s.pwr.relocking else s.pwr.relocking ++ [i]

theorem stepped_reg (s : State) {i a : Nat} (n : Nat) (hi : i < 32) (h : a < aPwr 0x048 ∨ aPwr 0x058 ≤ a) :
    reg (stepped s i n) a = reg s a := by
  refine reg_setRegF_other s ?_
  simp only [aPwr] at h ⊢
  omega

theorem wheelOn_stepped (s : State) {i : Nat} (n w : Nat) (hi : i < 32) : wheelOn (stepped s i n) w = wheelOn s w :=
  wheelOn_congr (stepped_reg s n hi (by simp only [aPwr]; omega)) rfl w

theorem setStep_of_same (h : ¬ (n ≤ 4 ∧ n ≠ wheelStep s w)) : setStep s w n = s := if_neg (by simpa using h)

theorem setStep_of_still (h : n ≤ 4 ∧ n ≠ wheelStep s w) (hw : w < 32) (hrun : (wheelOn s w && !parked s w) = false) :
    setStep s w n = stepped s w n := by
  have hrun' : (wheelOn (stepped s w n) w && !parked (stepped s w n) w) = false := by rw [wheelOn_stepped s n w hw]; exact hrun
  unfold setStep
  rw [if_pos (by simpa using h)]
  exact if_neg (Bool.eq_false_iff.mp hrun')

theorem setStep_of_running (h : n ≤ 4 ∧ n ≠ wheelStep s w) (hw : w < 32) (hrun : (wheelOn s w && !parked s w) = true) :
    setStep s w n = setLock { stepped s w n with pwr := { s.pwr with relocking := relockingWith s w } } w false := by
  have hrun' : (wheelOn (stepped s w n) w && !parked (stepped s w n) w) = true := by rw [wheelOn_stepped s n w hw]; exact hrun
  unfold setStep
  rw [if_pos (by simpa using h)]
  exact if_pos hrun'

theorem wheelStep_stepped_same (s : State) (w n : Nat) (hn : n ≤ 4) : wheelStep (stepped s w n) w = n := by
  rw [wheelStep, stepped, regF_setRegF_same _ _ _ (by omega)]
  exact Nat.mod_eq_of_lt (by omega)

theorem wheelStep_stepped_other (s : State) {i w : Nat} (n : Nat) (hreg : i / 8 = w / 8) (h : i ≠ w) :
    wheelStep (stepped s i n) w = wheelStep s w := by
  rw [wheelStep, stepped, hreg, regF_setRegF_other _ _ _ (by omega), wheelStep]

/-- The lock bit of a Wheel lies in a register of its own (R467, R482). -/
theorem lock_facts (u : State) {i w : Nat} (v : Bool) (hi : i < 32) (hw : w < 32) :
    wheelStep (setLock u i v) w = wheelStep u w ∧ wheelOn (setLock u i v) w = wheelOn u w := by
  have hreg : ∀ a, a ≠ aPwr 0x060 → reg (setLock u i v) a = reg u a := fun a ha => by
    refine reg_setRegB_other u ?_ v
    simp only [aPwr] at ha ⊢
    omega
  refine ⟨?_, wheelOn_congr (hreg _ (by decide)) rfl w⟩
  rw [wheelStep, regF, hreg _ (by simp only [aPwr]; omega), wheelStep, regF]

theorem clockKept_stepped (s : State) {i w : Nat} (n : Nat) (hi : i < 32) (hreg : i / 8 = w / 8) (h : i ≠ w) :
    ClockKept w s (stepped s i n) :=
  ⟨wheelStep_stepped_other s n hreg h, wheelOn_stepped s n w hi, rfl, id⟩

theorem clockKept_setStep_other (s : State) {i w : Nat} (n : Nat) (hi : i < 32) (hreg : i / 8 = w / 8) (h : i ≠ w) :
    ClockKept w s (setStep s i n) := by
  have hw : w < 32 := by omega
  have hkept := clockKept_stepped s n hi hreg h
  by_cases hn : n ≤ 4 ∧ n ≠ wheelStep s i
  · by_cases hrun : (wheelOn s i && !parked s i) = true
    · rw [setStep_of_running hn hi hrun]
      obtain ⟨hstep, hon⟩ := lock_facts { stepped s i n with pwr := { s.pwr with relocking := relockingWith s i } } false hi hw
      refine ⟨hstep.trans hkept.step, hon.trans hkept.on, rfl, fun hin => ?_⟩
      exact (ite_iff_contains _ _ _).trans (by rw [hin, Bool.true_or])
    · rw [setStep_of_still hn hi (Bool.eq_false_of_not_eq_true hrun)]
      exact hkept
  · rw [setStep_of_same hn]
    exact ClockKept.refl w s

theorem clockKept_foldl_setStep {j w : Nat} (v : W32) (hj : j = w / 8) (hw : w < 32) (l : List Nat) (hl : ∀ i ∈ l, i < 8 ∧ i ≠ w % 8)
    (s : State) : ClockKept w s (l.foldl (fun s i => setStep s (8 * j + i) (fld v (4 * i) 3)) s) := by
  induction l generalizing s with
  | nil => exact ClockKept.refl w s
  | cons i l ih =>
    obtain ⟨hi8, hiw⟩ := hl i List.mem_cons_self
    exact (clockKept_setStep_other s _ (by omega) (by omega) (by omega)).trans (ih (fun i hi => hl i (List.mem_cons_of_mem _ hi)) _)

/-- A step of Wheel `w` itself: a running one stops until it has relocked. -/
theorem setStep_same_effect (s : State) {w : Nat} (n : Nat) (hw : w < 32) :
    (n ≤ 4 → wheelStep (setStep s w n) w = n) ∧ (4 < n → wheelStep (setStep s w n) w = wheelStep s w) ∧
    (n ≤ 4 → n ≠ wheelStep s w → wheelOn s w = true → parked s w = false → (setStep s w n).pwr.relocking.contains w = true) := by
  by_cases hn : n ≤ 4 ∧ n ≠ wheelStep s w
  · by_cases hrun : (wheelOn s w && !parked s w) = true
    · rw [setStep_of_running hn hw hrun]
      obtain ⟨hstep, -⟩ := lock_facts { stepped s w n with pwr := { s.pwr with relocking := relockingWith s w } } false hw hw
      refine ⟨fun hle => hstep.trans (wheelStep_stepped_same s w n hle), fun hgt => by omega, fun _ _ _ _ => ?_⟩
      exact (ite_iff_contains _ _ _).trans (by rw [decide_eq_true rfl, Bool.or_true])
    · rw [setStep_of_still hn hw (Bool.eq_false_of_not_eq_true hrun)]
      refine ⟨fun hle => wheelStep_stepped_same s w n hle, fun hgt => by omega, fun _ _ hon hpark => ?_⟩
      exact absurd (by rw [hon, hpark]; rfl) hrun
  · rw [setStep_of_same hn]
    refine ⟨fun hle => ?_, fun _ => rfl, fun hle hne => absurd ⟨hle, hne⟩ hn⟩
    by_contra hne
    exact hn ⟨hle, fun h => hne h.symm⟩

/-- A write of the frequencies of eight Wheels, as one of them sees it. -/
theorem wheelFreqOp_effect (s : State) {w : Nat} (v : W32) (hw : w < 32) :
    ∃ t, wheelFreqOp s (w / 8) v = t ∧
      (fld v (4 * (w % 8)) 3 ≤ 4 → wheelStep t w = fld v (4 * (w % 8)) 3) ∧
      (4 < fld v (4 * (w % 8)) 3 → wheelStep t w = wheelStep s w) ∧
      (fld v (4 * (w % 8)) 3 ≤ 4 → fld v (4 * (w % 8)) 3 ≠ wheelStep s w → wheelOn s w = true → parked s w = false →
        wheelRuns t w = false) := by
  have hsplit : List.range 8 = List.range (w % 8) ++ (w % 8) :: (List.range (7 - w % 8)).map (w % 8 + 1 + ·) := by
    have hlt : w % 8 < 8 := Nat.mod_lt _ (by omega)
    interval_cases w % 8 <;> rfl
  have hat : 8 * (w / 8) + w % 8 = w := by omega
  have hbefore := clockKept_foldl_setStep v rfl hw (List.range (w % 8)) (fun i hi => by have := List.mem_range.mp hi; omega) s
  generalize hu : (List.range (w % 8)).foldl (fun s i => setStep s (8 * (w / 8) + i) (fld v (4 * i) 3)) s = u at hbefore
  obtain ⟨hset, hkeep, hstop⟩ := setStep_same_effect u (fld v (4 * (w % 8)) 3) hw
  have hafter := clockKept_foldl_setStep v rfl hw ((List.range (7 - w % 8)).map (w % 8 + 1 + ·)) (fun i hi => by
    obtain ⟨k, hk, rfl⟩ := List.mem_map.mp hi
    have := List.mem_range.mp hk
    omega) (setStep u w (fld v (4 * (w % 8)) 3))
  have hop : wheelFreqOp s (w / 8) v = ((List.range (7 - w % 8)).map (w % 8 + 1 + ·)).foldl
      (fun s i => setStep s (8 * (w / 8) + i) (fld v (4 * i) 3)) (setStep u w (fld v (4 * (w % 8)) 3)) := by
    rw [wheelFreqOp, hsplit, List.foldl_append, List.foldl_cons, hu, hat]
  refine ⟨_, hop, fun hle => hafter.step.trans (hset hle), fun hgt => hafter.step.trans ((hkeep hgt).trans hbefore.step),
    fun hle hne hon hpark => ?_⟩
  have hin := hafter.stopped (hstop hle (by rwa [hbefore.step]) (hbefore.on.trans hon) (hbefore.parked.trans hpark))
  rw [wheelRuns, hin, Bool.not_true, Bool.and_false]

end

/-! ### Parking, warm Wheels and lost clocks (R468, R473) -/

section
variable {s t u : State} {w : Nat} {v : W32}

theorem exec_wheelFreqWrite (hw : w < 32) : exec (.wheelFreqWrite hubA (w / 8) v) s = .next (wheelFreqOp s (w / 8) v) := by
  have hj : w / 8 < 4 := by omega
  have hrun : byHubA s hubA (aPwr (0x048 + 4 * (w / 8))) (fun s => if w / 8 < 4 then wheelFreqOp s (w / 8) v else s) =
      wheelFreqOp s (w / 8) v := by
    simp only [byHubA, granted, decide_true, if_true, hj]
  exact congrArg Host.Outcome.next hrun

theorem relockDone_effect (hw : w < 32) (hin : w ∈ s.pwr.relocking) (hon : wheelOn s w = true) (hpark : parked s w = false) :
    ∃ t, exec (.relockDone w) s = .next t ∧ wheelRuns t w = true ∧ regB t (aPwr (0x060 + 4 * (w / 32))) w = true := by
  have hop : relockDoneOp s w = setLock { s with pwr := { s.pwr with relocking := s.pwr.relocking.filter (· ≠ w) } } w true :=
    if_pos (by simpa using hin)
  obtain ⟨-, hkeep⟩ := lock_facts (w := w) { s with pwr := { s.pwr with relocking := s.pwr.relocking.filter (· ≠ w) } } true hw hw
  have hbit : w % 32 = w := Nat.mod_eq_of_lt hw
  refine ⟨_, congrArg Host.Outcome.next hop, ?_, ?_⟩
  · have hpark' : parked (setLock { s with pwr := { s.pwr with relocking := s.pwr.relocking.filter (· ≠ w) } } w true) w = false := hpark
    have hout : (s.pwr.relocking.filter (· ≠ w)).contains w = false := by simp
    have hlist : (setLock { s with pwr := { s.pwr with relocking := s.pwr.relocking.filter (· ≠ w) } } w true).pwr.relocking =
      s.pwr.relocking.filter (· ≠ w) := rfl
    rw [wheelRuns, hkeep.trans hon, hpark', hlist, hout]
    rfl
  · have hset : regB (setLock { s with pwr := { s.pwr with relocking := s.pwr.relocking.filter (· ≠ w) } } w true)
      (aPwr (0x060 + 4 * (w / 32))) (w % 32) = true := regB_setRegB_same _ _ _ (by omega)
    rwa [hbit] at hset

theorem clockFault_effect (hw : w < 32) (hlock : regB s (aPwr (0x060 + 4 * (w / 32))) w = true) :
    exec (.clockFault w) s = .next (emit (setLock s w false) islAon 0x430 0x084 [w32 w]) := by
  have hbit : w % 32 = w := Nat.mod_eq_of_lt hw
  exact congrArg Host.Outcome.next (if_pos (by rw [hbit]; exact hlock))

theorem recompute_pwr (s : State) : (recompute s).pwr = s.pwr := by
  unfold recompute
  split <;> rfl

theorem recompute_gov (s : State) :
    (recompute s).gov = { s.gov with recompute := (recompute s).gov.recompute, recomputeJoined := (recompute s).gov.recomputeJoined } := by
  unfold recompute
  split <;> rfl

/-- The base cost of Wheel `w` goes back to the account that paid it. -/
theorem giveBack_gov (s : State) (n : Nat) (class0 : Bool) : (giveBack s n class0).gov =
    { s.gov with reserve := if class0 then s.gov.reserve - n else s.gov.reserve
                 general := if class0 then s.gov.general else s.gov.general - n } := by
  cases class0 <;> rfl

theorem wheelPark_effect (hon : wheelOn s w = true) (hpark : parked s w = false) (hwarm : warm s w = false)
    (h0 : holdsWork s w true = false) (h1 : holdsWork s w false = false)
    (hnone : ∀ r ∈ s.gov.raised ++ s.gov.waiting ++ s.gov.granted, r.work.wheel ≠ some w) :
    ∃ t, exec (.wheelPark w) s = .next t ∧ parked t w = true ∧ base t w = .none ∧
      (base s w = .general → t.gov.general = s.gov.general - 2) ∧ (base s w = .reserve → t.gov.reserve = s.gov.reserve - 2) := by
  have hany : (s.gov.raised ++ s.gov.waiting ++ s.gov.granted).any (fun r => r.work.wheel = some w) = false :=
    List.any_eq_false.mpr fun r hr => by simpa using hnone r hr
  have hgov := giveBack_gov s (if base s w = .none then 0 else 2) (decide (base s w = .reserve))
  have hpwr := (onlyGov_giveBack s (if base s w = .none then 0 else 2) (decide (base s w = .reserve)))
  have hop : wheelParkOp s w = recompute { setLock (setParked (setBase (giveBack s (if base s w = .none then 0 else 2)
      (decide (base s w = .reserve))) w .none) w true) w false with
    gov := { (setBase (giveBack s (if base s w = .none then 0 else 2) (decide (base s w = .reserve))) w .none).gov with
      moving := (setBase (giveBack s (if base s w = .none then 0 else 2) (decide (base s w = .reserve))) w .none).gov.moving.filter
        (· ≠ w) } } := by
    unfold wheelParkOp
    rw [hon, hpark, hwarm, h0, h1, hany]
    rfl
  generalize giveBack s (if base s w = .none then 0 else 2) (decide (base s w = .reserve)) = u at hgov hpwr hop
  refine ⟨_, congrArg Host.Outcome.next hop, ?_, ?_, fun hb => ?_, fun hb => ?_⟩
  · rw [parked, recompute_pwr]
    exact smGet_smSet_same u.pwr.parked w true true
  · rw [base, recompute_gov]
    exact smGet_smSet_same u.gov.bases w Base.none Base.none
  · rw [recompute_gov]
    change u.gov.general = _
    rw [hgov, hb]
    rfl
  · rw [recompute_gov]
    change u.gov.reserve = _
    rw [hgov, hb]
    rfl

theorem wheelUnpark_effect (hon : wheelOn s w = true) (hpark : parked s w = true) (hbase : base s w ≠ .none) :
    exec (.wheelUnpark w) s = .next (setLock (setParked s w false) w true) :=
  congrArg Host.Outcome.next (if_pos (by simp [hon, hpark, hbase]))

/-! ### Warm Wheels -/

/-- Only the governor changed, and only by requests that joined. -/
def RaisedMore (s t : State) : Prop := OnlyGov s t ∧ ∀ w, baseAsked s w = true → baseAsked t w = true

theorem RaisedMore.refl (s : State) : RaisedMore s s := ⟨rfl, fun _ h => h⟩

theorem RaisedMore.trans (h : RaisedMore s t) (h' : RaisedMore t u) : RaisedMore s u :=
  ⟨h.1.trans h'.1, fun w hw => h'.2 w (h.2 w hw)⟩

theorem baseAsked_iff (s : State) (w : Nat) :
    baseAsked s w = true ↔ base s w ≠ .none ∨ ∃ r ∈ s.gov.raised ++ s.gov.waiting ++ s.gov.granted, r.work = .wheelBase w := by
  rw [baseAsked, Bool.or_eq_true, List.any_eq_true]
  simp only [decide_eq_true_eq, ne_eq]

theorem raisedMore_wakeWheel (s : State) (w : Nat) (class0 : Bool) : RaisedMore s (wakeWheel s w class0) := by
  refine ⟨onlyGov_wakeWheel s w class0, fun x hx => ?_⟩
  unfold wakeWheel
  split
  · rw [baseAsked_iff] at hx ⊢
    refine hx.imp id fun ⟨r, hr, hwork⟩ => ⟨r, ?_, hwork⟩
    simp only [askTokens, List.mem_append] at hr ⊢
    tauto
  · exact hx

theorem baseAsked_wakeWheel (class0 : Bool) (hon : wheelOn s w = true) (hpark : parked s w = true) :
    baseAsked (wakeWheel s w class0) w = true := by
  unfold wakeWheel
  cases hasked : baseAsked s w with
  | true => rw [if_neg (by simp)]; exact hasked
  | false =>
    rw [if_pos (by simp [hon, hpark]), baseAsked_iff]
    exact Or.inr ⟨{ work := .wheelBase w, tokens := 2, class0 := class0, raisedAt := s.ticks }, by simp [askTokens], rfl⟩

theorem raisedMore_foldl (l : List Nat) (s : State) :
    RaisedMore s (l.foldl (fun s w => if bitOf v w && wheelOn s w then wakeWheel s w false else s) s) ∧
    ∀ w ∈ l, bitOf v w = true → wheelOn s w = true → parked s w = true →
      baseAsked (l.foldl (fun s w => if bitOf v w && wheelOn s w then wakeWheel s w false else s) s) w = true := by
  induction l generalizing s with
  | nil => exact ⟨RaisedMore.refl s, fun w hw => absurd hw List.not_mem_nil⟩
  | cons i l ih =>
    have hfirst : RaisedMore s (if bitOf v i && wheelOn s i then wakeWheel s i false else s) := by
      split
      · exact raisedMore_wakeWheel s i false
      · exact RaisedMore.refl s
    obtain ⟨hrest, hasked⟩ := ih (if bitOf v i && wheelOn s i then wakeWheel s i false else s)
    refine ⟨hfirst.trans hrest, fun w hw hbit hon hpark => ?_⟩
    rw [List.foldl_cons]
    rcases List.mem_cons.mp hw with rfl | hl
    · refine hrest.2 w ?_
      rw [hbit, hon, Bool.and_self, if_pos rfl]
      exact baseAsked_wakeWheel false hon hpark
    · have hsame := hfirst.1
      exact hasked w hl hbit (by rw [hsame]; exact hon) (by rw [hsame]; exact hpark)

theorem wheelWarmWrite_effect (hw : w < 32) :
    ∃ t, exec (.wheelWarmWrite hubA v) s = .next t ∧ t = { s with regs := t.regs, gov := t.gov } ∧ reg t (aPwr 0x040) = v ∧
      (bitOf v w = true → wheelOn s w = true → parked s w = true → baseAsked t w = true) := by
  obtain ⟨⟨honly, -⟩, hasked⟩ := raisedMore_foldl (v := v) (List.range 32) (setReg s (aPwr 0x040) v)
  have hexec : exec (.wheelWarmWrite hubA v) s = .next (wheelWarmOp s v) := by
    have hrun : byHubA s hubA (aPwr 0x040) (fun s => wheelWarmOp s v) = wheelWarmOp s v := by
      simp only [byHubA, granted, decide_true, if_true]
    exact congrArg Host.Outcome.next hrun
  have hon : wheelOn (setReg s (aPwr 0x040) v) w = wheelOn s w := wheelOn_congr (reg_setReg_other s (by decide) v) rfl w
  rw [← wheelWarmOp] at honly hasked
  refine ⟨_, hexec, ?_, (honly.reg _).trans (reg_setReg_same _ _ _), fun hbit hwon hpark => ?_⟩
  · rw [honly]; rfl
  · exact hasked w (List.mem_range.mpr hw) hbit (hon.trans hwon) hpark

end

/-- Settles O37: a frequency step touches its own Wheel's clock; waking raises the base request. -/
theorem wheelClocksFollowTheirWork : Obligations.WheelClocksFollowTheirWork := by
  unfold Obligations.WheelClocksFollowTheirWork
  intro s w v hw
  refine ⟨?_, relockDone_effect hw, clockFault_effect hw, wheelPark_effect, wheelUnpark_effect, wheelWarmWrite_effect hw⟩
  obtain ⟨t, ht, hrest⟩ := wheelFreqOp_effect s v hw
  exact ⟨t, (exec_wheelFreqWrite hw).trans (congrArg Host.Outcome.next ht), hrest⟩

end Sys2Proof.Machine
end

section
/-! SUPPORT. Power domains: what stays while one changes, what a domain loses and begins with. -/

namespace Sys2Proof.Machine

/-! ### What stays while domains change (R17, R470) -/

/-- An address of a Wheel whose domain is not on. -/
def ColdAddr (s : State) (a : Nat) : Prop :=
  ∃ d, d < 16 ∧ domState s d ≠ .on ∧ aWheel (2 * d) 0 ≤ a ∧ a < aWheel (2 * d + 2) 0

/-- A step that moves no domain: the domains, the requests and the locks of the islands beyond the Wheels, the Chamber and the
zeros of Wheels that are not on stay, and memory stays in its canonical form. -/
structure Calm (s t : State) : Prop where
  domains : t.pwr.domains = s.pwr.domains
  request : reg t (aPwr 0x020) = reg s (aPwr 0x020)
  locks : reg t (aPwr 0x064) = reg s (aPwr 0x064)
  chamber : t.chamber = s.chamber
  canon : Memory.wf s.mem = true → Memory.wf t.mem = true
  cold : ∀ a, ColdAddr s a → rdByte s a = 0 → rdByte t a = 0

section
variable {s t u : State}

theorem Calm.refl (s : State) : Calm s s := ⟨rfl, rfl, rfl, rfl, id, fun _ _ h => h⟩

theorem ColdAddr.congr (h : t.pwr.domains = s.pwr.domains) {a : Nat} (hc : ColdAddr s a) : ColdAddr t a := by
  obtain ⟨d, hd, hoff, hlo, hhi⟩ := hc
  exact ⟨d, hd, by simpa only [domState, h] using hoff, hlo, hhi⟩

theorem Calm.trans (h : Calm s t) (h' : Calm t u) : Calm s u :=
  ⟨h'.domains.trans h.domains, h'.request.trans h.request, h'.locks.trans h.locks, h'.chamber.trans h.chamber,
    h'.canon ∘ h.canon, fun a hc h0 => h'.cold a (hc.congr h.domains) (h.cold a hc h0)⟩

/-- A step that leaves memory, domains, the Chamber and the registers. -/
theorem Calm.of_frame (hmem : t.mem = s.mem) (hdom : t.pwr.domains = s.pwr.domains) (hch : t.chamber = s.chamber)
    (hregs : t.regs = s.regs) : Calm s t :=
  ⟨hdom, reg_congr hregs _, reg_congr hregs _, hch, by rw [hmem]; exact id, fun a _ h => by rw [rdByte, hmem]; exact h⟩

theorem calm_setReg (s : State) {a : Nat} (v : W32) (h : aPwr 0x064 < a ∨ a < aPwr 0x020) : Calm s (setReg s a v) := by
  have h20 : aPwr 0x020 ≠ a := by simp only [aPwr] at h ⊢; omega
  have h64 : aPwr 0x064 ≠ a := by simp only [aPwr] at h ⊢; omega
  exact ⟨rfl, reg_setReg_other s h20 v, reg_setReg_other s h64 v, rfl, id, fun _ _ h => h⟩

theorem calm_setRegF (s : State) {a : Nat} (lo len v : Nat) (h : aPwr 0x064 < a ∨ a < aPwr 0x020) : Calm s (setRegF s a lo len v) :=
  calm_setReg s _ h

theorem calm_setRegB (s : State) {a : Nat} (i : Nat) (v : Bool) (h : aPwr 0x064 < a ∨ a < aPwr 0x020) : Calm s (setRegB s a i v) :=
  calm_setReg s _ h

theorem calm_bump (s : State) {a : Nat} (h : aPwr 0x064 < a ∨ a < aPwr 0x020) : Calm s (bump s a) := calm_setReg s _ h

theorem calm_ite {p : Prop} [Decidable p] (ht : Calm s t) (hu : Calm s u) : Calm s (if p then t else u) := by
  split <;> assumption

theorem calm_foldl {α : Type} {f : State → α → State} (h : ∀ s x, Calm s (f s x)) (l : List α) (s : State) : Calm s (l.foldl f s) := by
  induction l generalizing s with
  | nil => exact Calm.refl s
  | cons x l ih => exact (h s x).trans (ih _)

/-! #### Outputs, messages and records (R329, R352, R455) -/

theorem calm_emitOut (s : State) (o : Out) : Calm s (emitOut s o) := .of_frame rfl rfl rfl rfl

theorem calm_hostOut (s : State) (f : Nat) (o : Out) : Calm s (hostOut s f o) :=
  calm_ite (.of_frame rfl rfl rfl rfl) (.of_frame rfl rfl rfl rfl)

theorem calm_setFunc (s : State) (f : Nat) (k : Func) : Calm s (setFunc s f k) := .of_frame rfl rfl rfl rfl

theorem calm_sendMsix (s : State) (f v : Nat) : Calm s (sendMsix s f v) :=
  calm_ite (.refl s) (calm_ite (.of_frame rfl rfl rfl rfl) (calm_hostOut s _ _))

theorem calm_diagEntry (s : State) (rtype : Nat) (f : Option Nat) (q cid : Nat) (code : W32) (detail : List Byte) (tag : Nat) :
    Calm s (diagEntry s rtype f q cid code detail tag) :=
  calm_ite (.refl s) (calm_ite (calm_bump s (by decide))
    (((calm_hostOut s _ _).trans (calm_setReg _ _ (by decide))).trans (calm_sendMsix _ _ _)))

theorem calm_raiseRecord (s : State) (island source rtype : Nat) (payload : List W32) : Calm s (raiseRecord s island source rtype payload) := by
  have hdrop : Calm s (countDrop s) := calm_bump s (by split <;> decide)
  exact calm_ite (.of_frame rfl rfl rfl rfl) (calm_ite (hdrop.trans (.of_frame rfl rfl rfl rfl)) (hdrop.trans (.of_frame rfl rfl rfl rfl)))

theorem calm_emit (s : State) (island source rtype : Nat) (payload : List W32) : Calm s (emit s island source rtype payload) :=
  Calm.trans (calm_ite (calm_diagEntry s _ _ _ _ _ _ _) (.refl s)) (calm_raiseRecord _ _ _ _ _)

theorem calm_violate (s : State) (m kind addr : Nat) : Calm s (violate s m kind addr) := .of_frame rfl rfl rfl rfl

theorem calm_offAccess (s : State) (m addr : Nat) : Calm s (offAccess s m addr) := calm_emit s _ _ _ _

/-! #### Memory written by DMA (R19, R99, R104) -/

theorem calm_wrBytes {p : Nat} {bs : List Byte} (h : ∀ a, ColdAddr s a → a < p ∨ p + bs.length ≤ a) : Calm s (wrBytes s p bs) := by
  have hframe := wrBytes_frame bs s p
  refine ⟨by rw [hframe], by rw [hframe]; rfl, by rw [hframe]; rfl, by rw [hframe], wrBytes_wf bs p, fun a hc h0 => ?_⟩
  rw [rdByte_wrBytes_other bs s (h a hc), h0]

theorem calm_wipeMem (s : State) (lo hi : Nat) : Calm s (wipeMem s lo hi) := by
  refine ⟨rfl, rfl, rfl, rfl, wipeMem_wf lo hi, fun a _ h0 => ?_⟩
  rw [rdByte, wipeMem, smGet_smDrop]
  split
  · rfl
  · exact h0

theorem aPwr_lt_statusAddr (b : Nat) : aPwr 0x064 < statusAddr b := by
  unfold statusAddr
  split <;> simp only [aPwr, aFw, aWheel] <;> omega

theorem calm_settleBank (s : State) (b : Nat) : Calm s (settleBank s b) :=
  calm_ite ((calm_wipeMem s _ _).trans (calm_setRegB _ _ _ (Or.inl (aPwr_lt_statusAddr b)))) (.refl s)

theorem calm_dmaTouch (s : State) (a : Nat) : Calm s (dmaTouch s a) := by
  unfold dmaTouch
  split
  · exact (calm_settleBank s _).trans (.of_frame rfl rfl rfl rfl)
  · exact .refl s

/-- The bytes that a part of a DMA write may touch lie outside the Wheels that are not on. -/
def WarmSpan (s : State) (p n : Nat) : Prop := ∀ a, ColdAddr s a → a < p ∨ p + n ≤ a

theorem WarmSpan.congr {p n : Nat} (h : WarmSpan s p n) (hdom : t.pwr.domains = s.pwr.domains) : WarmSpan t p n :=
  fun a hc => h a (hc.congr hdom.symm)

theorem calm_wrMem {p n : Nat} (v : Nat) (h : WarmSpan s p n) : Calm s (wrMem s p n v) :=
  calm_wrBytes fun a hc => by rw [length_leBytes]; exact h a hc

/-- Words written in order, each of which may depend on memory. -/
theorem calm_foldl_wrMem (val : State → Nat → Nat) {p n : Nat} (l : List Nat) (hl : ∀ i ∈ l, i < n / 8) (s : State)
    (h : WarmSpan s p n) : Calm s (l.foldl (fun s i => wrMem s (p + 8 * i) 8 (val s i)) s) := by
  induction l generalizing s with
  | nil => exact .refl s
  | cons i l ih =>
    have hi := hl i List.mem_cons_self
    have hword : Calm s (wrMem s (p + 8 * i) 8 (val s i)) := calm_wrMem _ fun a hc => by
      have := h a hc
      omega
    rw [List.foldl_cons]
    exact hword.trans (ih (fun i hi => hl i (List.mem_cons_of_mem _ hi)) _ (h.congr hword.domains))

theorem calm_dmaPut {a : Nat} {data : List Byte} (h : WarmSpan s (plainAddr a) data.length) : Calm s (dmaPut s a data) := by
  have hrange : ∀ i ∈ List.range (data.length / 8), i < data.length / 8 := fun i hi => List.mem_range.mp hi
  unfold dmaPut
  unfold plainAddr at h
  split
  · next hb =>
    rw [hb] at h
    exact calm_wrBytes h
  · next view p hne hb =>
    rw [hb] at h
    exact calm_foldl_wrMem (fun s i => viewValue view (rdMem s (p + 8 * i) 8) (field data (8 * i) 8) 64) _ hrange s h
  · next hb =>
    rw [hb] at h
    exact calm_wrBytes h

end

/-! #### DMA writes reach no Wheel that is not on (R19, R99) -/

section
variable {s t u : State}

theorem not_cold_of_on {w : Nat} (hon : wheelOn s w = true) {a : Nat} (hlo : aWheel w 0 ≤ a) (hhi : a < aWheel (w + 1) 0) : ¬ ColdAddr s a := by
  rintro ⟨d, hd, hoff, hclo, hchi⟩
  have hw : w / 2 = d := by
    simp only [aWheel] at hlo hhi hclo hchi
    omega
  rw [wheelOn, hw, domOn] at hon
  exact hoff (by simpa using (Bool.and_eq_true_iff.mp (Bool.and_eq_true_iff.mp hon).2).1)

theorem cold_range {a : Nat} (h : ColdAddr s a) : 0x200000000 ≤ a ∧ a < 0x220000000 := by
  obtain ⟨d, hd, -, hlo, hhi⟩ := h
  simp only [aWheel] at hlo hhi
  omega

/-- The plain address of an access through a Wheel's pool, and the end of its part, lie in the Wheel's window. -/
theorem poolPlain_bounds {a n : Nat} (ha : 8589934592 ≤ a) (hlo : 1048576 ≤ a % 16777216) (hhi : a % 16777216 < 2621440)
    (hpart : a % 131072 + n ≤ 131072) :
    aWheel ((a - 8589934592) / 16777216) 0 ≤ a - 524288 * ((a % 16777216 - 1048576) / 524288) ∧
      a - 524288 * ((a % 16777216 - 1048576) / 524288) + n ≤ aWheel ((a - 8589934592) / 16777216 + 1) 0 := by
  obtain ⟨w, hw⟩ : ∃ w, (a - 8589934592) / 16777216 = w := ⟨_, rfl⟩
  obtain ⟨o, ho⟩ : ∃ o, a % 16777216 = o := ⟨_, rfl⟩
  obtain ⟨k, hk⟩ : ∃ k, (o - 1048576) / 524288 = k := ⟨_, rfl⟩
  have hsum : a = 8589934592 + 16777216 * w + o := by omega
  rw [hw, ho, hk]
  simp only [aWheel]
  omega

/-- A part of a range lies in one bank, whose memory runs; what is in no bank is Hub SRAM. -/
theorem warmSpan_of_part {a n : Nat} (hpart : a % 0x20000 + n ≤ 0x20000) (hplace : bankAt a = none → inSram a = true)
    (hon : dmaOn s a = true) : WarmSpan s (plainAddr a) n := by
  intro x hx
  obtain ⟨hxlo, hxhi⟩ := cold_range hx
  unfold plainAddr
  cases hb : bankAt a with
  | none =>
    have hsram := hplace hb
    simp only [inSram, Bool.and_eq_true, decide_eq_true_eq] at hsram
    simp only [Option.map_none, Option.getD_none]
    omega
  | some e =>
    obtain ⟨b, view, p⟩ := e
    simp only [Option.map_some, Option.getD_some]
    have hbank : bankOf a = some b := by rw [bankOf, hb]; rfl
    rw [dmaOn, hbank] at hon
    change bankOn s b = true at hon
    unfold bankAt at hb
    dsimp only at hb
    split_ifs at hb with h0 h1 h2 h3 h4
    all_goals simp only [Bool.and_eq_true, decide_eq_true_eq, Option.some.injEq, Prod.mk.injEq] at *
    · omega
    · omega
    · omega
    · obtain ⟨hbank, -, rfl⟩ := hb
      by_contra hin
      push Not at hin
      have hw : poolWheel b = (a - 0x200000000) / 0x1000000 := by
        unfold poolWheel
        omega
      rw [bankOn, if_neg (by omega), if_neg (by omega), if_neg (by omega), hw] at hon
      obtain ⟨hplo, hphi⟩ := poolPlain_bounds h3.1 h4.1 h4.2 hpart
      exact not_cold_of_on hon (hplo.trans hin.1) (hin.2.trans_le hphi) hx

theorem calm_dmaWritePart {unit a : Nat} {data : List Byte} (hpart : a % 0x20000 + data.length ≤ 0x20000)
    (hplace : bankAt a = none → inSram a = true) : Calm s (dmaWritePart s unit a data) := by
  unfold dmaWritePart
  split
  · next hon =>
    have htouch := calm_dmaTouch s a
    exact htouch.trans (calm_dmaPut ((warmSpan_of_part hpart hplace hon).congr htouch.domains))
  · exact calm_offAccess s _ _

theorem dmaPart_lt {a n : Nat} {e : Nat × Nat} (h : e ∈ dmaParts a n) : e.1 % 0x20000 + e.2 ≤ 0x20000 := by
  unfold dmaParts at h
  obtain ⟨i, -, hi⟩ := List.mem_filterMap.mp h
  dsimp only at hi
  split_ifs at hi with hlt
  obtain rfl := Option.some.inj hi
  dsimp only
  omega

theorem inSram_of_not_refused {unit m a : Nat} {write : Bool} (h : dmaRefuses s unit m a write = false) (hb : bankAt a = none) :
    inSram a = true := by
  by_contra hout
  rw [Bool.not_eq_true] at hout
  have hbank : bankOf a = none := by rw [bankOf, hb]; rfl
  rw [dmaRefuses, dmaOn, hbank, dmaMay, hb] at h
  simp [hout] at h

theorem calm_dmaWrite (s : State) (unit m a : Nat) (data : List Byte) : Calm s (dmaWrite s unit m a data).1 := by
  have hparts : ∀ l : List (Nat × Nat), (∀ e ∈ l, e ∈ dmaParts a data.length ∧ dmaRefuses s unit m e.1 true = false) → ∀ t,
      Calm t (l.foldl (fun s e => dmaWritePart s unit e.1 ((data.drop (e.1 - a)).take e.2)) t) := by
    intro l
    induction l with
    | nil => exact fun _ t => .refl t
    | cons e l ih =>
      intro hl t
      obtain ⟨hmem, hok⟩ := hl e List.mem_cons_self
      have hlen : ((data.drop (e.1 - a)).take e.2).length ≤ e.2 := by
        rw [List.length_take]
        exact Nat.min_le_left _ _
      have hpart := dmaPart_lt hmem
      have hfirst : Calm t (dmaWritePart t unit e.1 ((data.drop (e.1 - a)).take e.2)) :=
        calm_dmaWritePart (by omega) (inSram_of_not_refused hok)
      exact hfirst.trans (ih (fun e he => hl e (List.mem_cons_of_mem _ he)) _)
  have hgranted := hparts (dmaGranted s unit m a data.length true).1 (fun e he => by
    have htake := List.mem_takeWhile_imp he
    exact ⟨List.takeWhile_subset _ he, by simpa using htake⟩) s
  unfold dmaWrite
  simp only
  split
  · exact hgranted.trans (calm_violate _ _ _ _)
  · exact hgranted

end

/-! #### Queues and functions that stop (R326, R333, R334, R342) -/

section
variable {s t u : State}

theorem calm_setQf (s : State) (q i lo len v : Nat) : Calm s (setQf s q i lo len v) :=
  calm_setRegF s _ _ _ (Or.inl (by simp only [aPwr, aQctx]; omega))

theorem calm_setQw (s : State) (q i : Nat) (v : W32) : Calm s (setQw s q i v) :=
  calm_setReg s _ (Or.inl (by simp only [aPwr, aQctx]; omega))

theorem calm_setFetched (s : State) (q : Nat) (es : List Entry) : Calm s (setFetched s q es) := .of_frame rfl rfl rfl rfl

theorem calm_aFunc (s : State) (f i : Nat) (v : Bool) : Calm s (setRegB s (aFunc f) i v) :=
  calm_setRegB s _ _ (Or.inl (by simp only [aPwr, aFunc]; omega))

theorem calm_setFState (s : State) (f v : Nat) : Calm s (setFState s f v) :=
  calm_setRegF s _ _ _ (Or.inl (by simp only [aPwr, aFunc]; omega))

theorem calm_ringWrite (s : State) (q a : Nat) (bs : List Byte) : Calm s (ringWrite s q a bs) :=
  calm_ite (calm_dmaWrite s _ _ _ _) (calm_hostOut s _ _)

theorem calm_postCompletion (s : State) (q : Nat) (e : Entry) (status svc info : Nat) (result : List Byte) :
    Calm s (postCompletion s q e status svc info result) := by
  have hresult : Calm s (if result = [] then s else hostOut s (qFunc s q) (.hostWrite (qFunc s q) e.resultAddr result)) :=
    calm_ite (.refl s) (calm_hostOut s _ _)
  refine Calm.trans ?_ (calm_ite (calm_sendMsix _ _ _) (.refl _))
  refine Calm.trans ?_ (calm_setQw _ q 13 _)
  refine Calm.trans ?_ (calm_ite (calm_setQf _ q 10 31 1 _) (.refl _))
  refine Calm.trans ?_ (calm_setQf _ q 10 0 12 _)
  exact hresult.trans (calm_ringWrite _ _ _ _)

theorem calm_completeEntry (s : State) (q : Nat) (e : Entry) (status svc info : Nat) (result : List Byte) :
    Calm s (completeEntry s q e status svc info result) := by
  have hdiag : Calm s (match diagOf status with
      | some t => queueDiag s t q e.cid status
      | none => s) := by
    split
    · exact calm_diagEntry s _ _ _ _ _ _ _
    · exact .refl s
  exact (hdiag.trans (calm_ite (.refl _) (calm_postCompletion _ _ _ _ _ _ _))).trans (calm_setQf _ _ _ _ _ _)

theorem calm_queueStop (s : State) (q : Nat) : Calm s (queueStop s q) :=
  ((calm_setQf s _ _ _ _ _).trans (calm_setFetched _ _ _)).trans (calm_foldl (fun s e => calm_completeEntry s q e _ _ _ _) _ _)

theorem calm_queueOffReq (s : State) (q : Nat) : Calm s (queueOffReq s q) :=
  (calm_setQf s _ _ _ _ _).trans (calm_ite (calm_queueStop _ _) (calm_ite (calm_setQf _ _ _ _ _ _) (.refl _)))

theorem calm_settleFunc (s : State) (f : Nat) : Calm s (settleFunc s f) :=
  calm_ite ((calm_setFunc s _ _).trans (calm_setFState _ _ _)) (.refl s)

theorem calm_stopQueues (s : State) (f : Nat) : Calm s (stopQueues s f) :=
  calm_foldl (fun s q => calm_ite (calm_queueOffReq s q) (.refl s)) _ s

theorem calm_funcEnableOp (s : State) (f : Nat) (en : Bool) : Calm s (funcEnableOp s f en) := by
  refine (calm_aFunc s f 0 en).trans (calm_ite (calm_ite (calm_setFState _ _ _) (calm_ite (calm_setFState _ _ _) (.refl _))) ?_)
  refine calm_ite (((calm_setFState _ _ _).trans (calm_stopQueues _ _)).trans (calm_settleFunc _ _)) ?_
  exact calm_ite (calm_setFState _ _ _) (calm_ite (calm_setFunc _ _ _) (.refl _))

theorem calm_flrOp (s : State) (f : Nat) : Calm s (flrOp s f) := by
  have hcleared : Calm s { s with fabric := { s.fabric with deferred := s.fabric.deferred.filter fun e => e.1 ≠ f } } :=
    .of_frame rfl rfl rfl rfl
  refine Calm.trans ?_ (calm_funcEnableOp _ f false)
  exact hcleared.trans (.of_frame rfl rfl rfl rfl)

theorem calm_aHost (s : State) (o : Nat) (v : W32) : Calm s (setReg s (aHost o) v) :=
  calm_setReg s v (Or.inl (Nat.lt_of_lt_of_le (by decide : aPwr 0x064 < 0x40200000) (Nat.le_add_right _ o)))

theorem calm_perstOp (s : State) : Calm s (perstOp s) := by
  have hfuncs : Calm s ((List.range 256).foldl (fun s f => if fState s f ≠ stOff || func s f ≠ {} then flrOp s f else s) s) :=
    calm_foldl (fun s f => calm_ite (calm_flrOp s f) (.refl s)) _ s
  have hhost : ∀ t, Calm t ([0x010, 0x014, 0x018, 0x01C, 0x020, 0x040, 0x044, 0x048, 0x04C, 0x050, 0x054].foldl
      (fun s o => setReg s (aHost o) 0) t) :=
    calm_foldl (fun s o => calm_aHost s o 0) _
  have hfabric (u : State) : Calm u { u with fabric := { u.fabric with vectors := [], spdm := false, ideKeys := [], ideGo := [] } } :=
    .of_frame rfl rfl rfl rfl
  exact (hfuncs.trans (hhost _)).trans (hfabric _)

/-! #### Frames and links that go down (R389 to R392) -/

theorem calm_aChain (s : State) (x off i : Nat) (v : Bool) : Calm s (setRegB s (aChain x off) i v) :=
  calm_setRegB s _ _ (Or.inl (by simp only [aPwr, aChain]; omega))

theorem calm_setCport (s : State) (x : Nat) (k : ChainPort) : Calm s (setCport s x k) := .of_frame rfl rfl rfl rfl

theorem calm_tunPlace (s : State) (x : Nat) (f : Frame) : Calm s (tunPlace s x f) := by
  have hsent : Calm s (setReg (setCport s x { cport s x with tunTx := frameBytes f }) (aChain x 0x204) (w32 (frameBytes f).length)) :=
    (calm_setCport s _ _).trans (calm_setReg _ _ (Or.inl (by simp only [aPwr, aChain]; omega)))
  exact (hsent.trans (calm_aChain _ x 0x200 0 true)).trans (calm_ite (calm_sendMsix _ _ _) (.refl _))

theorem calm_egress (s : State) (x : Nat) (f : Frame) : Calm s (egress s x f) :=
  calm_ite (.refl s) (calm_ite (calm_emitOut s _) (calm_ite (calm_setCport s _ _) (calm_tunPlace s x f)))

theorem calm_ownFrame (s : State) (ftype : Nat) (dst : BitVec 128) (payload : List Byte) : Calm s (ownFrame s ftype dst payload).2 :=
  .of_frame rfl rfl rfl rfl

theorem calm_sendOn (s : State) (xs : List Nat) (ftype : Nat) (dst : BitVec 128) (payload : List Byte) :
    Calm s (sendOn s xs ftype dst payload) :=
  (calm_ownFrame s ftype dst payload).trans (calm_foldl (fun s x => calm_ite (calm_egress s x _) (.refl s)) _ _)

theorem calm_hubInt (s : State) (name : String) (arg : Nat) : Calm s (hubInt s name arg) := calm_emitOut s _

theorem calm_setLink (s : State) (x : Nat) (up : Bool) : Calm s (setLink s x up) := by
  refine calm_ite (.refl s) ?_
  have hbits := (calm_aChain s x 0x004 1 up).trans (calm_aChain _ x 0x008 (b2n up) true)
  have hrecord := (hbits.trans (calm_emit _ (islChain x) (0x410 + x) (if up then 0x0D1 else 0x0D2) [])).trans (calm_hubInt _ "INT_CHAIN" x)
  refine Calm.trans ?_ (calm_ite (calm_sendOn _ _ _ _ _) (.refl _))
  exact hrecord.trans (calm_ite (.refl _) ((calm_aChain _ x 0x004 2 false).trans (calm_setCport _ _ _)))

/-! #### Platforms that are held (R250, R260) -/

theorem calm_aPort (s : State) (p off : Nat) (v : W32) : Calm s (setReg s (aPort p off) v) :=
  calm_setReg s _ (Or.inl (by simp only [aPwr, aPort]; omega))

theorem calm_setPort (s : State) (p : Nat) (k : Port) : Calm s (setPort s p k) := .of_frame rfl rfl rfl rfl

theorem calm_brakeOp (s : State) (p bytes : Nat) (x : HostTxn) : Calm s (brakeOp s p bytes x) :=
  ((calm_emitOut s _).trans (calm_setPort _ _ _)).trans (calm_bump _ (Or.inl (by simp only [aPwr, aPort]; omega)))

theorem calm_releaseBus (s : State) (p bytes : Nat) (x : HostTxn) : Calm s (releaseBus s p bytes x) :=
  calm_ite (calm_brakeOp s p bytes x) ((calm_emitOut s _).trans (calm_ite (.refl _) (.of_frame rfl rfl rfl rfl)))

theorem calm_cutTxn (s : State) (p : Nat) : Calm s (cutTxn s p) := by
  unfold cutTxn
  split
  · exact (calm_setPort s _ _).trans (calm_ite (calm_releaseBus _ _ _ _) (.refl _))
  · exact .refl s

theorem calm_portHold (s : State) (p : Nat) : Calm s (portHold s p) :=
  ((calm_cutTxn s p).trans (calm_aPort _ p 0x00C _)).trans (calm_setPort _ _ _)

theorem calm_setPlat (s : State) (p : Nat) (k : Platform) : Calm s (setPlat s p k) := .of_frame rfl rfl rfl rfl

theorem calm_settle (s : State) : Calm s (settle s) :=
  calm_foldl (fun s _ => calm_ite (.refl s) (calm_setPlat s _ _)) _ s

theorem calm_noteWake (s : State) (cause pin : Nat) : Calm s (noteWake s cause pin) :=
  calm_ite (.of_frame rfl rfl rfl rfl) (.refl s)

theorem calm_holdOp (s : State) (p : Nat) : Calm s (holdOp s p) := by
  have hstatus (v : W32) : Calm s (setReg s (aPlat p 0x008) v) := calm_setReg s _ (Or.inl (by simp only [aPwr, aPlat]; omega))
  exact ((((hstatus _).trans (calm_setPlat _ _ _)).trans (calm_portHold _ p)).trans (calm_settle _)).trans (calm_noteWake _ _ _)

/-! #### Wheels that stop, ramps and tokens (R472 to R474) -/

theorem Calm.of_onlyGov (h : OnlyGov s t) : Calm s t := by
  rw [h]
  exact .of_frame rfl rfl rfl rfl

theorem calm_rampNext (s : State) : Calm s (rampNext s) := by
  unfold rampNext
  split
  · exact .of_frame rfl rfl rfl rfl
  · exact .refl s

theorem calm_queueRamp (s : State) (d : Nat) : Calm s (queueRamp s d) :=
  calm_ite (.refl s) (Calm.trans (t := { s with pwr := { s.pwr with rampQueue := s.pwr.rampQueue ++ [d] } })
    (.of_frame rfl rfl rfl rfl) (calm_rampNext _))

theorem calm_cancelRamp (s : State) (d : Nat) : Calm s (cancelRamp s d) := by
  have hqueue : Calm s { s with pwr := { s.pwr with rampQueue := s.pwr.rampQueue.filter (· ≠ d) } } := .of_frame rfl rfl rfl rfl
  have hgone (u : State) : Calm u { withdraw u (.ramp d) with pwr := { (withdraw u (.ramp d)).pwr with ramping := none } } :=
    (Calm.of_onlyGov (onlyGov_withdraw u _)).trans (.of_frame rfl rfl rfl rfl)
  exact hqueue.trans (calm_ite ((hgone _).trans (calm_rampNext _)) (.refl _))

theorem onlyGov_foldl_withdraw (l : List Request) (s : State) : OnlyGov s (l.foldl (fun s r => withdraw s r.work) s) := by
  induction l generalizing s with
  | nil => rfl
  | cons r l ih => exact (onlyGov_withdraw s r.work).trans (ih _)

theorem calm_setLock {w : Nat} (s : State) (v : Bool) (hw : w < 32) : Calm s (setLock s w v) := by
  have haddr : aPwr (0x060 + 4 * (w / 32)) = aPwr 0x060 := by rw [Nat.div_eq_of_lt hw]
  have h20 : aPwr 0x020 ≠ aPwr (0x060 + 4 * (w / 32)) := by rw [haddr]; decide
  have h64 : aPwr 0x064 ≠ aPwr (0x060 + 4 * (w / 32)) := by rw [haddr]; decide
  exact ⟨rfl, reg_setRegB_other s h20 v, reg_setRegB_other s h64 v, rfl, id, fun _ _ h => h⟩

/-- A Wheel's requests are gone, its own for its base among them. -/
def wheelDropped (s : State) (w : Nat) : State :=
  let gone := (s.gov.raised ++ s.gov.waiting ++ s.gov.granted).filter fun r =>
    r.work.wheel = some w && r.work ≠ .wheelBase w
  let s := gone.foldl (fun s r => withdraw s r.work) (dropRequests s (.wheelBase w))
  { s with gov := { s.gov with granted := s.gov.granted.filter fun r => r.work ≠ .wheelBase w } }

/-- A Wheel whose base cost goes back, parked and without a clock. -/
def wheelUnpaid (s : State) (w : Nat) : State :=
  setLock (setParked (setBase (giveBack s (if base s w = .none then 0 else 2) (base s w = .reserve)) w .none) w true) w false

theorem wheelStop_eq (s : State) (w : Nat) : wheelStop s w = { wheelUnpaid (wheelDropped s w) w with
    gov := { (wheelUnpaid (wheelDropped s w) w).gov with moving := (wheelUnpaid (wheelDropped s w) w).gov.moving.filter (· ≠ w) }
    pwr := { (wheelUnpaid (wheelDropped s w) w).pwr with
      relocking := (wheelUnpaid (wheelDropped s w) w).pwr.relocking.filter (· ≠ w) } } := rfl

theorem calm_wheelDropped (s : State) (w : Nat) : Calm s (wheelDropped s w) := by
  have hdropped : OnlyGov s (dropRequests s (.wheelBase w)) := rfl
  exact .of_onlyGov ((hdropped.trans (onlyGov_foldl_withdraw _ _)).trans rfl)

theorem calm_wheelUnpaid {w : Nat} (s : State) (hw : w < 32) : Calm s (wheelUnpaid s w) := by
  have hback := Calm.of_onlyGov (onlyGov_giveBack s (if base s w = .none then 0 else 2) (base s w = .reserve))
  have hparked (u : State) : Calm u (setParked (setBase u w .none) w true) := .of_frame rfl rfl rfl rfl
  exact (hback.trans (hparked _)).trans (calm_setLock _ false hw)

theorem calm_wheelStop {w : Nat} (s : State) (hw : w < 32) : Calm s (wheelStop s w) := by
  rw [wheelStop_eq]
  exact ((calm_wheelDropped s w).trans (calm_wheelUnpaid _ hw)).trans (.of_frame rfl rfl rfl rfl)

end

/-! ### The ends of holds and jobs leave memory, registers and power (R139, R155, R176, R526) -/

/-- Memory, the registers and the power state are the same. -/
structure KeepsMap (s t : State) : Prop where
  mem : t.mem = s.mem
  regs : t.regs = s.regs
  pwr : t.pwr = s.pwr

section
variable {s t u : State}

theorem KeepsMap.refl (s : State) : KeepsMap s s := ⟨rfl, rfl, rfl⟩

theorem KeepsMap.trans (h : KeepsMap s t) (h' : KeepsMap t u) : KeepsMap s u :=
  ⟨h'.mem.trans h.mem, h'.regs.trans h.regs, h'.pwr.trans h.pwr⟩

theorem keepsMap_ite {p : Prop} [Decidable p] (ht : KeepsMap s t) (hu : KeepsMap s u) : KeepsMap s (if p then t else u) := by
  split <;> assumption

theorem keepsMap_foldl {α : Type} {f : State → α → State} (h : ∀ s x, KeepsMap s (f s x)) (l : List α) (s : State) :
    KeepsMap s (l.foldl f s) := by
  induction l generalizing s with
  | nil => exact KeepsMap.refl s
  | cons x l ih => exact (h s x).trans (ih _)

theorem KeepsMap.of_onlyGov (h : OnlyGov s t) : KeepsMap s t := by
  rw [h]
  exact ⟨rfl, rfl, rfl⟩

theorem keepsMap_setCtx (s : State) (w x : Nat) (c : Ctx) : KeepsMap s (setCtx s w x c) := ⟨rfl, rfl, rfl⟩
theorem keepsMap_setCrank (s : State) (w : Nat) (k : Crank) : KeepsMap s (setCrank s w k) := ⟨rfl, rfl, rfl⟩
theorem keepsMap_setLane (s : State) (l : Nat) (k : Lane) : KeepsMap s (setLane s l k) := ⟨rfl, rfl, rfl⟩
theorem keepsMap_modCore (s : State) (c : Nat) (f : Core → Core) : KeepsMap s (modCore s c f) := ⟨rfl, rfl, rfl⟩

theorem keepsMap_startCtx (s : State) (w x : Nat) : KeepsMap s (startCtx s w x) := ⟨rfl, rfl, rfl⟩

theorem keepsMap_switchOn (s : State) (w x : Nat) : KeepsMap s (switchOn s w x) := keepsMap_ite (keepsMap_startCtx s w _) (.refl s)

theorem keepsMap_dropFifo (s : State) (w x : Nat) : KeepsMap s (dropFifo s w x) :=
  (keepsMap_ite (.refl s) (keepsMap_modCore s _ _)).trans (keepsMap_setCtx _ _ _ _)

theorem keepsMap_endCtx (s : State) (w x : Nat) : KeepsMap s (endCtx s w x) := by
  have hgov := (onlyGov_withdraw (dropFifo s w x) (.ctx w x)).trans (onlyGov_withdraw _ (.ctxGrow w x))
  exact (((keepsMap_dropFifo s w x).trans (.of_onlyGov hgov)).trans (keepsMap_setCtx _ _ _ _)).trans (keepsMap_switchOn _ _ _)

theorem keepsMap_dropCrank (s : State) (m w : Nat) : KeepsMap s (dropCrank s m w) := by
  have hclaims : KeepsMap s (if (crank s w).claims.any (fun c => c.master = m) then
      setCrank s w { crank s w with claims := (crank s w).claims.filter fun c => c.master ≠ m } else s) :=
    keepsMap_ite (keepsMap_setCrank s _ _) (.refl s)
  unfold dropCrank
  simp only
  split
  · exact hclaims.trans (keepsMap_endCtx _ _ _)
  · exact hclaims

theorem keepsMap_endLane (s : State) (l : Nat) : KeepsMap s (endLane s l) := by
  have hgone := KeepsMap.of_onlyGov (onlyGov_withdraw s (.lane l))
  exact (hgone.trans (keepsMap_ite (.refl _) (keepsMap_modCore _ _ _))).trans (keepsMap_setLane _ _ _)

theorem keepsMap_dropLane (s : State) (m l : Nat) : KeepsMap s (dropLane s m l) :=
  (keepsMap_ite (keepsMap_setLane s _ _) (.refl s)).trans (keepsMap_ite (keepsMap_endLane _ _) (.refl _))

theorem keepsMap_endHolds (s : State) (m : Nat) : KeepsMap s (endHolds s m) := by
  have hcranks := keepsMap_foldl (fun s w => keepsMap_dropCrank s m w) (wheelsOf m) s
  have hlanes := keepsMap_foldl (fun s l => keepsMap_dropLane s m l) (lanesOf m) ((wheelsOf m).foldl (fun s w => dropCrank s m w) s)
  have hunwrap (u : State) : KeepsMap u (dropUnwrap u m) := ⟨rfl, rfl, rfl⟩
  exact (hcranks.trans hlanes).trans (hunwrap _)

theorem keepsMap_wipeExtent (s : State) (i : Nat) : KeepsMap s (wipeExtent s i) := by
  obtain ⟨slots, hframe⟩ := (wipeExtent_effect s i).1
  rw [hframe]
  exact ⟨rfl, rfl, rfl⟩

theorem keepsMap_wipeSlots (s : State) (p : Slot → Bool) : KeepsMap s (wipeSlots s p) :=
  keepsMap_foldl (fun (s : State) (e : Nat × Slot) => keepsMap_wipeExtent s e.1) _ s

theorem keepsMap_reserveMoveOp (s : State) (w : Nat) : KeepsMap s (reserveMoveOp s w) := keepsMap_ite ⟨rfl, rfl, rfl⟩ (.refl s)

theorem keepsMap_endJob (s : State) (c how : Nat) : KeepsMap s (endJob s c how) := by
  have hset (u : State) (j : Option Job) : KeepsMap u (setJob u c j) := ⟨rfl, rfl, rfl⟩
  unfold endJob
  split
  · exact keepsMap_endHolds s c
  · have hends := (keepsMap_wipeSlots s _).trans (keepsMap_endHolds (endJobSlots s c) c)
    exact (hends.trans (hset _ _)).trans (keepsMap_ite (keepsMap_reserveMoveOp _ _) (.refl _))

theorem keepsMap_dropSpokeToken (s : State) (c : Nat) : KeepsMap s (dropSpokeToken s c) := by
  have hgone := KeepsMap.of_onlyGov (onlyGov_withdraw s (.spoke c))
  have hback (u : State) (n : Nat) (class0 : Bool) : KeepsMap u (giveBack u n class0) := .of_onlyGov (onlyGov_giveBack u n class0)
  exact hgone.trans (keepsMap_ite ((hback _ _ _).trans (keepsMap_modCore _ _ _)) (.refl _))

theorem keepsMap_stopMaster (s : State) (m : Nat) : KeepsMap s (stopMaster s m) :=
  ((keepsMap_endJob s m 1).trans (keepsMap_wipeSlots _ _)).trans (keepsMap_dropSpokeToken _ _)

theorem keepsMap_coreLost (s : State) (c : Nat) : KeepsMap s (coreLost s c) := (keepsMap_stopMaster s c).trans (keepsMap_modCore _ _ _)

end

/-! ### What a domain loses, and begins with (R96, R101, R471, R472) -/

/-- Domains, their requests and the locks beyond the Wheels stay, and memory only loses bytes. -/
structure Dims (s t : State) : Prop where
  domains : t.pwr.domains = s.pwr.domains
  request : reg t (aPwr 0x020) = reg s (aPwr 0x020)
  locks : reg t (aPwr 0x064) = reg s (aPwr 0x064)
  zeros : ∀ a, rdByte s a = 0 → rdByte t a = 0

section
variable {s t u : State}

theorem Dims.refl (s : State) : Dims s s := ⟨rfl, rfl, rfl, fun _ h => h⟩

theorem Dims.trans (h : Dims s t) (h' : Dims t u) : Dims s u :=
  ⟨h'.domains.trans h.domains, h'.request.trans h.request, h'.locks.trans h.locks, fun a ha => h'.zeros a (h.zeros a ha)⟩

theorem dims_ite {p : Prop} [Decidable p] (ht : Dims s t) (hu : Dims s u) : Dims s (if p then t else u) := by
  split <;> assumption

theorem dims_foldl {α : Type} {f : State → α → State} (l : List α) (h : ∀ s, ∀ x ∈ l, Dims s (f s x)) (s : State) : Dims s (l.foldl f s) := by
  induction l generalizing s with
  | nil => exact .refl s
  | cons x l ih => exact (h s x List.mem_cons_self).trans (ih (fun s y hy => h s y (List.mem_cons_of_mem x hy)) _)

theorem KeepsMap.dims (h : KeepsMap s t) : Dims s t :=
  ⟨by rw [h.pwr], reg_congr h.regs _, reg_congr h.regs _, fun a ha => by rw [rdByte, h.mem]; exact ha⟩

/-- A calm step that leaves memory. -/
theorem Calm.dims (h : Calm s t) (hmem : t.mem = s.mem) : Dims s t :=
  ⟨h.domains, h.request, h.locks, fun a ha => by rw [rdByte, hmem]; exact ha⟩

theorem dims_wipeMem (s : State) (lo hi : Nat) : Dims s (wipeMem s lo hi) := by
  refine ⟨rfl, rfl, rfl, fun a h0 => ?_⟩
  rw [rdByte, wipeMem, smGet_smDrop]
  split
  · rfl
  · exact h0

theorem rdByte_wipeMem_inside (s : State) {lo hi a : Nat} (hlo : lo ≤ a) (hhi : a < hi) : rdByte (wipeMem s lo hi) a = 0 := by
  rw [rdByte, wipeMem, smGet_smDrop, if_pos ⟨hlo, hhi⟩]

theorem reg_resetRegs_other (s : State) {lo hi a : Nat} (h : a < lo ∨ hi ≤ a) : reg (resetRegs s lo hi) a = reg s a := by
  rw [reg, resetRegs, smGet_smDrop, if_neg (by omega), reg]

theorem dims_resetRegs (s : State) {lo hi : Nat} (h : aPwr 0x064 < lo) : Dims s (resetRegs s lo hi) := by
  have h64 : aPwr 0x020 < aPwr 0x064 := by decide
  exact ⟨rfl, reg_resetRegs_other s (Or.inl (h64.trans h)), reg_resetRegs_other s (Or.inl h), fun _ h0 => h0⟩

theorem aPwr_lt_aWheel (w off : Nat) : aPwr 0x064 < aWheel w off := by
  simp only [aPwr, aWheel]
  omega

/-- Wheel `w`'s memories, registers and cores are lost. -/
def wheelEmptied (s : State) (w : Nat) : State :=
  (spokesOf w).foldl coreLost (wipeMem (resetRegs s (aWheel w 0) (aWheel (w + 1) 0)) (aWheel w 0) (aWheel (w + 1) 0))

theorem dims_wheelEmptied (s : State) (w : Nat) : Dims s (wheelEmptied s w) := by
  have hwiped := (dims_resetRegs s (hi := aWheel (w + 1) 0) (aPwr_lt_aWheel w 0)).trans (dims_wipeMem _ (aWheel w 0) (aWheel (w + 1) 0))
  exact hwiped.trans (keepsMap_foldl keepsMap_coreLost (spokesOf w) _).dims

theorem dims_wheelLost_of_emptied (s : State) (w : Nat) : Dims (wheelEmptied s w) (wheelLost s w) := by
  have hrest (u : State) : Dims u { u with
      cranks := smDrop u.cranks w (w + 1), lanes := smDrop u.lanes (2 * w) (2 * w + 2),
      wdma := smDrop u.wdma (16 * w) (16 * w + 16), wdmaNext := smDrop u.wdmaNext w (w + 1),
      bankNext := smDrop u.bankNext (64 + 4 * w) (68 + 4 * w)
      starved := u.starved.filter fun b => b < 64 || poolWheel b ≠ w } := ⟨rfl, rfl, rfl, fun _ h => h⟩
  exact hrest (wheelEmptied s w)

theorem dims_wheelLost (s : State) (w : Nat) : Dims s (wheelLost s w) := (dims_wheelEmptied s w).trans (dims_wheelLost_of_emptied s w)

theorem rdByte_wheelLost (s : State) {w a : Nat} (hlo : aWheel w 0 ≤ a) (hhi : a < aWheel (w + 1) 0) : rdByte (wheelLost s w) a = 0 := by
  have hcores := (keepsMap_foldl keepsMap_coreLost (spokesOf w)
    (wipeMem (resetRegs s (aWheel w 0) (aWheel (w + 1) 0)) (aWheel w 0) (aWheel (w + 1) 0))).dims
  exact (dims_wheelLost_of_emptied s w).zeros a (hcores.zeros a (rdByte_wipeMem_inside _ hlo hhi))

theorem dims_banksLost (s : State) (lo hi : Nat) : Dims s (banksLost s lo hi) := by
  have hkept (u : State) : Dims u { u with bankNext := smDrop u.bankNext lo hi, starved := u.starved.filter fun b => b < lo || hi ≤ b } :=
    ⟨rfl, rfl, rfl, fun _ h => h⟩
  exact ((hkept s).trans (dims_resetRegs _ (by simp only [aPwr, aFw]; omega))).trans (dims_wipeMem _ _ _)

theorem dims_showOtpBusy (s : State) : Dims s (showOtpBusy s) := (calm_setRegB s _ _ (by decide)).dims rfl

theorem Dims.of_frame (hmem : t.mem = s.mem) (hdom : t.pwr.domains = s.pwr.domains) (hregs : t.regs = s.regs) : Dims s t :=
  ⟨hdom, reg_congr hregs _, reg_congr hregs _, fun a ha => by rw [rdByte, hmem]; exact ha⟩

theorem dims_fabricLost (s : State) : Dims s (fabricLost s) := by
  have hfabric (u : State) : Dims u { u with fabric := { u.fabric with
    fetched := [], jobs := [], wiping := [], deferred := [], vectors := [] } } := .of_frame rfl rfl rfl
  have hregs : Dims s (resetRegs s 0x500000000 0x502010000) := dims_resetRegs s (by decide)
  exact (hregs.trans ((calm_setRegB _ 0 false (by decide)).dims rfl)).trans (hfabric _)

theorem dims_pcieLost (s : State) : Dims s (pcieLost s) := by
  have hfabric (u : State) : Dims u { u with fabric := { u.fabric with
    funcs := u.fabric.funcs.foldl (fun m e => smSet m e.1 {} (funcLost e.2)) []
    vectors := [], spdm := false, ideKeys := [], ideGo := [], rcvData := [], deferred := [] } } := .of_frame rfl rfl rfl
  have hregs : Dims s (resetRegs s (aHost 0) (aHost 0x10000)) := dims_resetRegs s (by decide)
  exact hregs.trans (hfabric _)

theorem dims_portLost (s : State) (p : Nat) : Dims s (portLost s p) := by
  have hregs : Dims s (resetRegs s (aPort p 0) (aPort p 0x10000)) := dims_resetRegs s (by simp only [aPwr, aPort]; omega)
  have hports (u : State) : Dims u { u with ports := smDrop u.ports p (p + 1) } := .of_frame rfl rfl rfl
  exact (hregs.trans (hports _)).trans (keepsMap_coreLost _ _).dims

theorem dims_chainLost (s : State) : Dims s (chainLost s) := by
  have hregs : Dims s (resetRegs s (aChain 0 0) (aChain 0 0x10000)) := dims_resetRegs s (by decide)
  have hchain (u : State) (ports : SMap ChainPort) : Dims u { u with chain := { u.chain with ports, seen := [] } } := .of_frame rfl rfl rfl
  exact hregs.trans (hchain _ _)

theorem dims_chamberLost (s : State) :
    Dims s (showOtpBusy { chamberOff s with otp := { s.otp with slot0Waiting := false } }) := by
  have hregs : Dims s (resetRegs s (aCh 0) (aCh 0x10000)) := dims_resetRegs s (by decide)
  have hchamber (u : State) : Dims u { u with chamber := {}, otp := { u.otp with slot0Waiting := false } } := .of_frame rfl rfl rfl
  exact (hregs.trans (hchamber _)).trans (dims_showOtpBusy _)

theorem dims_dripLost (s : State) : Dims s { resetRegs s (aDrip 0) (aDrip 0x10000) with drip := {} } := by
  have hregs : Dims s (resetRegs s (aDrip 0) (aDrip 0x10000)) := dims_resetRegs s (by decide)
  have hdrip (u : State) : Dims u { u with drip := {} } := .of_frame rfl rfl rfl
  exact hregs.trans (hdrip _)

/-- What a domain holds is lost; the power block is not part of it. -/
theorem dims_domainLost (s : State) {d : Nat} (hd : d < 30) : Dims s (domainLost s d) := by
  unfold domainLost
  split
  · exact (dims_wheelLost s _).trans (dims_wheelLost _ _)
  · split
    · exact dims_fabricLost s
    · exact dims_pcieLost s
    · exact dims_portLost s 0
    · exact dims_portLost s 1
    · exact dims_portLost s 2
    · exact dims_portLost s 3
    · exact dims_chainLost s
    · exact dims_banksLost s 8 36
    · exact dims_banksLost s 36 64
    · exact dims_banksLost s 0 8
    · exact dims_chamberLost s
    · exact dims_dripLost s
    · exact .of_frame rfl rfl rfl
    · omega
    · exact .refl s

end

/-! ### One domain while the others follow their requests (R470) -/

/-- What the others' changes leave of domain `d`. -/
structure StaysPut (d : Nat) (s t : State) : Prop where
  state : domState t d = domState s d
  request : wanted t d = wanted s d
  locks : ∀ i ∈ domIslands d, regB t (aPwr 0x064) (i % 32) = regB s (aPwr 0x064) (i % 32)
  chamber : t.chamber = s.chamber
  cold : d < 16 → domState s d ≠ .on → ∀ a, aWheel (2 * d) 0 ≤ a → a < aWheel (2 * d + 2) 0 → rdByte s a = 0 → rdByte t a = 0

section
variable {s t u : State} {d : Nat}

theorem StaysPut.refl (d : Nat) (s : State) : StaysPut d s s := ⟨rfl, rfl, fun _ _ => rfl, rfl, fun _ _ _ _ _ h => h⟩

theorem StaysPut.trans (h : StaysPut d s t) (h' : StaysPut d t u) : StaysPut d s u :=
  ⟨h'.state.trans h.state, h'.request.trans h.request, fun i hi => (h'.locks i hi).trans (h.locks i hi), h'.chamber.trans h.chamber,
    fun hd hoff a hlo hhi h0 => h'.cold hd (by rwa [h.state]) a hlo hhi (h.cold hd hoff a hlo hhi h0)⟩

theorem Calm.staysPut (h : Calm s t) (d : Nat) : StaysPut d s t := by
  refine ⟨by rw [domState, h.domains, domState], regB_congr h.request d, fun i _ => regB_congr h.locks _, h.chamber,
    fun hd hoff a hlo hhi h0 => h.cold a ⟨d, hd, hoff, hlo, hhi⟩ h0⟩

theorem domState_changeDom (s : State) (d e : Nat) (v : DomState) :
    domState (changeDom s e v) d = if d = e then v else domState s d := by
  rw [domState, changeDom, recompute_pwr]
  by_cases h : d = e
  · rw [if_pos h, h]
    exact smGet_smSet_same s.pwr.domains e DomState.off v
  · rw [if_neg h]
    exact smGet_smSet_other s.pwr.domains h DomState.off DomState.off v

/-- A change of a domain's state touches neither memory nor registers nor the Chamber. -/
theorem changeDom_rest (s : State) (e : Nat) (v : DomState) :
    (changeDom s e v).mem = s.mem ∧ (changeDom s e v).regs = s.regs ∧ (changeDom s e v).chamber = s.chamber ∧
      (changeDom s e v).cores = s.cores := by
  unfold changeDom recompute
  split <;> exact ⟨rfl, rfl, rfl, rfl⟩

theorem staysPut_changeDom {e : Nat} (h : d ≠ e) (s : State) (v : DomState) : StaysPut d s (changeDom s e v) := by
  obtain ⟨hmem, hregs, hch, -⟩ := changeDom_rest s e v
  refine ⟨by rw [domState_changeDom, if_neg h], regB_congr (reg_congr hregs _) d, fun i _ => regB_congr (reg_congr hregs _) _, hch,
    fun _ _ a _ _ h0 => by rw [rdByte, hmem]; exact h0⟩

/-- The islands beyond the Wheels have their locks in the second word of `ISLAND_LOCK`. -/
theorem domIslands_range : ∀ e < 31, ∀ i ∈ domIslands e, i / 32 = 1 := by decide

theorem domIslands_disjoint : ∀ d < 31, ∀ e < 31, d ≠ e → ∀ i ∈ domIslands d, ∀ j ∈ domIslands e, i % 32 ≠ j % 32 := by decide

theorem setLock_high (s : State) {i : Nat} (v : Bool) (h : i / 32 = 1) : setLock s i v = setRegB s (aPwr 0x064) (i % 32) v := by
  rw [setLock, h]

/-- Locks set one after the other. -/
theorem foldl_setLock (v : Bool) (l : List Nat) (hl : ∀ i ∈ l, i / 32 = 1) (s : State) :
    OnlyRegs s (l.foldl (fun s i => setLock s i v) s) ∧
    reg (l.foldl (fun s i => setLock s i v) s) (aPwr 0x020) = reg s (aPwr 0x020) ∧
    (∀ b, (∀ i ∈ l, b ≠ i % 32) → regB (l.foldl (fun s i => setLock s i v) s) (aPwr 0x064) b = regB s (aPwr 0x064) b) ∧
    (∀ i ∈ l, (∀ j ∈ l, j % 32 = i % 32 → j = i) → regB (l.foldl (fun s i => setLock s i v) s) (aPwr 0x064) (i % 32) = v) := by
  induction l generalizing s with
  | nil => exact ⟨.refl s, rfl, fun _ _ => rfl, fun i hi => absurd hi List.not_mem_nil⟩
  | cons j l ih =>
    have hj := setLock_high s v (hl j List.mem_cons_self)
    obtain ⟨⟨regs, honly⟩, hreq, hother, hin⟩ := ih (fun i hi => hl i (List.mem_cons_of_mem _ hi)) (setLock s j v)
    rw [List.foldl_cons]
    refine ⟨⟨regs, honly.trans (by rw [hj]; rfl)⟩, hreq.trans (by rw [hj]; exact reg_setRegB_other s (by decide) v), fun b hb => ?_,
      fun i hi huniq => ?_⟩
    · rw [hother b (fun i hi => hb i (List.mem_cons_of_mem _ hi)), hj, regB_setRegB_other _ _ (hb j List.mem_cons_self)]
    · by_cases hmem : i ∈ l
      · exact hin i hmem (fun k hk => huniq k (List.mem_cons_of_mem _ hk))
      · obtain rfl : i = j := (List.mem_cons.mp hi).resolve_right hmem
        rw [hother (i % 32) (fun k hk heq => hmem ((huniq k (List.mem_cons_of_mem _ hk) heq.symm) ▸ hk)), hj,
          regB_setRegB_same _ _ _ (Nat.mod_lt _ (by omega))]

theorem staysPut_setLocks {e : Nat} (hd : d < 31) (he : e < 31) (h : d ≠ e) (s : State) (v : Bool) : StaysPut d s (setLocks s e v) := by
  obtain ⟨⟨regs, honly⟩, hreq, hother, -⟩ := foldl_setLock v (domIslands e) (domIslands_range e he) s
  rw [← setLocks] at honly hreq hother
  refine ⟨by rw [honly]; rfl, regB_congr hreq d, fun i hi => hother _ (domIslands_disjoint d hd e he h i hi), by rw [honly],
    fun _ _ a _ _ h0 => by rw [honly]; exact h0⟩

theorem setLocks_true (hd : d < 31) (s : State) (v : Bool) : ∀ i ∈ domIslands d, regB (setLocks s d v) (aPwr 0x064) (i % 32) = v := by
  have huniq : ∀ d < 31, ∀ i ∈ domIslands d, ∀ j ∈ domIslands d, j % 32 = i % 32 → j = i := by decide
  obtain ⟨-, -, -, hin⟩ := foldl_setLock v (domIslands d) (domIslands_range d hd) s
  exact fun i hi => hin i hi (huniq d hd i hi)

theorem calm_stopEffects (s : State) {e : Nat} : Calm s (stopEffects s e) := by
  unfold stopEffects
  split
  · exact (calm_wheelStop s (by omega)).trans (calm_wheelStop _ (by omega))
  · refine calm_ite (calm_perstOp s) (calm_ite (calm_ite (calm_holdOp s _) (.refl s)) (calm_ite ?_ (calm_ite ?_ (.refl s))))
    · exact (calm_setLink s 0 false).trans (calm_setLink _ 1 false)
    · exact Calm.trans (t := { s with otp := { s.otp with pumpOn := false } }) (.of_frame rfl rfl rfl rfl) (calm_setRegB _ _ _ (by decide))

theorem staysPut_beginStop {e : Nat} (hd : d < 31) (he : e < 31) (h : d ≠ e) (s : State) : StaysPut d s (beginStop s e) :=
  ((calm_stopEffects s).staysPut d).trans ((staysPut_setLocks hd he h _ false).trans (staysPut_changeDom h _ _))

theorem staysPut_settleDomain_other {e : Nat} (hd : d < 31) (he : e < 31) (h : d ≠ e) (s : State) : StaysPut d s (settleDomain s e) := by
  unfold settleDomain
  split
  · exact .refl d s
  · split
    · split_ifs
      · exact .refl d s
      · exact (calm_queueRamp s e).staysPut d
      · exact staysPut_changeDom h s _
    · split_ifs
      · exact (calm_cancelRamp s e).staysPut d
      · exact .refl d s
    · split_ifs
      · exact staysPut_beginStop hd he h s
      · exact .refl d s
    · exact .refl d s

/-- A domain that has what it asks for, or is on its way there. -/
def AtRest (d : Nat) (s : State) : Prop :=
  (domState s d = .on ∧ wanted s d = true) ∨ (domState s d = .stopping ∧ wanted s d = false) ∨
    (domState s d = .off ∧ wanted s d = false)

theorem AtRest.congr (h : AtRest d s) (hput : StaysPut d s t) : AtRest d t := by
  unfold AtRest at *
  rw [hput.state, hput.request]
  exact h

theorem staysPut_settleDomain_same (h : AtRest d s) : StaysPut d s (settleDomain s d) := by
  unfold settleDomain
  split
  · exact .refl d s
  · obtain ⟨hstate, hwant⟩ | ⟨hstate, hwant⟩ | ⟨hstate, hwant⟩ := h
    · rw [hstate, hwant]
      exact .refl d s
    · rw [hstate, hwant]
      exact .refl d s
    · rw [hstate, hwant]
      dsimp only
      split_ifs
      · exact (calm_cancelRamp s d).staysPut d
      · exact .refl d s

theorem staysPut_settleDomains (hd : d < 31) (h : AtRest d s) : StaysPut d s (settleDomains s) := by
  have hfold : ∀ l : List Nat, (∀ e ∈ l, e < 31) → ∀ t, AtRest d t → StaysPut d t (l.foldl settleDomain t) := by
    intro l
    induction l with
    | nil => exact fun _ t _ => .refl d t
    | cons e l ih =>
      intro hl t ht
      have hstep : StaysPut d t (settleDomain t e) := by
        by_cases hde : d = e
        · rw [← hde]
          exact staysPut_settleDomain_same ht
        · exact staysPut_settleDomain_other hd (hl e List.mem_cons_self) hde t
      exact hstep.trans (ih (fun e he => hl e (List.mem_cons_of_mem _ he)) _ (ht.congr hstep))
  exact hfold _ (fun e he => List.mem_range.mp he) s h

end

/-! ### A record with its diagnostic entry (R352, R455) -/

/-- Only registers, the fabric, the outputs and Flowstone changed. -/
def Noted (s t : State) : Prop := t = { s with regs := t.regs, fabric := t.fabric, out := t.out, fs := t.fs }

section
variable {s t u : State}

theorem Noted.trans (h : Noted s t) (h' : Noted t u) : Noted s u := by
  unfold Noted at *
  rw [h', h]

theorem noted_hostOut (s : State) (f : Nat) (o : Out) : Noted s (hostOut s f o) := by
  unfold hostOut
  split <;> rfl

theorem noted_sendMsix (s : State) (f v : Nat) : Noted s (sendMsix s f v) := by
  unfold sendMsix
  dsimp only
  split_ifs
  · rfl
  · rfl
  · exact noted_hostOut s _ _

theorem noted_diagEntry (s : State) (rtype : Nat) (f : Option Nat) (q cid : Nat) (code : W32) (detail : List Byte) (tag : Nat) :
    Noted s (diagEntry s rtype f q cid code detail tag) := by
  have hset (u : State) (a : Nat) (v : W32) : Noted u (setReg u a v) := rfl
  unfold diagEntry
  simp only
  split_ifs
  · rfl
  · rfl
  · exact ((noted_hostOut s _ _).trans (hset _ _ _)).trans (noted_sendMsix _ _ _)

theorem noted_emit (s : State) (island source rtype : Nat) (payload : List W32) : Noted s (emit s island source rtype payload) := by
  have hdiag : Noted s (diagRecord s source rtype payload) := by
    unfold diagRecord
    split
    · exact noted_diagEntry s _ _ _ _ _ _ _
    · rfl
  have hraise (u : State) : Noted u (raiseRecord u island source rtype payload) := by
    unfold raiseRecord
    split_ifs <;> rfl
  exact hdiag.trans (hraise _)

end

/-! ### Starts, stops and faults of domains (R471, R472, R483) -/

/-- Domains, requests and the locks beyond the Wheels are the same. -/
structure PowerSame (s t : State) : Prop where
  domains : t.pwr.domains = s.pwr.domains
  request : reg t (aPwr 0x020) = reg s (aPwr 0x020)
  locks : reg t (aPwr 0x064) = reg s (aPwr 0x064)

section
variable {s t u : State} {d : Nat}

theorem PowerSame.refl (s : State) : PowerSame s s := ⟨rfl, rfl, rfl⟩

theorem PowerSame.trans (h : PowerSame s t) (h' : PowerSame t u) : PowerSame s u :=
  ⟨h'.domains.trans h.domains, h'.request.trans h.request, h'.locks.trans h.locks⟩

theorem Calm.power (h : Calm s t) : PowerSame s t := ⟨h.domains, h.request, h.locks⟩
theorem Dims.power (h : Dims s t) : PowerSame s t := ⟨h.domains, h.request, h.locks⟩

theorem PowerSame.of_frame (hdom : t.pwr.domains = s.pwr.domains) (hregs : t.regs = s.regs) : PowerSame s t :=
  ⟨hdom, reg_congr hregs _, reg_congr hregs _⟩

theorem powerSame_powerUpWipe (s : State) (d : Nat) (hd : d < 30) : PowerSame s (powerUpWipe s d) := by
  unfold powerUpWipe
  split
  · refine (dims_foldl _ (fun s w _ => ?_) s).power
    exact (dims_resetRegs s (aPwr_lt_aWheel w 0x320020)).trans (dims_wipeMem _ _ _)
  · split
    · exact (dims_banksLost s 8 36).power
    · exact (dims_banksLost s 36 64).power
    · exact (dims_banksLost s 0 8).power
    · omega
    · exact .refl s

theorem calm_enterState (s : State) (new : Nat) : Calm s (enterState s new) := by
  have hstate : Calm s { s with pwr := { s.pwr with current := new, seq := none } } := .of_frame rfl rfl rfl rfl
  exact (hstate.trans (calm_emit _ islAon 0x430 0x080 _)).trans (calm_setRegF _ _ _ _ (by decide))

theorem calm_leaveLow (s : State) (d : Nat) : Calm s (leaveLow s d) := calm_ite (calm_enterState s 0) (.refl s)

/-- Warm Wheels of a domain ask for their base. -/
theorem calm_warmWheels (l : List Nat) (s : State) :
    Calm s (l.foldl (fun s w => if warm s w then wakeWheel s w false else s) s) :=
  calm_foldl (fun s w => calm_ite (.of_onlyGov (onlyGov_wakeWheel s w false)) (.refl s)) l s

theorem powerSame_startEffects (s : State) (hd : d < 30) : PowerSame s (startEffects s d) := by
  refine (powerSame_powerUpWipe s d hd).trans ?_
  have hcalm : ∀ (u : State) (ctx : Byte), PowerSame u (if d < 16 then
      leaveLow ([2 * d, 2 * d + 1].foldl (fun s w => if warm s w then wakeWheel s w false else s)
        (rampNext { giveBack u 20 false with pwr := { (giveBack u 20 false).pwr with ramping := none } })) d
    else if d = 26 then
      showOtpBusy { u with otp := { u.otp with slot0Waiting := true }, chamber := { u.chamber with deriveCtx := ctx } }
    else if 18 ≤ d && d < 22 then hostModeReset u (d - 18)
    else u) := by
    intro u ctx
    split_ifs
    · have hback := Calm.of_onlyGov (onlyGov_giveBack u 20 false)
      have hramp : Calm (giveBack u 20 false) { giveBack u 20 false with pwr := { (giveBack u 20 false).pwr with ramping := none } } :=
        .of_frame rfl rfl rfl rfl
      exact ((((hback.trans hramp).trans (calm_rampNext _)).trans (calm_warmWheels _ _)).trans (calm_leaveLow _ d)).power
    · have hslot : PowerSame u { u with
          otp := { u.otp with slot0Waiting := true }
          chamber := { u.chamber with deriveCtx := ctx } } := .of_frame rfl rfl
      exact hslot.trans (dims_showOtpBusy _).power
    · exact (calm_aPort u _ 0x00C _).power
    · exact .refl u
  exact hcalm _ _

theorem PowerSame.domState (h : PowerSame s t) (d : Nat) : domState t d = domState s d := by rw [Machine.domState, h.domains, Machine.domState]
theorem PowerSame.wanted (h : PowerSame s t) (d : Nat) : wanted t d = wanted s d := regB_congr h.request d

theorem domainOn_effect (hd : d < 30) (hstate : domState s d = .starting) (hwant : wanted s d = true) :
    ∃ t, exec (.domainOn d) s = .next t ∧ domState t d = .on ∧
      ∀ i ∈ domIslands d, regB t (aPwr (0x060 + 4 * (i / 32))) (i % 32) = true := by
  have h30 : d ≠ 30 := by omega
  have hop : domainOnOp s d = settleDomains (startEffects (setLocks (changeDom s d .on) d true) d) := by
    simp only [domainOnOp, hstate, if_true, h30, if_false]
  obtain ⟨-, hregs, -, -⟩ := changeDom_rest s d .on
  have hlocks := setLocks_true (d := d) (by omega) (changeDom s d .on) true
  obtain ⟨⟨regs, honly⟩, hreq, -, -⟩ := foldl_setLock true (domIslands d) (domIslands_range d (by omega)) (changeDom s d .on)
  rw [← setLocks] at honly hreq
  have hon : domState (setLocks (changeDom s d .on) d true) d = .on := by
    rw [honly]
    exact (domState_changeDom s d d .on).trans (if_pos rfl)
  have hasked : wanted (setLocks (changeDom s d .on) d true) d = true :=
    (regB_congr (hreq.trans (reg_congr hregs _)) d).trans hwant
  have hstart := powerSame_startEffects (setLocks (changeDom s d .on) d true) hd
  have hrest := staysPut_settleDomains (d := d) (by omega) (Or.inl ⟨(hstart.domState d).trans hon, (hstart.wanted d).trans hasked⟩)
  refine ⟨_, congrArg Host.Outcome.next hop, hrest.state.trans ((hstart.domState d).trans hon), fun i hi => ?_⟩
  rw [domIslands_range d (by omega) i hi]
  exact (hrest.locks i hi).trans ((regB_congr hstart.locks _).trans (hlocks i hi))

theorem domainLost_chamber (s : State) : (domainLost s 26).chamber = {} := by
  have hshow (u : State) : (showOtpBusy u).chamber = u.chamber := rfl
  have hlost : domainLost s 26 = showOtpBusy { chamberOff s with otp := { s.otp with slot0Waiting := false } } := by
    simp only [domainLost, Nat.reduceLT, if_false]
  rw [hlost, hshow, chamberOff]

theorem rdByte_domainLost (s : State) (hd : d < 16) {a : Nat} (hlo : aWheel (2 * d) 0 ≤ a) (hhi : a < aWheel (2 * d + 2) 0) :
    rdByte (domainLost s d) a = 0 := by
  have hlost : domainLost s d = wheelLost (wheelLost s (2 * d)) (2 * d + 1) := if_pos hd
  rw [hlost]
  by_cases ha : a < aWheel (2 * d + 1) 0
  · exact (dims_wheelLost _ _).zeros a (rdByte_wheelLost s hlo ha)
  · exact rdByte_wheelLost _ (Nat.le_of_not_lt ha) hhi

theorem domainOff_effect (hd : d < 30) (hstate : domState s d = .stopping) (hwant : wanted s d = false) :
    ∃ t, exec (.domainOff d) s = .next t ∧ domState t d = .off ∧ (d = 26 → t.chamber = {}) ∧
      (d < 16 → ∀ a, aWheel (2 * d) 0 ≤ a → a < aWheel (2 * d + 2) 0 → rdByte t a = 0) := by
  have hfirst := staysPut_settleDomains (d := d) (by omega) (Or.inr (Or.inl ⟨hstate, hwant⟩))
  have hstop : domState (settleDomains s) d = .stopping := hfirst.state.trans hstate
  have hop : domainOffOp s d = settleDomains (domainLost (changeDom (settleDomains s) d .off) d) := by
    simp only [domainOffOp, hstop, if_true]
  obtain ⟨-, hregs, -, -⟩ := changeDom_rest (settleDomains s) d .off
  have hlost := (dims_domainLost (changeDom (settleDomains s) d .off) hd).power
  have hoff : domState (domainLost (changeDom (settleDomains s) d .off) d) d = .off :=
    (hlost.domState d).trans ((domState_changeDom _ d d .off).trans (if_pos rfl))
  have hunwanted : wanted (domainLost (changeDom (settleDomains s) d .off) d) d = false :=
    (hlost.wanted d).trans ((regB_congr (reg_congr hregs _) d).trans (hfirst.request.trans hwant))
  have hrest := staysPut_settleDomains (d := d) (by omega) (Or.inr (Or.inr ⟨hoff, hunwanted⟩))
  refine ⟨_, congrArg Host.Outcome.next hop, hrest.state.trans hoff, fun h26 => ?_, fun h16 a hlo hhi => ?_⟩
  · rw [hrest.chamber, h26]
    exact domainLost_chamber _
  · exact hrest.cold h16 (by rw [hoff]; decide) a hlo hhi (rdByte_domainLost _ h16 hlo hhi)

theorem domainFault_high (h16 : 16 ≤ d) (hstate : domState s d = .starting) :
    exec (.domainFault d) s = .next (emit (changeDom s d .off) islAon 0x430 0x085 [w32 d]) := by
  have hlow : ¬ d < 16 := by omega
  have hop : domainFaultOp s d = emit (changeDom s d .off) islAon 0x430 0x085 [w32 d] := by
    simp only [domainFaultOp, hstate, if_true, hlow, if_false]
  exact congrArg Host.Outcome.next hop

theorem rampNext_rest (s : State) : (rampNext s).mem = s.mem ∧ (rampNext s).cores = s.cores := by
  unfold rampNext
  split <;> exact ⟨rfl, rfl⟩

theorem domainFault_wheels (h16 : d < 16) (hstate : domState s d = .starting) :
    ∃ t, exec (.domainFault d) s = .next t ∧ domState t d = .off ∧ t.mem = s.mem ∧ t.cores = s.cores := by
  obtain ⟨u, hu, humem, hucores⟩ : ∃ u, rampNext { giveBack s 20 false with pwr := { (giveBack s 20 false).pwr with ramping := none } } = u ∧
      u.mem = s.mem ∧ u.cores = s.cores := by
    have hgov := onlyGov_giveBack s 20 false
    obtain ⟨hmem, hcores⟩ := rampNext_rest { giveBack s 20 false with pwr := { (giveBack s 20 false).pwr with ramping := none } }
    exact ⟨_, rfl, hmem.trans (by rw [hgov]), hcores.trans (by rw [hgov])⟩
  have hop : domainFaultOp s d = emit (changeDom u d .off) islAon 0x430 0x085 [w32 d] := by
    rw [← hu, domainFaultOp, if_pos hstate]
    exact congrArg (fun u => emit (changeDom u d .off) islAon 0x430 0x085 [w32 d]) (if_pos h16)
  obtain ⟨hmem, -, -, hcores⟩ := changeDom_rest u d .off
  have hnoted := noted_emit (changeDom u d .off) islAon 0x430 0x085 [w32 d]
  have hpower := (calm_emit (changeDom u d .off) islAon 0x430 0x085 [w32 d]).power
  refine ⟨_, congrArg Host.Outcome.next hop, (hpower.domState d).trans ((domState_changeDom u d d .off).trans (if_pos rfl)), ?_, ?_⟩
  · rw [hnoted]
    exact hmem.trans humem
  · rw [hnoted]
    exact hcores.trans hucores

theorem exec_pdReqWrite (s : State) (v : W32) : exec (.pdReqWrite hubA v) s = .next (pdReqOp s v) := by
  have hrun : byHubA s hubA (aPwr 0x020) (fun s => pdReqOp s v) = pdReqOp s v := by
    simp only [byHubA, granted, decide_true, if_true]
  exact congrArg Host.Outcome.next hrun

end

/-- Settles O34: while the other domains follow their requests, one at rest stays as it is. -/
theorem domainsFollowTheirRequests : Obligations.DomainsFollowTheirRequests := by
  unfold Obligations.DomainsFollowTheirRequests
  intro s d v
  refine ⟨fun hseq => ?_, fun hseq => ?_, domainOn_effect, domainOff_effect, domainFault_high, domainFault_wheels⟩
  · rw [exec_pdReqWrite, pdReqOp, hseq]
    rfl
  · rw [exec_pdReqWrite, pdReqOp, if_pos (Option.isSome_iff_ne_none.mpr hseq)]

end Sys2Proof.Machine
end

section
/-! SUPPORT. The I3C target. -/

namespace Sys2Proof.Machine

/-! ### The I3C target (R509 to R511) -/

section
variable {s t : State} {addr : BitVec 7} {ev : BitVec 8} {n : Nat} {v : W32} {data : List Byte}

theorem i3cCcc_of_up (h : i3cUp s = true) (f : State → State) : i3cCcc s f = f (emitOut s (.i3c (some []))) := if_pos h
theorem i3cCcc_of_down (h : i3cUp s = false) (f : State → State) : i3cCcc s f = emitOut s (.i3c none) :=
  if_neg (Bool.eq_false_iff.mp h)
theorem i3cGet_of_up (h : i3cUp s = true) (b : List Byte) : i3cGet s b = emitOut s (.i3c (some b)) := if_pos h
theorem i3cGet_of_down (h : i3cUp s = false) (b : List Byte) : i3cGet s b = emitOut s (.i3c none) := if_neg (Bool.eq_false_iff.mp h)

/-- The address of a target that has none is taken. -/
theorem i3cAssign_effect (s : State) (a : Nat) :
    ∃ t, i3cAssign s a = t ∧ t = { s with regs := t.regs } ∧ i3cAssigned t = true ∧ regF t (aI3c 0x004) 16 7 = a % 128 := by
  have hreg : reg (i3cAssign s a) (aI3c 0x004) = setFld (setFld (setFld (reg s (aI3c 0x004)) 31 1 1) 16 7 a) 8 1 1 := reg_setReg_same _ _ _
  refine ⟨_, rfl, rfl, ?_, ?_⟩
  · rw [i3cAssigned, regB, hreg, bitOf_setFld_other _ _ (by omega), bitOf_setFld_other _ _ (by omega), bitOf, getLsbD_setFld,
      if_pos ⟨by omega, by omega, by omega⟩]
    rfl
  · rw [regF, hreg, fld_setFld_other _ _ (by omega), fld_setFld_same _ _ (by omega)]
    rfl

theorem assigned_effect (hup : i3cUp s = true) {c : Instr} {a : Nat}
    (hexec : exec c s = .next (i3cCcc s fun s => i3cAssign s a)) :
    ∃ t, exec c s = .next t ∧ t = { s with regs := t.regs, out := t.out } ∧ t.out = s.out ++ [.i3c (some [])] ∧
      i3cAssigned t = true ∧ regF t (aI3c 0x004) 16 7 = a % 128 := by
  obtain ⟨t, ht, hframe, hassigned, haddr⟩ := i3cAssign_effect (emitOut s (.i3c (some []))) a
  rw [i3cCcc_of_up hup, ht] at hexec
  exact ⟨t, hexec, by rw [hframe]; rfl, by rw [hframe]; rfl, hassigned, haddr⟩

theorem i3cAssign_commands (hup : i3cUp s = true) (hfree : i3cAssigned s = false) :
    ∀ p ∈ [(Instr.entdaa addr, addr.toNat), (.setdasa addr, addr.toNat), (.setaasa, s.i3c.staticAddr % 128)],
      ∃ t, exec p.1 s = .next t ∧ t = { s with regs := t.regs, out := t.out } ∧ t.out = s.out ++ [.i3c (some [])] ∧
        i3cAssigned t = true ∧ regF t (aI3c 0x004) 16 7 = p.2 := by
  have hguard (u : State) : (if i3cAssigned s then i3cOut s none else u) = u := if_neg (Bool.eq_false_iff.mp hfree)
  have haddr : addr.toNat % 128 = addr.toNat := Nat.mod_eq_of_lt addr.isLt
  intro p hp
  simp only [List.mem_cons, List.not_mem_nil, or_false] at hp
  obtain rfl | rfl | rfl := hp
  · have h := assigned_effect (c := .entdaa addr) hup (congrArg Host.Outcome.next (hguard _))
    rwa [haddr] at h
  · have h := assigned_effect (c := .setdasa addr) hup (congrArg Host.Outcome.next (hguard _))
    rwa [haddr] at h
  · have hsame : i3cCcc s (fun u => i3cAssign u u.i3c.staticAddr) = i3cCcc s fun u => i3cAssign u s.i3c.staticAddr := by
      rw [i3cCcc_of_up hup, i3cCcc_of_up hup]
      rfl
    exact assigned_effect (c := .setaasa) hup (congrArg Host.Outcome.next ((hguard _).trans hsame))

theorem i3cAssign_refused (hheld : i3cAssigned s = true) :
    ∀ c ∈ [Instr.entdaa addr, .setdasa addr, .setaasa], exec c s = .next (emitOut s (.i3c none)) := by
  intro c hc
  simp only [List.mem_cons, List.not_mem_nil, or_false] at hc
  obtain rfl | rfl | rfl := hc
  · exact congrArg Host.Outcome.next (if_pos hheld)
  · exact congrArg Host.Outcome.next (if_pos hheld)
  · exact congrArg Host.Outcome.next (if_pos hheld)

theorem rstdaa_effect (hup : i3cUp s = true) :
    ∃ t, exec .rstdaa s = .next t ∧ t.out = s.out ++ [.i3c (some [])] ∧ i3cAssigned t = false ∧
      t.i3c.staticAddr = regF s (aI3c 0x000) 16 7 ∧ t.i3c.instId = regF s (aI3c 0x000) 8 4 := by
  have hcfg : ∀ w : W32, reg (setReg (emitOut s (.i3c (some []))) (aI3c 0x004) w) (aI3c 0x000) = reg s (aI3c 0x000) := fun w =>
    reg_setReg_other _ (by decide) w
  refine ⟨_, congrArg Host.Outcome.next (i3cCcc_of_up hup i3cRelease), rfl, ?_, ?_, ?_⟩
  · have hreg : reg (i3cRelease (emitOut s (.i3c (some [])))) (aI3c 0x004) =
        setFld (setFld (setFld (reg s (aI3c 0x004)) 31 1 0) 16 7 0) 8 1 0 := reg_setReg_same _ _ _
    rw [i3cAssigned, regB, hreg, bitOf_setFld_other _ _ (by omega), bitOf_setFld_other _ _ (by omega), bitOf, getLsbD_setFld,
      if_pos ⟨by omega, by omega, by omega⟩]
    rfl
  · exact congrArg (fld · 16 7) (hcfg _)
  · exact congrArg (fld · 8 4) (hcfg _)

theorem ibiEn_setRegB (s : State) (en : Bool) : ibiEn (setRegB s (aI3c 0x004) 9 en) = en := regB_setRegB_same _ _ _ (by omega)

theorem enec_effect (hup : i3cUp s = true) (hev : ev.getLsbD 0 = true) :
    ∃ t, exec (.enec ev) s = .next t ∧ t.out = s.out ++ [.i3c (some [])] ∧ ibiEn t = true ∧
      (i3cAssigned s = true → i3cTxGo s = true → t.i3c.ibiPending = true) := by
  have hop : i3cCcc s (fun s => i3cEvents s ev true) = i3cIbi (setRegB (emitOut s (.i3c (some []))) (aI3c 0x004) 9 true) := by
    rw [i3cCcc_of_up hup, i3cEvents, if_pos hev]
    rfl
  have hassigned : i3cAssigned (setRegB (emitOut s (.i3c (some []))) (aI3c 0x004) 9 true) = i3cAssigned s :=
    regB_setRegB_other _ _ (by omega) _
  have htx : i3cTxGo (setRegB (emitOut s (.i3c (some []))) (aI3c 0x004) 9 true) = i3cTxGo s :=
    regB_congr (reg_setRegB_other _ (by decide) _) 31
  have hen := ibiEn_setRegB (emitOut s (.i3c (some []))) true
  refine ⟨_, congrArg Host.Outcome.next hop, ?_, ?_, fun ha htxgo => ?_⟩
  · unfold i3cIbi
    split <;> rfl
  · unfold i3cIbi
    split <;> exact hen
  · rw [i3cIbi, hen, hassigned, htx, ha, htxgo]
    rfl

theorem disec_effect (hup : i3cUp s = true) (hev : ev.getLsbD 0 = true) :
    ∃ t, exec (.disec ev) s = .next t ∧ t.out = s.out ++ [.i3c (some [])] ∧ ibiEn t = false ∧ t.i3c.ibiPending = false := by
  have hop : i3cCcc s (fun s => i3cEvents s ev false) = { setRegB (emitOut s (.i3c (some []))) (aI3c 0x004) 9 false with
      i3c := { s.i3c with ibiPending := false } } := by
    rw [i3cCcc_of_up hup, i3cEvents, if_pos hev]
    rfl
  exact ⟨_, congrArg Host.Outcome.next hop, rfl, ibiEn_setRegB _ false, rfl⟩

theorem lengths_effect (hup : i3cUp s = true) (hlo : 8 ≤ n) (hhi : n ≤ 256) :
    exec (.setmwl n) s = .next (emitOut { s with i3c := { s.i3c with maxWrite := n } } (.i3c (some []))) ∧
    exec (.setmrl n) s = .next (emitOut { s with i3c := { s.i3c with maxRead := n } } (.i3c (some []))) := by
  have hlen : i3cLength n = true := by simp [i3cLength, hlo, hhi]
  refine ⟨congrArg Host.Outcome.next ?_, congrArg Host.Outcome.next ?_⟩
  · rw [i3cCcc_of_up hup, if_pos hlen]
    rfl
  · rw [i3cCcc_of_up hup, if_pos hlen]
    rfl

theorem gets_effect (hup : i3cUp s = true) :
    ∀ p ∈ [(Instr.getmwl, beBytes 2 s.i3c.maxWrite), (.getmrl, beBytes 2 s.i3c.maxRead), (.getpid, i3cPid s),
        (.getbcr, [0x06]), (.getdcr, [0x00]), (.getstatus, i3cStatus s), (.getmxds, [0, 0])],
      exec p.1 s = .next (emitOut s (.i3c (some p.2))) := by
  intro p hp
  simp only [List.mem_cons, List.not_mem_nil, or_false] at hp
  obtain rfl | rfl | rfl | rfl | rfl | rfl | rfl := hp
  · exact congrArg Host.Outcome.next (i3cGet_of_up hup _)
  · exact congrArg Host.Outcome.next (i3cGet_of_up hup _)
  · exact congrArg Host.Outcome.next (i3cGet_of_up hup _)
  · exact congrArg Host.Outcome.next (i3cGet_of_up hup _)
  · exact congrArg Host.Outcome.next (i3cGet_of_up hup _)
  · exact congrArg Host.Outcome.next (i3cGet_of_up hup _)
  · exact congrArg Host.Outcome.next (i3cGet_of_up hup _)

theorem down_refused (hdown : i3cUp s = false) :
    ∀ c ∈ [Instr.rstdaa, .enec ev, .disec ev, .setmwl n, .setmrl n, .getmwl, .getpid, .getstatus, .i3cPrivateWrite data,
        .i3cPrivateRead], exec c s = .next (emitOut s (.i3c none)) := by
  intro c hc
  have hread : i3cReadOp s = emitOut s (.i3c none) := if_neg (by simp [hdown])
  have hwrite : i3cMessageOp s data = emitOut s (.i3c none) := by
    simp only [i3cMessageOp, i3cWriteOp, hdown, Bool.not_false, Bool.true_or, if_true, Bool.false_and, Bool.false_eq_true, if_false]
    rfl
  simp only [List.mem_cons, List.not_mem_nil, or_false] at hc
  obtain rfl | rfl | rfl | rfl | rfl | rfl | rfl | rfl | rfl | rfl := hc
  · exact congrArg Host.Outcome.next (i3cCcc_of_down hdown _)
  · exact congrArg Host.Outcome.next (i3cCcc_of_down hdown _)
  · exact congrArg Host.Outcome.next (i3cCcc_of_down hdown _)
  · exact congrArg Host.Outcome.next (i3cCcc_of_down hdown _)
  · exact congrArg Host.Outcome.next (i3cCcc_of_down hdown _)
  · exact congrArg Host.Outcome.next (i3cGet_of_down hdown _)
  · exact congrArg Host.Outcome.next (i3cGet_of_down hdown _)
  · exact congrArg Host.Outcome.next (i3cGet_of_down hdown _)
  · exact congrArg Host.Outcome.next hwrite
  · exact congrArg Host.Outcome.next hread

/-- What a private write leaves: the bytes in the receive buffer, a full mark, the acknowledgement and Hub-B's interrupt. -/
theorem i3cWriteOp_effect (hup : i3cUp s = true) (hfull : i3cRxFull s = false) (hmax : s.i3c.maxWrite ≤ 256) :
    ∃ t, i3cWriteOp s data = t ∧ t = { s with i3c := t.i3c, regs := t.regs, out := t.out } ∧
      t.i3c.rx = data.take s.i3c.maxWrite ∧ i3cRxFull t = true ∧ t.out = s.out ++ [.i3c (some []), .hubInt "INT_I3C" 0] ∧
      ∀ a, a ≠ aI3c 0x010 → reg t a = reg s a := by
  have hlen : (data.take s.i3c.maxWrite).length ≤ 256 := by rw [List.length_take]; omega
  refine ⟨_, if_neg (by simp [hup, hfull]), rfl, rfl, ?_, ?_, fun a ha => reg_setReg_other _ ha _⟩
  · refine Eq.trans (congrArg (bitOf · 31) (reg_setReg_same _ (aI3c 0x010) _)) ?_
    rw [bitOf, w32, BitVec.getLsbD_ofNat]
    generalize (data.take s.i3c.maxWrite).length = len at hlen
    rw [Nat.testBit_two_pow_add_eq, Nat.testBit_lt_two_pow (by omega)]
    rfl
  · exact List.append_assoc _ _ _

section
variable (hframe : t = { s with i3c := t.i3c, regs := t.regs, out := t.out }) (hregs : ∀ a, a ≠ aI3c 0x010 → reg t a = reg s a)
include hframe hregs

theorem hubOn_of_i3c : hubOn t = hubOn s := by
  have hpwr : t.pwr = s.pwr := by rw [hframe]
  rw [hubOn, domOn_of_otp (hregs _ (by decide)) (congrArg Power.domains hpwr), hpwr, hubOn]

theorem rcvServer_of_i3c : rcvServer t = rcvServer s := by
  have hcore (c : Nat) : core t c = core s c := by rw [hframe]; rfl
  have hboot : t.boot = s.boot := by rw [hframe]
  have hon := hubOn_of_i3c hframe hregs
  have hrom : romRuns t = romRuns s := by rw [romRuns, hon, hcore, romRuns]
  have hup : hubBUp t = hubBUp s := by rw [hubBUp, hon, hcore, hubBUp]
  rw [rcvServer, hboot, hrom, hup, rcvServer]

theorem busFree_of_i3c : busFree t 0 = busFree s 0 := by
  have hport : port t 0 = port s 0 := by rw [hframe]; rfl
  have hbit (a i : Nat) (h : a ≠ aI3c 0x010) : regB t a i = regB s a i := regB_congr (hregs a h) i
  rw [busFree, released, platStatus, hbit _ _ (by decide), hbit _ _ (by decide), hbit _ _ (by decide), hport]
  rfl

theorem chunkWaits_of_i3c (tr : Nat) (h : List Byte) : chunkWaits t tr h = chunkWaits s tr h := by
  have hupd : t.upd = s.upd := by rw [hframe]
  have hroom : chunkRoom t = chunkRoom s := by rw [chunkRoom, hupd, chunkRoom]
  rw [chunkWaits, rcvServer_of_i3c hframe hregs, hupd, busFree_of_i3c hframe hregs, hroom, chunkWaits]

end

theorem i3cTake_of_unserved (h : rcvServer t = 0 ∨ i3cPacket t = none) : i3cTake t = t := by
  unfold i3cTake
  split
  · rfl
  · next hpacket =>
    have hserver : rcvServer t = 0 := h.resolve_right (by simp [hpacket])
    simp [hserver]

theorem i3cTake_of_first {h b : List Byte} (hserver : rcvServer t ≠ 0) (hpacket : i3cPacket t = some (h, b))
    (hfirst : (h.getD 3 0).getLsbD 7 = true) (htype : field b 0 1 % 128 = 0x7E) (hroom : chunkWaits t 1 (slice b 3 16) = false) :
    i3cTake t =
      (let w := setRegB { t with i3c := { t.i3c with header := h, message := b } } (aI3c 0x010) 31 false
       if (h.getD 3 0).getLsbD 6 then hostMessage w 1 (slice b 3 16) (b.drop 19) else w) := by
  simp only [i3cTake, hpacket, hfirst, if_true, hserver, htype, hroom, ne_eq, not_true_eq_false, decide_false, Bool.or_false,
    Bool.false_eq_true, if_false]
  rfl

theorem i3cPrivateWrite_effect (hup : i3cUp s = true) (hfull : i3cRxFull s = false) (hmax : s.i3c.maxWrite ≤ 256) :
    ∃ t, t.i3c.rx = data.take s.i3c.maxWrite ∧ i3cRxFull t = true ∧ t.out = s.out ++ [.i3c (some []), .hubInt "INT_I3C" 0] ∧
      t.mem = s.mem ∧
      (rcvServer s = 0 ∨ i3cPacket t = none → exec (.i3cPrivateWrite data) s = .next t) ∧
      ∀ h b, rcvServer s ≠ 0 → i3cPacket t = some (h, b) → (h.getD 3 0).getLsbD 7 = true → field b 0 1 % 128 = 0x7E →
        chunkWaits s 1 (slice b 3 16) = false →
        let w := setRegB { t with i3c := { t.i3c with header := h, message := b } } (aI3c 0x010) 31 false
        exec (.i3cPrivateWrite data) s =
          .next (if (h.getD 3 0).getLsbD 6 then hostMessage w 1 (slice b 3 16) (b.drop 19) else w) := by
  obtain ⟨t, ht, hframe, hrx, hset, hout, hregs⟩ := i3cWriteOp_effect (data := data) hup hfull hmax
  have hexec : i3cMessageOp s data = i3cTake t := by rw [i3cMessageOp, ht, hup, hfull]; rfl
  have hserver := rcvServer_of_i3c hframe hregs
  refine ⟨t, hrx, hset, hout, by rw [hframe], fun hnone => ?_, fun h b hsome hpacket hfirst htype hroom => ?_⟩
  · exact congrArg Host.Outcome.next (hexec.trans (i3cTake_of_unserved (hserver ▸ hnone)))
  · exact congrArg Host.Outcome.next (hexec.trans (i3cTake_of_first (hserver ▸ hsome) hpacket hfirst htype
      ((chunkWaits_of_i3c hframe hregs 1 _).trans hroom)))

theorem i3cPrivateWrite_refused (hfull : i3cRxFull s = true) : exec (.i3cPrivateWrite data) s = .next (emitOut s (.i3c none)) := by
  have hop : i3cMessageOp s data = emitOut s (.i3c none) := by
    simp only [i3cMessageOp, i3cWriteOp, hfull, Bool.not_true, Bool.or_true, if_true, Bool.and_false, Bool.false_eq_true, if_false]
    rfl
  exact congrArg Host.Outcome.next hop

theorem i3cPrivateRead_effect (hup : i3cUp s = true) (htx : i3cTxGo s = true) :
    ∃ t, exec .i3cPrivateRead s = .next t ∧ t.out = s.out ++ [.i3c (some (i3cMessage s))] ∧ i3cTxGo t = false ∧
      t.i3c.ibiPending = false :=
  ⟨_, congrArg Host.Outcome.next (if_pos (by rw [hup, htx]; rfl)), rfl, regB_setRegB_same _ _ _ (by omega), rfl⟩

theorem i3cPrivateRead_refused (htx : i3cTxGo s = false) : exec .i3cPrivateRead s = .next (emitOut s (.i3c none)) :=
  congrArg Host.Outcome.next (if_neg (by simp [htx]))

/-- A granted write of the block by Hub-B. -/
theorem i3cAccess_of_hubB (hon : hubOn s = true) {off : Nat} (hoff : off ≠ 0x000) : i3cAccess s hubB off v = i3cWrite s off v := by
  have hgrant : i3cMayWrite hubB off = true := by rw [i3cMayWrite, if_neg hoff]; rfl
  rw [i3cAccess, guarded, if_pos hon, granted, if_pos hgrant]

theorem fld_txLength (w v : W32) : fld (accessWrite (regInfo (aI3c 0x014)) w (v ||| 0x80000000)) 0 9 = fld v 0 9 := by
  have hmask : ∀ i : Fin 9, (regInfo (aI3c 0x014)).rw.getLsbD (0 + i.val) = true ∧ (0x80000000 : W32).getLsbD (0 + i.val) = false := by decide
  apply Nat.eq_of_testBit_eq
  intro i
  rw [fld_testBit, fld_testBit]
  by_cases hi : i < 9
  · obtain ⟨hrw, hgo⟩ := hmask ⟨i, hi⟩
    simp only [accessWrite, BitVec.getLsbD_or, BitVec.getLsbD_and, BitVec.getLsbD_not, hrw, hgo, Bool.not_true, Bool.and_false,
      Bool.false_and, Bool.or_false, Bool.and_true, Bool.false_or]
  · simp [hi]

/-- The length is taken and the message stands ready. -/
theorem txGoOp_effect :
    ∃ t, txGoOp s (v ||| 0x80000000) = i3cIbi t ∧ i3cTxGo t = true ∧ regF t (aI3c 0x014) 0 9 = fld v 0 9 ∧
      reg t (aI3c 0x004) = reg s (aI3c 0x004) := by
  have hgo : bitOf (v ||| 0x80000000) 31 = true := by rw [bitOf, BitVec.getLsbD_or]; exact Bool.or_true _
  refine ⟨_, if_pos hgo, regB_setRegB_same _ _ _ (by omega), ?_, ?_⟩
  · rw [setRegB, regF, setRegF, reg_setReg_same, fld_setFld_other _ _ (by omega), plainWrite, reg_setReg_same]
    exact fld_txLength _ _
  · rw [reg_setRegB_other _ (by decide), plainWrite, reg_setReg_other _ (by decide)]

theorem reg_i3cIbi (s : State) (a : Nat) : reg (i3cIbi s) a = reg s a := by
  unfold i3cIbi
  split <;> rfl

theorem txGo_effect (hon : hubOn s = true) :
    ∃ t, exec (.txGo hubB v) s = .next t ∧ i3cTxGo t = true ∧ regF t (aI3c 0x014) 0 9 = fld v 0 9 ∧
      (ibiEn s = true → i3cAssigned s = true → t.i3c.ibiPending = true) := by
  obtain ⟨t, ht, hgo, hlen, hstatus⟩ := txGoOp_effect (s := s) (v := v)
  refine ⟨i3cIbi t, congrArg Host.Outcome.next ((i3cAccess_of_hubB hon (by decide)).trans ht), ?_, ?_, fun hen hheld => ?_⟩
  · exact (regB_congr (reg_i3cIbi t _) 31).trans hgo
  · rw [regF, reg_i3cIbi]
    exact hlen
  · have hen' : ibiEn t = true := (regB_congr hstatus 9).trans hen
    have hheld' : i3cAssigned t = true := (regB_congr hstatus 31).trans hheld
    rw [i3cIbi, hen', hheld', hgo]
    rfl

theorem rxFullClear_effect (hon : hubOn s = true) : exec (.rxFullClear hubB) s = .next (setRegB s (aI3c 0x010) 31 false) :=
  congrArg Host.Outcome.next (i3cAccess_of_hubB hon (by decide))

end

/-- Settles O43: each command code that is answered acknowledges and does its one effect; a packet of a private write is
handed on in full, or stays in the buffer. -/
theorem i3cCommandsComplete : Obligations.I3cCommandsComplete := by
  unfold Obligations.I3cCommandsComplete
  intro s addr ev n v data
  refine ⟨fun hup => ⟨i3cAssign_commands hup, i3cAssign_refused, rstdaa_effect hup,
      fun hev => ⟨enec_effect hup hev, disec_effect hup hev⟩, lengths_effect hup, gets_effect hup, i3cPrivateWrite_effect hup,
      i3cPrivateWrite_refused, i3cPrivateRead_effect hup, i3cPrivateRead_refused⟩, down_refused,
    fun hon => ⟨txGo_effect hon, rxFullClear_effect hon⟩⟩

end Sys2Proof.Machine
end

section
/-! SUPPORT. The PCIe controller, and what queues that end leave of the functions. -/

namespace Sys2Proof.Machine

/-! ### What stays of the functions while queues end (R333, R334) -/

/-- The states and the PCI state of the 256 functions stay. -/
structure FuncsKept (s t : State) : Prop where
  ctrl : ∀ f, f < 256 → reg t (aFunc f) = reg s (aFunc f)
  funcs : t.fabric.funcs = s.fabric.funcs

section
variable {s t u : State}

theorem FuncsKept.refl (s : State) : FuncsKept s s := ⟨fun _ _ => rfl, rfl⟩
theorem FuncsKept.trans (h : FuncsKept s t) (h' : FuncsKept t u) : FuncsKept s u :=
  ⟨fun f hf => (h'.ctrl f hf).trans (h.ctrl f hf), h'.funcs.trans h.funcs⟩
theorem FuncsKept.of_frame (hregs : t.regs = s.regs) (hfuncs : t.fabric.funcs = s.fabric.funcs) : FuncsKept s t :=
  ⟨fun _ _ => reg_congr hregs _, hfuncs⟩
theorem FuncsKept.func (h : FuncsKept s t) (f : Nat) : func t f = func s f := by rw [Machine.func, h.funcs, Machine.func]
theorem FuncsKept.state (h : FuncsKept s t) {f : Nat} (hf : f < 256) : fState t f = fState s f := congrArg (fld · 4 2) (h.ctrl f hf)

/-- An address outside the functions' control registers. -/
def OffFuncs (a : Nat) : Prop := a < aFunc 0 ∨ aFunc 256 ≤ a

theorem funcsKept_setReg (s : State) {a : Nat} (v : W32) (h : OffFuncs a) : FuncsKept s (setReg s a v) := by
  refine ⟨fun f hf => reg_setReg_other s ?_ v, rfl⟩
  simp only [OffFuncs, aFunc] at h ⊢
  omega

theorem funcsKept_setRegF (s : State) {a : Nat} (lo len v : Nat) (h : OffFuncs a) : FuncsKept s (setRegF s a lo len v) :=
  funcsKept_setReg s _ h
theorem funcsKept_setRegB (s : State) {a : Nat} (i : Nat) (v : Bool) (h : OffFuncs a) : FuncsKept s (setRegB s a i v) :=
  funcsKept_setReg s _ h

theorem funcsKept_ite {p : Prop} [Decidable p] (ht : FuncsKept s t) (hu : FuncsKept s u) : FuncsKept s (if p then t else u) := by
  split <;> assumption

theorem funcsKept_foldl {α : Type} {f : State → α → State} (l : List α) (h : ∀ s, ∀ x ∈ l, FuncsKept s (f s x)) (s : State) :
    FuncsKept s (l.foldl f s) := by
  induction l generalizing s with
  | nil => exact .refl s
  | cons x l ih => exact (h s x List.mem_cons_self).trans (ih (fun s y hy => h s y (List.mem_cons_of_mem _ hy)) _)

/-! #### Outputs, messages, DMA -/

theorem funcsKept_hostOut (s : State) (f : Nat) (o : Out) : FuncsKept s (hostOut s f o) :=
  funcsKept_ite (.of_frame rfl rfl) (.of_frame rfl rfl)

theorem funcsKept_sendMsix (s : State) (f v : Nat) : FuncsKept s (sendMsix s f v) :=
  funcsKept_ite (.refl s) (funcsKept_ite (.of_frame rfl rfl) (funcsKept_hostOut s _ _))

theorem funcsKept_diagEntry (s : State) (rtype : Nat) (f : Option Nat) (q cid : Nat) (code : W32) (detail : List Byte) (tag : Nat) :
    FuncsKept s (diagEntry s rtype f q cid code detail tag) :=
  funcsKept_ite (.refl s) (funcsKept_ite (funcsKept_setReg s _ (Or.inl (by decide)))
    (((funcsKept_hostOut s _ _).trans (funcsKept_setReg _ _ (Or.inl (by decide)))).trans (funcsKept_sendMsix _ _ _)))

theorem funcsKept_emit (s : State) (island source rtype : Nat) (payload : List W32) :
    FuncsKept s (emit s island source rtype payload) := by
  have hraise (w : State) : FuncsKept w (raiseRecord w island source rtype payload) := by
    have hlogged := logged_raiseRecord w island source rtype payload
    exact ⟨fun f _ => hlogged.regs _ (by simp only [aFs, aFunc]; omega) (by simp only [aFs, aFunc]; omega),
      congrArg (·.fabric.funcs) hlogged.frame⟩
  exact (funcsKept_ite (funcsKept_diagEntry s _ _ _ _ _ _ _) (.refl s)).trans (hraise _)

theorem bank_lt {a b : Nat} (h : bankOf a = some b) : b < 192 := by
  unfold bankOf bankAt at h
  dsimp only at h
  split_ifs at h with h0 h1 h2 h3 h4
  all_goals simp only [Bool.and_eq_true, decide_eq_true_eq, Option.map_some, Option.some.injEq, Option.map_none, reduceCtorEq] at *
  all_goals omega

theorem funcsKept_settleBank (s : State) {b : Nat} (hb : b < 192) : FuncsKept s (settleBank s b) := by
  have hoff : OffFuncs (statusAddr b) := by
    unfold statusAddr poolWheel poolIdx
    split <;> simp only [OffFuncs, aFw, aWheel, aFunc] <;> omega
  have hwipe : FuncsKept s (wipeMem s (bankBase b) (bankBase b + bankSize b)) := .of_frame rfl rfl
  exact funcsKept_ite (hwipe.trans (funcsKept_setRegB _ _ _ hoff)) (.refl s)

theorem funcsKept_dmaTouch (s : State) (a : Nat) : FuncsKept s (dmaTouch s a) := by
  unfold dmaTouch
  split
  · next b hb => exact (funcsKept_settleBank s (bank_lt hb)).trans (.of_frame rfl rfl)
  · exact .refl s

theorem funcsKept_wrBytes (s : State) (a : Nat) (bs : List Byte) : FuncsKept s (wrBytes s a bs) := by
  rw [wrBytes_frame]
  exact .of_frame rfl rfl

theorem funcsKept_dmaPut (s : State) (a : Nat) (data : List Byte) : FuncsKept s (dmaPut s a data) := by
  unfold dmaPut
  split
  · exact funcsKept_wrBytes s _ _
  · exact funcsKept_foldl _ (fun s _ _ => funcsKept_wrBytes s _ _) s
  · exact funcsKept_wrBytes s _ _

theorem funcsKept_dmaWrite (s : State) (unit m a : Nat) (data : List Byte) : FuncsKept s (dmaWrite s unit m a data).1 := by
  have hparts := funcsKept_foldl (dmaGranted s unit m a data.length true).1 (s := s) fun s e _ =>
    show FuncsKept s (dmaWritePart s unit e.1 ((data.drop (e.1 - a)).take e.2)) from
      funcsKept_ite ((funcsKept_dmaTouch s _).trans (funcsKept_dmaPut _ _ _)) (funcsKept_emit s _ _ _ _)
  unfold dmaWrite
  dsimp only
  split
  · exact hparts.trans (.of_frame rfl rfl)
  · exact hparts

/-! #### Completions and stopping queues -/

/-- The words of the queue contexts lie before the functions. -/
theorem offFuncs_aQctx {q i : Nat} (hq : q < 0x8000) (hi : i < 16) : OffFuncs (aQctx q i) := by
  simp only [OffFuncs, aQctx, aFunc]
  omega

section
variable {q : Nat} (hq : q < 0x8000)
include hq

theorem funcsKept_setQf (s : State) {i : Nat} (lo len v : Nat) (hi : i < 16) : FuncsKept s (setQf s q i lo len v) :=
  funcsKept_setRegF s _ _ _ (offFuncs_aQctx hq hi)

theorem funcsKept_setQw (s : State) {i : Nat} (v : W32) (hi : i < 16) : FuncsKept s (setQw s q i v) :=
  funcsKept_setReg s _ (offFuncs_aQctx hq hi)

theorem funcsKept_postCompletion (s : State) (e : Entry) (status svc info : Nat) (result : List Byte) :
    FuncsKept s (postCompletion s q e status svc info result) := by
  refine FuncsKept.trans ?_ (funcsKept_ite (funcsKept_sendMsix _ _ _) (.refl _))
  refine FuncsKept.trans ?_ (funcsKept_setQw hq _ _ (by omega : 13 < 16))
  refine FuncsKept.trans ?_ (funcsKept_ite (funcsKept_setQf hq _ 31 1 _ (by omega : 10 < 16)) (.refl _))
  refine FuncsKept.trans ?_ (funcsKept_setQf hq _ 0 12 _ (by omega : 10 < 16))
  exact (funcsKept_ite (.refl s) (funcsKept_hostOut s _ _)).trans (funcsKept_ite (funcsKept_dmaWrite _ _ _ _ _) (funcsKept_hostOut _ _ _))

theorem funcsKept_completeEntry (s : State) (e : Entry) (status svc info : Nat) (result : List Byte) :
    FuncsKept s (completeEntry s q e status svc info result) := by
  have hdiag : FuncsKept s (match diagOf status with
      | some t => queueDiag s t q e.cid status
      | none => s) := by
    split
    · exact funcsKept_diagEntry s _ _ _ _ _ _ _
    · exact .refl s
  exact (hdiag.trans (funcsKept_ite (.refl _) (funcsKept_postCompletion hq _ _ _ _ _ _))).trans (funcsKept_setQf hq _ _ _ _ (by omega))

theorem funcsKept_queueStop (s : State) : FuncsKept s (queueStop s q) :=
  have hfetched (t : State) : FuncsKept t (setFetched t q []) := .of_frame rfl rfl
  ((funcsKept_setQf hq s 0 2 stStopping (by omega : 11 < 16)).trans (hfetched _)).trans
    (funcsKept_foldl _ (fun s e _ => funcsKept_completeEntry hq s e 0x05 0 0 []) _)

theorem funcsKept_queueOffReq (s : State) : FuncsKept s (queueOffReq s q) :=
  (funcsKept_setQf hq s _ _ _ (by omega : 4 < 16)).trans
    (funcsKept_ite (funcsKept_queueStop hq _) (funcsKept_ite (funcsKept_setQf hq _ _ _ _ (by omega : 11 < 16)) (.refl _)))

end

theorem liveQueue_lt {q : Nat} (h : q ∈ liveQueues s) : q < 0x8000 := by
  obtain ⟨e, -, he⟩ := List.mem_filterMap.mp h
  split at he
  · next hrange =>
    simp only [Bool.and_eq_true, decide_eq_true_eq] at hrange
    simp only [Option.some.injEq] at he
    omega
  · simp at he

theorem funcsKept_stopQueues (s : State) (f : Nat) : FuncsKept s (stopQueues s f) :=
  funcsKept_foldl _ (fun s _ hq => funcsKept_ite (funcsKept_queueOffReq (liveQueue_lt hq) s) (.refl s)) s

end

/-! ### The PCIe controller (R326 to R329, R334) -/

/-- The function is not `ON` and its PCI state is that of a reset, or of a function that was not on. -/
def FuncQuiet (s : State) (f : Nat) : Prop := fState s f ≠ stOn ∧ (func s f).busMaster = false

/-- A disable of function f: it is not `ON`, of its PCI state only the reset's marks moved, and every other function stays. -/
structure Disabled (u t : State) (f : Nat) : Prop where
  state : fState t f ≠ stOn
  func : ∃ flr resetSinceFreeze resetCount, func t f = { func u f with flr, resetSinceFreeze, resetCount }
  others : ∀ g, g < 256 → g ≠ f → fState t g = fState u g ∧ Machine.func t g = Machine.func u g

section
variable {s t u : State} {f g off size stream : Nat} {v : W32} {code param : BitVec 8} {key : BitVec 256}

theorem func_setFunc_same (s : State) (f : Nat) (k : Func) : func (setFunc s f k) f = k := smGet_smSet_same _ _ _ _
theorem func_setFunc_other (s : State) (k : Func) (h : g ≠ f) : func (setFunc s f k) g = func s g := smGet_smSet_other _ h _ _ _
theorem fState_setFState_same (s : State) (f v : Nat) : fState (setFState s f v) f = v % 4 := regF_setRegF_same _ _ _ (by omega)
theorem fState_setFState_other (s : State) (v : Nat) (h : g ≠ f) : fState (setFState s f v) g = fState s g :=
  congrArg (fld · 4 2) (reg_setReg_other s (by simp only [aFunc]; omega) _)

/-- A step that leaves the functions' PCI state and every other function's control register. -/
theorem disabled_of_kept (hkept : ∀ g, g < 256 → g ≠ f → fState t g = fState u g) (hfuncs : t.fabric.funcs = u.fabric.funcs)
    (hst : fState t f ≠ stOn) : Disabled u t f := by
  have hfunc (g : Nat) : func t g = func u g := by rw [func, hfuncs, func]
  exact ⟨hst, ⟨_, _, _, hfunc f⟩, fun g hg hne => ⟨hkept g hg hne, hfunc g⟩⟩

theorem disabled_settleFunc (hst : fState u f = stStopping) : Disabled u (settleFunc u f) f := by
  unfold settleFunc
  dsimp only
  rw [hst]
  split
  · refine ⟨?_, ⟨_, _, _, func_setFunc_same _ _ _⟩, fun g _ hne => ⟨fState_setFState_other _ _ hne, func_setFunc_other _ _ hne⟩⟩
    rw [fState_setFState_same]
    decide
  · exact disabled_of_kept (fun _ _ _ => rfl) rfl (by rw [hst]; decide)

theorem Disabled.of_start (h : Disabled t u f) (hkept : ∀ g, g < 256 → g ≠ f → fState t g = fState s g)
    (hfuncs : t.fabric.funcs = s.fabric.funcs) : Disabled s u f := by
  have hfunc (g : Nat) : Machine.func t g = Machine.func s g := by rw [Machine.func, hfuncs, Machine.func]
  obtain ⟨flr, since, count, hf⟩ := h.func
  exact ⟨h.state, ⟨flr, since, count, by rw [hf, hfunc]⟩, fun g hg hne =>
    ⟨(h.others g hg hne).1.trans (hkept g hg hne), (h.others g hg hne).2.trans (hfunc g)⟩⟩

theorem disabled_funcEnableOp (s : State) (hf : f < 256) : Disabled s (funcEnableOp s f false) f := by
  have hother (i : Nat) (v : Bool) : ∀ g, g < 256 → g ≠ f → fState (setRegB s (aFunc f) i v) g = fState s g := fun g _ hne =>
    congrArg (fld · 4 2) (reg_setReg_other s (by simp only [aFunc]; omega) _)
  refine Disabled.of_start (t := setRegB s (aFunc f) 0 false) ?_ (hother 0 false) rfl
  unfold funcEnableOp
  dsimp only
  generalize setRegB s (aFunc f) 0 false = u
  rw [if_neg Bool.false_ne_true]
  split
  · have hkept := funcsKept_stopQueues (setFState u f stStopping) f
    refine (disabled_settleFunc ((hkept.state hf).trans (fState_setFState_same _ _ _))).of_start (fun g hg hne => ?_) hkept.funcs
    rw [hkept.state hg, fState_setFState_other _ _ hne]
  · next hon =>
    split
    · exact disabled_of_kept (fun g _ hne => fState_setFState_other _ _ hne) rfl (by rw [fState_setFState_same]; decide)
    · split
      · exact ⟨hon, ⟨_, _, _, func_setFunc_same _ _ _⟩, fun g _ hne => ⟨rfl, func_setFunc_other _ _ hne⟩⟩
      · exact disabled_of_kept (fun _ _ _ => rfl) rfl hon

theorem flrOp_effect (s : State) (hf : f < 256) :
    FuncQuiet (flrOp s f) f ∧ (func (flrOp s f) f).msixEnabled = false ∧ (func (flrOp s f) f).frozen = (func s f).frozen ∧
      ∀ g, g < 256 → g ≠ f → fState (flrOp s f) g = fState s g ∧ func (flrOp s f) g = func s g := by
  unfold flrOp
  dsimp only
  generalize hu : setFunc _ f _ = u
  have hfunc : ∃ flr since count,
      func u f = { ({} : Func) with flr := flr, frozen := (func s f).frozen, resetSinceFreeze := since, resetCount := count } :=
    ⟨_, _, _, by rw [← hu]; exact func_setFunc_same _ _ _⟩
  have hother : ∀ g, g < 256 → g ≠ f → fState u g = fState s g ∧ func u g = func s g := fun g _ hne => by
    rw [← hu]
    exact ⟨rfl, func_setFunc_other _ _ hne⟩
  obtain ⟨_, _, _, hflr⟩ := hfunc
  obtain ⟨hstate, ⟨_, _, _, hdis⟩, hothers⟩ := disabled_funcEnableOp u hf
  rw [FuncQuiet, hdis, hflr]
  exact ⟨⟨hstate, rfl⟩, rfl, rfl, fun g hg hne =>
    ⟨(hothers g hg hne).1.trans (hother g hg hne).1, (hothers g hg hne).2.trans (hother g hg hne).2⟩⟩

/-- The reset of one function, where there is something to reset. -/
def resetFunc (s : State) (f : Nat) : State := if fState s f ≠ stOff || func s f ≠ {} then flrOp s f else s

theorem quiet_resetFunc_same (s : State) (hf : f < 256) : FuncQuiet (resetFunc s f) f := by
  unfold resetFunc
  split
  · exact (flrOp_effect s hf).1
  · next h =>
    simp only [ne_eq, Bool.or_eq_true, decide_eq_true_eq, not_or, not_not] at h
    rw [FuncQuiet, h.1, h.2]
    exact ⟨by decide, rfl⟩

theorem quiet_resetFunc_other (hf : f < 256) (hg : g < 256) (hne : g ≠ f) (h : FuncQuiet s g) : FuncQuiet (resetFunc s f) g := by
  unfold resetFunc
  split
  · obtain ⟨-, -, -, hothers⟩ := flrOp_effect s hf
    rwa [FuncQuiet, (hothers g hg hne).1, (hothers g hg hne).2]
  · exact h

theorem quiet_resetFuncs (l : List Nat) (hl : ∀ f ∈ l, f < 256) (s : State) (hg : g < 256) (h : g ∈ l ∨ FuncQuiet s g) :
    FuncQuiet (l.foldl resetFunc s) g := by
  induction l generalizing s with
  | nil => exact h.resolve_left (by simp)
  | cons f l ih =>
    have hf := hl f List.mem_cons_self
    refine ih (fun f hf => hl f (List.mem_cons_of_mem _ hf)) _ ?_
    by_cases hne : g = f
    · exact Or.inr (by rw [hne]; exact quiet_resetFunc_same s hf)
    · exact h.imp (fun h => (List.mem_cons.mp h).resolve_left hne) (quiet_resetFunc_other hf hg hne)

/-- The reset of the controller's own logic. -/
def resetPcieLogic (s : State) : State :=
  let s := [0x010, 0x014, 0x018, 0x01C, 0x020, 0x040, 0x044, 0x048, 0x04C, 0x050, 0x054].foldl (fun s o => setReg s (aHost o) 0) s
  { s with fabric := { s.fabric with vectors := [], spdm := false, ideKeys := [], ideGo := [] } }

theorem perstOp_eq (s : State) : perstOp s = resetPcieLogic ((List.range 256).foldl resetFunc s) := rfl

theorem funcsKept_resetPcieLogic (s : State) : FuncsKept s (resetPcieLogic s) := by
  have hfabric (u : State) : FuncsKept u { u with fabric := { u.fabric with vectors := [], spdm := false, ideKeys := [], ideGo := [] } } :=
    .of_frame rfl rfl
  have hplace : ∀ o ∈ [0x010, 0x014, 0x018, 0x01C, 0x020, 0x040, 0x044, 0x048, 0x04C, 0x050, 0x054], aHost o < aFunc 0 := by decide
  exact (funcsKept_foldl _ (fun s o ho => funcsKept_setReg s 0 (Or.inl (hplace o ho))) s).trans (hfabric _)

theorem perstOp_effect (s : State) :
    ∃ t, exec .perstN s = .next t ∧ t.fabric.vectors = [] ∧ t.fabric.spdm = false ∧ t.fabric.ideKeys = [] ∧
      ∀ g, g < 256 → fState t g ≠ stOn ∧ (func t g).busMaster = false := by
  have hquiet : ∀ g, g < 256 → FuncQuiet ((List.range 256).foldl resetFunc s) g := fun g hg =>
    quiet_resetFuncs _ (fun f hf => List.mem_range.mp hf) s hg (Or.inl (List.mem_range.mpr hg))
  have hexec : exec .perstN s = .next (resetPcieLogic ((List.range 256).foldl resetFunc s)) := congrArg Host.Outcome.next (perstOp_eq s)
  generalize (List.range 256).foldl resetFunc s = u at hquiet hexec
  have hkept := funcsKept_resetPcieLogic u
  refine ⟨_, hexec, rfl, rfl, rfl, fun g hg => ?_⟩
  rw [hkept.state hg, hkept.func]
  exact hquiet g hg

/-! #### Configuration space (R326, R329, R343) -/

theorem config_retry (hon : pcieOn s = true) (hf : f < 256) (hboot : bootDone s = false) (hready : cfgReady s = false) (write : Bool) :
    exec (.configRequest f off write v) s = .next (emitOut s (.pcie 1 0)) := by
  have hop : configOp s f off write v = emitOut s (.pcie 1 0) := by
    simp only [configOp, hon, hboot, hready, Nat.not_le.mpr hf, Bool.not_true, decide_false, Bool.or_false, Bool.not_false,
      Bool.and_true, Bool.false_eq_true, if_false, if_true]
    rfl
  exact congrArg Host.Outcome.next hop

theorem configOp_ready (hon : pcieOn s = true) (hf : f < 256) (hready : cfgReady s = true) (write : Bool) :
    configOp s f off write v = (if write then emitOut (cfgWrite s f (off / 4 * 4) v) (.pcie cplOk 0)
      else emitOut s (.pcie cplOk (cfgRead s f (off / 4 * 4)))) := by
  simp only [configOp, hon, hready, Nat.not_le.mpr hf, Bool.not_true, decide_false, Bool.or_false, Bool.and_false,
    Bool.false_eq_true, if_false]

/-- A write that no control acts on. -/
theorem cfgWrite_plain (hcmd : off ≠ cfgCommand) (hmsix : off ≠ cfgMsix) :
    ∃ t, cfgWrite s f off v = t ∧ t = { s with fabric := t.fabric } ∧ smGet (func t f).config off 0 = v := by
  refine ⟨_, rfl, ?_, ?_⟩
  · simp only [cfgWrite, hcmd, hmsix, if_false]
    rfl
  · simp only [cfgWrite, hcmd, hmsix, if_false, func_setFunc_same]
    exact smGet_smIns_same _ _ _ _

theorem busMaster_setBusMaster (s : State) (f : Nat) (en : Bool) : (func (setBusMaster s f en) f).busMaster = en := by
  have hsent (l : List (Nat × Out)) (u : State) : func (l.foldl (fun s e => emitOut s e.2) u) f = func u f := by
    induction l generalizing u with
    | nil => rfl
    | cons e l ih => exact ih (emitOut u e.2)
  unfold setBusMaster
  dsimp only
  split
  · change (func (List.foldl _ _ _) f).busMaster = en
    rw [hsent, func_setFunc_same]
  · rw [func_setFunc_same]

theorem config_ready (hon : pcieOn s = true) (hf : f < 256) (hready : cfgReady s = true) :
    exec (.configRequest f off false v) s = .next (emitOut s (.pcie 0 (cfgRead s f (off / 4 * 4)))) ∧
    (off / 4 * 4 ≠ cfgCommand → off / 4 * 4 ≠ cfgMsix → ∃ t, exec (.configRequest f off true v) s = .next t ∧
      t = { s with fabric := t.fabric, out := s.out ++ [.pcie 0 0] } ∧ smGet (func t f).config (off / 4 * 4) 0 = v) ∧
    (off / 4 * 4 = cfgCommand → ∃ t, exec (.configRequest f off true v) s = .next t ∧ (func t f).busMaster = v.getLsbD 2) := by
  refine ⟨congrArg Host.Outcome.next (configOp_ready hon hf hready false), fun hcmd hmsix => ?_, fun hcmd => ?_⟩
  · obtain ⟨t, ht, hframe, hword⟩ := cfgWrite_plain (s := s) (f := f) (v := v) hcmd hmsix
    refine ⟨emitOut t (.pcie 0 0), congrArg Host.Outcome.next ((configOp_ready hon hf hready true).trans ?_), ?_, hword⟩
    · rw [ht]
      rfl
    · rw [hframe]
      rfl
  · refine ⟨_, congrArg Host.Outcome.next (configOp_ready hon hf hready true), ?_⟩
    rw [hcmd]
    exact busMaster_setBusMaster _ f _

theorem barFault_answers (hon : pcieOn s = true) (hshape : size ≠ 4 ∧ size ≠ 8 ∨ off % size ≠ 0) (hfrozen : (func s 0).frozen = false) :
    exec (.barAccessFault true off size) s = .next (emit s islPcie 0x435 0x073 []) ∧
    exec (.barAccessFault false off size) s = .next (emitOut (emit s islPcie 0x435 0x073 []) (.pcie 2 0)) := by
  have hfault : (!pcieOn s || ((size = 4 || size = 8) && off % size = 0)) = false := by
    rw [hon]
    obtain ⟨h4, h8⟩ | h := hshape
    · simp [h4, h8]
    · simp [h]
  refine ⟨congrArg Host.Outcome.next ?_, congrArg Host.Outcome.next ?_⟩
  · simp only [barFaultOp, hfault, hfrozen, Bool.false_eq_true, if_false, if_true]
  · simp only [barFaultOp, hfault, hfrozen, Bool.false_eq_true, if_false]
    rfl

/-! #### SPDM and IDE (R328) -/

theorem spdm_unsupported (hon : pcieOn s = true) (hcode : code.toNat ∉ spdmCodes) :
    exec (.spdmRequest code param) s = .next (emitOut s (.spdm 0x7F [code])) := by
  have hop : spdmOp s code.toNat param.toNat = emitOut s (.spdm 0x7F [code]) := by
    rw [spdmOp, if_neg (by simp [hon]), if_pos (by simp [hcode]), BitVec.ofNat_toNat, BitVec.setWidth_eq]
  exact congrArg Host.Outcome.next hop

theorem spdm_measurements (hon : pcieOn s = true) (hcode : code.toNat = spdmMeasure) :
    ∃ t, exec (.spdmRequest code param) s = .next t ∧ t = { s with out := t.out } ∧
      ∃ rest, t.out = s.out ++ [.spdm 0x60 (measurements s param.toNat ++ rest)] := by
  refine ⟨emitOut s (.spdm 0x60 (measurements s param.toNat ++ Config.spdmBody spdmMeasure param.toNat)),
    congrArg Host.Outcome.next ?_, rfl, _, rfl⟩
  rw [hcode, spdmOp, if_neg (by simp [hon]), if_neg (by decide)]
  rfl

theorem ideKm_inside (hon : pcieOn s = true) (hspdm : s.fabric.spdm = true) (f : State → State) : ideKm s f = f s := by
  rw [ideKm, if_neg (by simp [hon]), if_pos hspdm]

theorem ideKm_outside (hon : pcieOn s = true) (hspdm : s.fabric.spdm = false) (f : State → State) :
    ideKm s f = emitOut s (.spdm 0x7F []) := by
  rw [ideKm, if_neg (by simp [hon]), if_neg (by simp [hspdm])]

theorem ide_inside (hon : pcieOn s = true) (hspdm : s.fabric.spdm = true) :
    exec .query s = .next (emitOut s (.spdm 0x01 [9])) ∧
    (stream < 9 → exec (.keyProg stream key) s = .next (emitOut { s with
      fabric := { s.fabric with ideKeys := smIns (smDel s.fabric.ideKeys stream) stream key, ideGo := s.fabric.ideGo } }
        (.spdm 0x03 [0]))) ∧
    (hasKey s stream = true → exec (.kSetGo stream) s = .next (emitOut { s with
      fabric := { s.fabric with ideKeys := s.fabric.ideKeys, ideGo := s.fabric.ideGo.filter (· ≠ stream) ++ [stream] } }
        (.spdm 0x06 [0]))) ∧
    exec (.kSetStop stream) s = .next (emitOut { s with
      fabric := { s.fabric with ideKeys := s.fabric.ideKeys, ideGo := s.fabric.ideGo.filter (· ≠ stream) } } (.spdm 0x06 [0])) := by
  have hkm := ideKm_inside hon hspdm
  refine ⟨congrArg Host.Outcome.next (hkm _), fun hstream => congrArg Host.Outcome.next ((hkm _).trans ?_),
    fun hkey => congrArg Host.Outcome.next ((hkm _).trans (if_pos hkey)), congrArg Host.Outcome.next (hkm _)⟩
  exact if_neg (Nat.not_le.mpr hstream)

theorem ide_outside (hon : pcieOn s = true) (hspdm : s.fabric.spdm = false) :
    ∀ c ∈ [Instr.query, .keyProg stream key, .kSetGo stream, .kSetStop stream], exec c s = .next (emitOut s (.spdm 0x7F [])) := by
  have hkm := ideKm_outside hon hspdm
  intro c hc
  simp only [List.mem_cons, List.not_mem_nil, or_false] at hc
  obtain rfl | rfl | rfl | rfl := hc
  · exact congrArg Host.Outcome.next (hkm _)
  · exact congrArg Host.Outcome.next (hkm _)
  · exact congrArg Host.Outcome.next (hkm _)
  · exact congrArg Host.Outcome.next (hkm _)

end

/-- Settles O42: requests by the answer of each; a disable, a function reset and `PERST_N` leave no function `ON`, because queues
that end leave the functions alone. -/
theorem pcieRequestsAreAnswered : Obligations.PcieRequestsAreAnswered := by
  unfold Obligations.PcieRequestsAreAnswered
  intro s f off size stream v code param key hon hf
  obtain ⟨⟨hquiet, hmaster⟩, hmsix, hfrozen, -⟩ := flrOp_effect s hf
  exact ⟨config_retry hon hf, config_ready hon hf, barFault_answers hon, spdm_unsupported hon, spdm_measurements hon,
    ide_inside hon, ide_outside hon, ⟨_, rfl, hquiet, hmaster, hmsix, hfrozen⟩, perstOp_effect s⟩

end Sys2Proof.Machine
end

section
/-! SUPPORT. The trust services. -/

namespace Sys2Proof.Machine

/-! ### The trust services (R356 to R381) -/

section
variable {s s' : State} {c service op : Nat} {ops : List Nat} {body : Bool} {used : List (Nat × Nat)} {j : Job} {ws : List W32}

/-- An operation that a running service starts ends with what its body leaves. -/
theorem svcRun_of_runs (h : ServiceRuns s c service op body used j) (hops : ops.contains op = true) {f : State → Job → State × SvcEnd}
    {u : State} {e : SvcEnd} (hf : f s j = (u, e)) : svcRun s c service op ops body used f = svcFinish u c j e := by
  have hstart : (!isSpoke c || (core s c).run ≠ .running || (core s c).frozen || j.service ≠ service) = false := by
    simp [h.spoke, h.runs, h.clocked, h.service]
  have hop : (!ops.contains j.entry.op) = false := by rw [h.isOp, hops]; rfl
  have hformat : ¬ ((j.entry.payloadLen ≠ 0 && field (jobPayload s c j) 4 2 ≠ 1) = true) := by
    intro hbad
    simp only [Bool.and_eq_true, decide_eq_true_eq] at hbad
    exact hbad.2 (h.format hbad.1)
  unfold svcRun
  rw [h.job]
  dsimp only
  rw [if_neg (Bool.eq_false_iff.mp hstart), if_neg (Bool.eq_false_iff.mp hop), if_neg (by rw [h.isOp]; exact fun hne => hne rfl), h.reads,
    if_neg hformat, if_neg (by rw [h.reserved]; exact Bool.false_ne_true), if_neg (by rw [← h.payload]; simp), hf]

theorem drawWords_frame (n : Nat) (s : State) : (drawWords n s).2 = { s with draws := (drawWords n s).2.draws } := by
  induction n generalizing s with
  | zero => rfl
  | succ n ih => exact ih { s with draws := s.draws + 1 }

/-- Words that are taken leave all but Drip and the free values. -/
theorem dripTake_frame {n : Nat} (h : dripTake s n = some (ws, s')) : s' = { s with draws := s'.draws, drip := s'.drip } := by
  unfold dripTake at h
  split at h
  · exact absurd h (by simp)
  · split at h
    · simp only [Option.some.injEq, Prod.mk.injEq] at h
      rw [← h.2]
    · split at h
      · simp only [Option.some.injEq, Prod.mk.injEq] at h
        rw [← h.2, drawWords_frame]
      · exact absurd h (by simp)

theorem hubDrip_of_up (hup : hubBUp s = true) (hdrip : dripTake s 8 = some (ws, s')) : hubDrip s 8 = some (wordBytes ws, s') := by
  rw [hubDrip, if_pos hup, hdrip]
  rfl

theorem verify_ends (h : ServiceRuns s c 1 1 true [(0, 2)] j) :
    let args := jobArgs s c
    let body := jobBody s c j
    let alg := field args 0 1
    let mode := field args 1 1
    let n := field body 4 4
    let key := slice body 8 (algKeyLen alg)
    let sig := slice body (8 + algKeyLen alg) (algSigLen alg)
    let msg := slice body (8 + algKeyLen alg + algSigLen alg) n
    algModeOk alg mode = true → field body 0 2 = algKeyLen alg → field body 2 2 = algSigLen alg →
    (mode = 1 → n = algModeLen alg) → body.length = 8 + algKeyLen alg + algSigLen alg + n →
    (inputCheck alg key sig = 0 → exec (.verify c) s = .next (svcFinish s c j
      (svcOk (leBytes 8 (if Config.verifies alg (mode = 1) key msg sig = true then 0 else 1))))) ∧
    (inputCheck alg key sig ≠ 0 → exec (.verify c) s = .next (svcFinish s c j (svcReject (inputCheck alg key sig)))) := by
  intro args body alg mode n key sig msg halg hkey hsig hmode hlen
  have hop : verifyOp s c j = (s, if inputCheck alg key sig ≠ 0 then svcReject (inputCheck alg key sig)
      else svcOk (leBytes 8 (if Config.verifies alg (mode = 1) key msg sig = true then 0 else 1))) := by
    refine (if_neg (by rw [halg]; exact Bool.false_ne_true)).trans (if_neg fun hbad => ?_)
    simp only [Bool.or_eq_true, Bool.and_eq_true, decide_eq_true_eq] at hbad
    obtain ((hbad | hbad) | hbad) | hbad := hbad
    · exact hbad hkey
    · exact hbad hsig
    · exact hbad.2 (hmode hbad.1)
    · exact hbad hlen
  exact ⟨fun hok => congrArg Host.Outcome.next (svcRun_of_runs h (by decide) (hop.trans (congrArg (Prod.mk s) (if_neg (not_not_intro hok))))),
    fun hbad => congrArg Host.Outcome.next (svcRun_of_runs h (by decide) (hop.trans (congrArg (Prod.mk s) (if_pos hbad))))⟩

theorem appraise_ends {e : Evidence} {set : List Byte} (h : ServiceRuns s c 2 1 true [(0, 6)] j) (hr : field (jobArgs s c) 4 2 = 0xFFFF)
    (he : evidenceOf (jobBody s c j) = .inl e) (hreach : reachSet s c (field (jobArgs s c) 0 4) j.group = s)
    (hset : findSet s c (field (jobArgs s c) 0 4) j.group = some set) (hmeas : field set 10 1 = e.meas)
    (hinput : inputCheck e.alg e.key e.sig = 0) :
    exec (.appraise c) s = .next (svcFinish s c j (svcOk (leBytes 2 (appraisal set e).1 ++ leBytes 2 (appraisal set e).2 ++
      leBytes 4 (field (jobArgs s c) 0 4) ++ leBytes 2 (field set 8 2) ++ leBytes 2 0xFFFF ++ zeros 4 ++
      sha384 (evidenceRegs e).flatten ++ slice e.statement 4 16))) := by
  have hfound : (findSet s c (field (jobArgs s c) 0 4) j.group).filter (fun b => field b 10 1 = e.meas) = some set := by
    rw [hset]
    exact if_pos (decide_eq_true hmeas)
  refine congrArg Host.Outcome.next (svcRun_of_runs h (by decide) ?_)
  have hbad : ¬ ((255 < field (jobArgs s c) 4 2 && field (jobArgs s c) 4 2 ≠ 0xFFFF) = true) := by simp [hr]
  unfold appraiseOp
  generalize jobArgs s c = args at *
  dsimp only
  rw [if_neg hbad, he]
  dsimp only
  rw [hreach, hfound]
  dsimp only
  rw [if_neg (not_not_intro hinput), if_neg (by simp [hr]), hr]
  rfl

theorem refsetLoad_ends (h : ServiceRuns s c 2 2 true [(0, 6), (8, 4)] j) (hfunc : j.func = 0) (hflags : field (jobArgs s c) 5 1 = 1)
    (hup : hubBUp s = true) (hoff : field (jobArgs s c) 8 4 = 0) (hlen : (jobBody s c j).length ≤ 65536) :
    exec (.refsetLoad c) s = .next (svcFinish { s with
      svc := { s.svc with staging := smSet s.svc.staging (field (jobArgs s c) 0 4) [] (jobBody s c j) } } c j (svcOk [])) := by
  refine congrArg Host.Outcome.next (svcRun_of_runs h (by decide) ?_)
  unfold refsetLoadOp
  dsimp only
  rw [hfunc, hflags, hoff, if_neg (fun hne => hne rfl), if_neg (by decide), if_neg (by simp [hup]), if_neg (by omega),
    if_pos (by decide), if_pos (by decide)]
  simp [fitBytes, zeros]

theorem policySet_ends {ps : List PolicyEntry} (h : ServiceRuns s c 2 3 true [] j) (hps : policyOf (jobBody s c j) = .inl ps)
    (hup : hubBUp s = true) :
    exec (.policySet c) s = .next (svcFinish (hubBRecord { s with
      svc := { s.svc with policies := smSet s.svc.policies j.group [] ps } } 0x0C3 [w32 j.group]) c j (svcOk [])) := by
  refine congrArg Host.Outcome.next (svcRun_of_runs h (by decide) ?_)
  unfold policySetOp
  rw [hps]
  exact if_neg (by simp [hup])

theorem ticketKeys_ends {ec pq : List Byte} (h : ServiceRuns s c 2 4 false [] j) (hkeys : ticketKeysOf s j.group = some (ec, pq)) :
    exec (.ticketKeys c) s = .next (svcFinish s c j
      (svcOk (fitBytes 96 (Config.publicKey 2 ec) ++ fitBytes 1952 (Config.publicKey 8 pq)))) := by
  refine congrArg Host.Outcome.next (svcRun_of_runs h (by decide) ?_)
  unfold ticketKeysOp
  rw [hkeys]

theorem recordStatus_ends {b : List Byte} (h : ServiceRuns s c 2 5 false [(0, 2)] j) (hr : field (jobArgs s c) 0 2 ≤ 255)
    (hreach : reachRecord s c j.group (field (jobArgs s c) 0 2) = s)
    (hrec : recordOf s c j.group (field (jobArgs s c) 0 2) = some b) :
    exec (.recordStatus c) s = .next (svcFinish s c j (svcOk (b.drop 8))) := by
  refine congrArg Host.Outcome.next (svcRun_of_runs h (by decide) ?_)
  unfold recordStatusOp
  dsimp only
  rw [if_neg (by omega), hreach, hrec]

theorem ticket_ends {rec ec pq : List Byte} (h : ServiceRuns s c 3 1 false [(0, 2), (16, 16)] j) (hr : field (jobArgs s c) 0 2 ≤ 255)
    (hreach : reachRecord s c j.group (field (jobArgs s c) 0 2) = s)
    (hfresh : freshRecord s c j.group (field (jobArgs s c) 0 2) 1 (slice (jobArgs s c) 16 16) = some rec)
    (hkeys : ticketKeysOf s j.group = some (ec, pq)) (hup : hubBUp s = true) (hdrip : dripTake s 8 = some (ws, s')) :
    let u := { s' with svc := { s'.svc with ticketSeq := s'.svc.ticketSeq + 1 } }
    let payload := ticketPayload u (qTag u j.queue) u.svc.ticketSeq rec
    let a := coseSign 2 35 ec payload (wordBytes ws)
    let b := coseSign 8 49 pq payload (wordBytes ws)
    let r := if (a.2 && b.2) = true then (u, svcOk (cborHead 4 2 ++ a.1 ++ b.1)) else selfCheckFailed u c
    exec (.ticket c) s = .next (svcFinish r.1 c j r.2) := by
  intro u payload a b r
  refine congrArg Host.Outcome.next (svcRun_of_runs h (by decide) (u := r.1) (e := r.2) ?_)
  unfold ticketOp
  extract_lets args n v
  refine (if_neg (Nat.not_lt.mpr hr)).trans ?_
  have hv : v = s := hreach
  rw [hv]
  split
  · next hnone => exact absurd (hfresh.symm.trans hnone) (by simp)
  · next hnone _ => exact absurd (hkeys.symm.trans hnone) (by simp)
  · next rec' ec' pq' hfresh' hkeys' =>
    obtain rfl : rec = rec' := Option.some.inj (hfresh.symm.trans hfresh')
    obtain ⟨rfl, rfl⟩ : ec = ec' ∧ pq = pq' := Prod.mk.inj (Option.some.inj (hkeys.symm.trans hkeys'))
    rw [hubDrip_of_up hup hdrip]

theorem keyRelease_ends {rec : List Byte} {p : PolicyEntry} (h : ServiceRuns s c 4 1 true [(0, 4), (16, 16)] j) :
    let args := jobArgs s c
    let body := jobBody s c j
    let i := field args 2 2
    let r := field args 0 2
    let work := slice args 16 16
    body.length = 1216 → r ≤ 255 → checkRecipient (slice body 0 1184) (slice body 1184 32) = 0 →
    reachRecord s c j.group r = s →
    policyFor (smGet s.svc.policies j.group []) i (field ((recordOf s c j.group r).getD []) 12 4) = some p →
    freshRecord s c j.group r p.maxAge work = some rec → field rec 8 1 = 0 → (p.refsetId = 0 ∨ p.refsetId = field rec 12 4) →
    slice rec 88 32 = sha256 body → slice rec 88 32 ≠ zeros 32 → keyUsable s j i (useCrank ||| useDerive) = true →
    8 ≤ (slot s i).key.length → (slot s i).key.length ≤ 64 → hubBUp s = true → dripTake s 8 = some (ws, s') →
    exec (.keyRelease c) s = .next (svcFinish s' c j
      (svcOk (release (slot s i).key (slice body 0 1184) (slice body 1184 32) work i (wordBytes ws)))) := by
  intro args body i r work hlen hr hcheck hreach hpolicy hfresh hresult hset hbinding hbound husable hmin hmax hup hdrip
  refine congrArg Host.Outcome.next (svcRun_of_runs h (by decide) ?_)
  have hage : freshRecord s c j.group r (((some p).map PolicyEntry.maxAge).getD 1) work = some rec := hfresh
  have hagree : ¬ ((some p).all (fun p => p.refsetId ≠ 0 && p.refsetId ≠ field rec 12 4) = true) := by
    simp only [Option.all_some, Bool.and_eq_true, decide_eq_true_eq]
    rintro ⟨h0, hother⟩
    exact hset.elim h0 hother
  have hkey : ¬ ((!keyUsable s j i (useCrank ||| useDerive) || (slot s i).key.length < 8 || 64 < (slot s i).key.length) = true) := by
    simp only [husable, Bool.not_true, Bool.false_or, Bool.or_eq_true, decide_eq_true_eq]
    omega
  have hbound' : ¬ ((slice rec 88 32 ≠ sha256 body || slice rec 88 32 = zeros 32) = true) := by
    simp only [Bool.or_eq_true, decide_eq_true_eq]
    rintro (hne | h0)
    · exact hne hbinding
    · exact hbound h0
  have hr' : ¬ 255 < field (jobArgs s c) 0 2 := Nat.not_lt.mpr hr
  unfold keyReleaseOp
  refine (if_neg (not_not_intro hlen)).trans ?_
  rw [if_neg hr', if_neg (not_not_intro hcheck)]
  extract_lets +onlyGivenNames v policy
  have hv : v = s := hreach
  have hpol : policy = some p := by
    change policyFor (smGet v.svc.policies j.group []) i (field ((recordOf v c j.group r).getD []) 12 4) = some p
    rw [hv]
    exact hpolicy
  rw [hv, hpol, hage]
  refine (if_neg (not_not_intro hresult)).trans ((if_neg hagree).trans ((if_neg hbound').trans ((if_neg hkey).trans ?_)))
  rw [hubDrip_of_up hup hdrip]
  exact if_pos rfl

theorem derive_ends {k : Nat} (h : ServiceRuns s c 5 1 true [(0, 8)] j) :
    let args := jobArgs s c
    let body := jobBody s c j
    let alg := field args 2 1
    let n := field args 3 1
    let a := w32 (field args 4 4)
    let salt := field body 0 2
    let info := field body 2 2
    (alg = 1 ∨ alg = 2) → body.length = 4 + salt + info → keyUsable s j (field args 0 2) useDerive = true →
    attrOk s c a = true → attrGroup a = true → attrOwner a % 256 = j.group → attrLen a = n → n % 8 = 0 → n ≤ algDigest alg →
    attrLifetime a = 1 → findRun s 1 = some k →
    let key := hkdf alg (slice body 4 salt) (slotBytes s (field args 0 2)) (slice body (4 + salt) info) n
    exec (.derive c) s = .next (svcFinish (putExtent s k { state := .loaded, attr := a, key, allocBy := c, allocJob := some j.number }) c j
      (svcOk (leBytes 8 k))) := by
  intro args body alg n a salt info halg hlen husable hattr hgroup howner hsize hwords hmax hlife hrun key
  refine congrArg Host.Outcome.next (svcRun_of_runs h (by decide) ?_)
  have halg' : ¬ ((alg ≠ 1 && alg ≠ 2) = true) := by
    simp only [Bool.and_eq_true, decide_eq_true_eq]
    omega
  have hattr' : ¬ ((!attrOk s c a || !attrGroup a || attrOwner a % 256 ≠ j.group || attrLen a ≠ n || n % 8 ≠ 0 || algDigest alg < n ||
      !(attrLifetime a = 1 || (attrLifetime a = 2 && j.func = 0))) = true) := by
    simp [hattr, hgroup, howner, hsize, hwords, hlife, hmax]
  unfold deriveOp
  dsimp only
  rw [if_neg halg', if_neg (not_not_intro hlen), if_neg (by rw [husable]; exact Bool.false_ne_true), if_neg hattr', hrun]

theorem sign_ends (h : ServiceRuns s c 6 1 true [(0, 4)] j) :
    let args := jobArgs s c
    let body := jobBody s c j
    let i := field args 0 2
    let alg := field args 2 1
    let pre := field args 3 1 = 1
    let sig := fitBytes (algSigLen alg) (Config.signature alg pre (slot s i).key body (wordBytes ws))
    algModeOk alg (field args 3 1) = true → (pre → body.length = algModeLen alg) → keyUsable s j i useCrank = true →
    attrType (slot s i).attr = signType alg → signType alg ≠ 9 → hubBUp s = true → dripTake s 8 = some (ws, s') →
    let r := if Config.verifies alg pre (Config.publicKey alg (slot s i).key) body sig = true then (s', svcOk sig)
      else selfCheckFailed s' c
    exec (.sign c) s = .next (svcFinish r.1 c j r.2) := by
  intro args body i alg pre sig halg hlen husable htype hrsa hup hdrip r
  refine congrArg Host.Outcome.next (svcRun_of_runs h (by decide) (u := r.1) (e := r.2) ?_)
  have hslot : slot s' (field (jobArgs s c) 0 2) = slot s (field (jobArgs s c) 0 2) := by rw [dripTake_frame hdrip]; rfl
  have hlen' : ¬ ((field args 3 1 = 1 && body.length ≠ algModeLen alg) = true) := by
    simp only [Bool.and_eq_true, decide_eq_true_eq]
    exact fun hbad => hbad.2 (hlen hbad.1)
  have hkey : ¬ ((!keyUsable s j i useCrank || attrType (slot s i).attr ≠ signType alg ||
      (signType alg = 9 && attrLen (slot s i).attr ≠ Config.rsaCrtLength alg)) = true) := by
    simp [husable, htype, hrsa]
  unfold signOp
  dsimp only
  rw [if_neg (by rw [halg]; exact Bool.false_ne_true), if_neg hlen', if_neg hkey, hubDrip_of_up hup hdrip]
  dsimp only
  rw [hslot]

end

/-! #### What a service leaves in the job buffer (R344, R346, R358) -/

section
variable {s t u : State} {c b off : Nat} {j : Job}

/-- The job buffer of Spoke c: its bank is on, lets the queue fabric in, and no wipe runs in it. -/
structure BufferOpen (s : State) (c b : Nat) : Prop where
  bank : bankOf (jobBuffer c) = some b
  on : bankOn s b = true
  grants : bankGrants s qfDma b true false = true
  settled : wiping s b = false

/-- Every byte of the buffer lies in the bank of its first, in the plain view. -/
theorem bankAt_jobBuffer {a : Nat} (h : bankOf (jobBuffer c) = some b) (hlo : jobBuffer c ≤ a) (hhi : a < jobBuffer c + 0x4000) :
    bankAt a = some (b, 0, a) := by
  obtain ⟨w, hw⟩ : ∃ w, c / 16 = w := ⟨_, rfl⟩
  obtain ⟨k, hk⟩ : ∃ k, c % 16 = k := ⟨_, rfl⟩
  have hk16 : k < 16 := by omega
  simp only [jobBuffer, aWheel, hw, hk] at h hlo hhi
  unfold bankOf bankAt at h
  unfold bankAt
  dsimp only at h ⊢
  split_ifs at h with h0 h1 h2 h3 h4
  all_goals simp only [Bool.and_eq_true, decide_eq_true_eq, Option.map_some, Option.map_none, Option.some.injEq, reduceCtorEq] at *
  · omega
  · omega
  · omega
  · have hmod : (8589934592 + 16777216 * w + (1310720 + 16384 * k)) % 16777216 = 1310720 + 16384 * k := by omega
    have hamod : a % 16777216 = a - 8589934592 - 16777216 * w := by omega
    rw [if_neg (by omega), if_neg (by omega), if_neg (by omega), if_pos (by omega), if_pos (by omega)]
    simp only [Option.some.injEq, Prod.mk.injEq]
    omega

/-- A range that ends in the block of its first address has no part in the blocks after it. -/
theorem part_beyond {a n B k : Nat} (h : a + n ≤ (a / B + 1) * B) (hk : 1 ≤ k) (hi : Nat) :
    ¬ max a ((a / B + k) * B) < min (a + n) hi := by
  have hstart := Nat.mul_le_mul_right B (show a / B + 1 ≤ a / B + k by omega)
  omega

/-- A range that lies in one bank is one part of the DMA. -/
theorem dmaParts_single {a n : Nat} (hn : 0 < n) (hin : a % 131072 + n ≤ 131072) : dmaParts a n = [(a, n)] := by
  have hrange : ∃ rest, List.range (n / 131072 + 2) = 0 :: 1 :: rest ∧ (rest = [] ∨ rest = [2]) := by
    have hcount : n / 131072 = 0 ∨ n / 131072 = 1 := by omega
    obtain h | h := hcount
    · exact ⟨[], by rw [h]; rfl, Or.inl rfl⟩
    · exact ⟨[2], by rw [h]; rfl, Or.inr rfl⟩
  obtain ⟨rest, hrange, hrest⟩ := hrange
  have hfirst : max a ((a / 131072 + 0) * 131072) = a := by omega
  have hend : min (a + n) ((a / 131072 + 0 + 1) * 131072) = a + n := by omega
  have hend' : a + n ≤ (a / 131072 + 1) * 131072 := by omega
  have hbeyond (k : Nat) (hk : 1 ≤ k) := part_beyond hend' hk ((a / 131072 + k + 1) * 131072)
  have hlo : a < a + n := by omega
  rw [dmaParts, hrange]
  obtain rfl | rfl := hrest <;> simp only [List.filterMap_cons, List.filterMap_nil, hfirst, hend, hlo, if_neg (hbeyond 1 (by omega)), if_neg (hbeyond 2 (by omega)), if_true,
    Nat.add_sub_cancel_left]

/-- A DMA write to a bank that is on, settled and granted: the bytes are there, and nothing else of memory changed. -/
theorem dmaWrite_effect {unit m a b : Nat} {bs : List Byte} (hpos : 0 < bs.length) (hin : a % 131072 + bs.length ≤ 131072)
    (hat : bankAt a = some (b, 0, a)) (hon : bankOn s b = true) (hsettled : wiping s b = false)
    (hmay : dmaRefuses s unit m a true = false) :
    ∃ t, dmaWrite s unit m a bs = (t, none) ∧ t = { s with mem := t.mem, starved := t.starved } ∧
      rdBytes t a bs.length = bs ∧ ∀ x, x < a ∨ a + bs.length ≤ x → rdByte t x = rdByte s x := by
  have hbank : bankOf a = some b := by rw [bankOf, hat]; rfl
  have hon' : dmaOn s a = true := by rw [dmaOn, hbank]; exact hon
  have hgranted : dmaGranted s unit m a bs.length true = ([(a, bs.length)], none) := by
    rw [dmaGranted, dmaParts_single hpos hin]
    simp [hmay]
  have htouch := dmaTouch_effect (s := s) (a := a) fun b' hb' => by
    obtain rfl : b = b' := Option.some.inj (hbank.symm.trans hb')
    exact hsettled
  have hput : ∀ u : State, dmaPut u a bs = wrBytes u a bs := fun u => by rw [dmaPut, hat]; rfl
  have hwrite : dmaWrite s unit m a bs = (wrBytes (dmaTouch s a) a bs, none) := by
    rw [dmaWrite, hgranted]
    simp [dmaWritePart, hon', hput]
  rw [hwrite]
  generalize dmaTouch s a = u at htouch
  refine ⟨_, rfl, by rw [wrBytes_frame, htouch], rdBytes_wrBytes _ _ _, fun x hx => ?_⟩
  rw [rdByte_wrBytes_other bs u hx, htouch]
  rfl

theorem BufferOpen.of_frame (h : BufferOpen s c b) (hregs : t.regs = s.regs) (hpwr : t.pwr = s.pwr) : BufferOpen t c b := by
  have hreg (a : Nat) : reg t a = reg s a := reg_congr hregs a
  have hdom (d : Nat) : domOn t d = domOn s d := domOn_of_otp (hreg _) (congrArg Power.domains hpwr) d
  have hwheel (w : Nat) : wheelOn t w = wheelOn s w := wheelOn_congr (hreg _) (congrArg Power.domains hpwr) w
  refine ⟨h.bank, ?_, ?_, ?_⟩
  · rw [← h.on, bankOn, bankOn, hdom, hdom, hdom, hwheel]
  · refine Eq.trans ?_ h.grants
    rw [bankGrants, hreg, hreg, bankGrants]
  · rw [← h.settled, wiping, regB, hreg, wiping, regB]

/-- A write into an open buffer: the bytes are there, and nothing else of memory changed. -/
theorem bufferWrite_effect (h : BufferOpen s c b) {bs : List Byte} (hn : bs ≠ []) (hoff : off + bs.length ≤ 0x4000) :
    ∃ t, bufferWrite s c off bs = (t, true) ∧ t = { s with mem := t.mem, starved := t.starved } ∧
      rdBytes t (jobBuffer c + off) bs.length = bs ∧
      ∀ a, a < jobBuffer c + off ∨ jobBuffer c + off + bs.length ≤ a → rdByte t a = rdByte s a := by
  have hpos : 0 < bs.length := List.length_pos_iff.mpr hn
  have hat := bankAt_jobBuffer (a := jobBuffer c + off) h.bank (by omega) (by omega)
  have hmay : dmaRefuses s qfDma qfDma (jobBuffer c + off) true = false := by
    rw [dmaRefuses, dmaMay, hat]
    simp [h.grants]
  have hin : (jobBuffer c + off) % 131072 + bs.length ≤ 131072 := by
    simp only [jobBuffer, aWheel]
    omega
  obtain ⟨t, ht, hframe, hbytes, hother⟩ := dmaWrite_effect hpos hin hat h.on h.settled hmay
  exact ⟨t, by rw [bufferWrite, ht]; rfl, hframe, hbytes, hother⟩

theorem jobOf_setJob (hended : j.ended = none) : jobOf (setJob s c (some j)) c = some j := by
  have hrec : jobRec (setJob s c (some j)) c = some j := smGet_smSet_same s.fabric.jobs c none (some j)
  rw [jobOf, hrec]
  simp [hended]

theorem ended_of_jobOf (h : jobOf s c = some j) : j.ended = none := by
  obtain ⟨-, hended⟩ := Option.filter_eq_some_iff.mp h
  exact Option.isNone_iff_eq_none.mp hended

/-- A write through the job window: the bytes are there, nothing else of memory changed, and the job still runs. -/
theorem jobWrite_effect (h : BufferOpen s c b) (hjob : jobOf s c = some j) {bs : List Byte} (hn : bs ≠ [])
    (hoff : off + bs.length ≤ 0x4000) :
    ∃ t, jobWrite s c off bs = t ∧ BufferOpen t c b ∧ (∃ j', jobOf t c = some j') ∧
      rdBytes t (jobBuffer c + off) bs.length = bs ∧
      ∀ a, a < jobBuffer c + off ∨ jobBuffer c + off + bs.length ≤ a → rdByte t a = rdByte s a := by
  obtain ⟨t, ht, hframe, hbytes, hother⟩ := bufferWrite_effect h hn hoff
  have hopen : BufferOpen t c b := h.of_frame (by rw [hframe]) (by rw [hframe])
  have hwritten : jobWrite s c off bs = setJob t c (some { j with highWater := max j.highWater (off + bs.length) }) := by
    rw [jobWrite, hjob]
    dsimp only
    rw [ht, if_pos rfl]
  have hended : ({ j with highWater := max j.highWater (off + bs.length) } : Job).ended = none := by
    change j.ended = none
    exact ended_of_jobOf hjob
  have hsame (k : Option Job) : rdBytes (setJob t c k) (jobBuffer c + off) bs.length = rdBytes t (jobBuffer c + off) bs.length :=
    rdBytes_congr _ _ fun _ _ => rfl
  exact ⟨_, hwritten, hopen.of_frame rfl rfl, ⟨_, jobOf_setJob hended⟩, (hsame _).trans hbytes, hother⟩

/-- What follows the trailer in the end of a service: marks and records, and memory stays. -/
def svcClose (s : State) (c : Nat) (j : Job) (e : SvcEnd) : State :=
  let refusal := fun (s : State) code => diagEntry s 0x0C1 (some j.func) j.queue j.entry.cid (w32 code) [] (qTag s j.queue)
  if j.sign then
    if e.status = 0 then
      match jobOf s c with
      | some j => setJob s c (some { j with declassified := true })
      | none => s
    else if 0x11 ≤ e.status then refusal (emit s islQf c 0x023 [w32 (e.status - 0x10)]) (e.status - 0x10)
    else if e.status = stService then refusal s e.svc
    else s
  else if e.status = stService && e.svc = svHub then refusal s svHub
  else s

/-- The trailer of a service's end. -/
def svcTrailer (e : SvcEnd) : List Byte :=
  leBytes 4 128 ++ leBytes 4 e.result.length ++ leBytes 1 e.status ++ leBytes 1 e.svc ++ zeros 6

theorem svcFinish_eq (s : State) (c : Nat) (j : Job) (e : SvcEnd) :
    svcFinish s c j e = svcClose (jobWrite (if e.result = [] then s else jobWrite s c 128 e.result) c 64 (svcTrailer e)) c j e := by
  unfold svcFinish svcClose svcTrailer
  rfl

theorem mem_diagEntry (s : State) (rtype : Nat) (f : Option Nat) (q cid : Nat) (code : W32) (detail : List Byte) (tag : Nat) :
    (diagEntry s rtype f q cid code detail tag).mem = s.mem := by
  rw [noted_diagEntry s rtype f q cid code detail tag]

theorem mem_emit (s : State) (island source rtype : Nat) (payload : List W32) : (emit s island source rtype payload).mem = s.mem := by
  rw [noted_emit s island source rtype payload]

theorem mem_svcClose (s : State) (c : Nat) (j : Job) (e : SvcEnd) : (svcClose s c j e).mem = s.mem := by
  unfold svcClose
  dsimp only
  split
  · split
    · split <;> rfl
    · split
      · rw [mem_diagEntry, mem_emit]
      · split
        · exact mem_diagEntry _ _ _ _ _ _ _ _
        · rfl
  · split
    · exact mem_diagEntry _ _ _ _ _ _ _ _
    · rfl

theorem length_svcTrailer (e : SvcEnd) : (svcTrailer e).length = 16 := by
  simp [svcTrailer, length_leBytes, zeros]

/-- A service's end leaves its result and its trailer in the buffer. -/
theorem svcFinish_effect (h : BufferOpen s c b) (hjob : jobOf s c = some j) (e : SvcEnd) (hlen : e.result.length ≤ 16256) :
    rdBytes (svcFinish s c j e) (jobBuffer c + 128) e.result.length = e.result ∧
    rdBytes (svcFinish s c j e) (jobBuffer c + 64) 16 = svcTrailer e := by
  have hresult : ∃ t, (if e.result = [] then s else jobWrite s c 128 e.result) = t ∧ BufferOpen t c b ∧ (∃ j', jobOf t c = some j') ∧
      rdBytes t (jobBuffer c + 128) e.result.length = e.result := by
    split
    · next hnil => exact ⟨s, rfl, h, ⟨j, hjob⟩, by rw [hnil]; rfl⟩
    · next hne =>
      obtain ⟨t, ht, hopen, hrun, hbytes, -⟩ := jobWrite_effect h hjob hne (off := 128) (by omega)
      exact ⟨t, ht, hopen, hrun, hbytes⟩
  obtain ⟨t, ht, hopen, ⟨j', hrun⟩, hbytes⟩ := hresult
  have htrailer : svcTrailer e ≠ [] := List.ne_nil_of_length_pos (by rw [length_svcTrailer]; decide)
  obtain ⟨u, hu, -, -, hwritten, hother⟩ := jobWrite_effect hopen hrun htrailer (off := 64) (by rw [length_svcTrailer]; decide)
  rw [length_svcTrailer] at hwritten hother
  have hmem (a n : Nat) : rdBytes (svcFinish s c j e) a n = rdBytes u a n :=
    rdBytes_congr n a fun i _ => rdByte_mem_congr (by rw [svcFinish_eq, ht, hu, mem_svcClose]) _
  refine ⟨?_, (hmem _ _).trans hwritten⟩
  rw [hmem, ← hbytes, length_rdBytes]
  exact rdBytes_congr _ _ fun i _ => hother _ (by omega)

end

/-- Settles O47: each operation whose checks pass ends with its own result, and the end of a service leaves result and trailer in
the job buffer. -/
theorem servicesAnswerTheirJobs : Obligations.ServicesAnswerTheirJobs := by
  unfold Obligations.ServicesAnswerTheirJobs
  intro s s' c j ws
  exact ⟨verify_ends, fun e set => appraise_ends, refsetLoad_ends, fun ps => policySet_ends, fun ec pq => ticketKeys_ends,
    fun b => recordStatus_ends, fun rec ec pq => ticket_ends, fun rec p => keyRelease_ends, fun k => derive_ends, sign_ends,
    fun e b hjob hbank hon hgrants hsettled hlen => svcFinish_effect ⟨hbank, hon, hgrants, hsettled⟩ hjob e hlen⟩

end Sys2Proof.Machine
end

section
/-! SUPPORT. Chain links and their frames. -/

namespace Sys2Proof.Machine

/-! ### Frames that leave, and links that change (R383, R389 to R392) -/

section
variable {s t u : State} {x y : Nat}

/-- The registers that a record may count in: Flowstone's drops and PF0's diagnostic ring (R352, R456). -/
def RecordReg (a : Nat) : Prop := a = aFs 0x02C ∨ a = aFs 0x00C ∨ a = aHost 0x04C ∨ a = aHost 0x054

theorem reg_sendMsix (s : State) (f v a : Nat) : reg (sendMsix s f v) a = reg s a := by
  have hhost (u : State) (o : Out) : reg (hostOut u f o) a = reg u a := by
    unfold hostOut
    split <;> rfl
  unfold sendMsix
  dsimp only
  split_ifs
  · rfl
  · rfl
  · exact hhost _ _

theorem reg_diagEntry (s : State) (rtype : Nat) (f : Option Nat) (q cid : Nat) (code : W32) (detail : List Byte) (tag : Nat) {a : Nat}
    (hprod : a ≠ aHost 0x04C) (hlost : a ≠ aHost 0x054) : reg (diagEntry s rtype f q cid code detail tag) a = reg s a := by
  have hhost (u : State) (f : Nat) (o : Out) : reg (hostOut u f o) a = reg u a := by
    unfold hostOut
    split <;> rfl
  unfold diagEntry
  simp only
  split_ifs
  · rfl
  · exact reg_setReg_other s hlost _
  · rw [reg_sendMsix, reg_setReg_other _ hprod, hhost]

theorem reg_emit (s : State) (island source rtype : Nat) (payload : List W32) {a : Nat} (ha : ¬ RecordReg a) :
    reg (emit s island source rtype payload) a = reg s a := by
  simp only [RecordReg, not_or] at ha
  obtain ⟨hdrops, hmore, hprod, hlost⟩ := ha
  have hdiag : reg (diagRecord s source rtype payload) a = reg s a := by
    unfold diagRecord
    split
    · exact reg_diagEntry s _ _ _ _ _ _ _ hprod hlost
    · rfl
  exact ((logged_raiseRecord _ island source rtype payload).regs a hdrops hmore).trans hdiag

/-- A register of the tunnels' transmit buffers (R390). -/
def TunReg (a : Nat) : Prop := ∃ y, y < 2 ∧ (a = aChain y 0x200 ∨ a = aChain y 0x204)

theorem not_tunReg_of_off {off : Nat} (h : off ≠ 0x200 ∧ off ≠ 0x204) (hoff : off < 0x1000) : ¬ TunReg (aChain x off) := by
  rintro ⟨y, hy, h'⟩
  simp only [aChain] at h'
  omega

/-- Frames of the member left or wait: outputs, the tunnels' buffers and the sequence number moved, and nothing else. -/
structure Sends (s t : State) : Prop where
  frame : t = { s with regs := t.regs, fabric := t.fabric, out := t.out,
                       chain := { s.chain with ports := t.chain.ports, seq := t.chain.seq } }
  regs : ∀ a, ¬ TunReg a → reg t a = reg s a
  ports : ∀ y, ∃ tx wait, cport t y = { cport s y with tunTx := tx, tunWait := wait }

theorem Sends.refl (s : State) : Sends s s := ⟨rfl, fun _ _ => rfl, fun _ => ⟨_, _, rfl⟩⟩

theorem Sends.trans (h : Sends s t) (h' : Sends t u) : Sends s u := by
  refine ⟨by rw [h'.frame, h.frame], fun a ha => (h'.regs a ha).trans (h.regs a ha), fun y => ?_⟩
  obtain ⟨_, _, hst⟩ := h.ports y
  obtain ⟨tx, wait, htu⟩ := h'.ports y
  exact ⟨tx, wait, by rw [htu, hst]⟩

theorem sends_emitOut (s : State) (o : Out) : Sends s (emitOut s o) := ⟨rfl, fun _ _ => rfl, fun _ => ⟨_, _, rfl⟩⟩

theorem sends_hostOut (s : State) (f : Nat) (o : Out) : Sends s (hostOut s f o) := by
  unfold hostOut
  split
  · exact sends_emitOut s o
  · exact ⟨rfl, fun _ _ => rfl, fun _ => ⟨_, _, rfl⟩⟩

theorem sends_sendMsix (s : State) (f v : Nat) : Sends s (sendMsix s f v) := by
  unfold sendMsix
  dsimp only
  split_ifs
  · exact .refl s
  · exact ⟨rfl, fun _ _ => rfl, fun _ => ⟨_, _, rfl⟩⟩
  · exact sends_hostOut s _ _

theorem sends_setReg (s : State) {a : Nat} (v : W32) (ha : TunReg a) : Sends s (setReg s a v) :=
  ⟨rfl, fun b hb => reg_setReg_other s (fun h => hb (by rw [h]; exact ha)) v, fun _ => ⟨_, _, rfl⟩⟩

theorem sends_setRegB (s : State) {a : Nat} (i : Nat) (v : Bool) (ha : TunReg a) : Sends s (setRegB s a i v) := sends_setReg s _ ha

theorem cport_setCport (s : State) (x : Nat) (k : ChainPort) (y : Nat) : cport (setCport s x k) y = if y = x then k else cport s y := by
  split
  · next h => rw [h]; exact smGet_smSet_same _ _ _ _
  · next h => exact smGet_smSet_other _ h _ _ _

theorem sends_tunnel (s : State) (x : Nat) (tx : List Byte) (wait : List Frame) :
    Sends s (setCport s x { cport s x with tunTx := tx, tunWait := wait }) := by
  refine ⟨rfl, fun _ _ => rfl, fun y => ?_⟩
  rw [cport_setCport]
  split
  · next h => exact ⟨tx, wait, by rw [h]⟩
  · exact ⟨_, _, rfl⟩

theorem sends_ite {p : Prop} [Decidable p] (ht : Sends s t) (hu : Sends s u) : Sends s (if p then t else u) := by
  split <;> assumption

theorem sends_foldl {α : Type} {f : State → α → State} (h : ∀ s x, Sends s (f s x)) (l : List α) (s : State) : Sends s (l.foldl f s) := by
  induction l generalizing s with
  | nil => exact .refl s
  | cons x l ih => exact (h s x).trans (ih _)

theorem sends_tunPlace (s : State) (hx : x < 2) (f : Frame) : Sends s (tunPlace s x f) := by
  have hlen := (sends_tunnel s x (frameBytes f) (cport s x).tunWait).trans
    (sends_setReg _ (a := aChain x 0x204) (w32 (frameBytes f).length) ⟨x, hx, Or.inr rfl⟩)
  have hfull := hlen.trans (sends_setRegB _ (a := aChain x 0x200) 0 true ⟨x, hx, Or.inl rfl⟩)
  exact hfull.trans (sends_ite (sends_sendMsix _ _ _) (.refl _))

theorem port_lt (h : portRuns s x = true) : x < 2 := by
  simp only [portRuns, Bool.and_eq_true, decide_eq_true_eq] at h
  exact h.1.1.1

theorem sends_egress (s : State) (x : Nat) (f : Frame) : Sends s (egress s x f) := by
  unfold egress
  split
  · exact .refl s
  · next h =>
    have hx : x < 2 := port_lt (by simpa using h)
    exact sends_ite (sends_emitOut s _) (sends_ite (sends_tunnel s x (cport s x).tunTx _) (sends_tunPlace s hx f))

theorem sends_ownFrame (s : State) (ftype : Nat) (dst : BitVec 128) (payload : List Byte) : Sends s (ownFrame s ftype dst payload).2 :=
  ⟨rfl, fun _ _ => rfl, fun _ => ⟨_, _, rfl⟩⟩

theorem sends_sendRaw (s : State) (x ftype : Nat) (payload : List Byte) : Sends s (sendRaw s x ftype payload) :=
  (sends_ownFrame s ftype 0 payload).trans (sends_egress _ x _)

theorem sends_sendOn (s : State) (xs : List Nat) (ftype : Nat) (dst : BitVec 128) (payload : List Byte) :
    Sends s (sendOn s xs ftype dst payload) :=
  (sends_ownFrame s ftype dst payload).trans (sends_foldl (fun s x => sends_ite (sends_egress s x _) (.refl s)) _ _)

theorem sends_sendAll (s : State) (ftype : Nat) (payload : List Byte) : Sends s (sendAll s ftype payload) := sends_sendOn s _ _ _ _

theorem sends_sendTo (s : State) (ftype : Nat) (dst : BitVec 128) (payload : List Byte) : Sends s (sendTo s ftype dst payload) :=
  sends_sendOn s _ _ _ _

theorem Sends.linkStatus (h : Sends s t) : reg t (aChain x 0x004) = reg s (aChain x 0x004) :=
  h.regs _ (not_tunReg_of_off (by decide) (by decide))

theorem Sends.mode (h : Sends s t) : reg t (aChain x 0x000) = reg s (aChain x 0x000) :=
  h.regs _ (not_tunReg_of_off (by decide) (by decide))

/-! #### A change of link state -/

/-- What a change of link x moves: its status and event, the counters of its record, the tunnels' buffers. -/
def LinkReg (x a : Nat) : Prop := a = aChain x 0x004 ∨ a = aChain x 0x008 ∨ RecordReg a ∨ TunReg a

/-- Link x took the state `up`; of its status only `UP` and, where it went down, the neighbour's mark moved. -/
structure Linked (s t : State) (x : Nat) (up : Bool) : Prop where
  frame : t = { s with regs := t.regs, fabric := t.fabric, out := t.out, fs := t.fs,
                       chain := { s.chain with ports := t.chain.ports, seq := t.chain.seq } }
  regs : ∀ a, ¬ LinkReg x a → reg t a = reg s a
  isUp : linkIsUp t x = up
  status : ∀ i, i ≠ 1 → i ≠ 2 → regB t (aChain x 0x004) i = regB s (aChain x 0x004) i
  heard : regB t (aChain x 0x004) 2 = true → regB s (aChain x 0x004) 2 = true
  others : ∀ y, y ≠ x → ∃ tx wait, cport t y = { cport s y with tunTx := tx, tunWait := wait }

theorem not_recordReg_aChain (x off : Nat) (hx : x < 2) (hoff : off < 0x10000) : ¬ RecordReg (aChain x off) := by
  simp only [RecordReg, aChain, aFs, aHost]
  omega

theorem linked_setLink (s : State) (hx : x < 2) (up : Bool) : Linked s (setLink s x up) x up := by
  unfold setLink
  split
  · next h => exact ⟨rfl, fun _ _ => rfl, h, fun _ _ _ => rfl, id, fun _ _ => ⟨_, _, rfl⟩⟩
  · dsimp only
    generalize hmarked : setRegB (setRegB s (aChain x 0x004) 1 up) (aChain x 0x008) (b2n up) true = a
    generalize hrecorded : hubInt (emit a (islChain x) (0x410 + x) (if up then 0x0D1 else 0x0D2) []) "INT_CHAIN" x = b
    generalize hcleared : (if up then b else setCport (setRegB b (aChain x 0x004) 2 false) x
        { cport b x with delays := 0, reqSent := none, bound := none, tunWait := [] }) = c
    have ha : Linked s a x up := by
      have hstatus : reg a (aChain x 0x004) = reg (setRegB s (aChain x 0x004) 1 up) (aChain x 0x004) := by
        rw [← hmarked]
        exact reg_setRegB_other _ (by simp only [aChain]; omega) true
      have hother (i : Nat) (h1 : i ≠ 1) : regB a (aChain x 0x004) i = regB s (aChain x 0x004) i :=
        (regB_congr hstatus i).trans (regB_setRegB_other _ _ h1 _)
      refine ⟨by rw [← hmarked]; rfl, fun r hr => ?_, (regB_congr hstatus 1).trans (regB_setRegB_same _ _ _ (by omega)),
        fun i h1 _ => hother i h1, fun h => (hother 2 (by omega)).symm.trans h, fun _ _ => ⟨_, _, by rw [← hmarked]; rfl⟩⟩
      · simp only [LinkReg, not_or] at hr
        rw [← hmarked, reg_setRegB_other _ hr.2.1, reg_setRegB_other _ hr.1]
    have hb : Linked s b x up := by
      have hnoted := noted_emit a (islChain x) (0x410 + x) (if up then 0x0D1 else 0x0D2) []
      have hregs : ∀ r, ¬ RecordReg r → reg b r = reg a r := fun r hr => by rw [← hrecorded]; exact reg_emit a _ _ _ _ hr
      have hstatus : reg b (aChain x 0x004) = reg a (aChain x 0x004) := hregs _ (not_recordReg_aChain x _ hx (by decide))
      have hframe : b = { a with regs := b.regs, fabric := b.fabric, out := b.out, fs := b.fs } := by
        rw [← hrecorded]
        conv_lhs => rw [hubInt, emitOut, hnoted]
        rfl
      refine ⟨by rw [hframe, ha.frame], fun r hr => ?_, (regB_congr hstatus 1).trans ha.isUp,
        fun i h1 h2 => (regB_congr hstatus i).trans (ha.status i h1 h2), fun h => ha.heard ((regB_congr hstatus 2).symm.trans h),
        fun y hy => ?_⟩
      · exact (hregs r fun h => hr (Or.inr (Or.inr (Or.inl h)))).trans (ha.regs r hr)
      · rw [show cport b y = cport a y by rw [hframe]; rfl]
        exact ha.others y hy
    have hc : Linked s c x up := by
      rw [← hcleared]
      split
      · exact hb
      · have hcleared2 : regB (setRegB b (aChain x 0x004) 2 false) (aChain x 0x004) 2 = false := regB_setRegB_same _ _ _ (by omega)
        refine ⟨by rw [hb.frame]; rfl, fun r hr => ?_, ?_, fun i h1 h2 => ?_, fun h => absurd (hcleared2.symm.trans h) (by decide),
          fun y hy => ?_⟩
        · have hne : r ≠ aChain x 0x004 := fun h => hr (Or.inl h)
          exact (reg_setRegB_other b hne false).trans (hb.regs r hr)
        · exact (regB_setRegB_other b _ (by omega) false).trans hb.isUp
        · exact (regB_setRegB_other b _ h2 false).trans (hb.status i h1 h2)
        · rw [cport_setCport, if_neg hy]
          exact hb.others y hy
    split
    · have hsent := sends_sendAll c 0x14 (leBytes 2 (linkFlags c))
      have hstatus := hsent.linkStatus (x := x)
      refine ⟨by rw [hsent.frame, hc.frame], fun r hr => ?_, (regB_congr hstatus 1).trans hc.isUp,
        fun i h1 h2 => (regB_congr hstatus i).trans (hc.status i h1 h2), fun h => hc.heard ((regB_congr hstatus 2).symm.trans h),
        fun y hy => ?_⟩
      · exact (hsent.regs r fun h => hr (Or.inr (Or.inr (Or.inr h)))).trans (hc.regs r hr)
      · obtain ⟨_, _, hcy⟩ := hc.others y hy
        obtain ⟨tx, wait, hty⟩ := hsent.ports y
        exact ⟨tx, wait, by rw [hty, hcy]⟩
    · exact hc

theorem linkReg_aChain {off : Nat} (hx : x < 2) (h4 : off ≠ 0x004) (h8 : off ≠ 0x008) (h200 : off ≠ 0x200) (h204 : off ≠ 0x204)
    (hoff : off < 0x1000) : ¬ LinkReg x (aChain x off) := by
  rintro (h | h | h | h)
  · simp only [aChain] at h
    omega
  · simp only [aChain] at h
    omega
  · exact not_recordReg_aChain x off hx (by omega) h
  · exact not_tunReg_of_off ⟨h200, h204⟩ hoff h

end

/-! ### Links and their frames (R383 to R391) -/

section
variable {s t u w : State} {m x k b : Nat} {v : W32} {f g : Frame} {rest : List Frame}

theorem portRuns_facts (h : portRuns s x = true) : x < 2 ∧ chainOn s = true ∧ linkMode s x ≠ 0 ∧ (cport s x).frozen = false := by
  simpa [portRuns, and_assoc] using h

theorem chainBy_of_granted (hon : chainOn s = true) {off : Nat} {ok : Bool} (hok : ok = true) (f : State → State) :
    chainBy s m off ok f = f s := by
  rw [chainBy, guarded, if_pos hon, granted, if_pos hok]

theorem regF_lt (s : State) (a lo len : Nat) : regF s a lo len < 2 ^ len := fld_lt _ _ _

theorem linkMode_write (hx : x < 2) (hon : chainOn s = true) (hm : isHub m = true) (hfrozen : (cport s x).frozen = false)
    (h3 : fld v 0 2 ≠ 3) (hnew : fld v 0 2 ≠ linkMode s x) :
    ∃ t, exec (.linkModeWrite m x v) s = .next t ∧ linkMode t x = fld v 0 2 ∧ linkIsUp t x = false := by
  have hop : exec (.linkModeWrite m x v) s = .next (linkModeOp s m x v) :=
    congrArg Host.Outcome.next ((chainBy_of_granted hon hm _).trans (if_pos hx))
  refine ⟨_, hop, ?_⟩
  unfold linkModeOp
  dsimp only
  rw [hfrozen, if_neg Bool.false_ne_true, if_neg h3, if_neg hnew]
  generalize (if m = hubA then setRegB s (aChain x 0x000) 8 (bitOf v 8) else s) = a
  have hdown := (linked_setLink a hx false).isUp
  generalize setLink a x false = b at hdown
  have hmode : linkMode (setRegF (setRegB b (aChain x 0x004) 0 false) (aChain x 0x000) 0 2 (fld v 0 2)) x = fld v 0 2 :=
    (regF_setRegF_same _ _ _ (by omega)).trans (Nat.mod_eq_of_lt (fld_lt v 0 2))
  have hup : linkIsUp (setRegF (setRegB b (aChain x 0x004) 0 false) (aChain x 0x000) 0 2 (fld v 0 2)) x = false :=
    (regB_congr (reg_setReg_other _ (by simp only [aChain]; omega) _) 1).trans ((regB_setRegB_other b _ (by omega) false).trans hdown)
  split
  · exact ⟨hmode, hup⟩
  · exact ⟨hmode, hup⟩

/-! #### Block lock, HELLOs and the rise of a link -/

theorem sends_offerTo (s : State) (x : Nat) : Sends s (offerTo s x) := sends_ite (sends_sendRaw s _ _ _) (.refl s)

theorem linkUp_rises (hruns : portRuns s x = true) (hlock : linkMode s x = 2 ∨ blockLock s x = true)
    (hhello : regB s (aChain x 0x004) 2 = true) (hid : pelotonId s ≠ 0) (hdelays : 3 ≤ (cport s x).delays) (hdown : linkIsUp s x = false) :
    ∃ t, exec (.linkUp x) s = .next t ∧ linkIsUp t x = true := by
  have hready : (portRuns s x && (linkMode s x = 2 || blockLock s x) && regB s (aChain x 0x004) 2 && pelotonId s ≠ 0 &&
      3 ≤ (cport s x).delays) = true := by
    simp only [hruns, hhello, hdelays, hlock, decide_true, Bool.true_and, Bool.and_true, Bool.or_eq_true, decide_eq_true_eq,
      ne_eq, hid, not_false_eq_true]
  have hup := (linked_setLink s (port_lt hruns) true).isUp
  have hop : linkUpEvent s x = offerTo (setLink s x true) x := by
    rw [linkUpEvent, linkUpOp, if_pos hready]
    exact if_pos (by rw [hdown, hup]; rfl)
  exact ⟨_, congrArg Host.Outcome.next hop, (regB_congr (sends_offerTo _ x).linkStatus 1).trans hup⟩

theorem linkUp_waits (hdelays : (cport s x).delays < 3) : exec (.linkUp x) s = .next s := by
  have hop : linkUpOp s x = s := if_neg (by simp [Nat.not_le.mpr hdelays])
  have hevent : linkUpEvent s x = s := by
    rw [linkUpEvent, hop]
    exact if_neg (by simp)
  exact congrArg Host.Outcome.next hevent

theorem blockLock_acquired (hruns : portRuns s x = true) (hmode : linkMode s x = 1) :
    exec (.blockLockAcquired x) s = .next (setRegB s (aChain x 0x004) 0 true) :=
  congrArg Host.Outcome.next (if_pos (by simp [hruns, hmode]))

theorem blockLock_lost (hruns : portRuns s x = true) (hmode : linkMode s x = 1) :
    ∃ t, exec (.blockLockLoss x) s = .next t ∧ blockLock t x = false ∧ linkIsUp t x = false := by
  have hlinked := linked_setLink (setRegB s (aChain x 0x004) 0 false) (port_lt hruns) false
  exact ⟨_, congrArg Host.Outcome.next (if_pos (by simp [hruns, hmode])),
    (hlinked.status 0 (by omega) (by omega)).trans (regB_setRegB_same _ _ _ (by omega)), hlinked.isUp⟩

theorem egress_serial (hruns : portRuns s x = true) (hmode : linkMode s x = 1) (f : Frame) : egress s x f = emitOut s (.frame x f) := by
  rw [egress, if_neg (by simp [hruns]), if_pos hmode]

/-- A frame of the member as it leaves port x. -/
def rawFrame (s : State) (x ftype : Nat) (payload : List Byte) : Frame :=
  { ftype := BitVec.ofNat 8 ftype, dirUp := x = 0, hops := 0, seq := BitVec.ofNat 16 s.chain.seq, src := uid s, dst := 0,
    pelotonId := pelotonId s, payload }

/-- A frame of the member on a serial port leaves at once, and the sequence number grows. -/
theorem sendRaw_serial (hruns : portRuns s x = true) (hmode : linkMode s x = 1) (ftype : Nat) (payload : List Byte) :
    sendRaw s x ftype payload = emitOut { s with chain := { s.chain with seq := (s.chain.seq + 1) % 65536 } }
      (.frame x (rawFrame s x ftype payload)) := by
  have hruns' : portRuns { s with chain := { s.chain with seq := (s.chain.seq + 1) % 65536 } } x = true := hruns
  exact egress_serial hruns' hmode _

theorem helloInterval_sends (hruns : portRuns s x = true) (hmode : linkMode s x = 1) :
    ∃ t, exec (.helloInterval x) s = .next t ∧ t = { s with chain := { s.chain with seq := (s.chain.seq + 1) % 65536 }, out := t.out } ∧
      t.out = s.out ++ [.frame x { ftype := 0x01, dirUp := x = 0, hops := 0, seq := BitVec.ofNat 16 s.chain.seq, src := uid s,
                                    dst := 0, pelotonId := pelotonId s, payload := leBytes 4 (wheelDisable s).toNat }] :=
  ⟨_, congrArg Host.Outcome.next ((if_pos hruns).trans (sendRaw_serial hruns hmode 0x01 _)), rfl, rfl⟩

theorem helloTimeout_effect (hruns : portRuns s x = true) :
    ∃ t, exec (.helloTimeout x) s = .next t ∧ regB t (aChain x 0x004) 2 = false ∧ linkIsUp t x = false := by
  have hlinked := linked_setLink (setRegB s (aChain x 0x004) 2 false) (port_lt hruns) false
  have hcleared : regB (setRegB s (aChain x 0x004) 2 false) (aChain x 0x004) 2 = false := regB_setRegB_same _ _ _ (by omega)
  refine ⟨_, congrArg Host.Outcome.next (if_pos hruns), Bool.eq_false_iff.mpr fun h => ?_, hlinked.isUp⟩
  exact absurd (hcleared.symm.trans (hlinked.heard h)) (by decide)

theorem hello_stranger (hruns : portRuns s x = true) (htype : f.ftype = 0x01) (hid : f.pelotonId ≠ pelotonId s) :
    ∃ t, exec (.hello x f) s = .next t ∧ regB t (aChain x 0x004) 3 = true ∧ linkIsUp t x = false := by
  have hlinked := linked_setLink (setRegB s (aChain x 0x004) 3 true) (port_lt hruns) false
  have hop : helloOp s x f = setLink (setRegB s (aChain x 0x004) 3 true) x false := by
    rw [helloOp, if_neg (by simp [hruns]), if_pos hid]
  exact ⟨_, congrArg Host.Outcome.next ((if_pos htype).trans hop),
    (hlinked.status 3 (by omega) (by omega)).trans (regB_setRegB_same _ _ _ (by omega)), hlinked.isUp⟩

theorem regB_setCport (s : State) (x : Nat) (k : ChainPort) (a i : Nat) : regB (setCport s x k) a i = regB s a i := rfl

/-- A neighbour was heard: its mark, and its UID in the port and in the registers. -/
def hailed (s : State) (x : Nat) (src : BitVec 128) : State :=
  (List.range 4).foldl (fun s i => setReg s (aChain x (0x010 + 4 * i)) (src.extractLsb' (32 * i) 32))
    (setCport (setRegB (setRegB s (aChain x 0x004) 3 false) (aChain x 0x004) 2 true) x
      { cport s x with neighbour := some src })

/-- Registers that are written in turn: nothing else changed, and of them only those. -/
theorem setRegs_effect (addr : Nat → Nat) (val : Nat → W32) (l : List Nat) (s : State) :
    ∃ t, l.foldl (fun s i => setReg s (addr i) (val i)) s = t ∧ t = { s with regs := t.regs } ∧
      ∀ a, (∀ i ∈ l, a ≠ addr i) → reg t a = reg s a := by
  induction l generalizing s with
  | nil => exact ⟨s, rfl, rfl, fun _ _ => rfl⟩
  | cons i l ih =>
    obtain ⟨t, ht, hframe, hregs⟩ := ih (setReg s (addr i) (val i))
    refine ⟨t, ht, by rw [hframe]; rfl, fun a ha => ?_⟩
    rw [hregs a fun j hj => ha j (List.mem_cons_of_mem _ hj), reg_setReg_other _ (ha i List.mem_cons_self)]

theorem hello_neighbour (hruns : portRuns s x = true) (htype : f.ftype = 0x01) (hid : f.pelotonId = pelotonId s) (hsrc : f.src ≠ uid s)
    (hdown : linkIsUp s x = false) :
    ∃ t, exec (.hello x f) s = .next t ∧ t = { s with regs := t.regs, chain := { s.chain with ports := t.chain.ports } } ∧
      regB t (aChain x 0x004) 2 = true ∧ regB t (aChain x 0x004) 3 = false ∧ (cport t x).neighbour = some f.src := by
  have hop : helloOp s x f = hailed s x f.src := by
    rw [helloOp, if_neg (by simp [hruns]), if_neg (not_not_intro hid), if_neg hsrc, if_neg (by simp [hdown])]
    rfl
  generalize hu : setCport (setRegB (setRegB s (aChain x 0x004) 3 false) (aChain x 0x004) 2 true) x
      { cport s x with neighbour := some f.src } = u
  obtain ⟨t, ht, hframe, hregs⟩ := setRegs_effect (fun i => aChain x (0x010 + 4 * i)) (fun i => f.src.extractLsb' (32 * i) 32)
    (List.range 4) u
  have hstatus : reg t (aChain x 0x004) = reg u (aChain x 0x004) := hregs _ fun i _ => by
    simp only [aChain]
    omega
  have htu : hailed s x f.src = t := by rw [hailed, hu, ht]
  rw [htu] at hop
  refine ⟨t, congrArg Host.Outcome.next ((if_pos htype).trans hop), ?_, ?_, ?_, ?_⟩
  · rw [hframe, ← hu]
    rfl
  · rw [regB_congr hstatus 2, ← hu, regB_setCport]
    exact regB_setRegB_same _ _ _ (by omega)
  · rw [regB_congr hstatus 3, ← hu, regB_setCport]
    exact (regB_setRegB_other _ _ (by omega) _).trans (regB_setRegB_same _ _ _ (by omega))
  · rw [hframe, ← hu]
    exact congrArg ChainPort.neighbour (smGet_smSet_same _ _ _ _)

theorem badFrame_counts (hruns : portRuns s x = true) :
    exec (.badFrame x f false) s = .next (bump s (aChain x 0x048)) ∧
    (f.ftype.toNat ∉ frameTypes → exec (.badFrame x f true) s = .next (bump s (aChain x 0x04C))) := by
  refine ⟨congrArg Host.Outcome.next ?_, fun htype => congrArg Host.Outcome.next ?_⟩
  · rw [badFrameOp, hruns]
    rfl
  · rw [badFrameOp, if_neg (by simp [hruns]), if_neg (by simp), if_neg (by simpa using htype)]

end

/-! #### Frames that arrive and leave (R387 to R390) -/

section
variable {s t u w : State} {m x k b n a : Nat} {v : W32} {f g : Frame} {rest : List Frame}

theorem frameBytes_pos (f : Frame) : 0 < (frameBytes f).length := by
  rw [frameBytes, List.length_append, length_leBytes]
  omega

/-- The firewall that lets a write through did not refuse its first byte. -/
theorem refuses_of_grants {write : Bool} (hpos : 0 < n) (hin : a % 131072 + n ≤ 131072) (h : chainGrants s x a n write = true) :
    dmaRefuses s (0x410 + x) (chainDma s x) a write = false := by
  rw [chainGrants, dmaGranted, dmaParts_single hpos hin] at h
  by_contra hrefuses
  simp [Bool.eq_true_of_not_eq_false hrefuses] at h

/-- The next slot of the receive ring takes the frame. -/
theorem deliver_effect {head slots : Nat} (hhead : head = regF s (aChain x 0x03C) 0 6) (hslots : slots = regF s (aChain x 0x038) 0 6)
    (ha : a = regPair s (aChain x 0x030) + 8192 * head) (hroom : head + 1 < slots) (hmax : slots ≤ 32)
    (htail : regF s (aChain x 0x040) 0 6 ≠ head + 1) (hgrants : chainGrants s x a (frameBytes f).length true = true)
    (hat : bankAt a = some (b, 0, a)) (hin : a % 131072 + (frameBytes f).length ≤ 131072) (hon : bankOn s b = true)
    (hsettled : wiping s b = false) :
    ∃ t, deliver s x f = (t, true) ∧ rdBytes t a (frameBytes f).length = frameBytes f ∧ regF t (aChain x 0x03C) 0 6 = head + 1 ∧
      ∀ y, y < a ∨ a + (frameBytes f).length ≤ y → rdByte t y = rdByte s y := by
  have hpos := frameBytes_pos f
  obtain ⟨t, ht, hframe, hbytes, hother⟩ := dmaWrite_effect hpos hin hat hon hsettled (refuses_of_grants hpos hin hgrants)
  have hfull : (slots = 0 || 32 < slots || head + 1 = regF s (aChain x 0x040) 0 6) = false := by
    simp only [Bool.or_eq_false_iff, decide_eq_false_iff_not]
    omega
  have hdmaOn : dmaOn s a = true := by rw [dmaOn, bankOf, hat]; exact hon
  have hop : deliver s x f = (setRegF t (aChain x 0x03C) 0 6 (head + 1), true) := by
    unfold deliver
    dsimp only
    rw [← hslots, ← hhead, ← ha, if_neg (by omega : ¬ slots ≤ head + 1), if_neg (Bool.eq_false_iff.mp hfull), ht]
    exact congrArg (Prod.mk _) hdmaOn
  have hsame (y : Nat) : rdByte (setRegF t (aChain x 0x03C) 0 6 (head + 1)) y = rdByte t y := rfl
  refine ⟨_, hop, (rdBytes_congr _ _ fun i _ => hsame _).trans hbytes, ?_, fun y hy => (hsame y).trans (hother y hy)⟩
  rw [regF_setRegF_same _ _ _ (by omega)]
  omega

/-- A frame of the neighbour's for the member alone, on an up link, is delivered and no more. -/
theorem receive_delivered (htaken : frameTaken s x f = true) (hup : linkIsUp s x = true) (hdst : f.dst = 0) (hd : deliver s x f = (t, true)) :
    receive s x f = (t, true) := by
  have hdup : isDuplicate s f = false := by simp [isDuplicate, hdst]
  have hseen : noteSeen s f = s := if_pos hdst
  rw [receive, if_neg (by simp [htaken, hup, hdup]), hseen]
  dsimp only
  have hmine : (f.dst = uid s || f.dst = 0 || f.dst = broadcast) = true := by simp [hdst]
  rw [if_pos hmine, hd]
  have hkept : ¬ (hwRelayed f && f.dst ≠ 0 && f.dst ≠ uid t) = true := by simp [hdst]
  dsimp only
  rw [if_neg hkept]

/-- What Hub-B does with the ring's frames leaves memory and the ring's head. -/
theorem consumed_frame (s : State) (x : Nat) : (consume s x).mem = s.mem ∧ reg (consume s x) (aChain x 0x03C) = reg s (aChain x 0x03C) :=
  ⟨rfl, reg_setReg_other _ (by simp only [aChain]; omega) _⟩

theorem Sends.ring (h : Sends s t) (x : Nat) : t.mem = s.mem ∧ reg t (aChain x 0x03C) = reg s (aChain x 0x03C) :=
  ⟨by rw [h.frame], h.regs _ (not_tunReg_of_off (by decide) (by decide))⟩

theorem imageQuery_serves (htype : f.ftype = 0x31) (hr : receive s x f = (u, true)) :
    ∃ t, exec (.imageQuery x f) s = .next t ∧ t.mem = u.mem ∧ reg t (aChain x 0x03C) = reg u (aChain x 0x03C) := by
  obtain ⟨hmem, hhead⟩ := consumed_frame u x
  have hop : imageQueryOp s x f = (if hubBUp u then (match heldImage (consume u x) (slice f.payload 0 48) with
      | some r => sendRaw (consume u x) x 0x32 (slice f.payload 0 48 ++ leBytes 4 r)
      | none => consume u x) else u) := by
    rw [imageQueryOp, onFrame, if_neg (by rw [htype]; decide), hr]
    rfl
  refine ⟨_, congrArg Host.Outcome.next hop, ?_⟩
  split
  · split
    · obtain ⟨hmem', hhead'⟩ := (sends_sendRaw (consume u x) x 0x32 _).ring x
      exact ⟨hmem'.trans hmem, hhead'.trans hhead⟩
    · exact ⟨hmem, hhead⟩
  · exact ⟨rfl, rfl⟩

theorem frames_land {head slots : Nat} (hhead : head = regF s (aChain x 0x03C) 0 6) (hslots : slots = regF s (aChain x 0x038) 0 6)
    (ha : a = regPair s (aChain x 0x030) + 8192 * head) (htaken : frameTaken s x f = true) (hup : linkIsUp s x = true) (hdst : f.dst = 0)
    (hroom : head + 1 < slots) (hmax : slots ≤ 32) (htail : regF s (aChain x 0x040) 0 6 ≠ head + 1)
    (hgrants : chainGrants s x a (frameBytes f).length true = true) (hat : bankAt a = some (b, 0, a))
    (hin : a % 0x20000 + (frameBytes f).length ≤ 0x20000) (hon : bankOn s b = true) (hsettled : wiping s b = false) :
    ∀ c ∈ [((0x31 : BitVec 8), Instr.imageQuery x f), (0x32, .imageOffer x f)], f.ftype = c.1 →
      ∃ t, exec c.2 s = .next t ∧ rdBytes t a (frameBytes f).length = frameBytes f ∧ regF t (aChain x 0x03C) 0 6 = head + 1 ∧
        ∀ y, y < a ∨ a + (frameBytes f).length ≤ y → rdByte t y = rdByte s y := by
  obtain ⟨u, hu, hbytes, hhead', hother⟩ := deliver_effect hhead hslots ha hroom hmax htail hgrants hat hin hon hsettled
  have hr := receive_delivered htaken hup hdst hu
  intro c hc htype
  simp only [List.mem_cons, List.not_mem_nil, or_false] at hc
  obtain rfl | rfl := hc
  · obtain ⟨t, ht, hmem, hring⟩ := imageQuery_serves htype hr
    have hbyte (y : Nat) : rdByte t y = rdByte u y := rdByte_mem_congr hmem y
    refine ⟨t, ht, (rdBytes_congr _ _ fun i _ => hbyte _).trans hbytes, ?_, fun y hy => (hbyte y).trans (hother y hy)⟩
    exact (congrArg (fld · 0 6) hring).trans hhead'
  · have hop : onDelivery s x 0x32 f = u := by
      have htype' : f.ftype = 0x32 := htype
      rw [onDelivery, if_neg (by rw [htype']; decide), hr]
    exact ⟨u, congrArg Host.Outcome.next hop, hbytes, hhead', hother⟩

/-- A frame that the shipped Hub-B hears acts on what it left. -/
theorem onFrame_heard {ftype : Nat} (h : FrameHeard s x f ftype w) (act : State → State) : onFrame s x ftype f act = act w := by
  obtain ⟨htype, -, -, htaken, hup, hread⟩ := h
  rw [onFrame, if_neg (not_not_intro htype)]
  revert htaken hup hread
  generalize receive s x f = r
  intro htaken hup hread
  dsimp only
  rw [htaken, hup, hread]
  rfl

theorem imageQuery_answered (h : FrameHeard s x f 0x31 w) (hruns : portRuns w x = true) (hmode : linkMode w x = 1) :
    ∃ t, exec (.imageQuery x f) s = .next t ∧ (heldImage w (slice f.payload 0 48) = none → t = w) ∧
      ∀ r, heldImage w (slice f.payload 0 48) = some r → ∃ g,
        t = { w with chain := { w.chain with seq := t.chain.seq }, out := w.out ++ [.frame x g] } ∧
        g.ftype = 0x32 ∧ g.payload = slice f.payload 0 48 ++ leBytes 4 r := by
  refine ⟨_, congrArg Host.Outcome.next (onFrame_heard h _), fun hnone => ?_, fun r hr => ?_⟩
  · rw [hnone]
  · rw [hr]
    dsimp only
    rw [sendRaw_serial hruns hmode]
    exact ⟨_, rfl, rfl, rfl⟩

/-! #### Transmit slots (R389, R407) -/

theorem aTx_ne (k : Nat) {off off' : Nat} (h : off ≠ off') : aTx k off ≠ aTx k off' := by
  simp only [aTx, aChain]
  omega

theorem bitOf_setFld_same (w : W32) {i : Nat} (hi : i < 32) (n : Nat) : bitOf (setFld w i 1 n) i = n.testBit 0 := by
  rw [bitOf, getLsbD_setFld, if_pos ⟨hi, Nat.le_refl i, Nat.lt_add_one i⟩, Nat.sub_self]

/-- A transmission that ends with a cause. -/
theorem txEnd_failed {cause : Nat} (s : State) (k : Nat) (hc : cause ≠ 0) :
    ∃ t, txEnd s k cause = t ∧ t = { s with regs := t.regs } ∧ regB t (aTx k 0x10C) 0 = false ∧ regB t (aTx k 0x10C) 2 = true ∧
      regF t (aTx k 0x10C) 4 2 = cause % 4 := by
  have hreg : reg (txEnd s k cause) (aTx k 0x10C) = setFld (setFld (setFld (reg s (aTx k 0x10C)) 0 1 0) 2 1 1) 4 2 cause := by
    rw [txEnd, reg_setReg_same, if_neg hc]
  refine ⟨_, rfl, rfl, ?_, ?_, ?_⟩
  · rw [regB, hreg, bitOf_setFld_other _ _ (by omega), bitOf_setFld_other _ _ (by omega), bitOf_setFld_same _ (by omega)]
    rfl
  · rw [regB, hreg, bitOf_setFld_other _ _ (by omega), bitOf_setFld_same _ (by omega)]
    rfl
  · rw [regF, hreg, fld_setFld_same _ _ (by omega)]
    rfl

theorem txEnd_done (s : State) (k : Nat) :
    ∃ t, txEnd s k 0 = t ∧ t = { s with regs := t.regs } ∧ regB t (aTx k 0x10C) 0 = false ∧ regB t (aTx k 0x10C) 1 = true := by
  have hreg : reg (txEnd s k 0) (aTx k 0x10C) = setFld (setFld (reg s (aTx k 0x10C)) 0 1 0) 1 1 1 := by
    rw [txEnd, reg_setReg_same, if_pos rfl]
  refine ⟨_, rfl, rfl, ?_, ?_⟩
  · rw [regB, hreg, bitOf_setFld_other _ _ (by omega), bitOf_setFld_same _ (by omega)]
    rfl
  · rw [regB, hreg, bitOf_setFld_same _ (by omega)]
    rfl

theorem txGo_effects (hm : isHub m = true) (hon : chainOn s = true) (hk : k < 4) (hidle : regB s (aTx k 0x10C) 0 = false)
    (hports : fld v 8 2 ≠ 0) :
    (48 ≤ regF s (aTx k 0x108) 0 13 → regF s (aTx k 0x108) 0 13 ≤ 4156 →
      ∃ t, exec (.cpTxGo m k v) s = .next t ∧ t = { s with regs := t.regs } ∧ regB t (aTx k 0x10C) 0 = true) ∧
    (regF s (aTx k 0x108) 0 13 < 48 ∨ 4156 < regF s (aTx k 0x108) 0 13 →
      ∃ t, exec (.cpTxGo m k v) s = .next t ∧ t = { s with regs := t.regs } ∧ regB t (aTx k 0x10C) 0 = false ∧
        regB t (aTx k 0x10C) 2 = true ∧ regF t (aTx k 0x10C) 4 2 = 1) := by
  have hgo : bitOf (v ||| 0x80000000) 31 = true := by rw [bitOf, BitVec.getLsbD_or]; exact Bool.or_true _
  have hsel : fld (v ||| 0x80000000) 8 2 = fld v 8 2 := by
    apply Nat.eq_of_testBit_eq
    intro i
    rw [fld_testBit, fld_testBit, BitVec.getLsbD_or]
    by_cases hi : i < 2
    · have hgoBit : ∀ j : Fin 2, (0x80000000 : W32).getLsbD (8 + j.val) = false := by decide
      rw [hgoBit ⟨i, hi⟩, Bool.or_false]
    · simp [hi]
  have hn : regF (plainWrite s (aTx k 0x10C) (v ||| 0x80000000)) (aTx k 0x108) 0 13 = regF s (aTx k 0x108) 0 13 :=
    congrArg (fld · 0 13) (reg_setReg_other s (aTx_ne k (by decide)) _)
  have hop : exec (.cpTxGo m k v) s = .next (if regF s (aTx k 0x108) 0 13 < 48 || 4156 < regF s (aTx k 0x108) 0 13 || fld v 8 2 = 0 then
      txEnd (plainWrite s (aTx k 0x10C) (v ||| 0x80000000)) k 1
      else setRegB (plainWrite s (aTx k 0x10C) (v ||| 0x80000000)) (aTx k 0x10C) 0 true) := by
    refine congrArg Host.Outcome.next ((chainBy_of_granted hon hm _).trans ((if_pos hk).trans ?_))
    unfold txCtrlOp
    dsimp only
    rw [hgo, hidle, hn, hsel]
    rfl
  refine ⟨fun hlo hhi => ⟨_, hop.trans (congrArg Host.Outcome.next (if_neg ?_)), rfl, regB_setRegB_same _ _ _ (by omega)⟩,
    fun hbad => ?_⟩
  · simp only [Bool.or_eq_true, decide_eq_true_eq, hports, or_false]
    omega
  · obtain ⟨t, ht, hframe, hbusy, herr, hcause⟩ := txEnd_failed (cause := 1) (plainWrite s (aTx k 0x10C) (v ||| 0x80000000)) k (by decide)
    refine ⟨t, hop.trans (congrArg Host.Outcome.next ((if_pos ?_).trans ht)), by rw [hframe]; rfl, hbusy, herr, hcause⟩
    simp only [Bool.or_eq_true, decide_eq_true_eq, hports, or_false]
    exact hbad

/-- A DMA read of a bank that is on, settled and granted. -/
theorem dmaRead_effect {unit : Nat} (hin : a % 131072 + n ≤ 131072) (hat : bankAt a = some (b, 0, a)) (hon : bankOn s b = true)
    (hsettled : wiping s b = false) (hgranted : (dmaGranted s unit m a n false).2.isNone = true) :
    ∃ t, dmaRead s unit m a n = (rdBytes s a n, t, none) ∧ t = { s with starved := t.starved } := by
  have hbank : bankOf a = some b := by rw [bankOf, hat]; rfl
  have hdmaOn : dmaOn s a = true := by rw [dmaOn, hbank]; exact hon
  have htouch := dmaTouch_effect (s := s) (a := a) fun b' hb' => by
    obtain rfl : b = b' := Option.some.inj (hbank.symm.trans hb')
    exact hsettled
  have hplain : plainAddr a = a := by rw [plainAddr, hat]; rfl
  obtain rfl | hpos := Nat.eq_zero_or_pos n
  · have hparts : dmaParts a 0 = [] := by
      simp [dmaParts]
    refine ⟨s, ?_, rfl⟩
    rw [dmaRead, dmaGranted, hparts]
    rfl
  · have hmay : dmaRefuses s unit m a false = false := by
      rw [dmaGranted, dmaParts_single hpos hin] at hgranted
      by_contra hrefuses
      simp [Bool.eq_true_of_not_eq_false hrefuses] at hgranted
    have hg : dmaGranted s unit m a n false = ([(a, n)], none) := by
      rw [dmaGranted, dmaParts_single hpos hin]
      simp [hmay]
    refine ⟨dmaTouch s a, ?_, htouch⟩
    have hbytes : rdBytes (dmaTouch s a) a n = rdBytes s a n := rdBytes_congr n a fun i _ => by rw [htouch]; rfl
    rw [dmaRead, hg]
    simp [dmaReadPart, hdmaOn, dmaFetch_eq, hplain, hbytes]

theorem txDone_sends (hon : chainOn s = true) (hk : k < 4) (hbusy : regB s (aTx k 0x10C) 0 = true)
    (hports : ([0, 1].filter fun x => regB s (aTx k 0x10C) (8 + x) && linkIsUp s x) = [x]) (hruns : portRuns s x = true)
    (hmode : linkMode s x = 1) {src : Nat} (hsrc : src = regPair s (aTx k 0x100)) (hn : n = regF s (aTx k 0x108) 0 13)
    (hgrants : chainGrants s x src n false = true) (hat : bankAt src = some (b, 0, src)) (hin : src % 0x20000 + n ≤ 0x20000)
    (hbank : bankOn s b = true) (hsettled : wiping s b = false) :
    ∃ t, exec (.cpTxDone k) s = .next t ∧ regB t (aTx k 0x10C) 0 = false ∧ regB t (aTx k 0x10C) 1 = true ∧ t.mem = s.mem ∧
      t.out = s.out ++ [.frame x (stamp s x (frameOf (rdBytes s src n)))] := by
  obtain ⟨u, hu, hframe⟩ := dmaRead_effect hin hat hbank hsettled hgrants
  have hruns' : portRuns u x = true := by rw [hframe]; exact hruns
  have hmode' : linkMode u x = 1 := by rw [hframe]; exact hmode
  have hstamp : stamp u x (frameOf (rdBytes s src n)) = stamp s x (frameOf (rdBytes s src n)) := by rw [hframe]; rfl
  obtain ⟨t, ht, htframe, hidle, hdone⟩ := txEnd_done (emitOut u (.frame x (stamp s x (frameOf (rdBytes s src n))))) k
  have hop : txDoneOp s k = t := by
    unfold txDoneOp
    dsimp only
    rw [if_pos (by simp [hk, hon, hbusy]), hports, ← hsrc, ← hn, List.find?_cons, hgrants]
    simp only [Bool.not_true, List.find?_nil]
    rw [hu]
    dsimp only
    rw [List.foldl_cons, List.foldl_nil, egress_serial hruns' hmode', hstamp, ht]
  refine ⟨t, congrArg Host.Outcome.next hop, hidle, hdone, ?_, ?_⟩
  · rw [htframe, hframe]
    rfl
  · rw [htframe, hframe]
    rfl

/-! #### Tunnelled hops (R390) -/

theorem cport_setRegB (s : State) (a i : Nat) (v : Bool) (x : Nat) : cport (setRegB s a i v) x = cport s x := rfl

theorem cport_setReg (s : State) (a : Nat) (v : W32) (x : Nat) : cport (setReg s a v) x = cport s x := rfl

theorem txFullClear_idle (hx : x < 2) (hon : chainOn s = true) (hwait : (cport s x).tunWait = []) :
    exec (.txFullClear 0x300 x) s = .next (setRegB s (aChain x 0x200) 0 false) := by
  refine congrArg Host.Outcome.next ((chainBy_of_granted hon rfl _).trans ((if_pos hx).trans ?_))
  have hwait' : (cport (setRegB s (aChain x 0x200) 0 false) x).tunWait = [] := by rw [cport_setRegB, hwait]
  rw [txFullClearOp]
  dsimp only
  rw [hwait']

/-- A frame placed in a tunnel whose interrupt is off. -/
theorem tunPlace_effect (s : State) (x : Nat) (f : Frame) (hquiet : regB s (aChain x 0x200) 31 = false) :
    ∃ t, tunPlace s x f = t ∧ cport t x = { cport s x with tunTx := frameBytes f } ∧ regB t (aChain x 0x200) 0 = true := by
  have hne : aChain x 0x200 ≠ aChain x 0x204 := by simp only [aChain]; omega
  have hstill : regB (setRegB (setReg (setCport s x { cport s x with tunTx := frameBytes f }) (aChain x 0x204) (w32 (frameBytes f).length))
      (aChain x 0x200) 0 true) (aChain x 0x200) 31 = false := by
    rw [regB_setRegB_other _ _ (by decide), regB_congr (reg_setReg_other _ hne _), regB_setCport, hquiet]
  refine ⟨_, if_neg (Bool.eq_false_iff.mp hstill), ?_, regB_setRegB_same _ _ _ (by omega)⟩
  rw [cport_setRegB, cport_setReg, cport_setCport, if_pos rfl]

theorem txFullClear_next (hx : x < 2) (hon : chainOn s = true) (hwait : (cport s x).tunWait = g :: rest)
    (hquiet : regB s (aChain x 0x200) 31 = false) :
    ∃ t, exec (.txFullClear 0x300 x) s = .next t ∧ (cport t x).tunTx = frameBytes g ∧ (cport t x).tunWait = rest ∧
      regB t (aChain x 0x200) 0 = true := by
  have hwait' : (cport (setRegB s (aChain x 0x200) 0 false) x).tunWait = g :: rest := by rw [cport_setRegB, hwait]
  have hop : txFullClearOp s x = tunPlace (setCport (setRegB s (aChain x 0x200) 0 false) x { cport s x with tunWait := rest }) x g := by
    rw [txFullClearOp]
    dsimp only
    rw [hwait', cport_setRegB]
  have hstill : regB (setCport (setRegB s (aChain x 0x200) 0 false) x { cport s x with tunWait := rest }) (aChain x 0x200) 31 = false := by
    rw [regB_setCport, regB_setRegB_other _ _ (by decide), hquiet]
  obtain ⟨t, ht, hport, hfull⟩ := tunPlace_effect _ x g hstill
  have hport' := hport.trans (congrArg (fun p : ChainPort => { p with tunTx := frameBytes g }) ((cport_setCport _ x _ x).trans (if_pos rfl)))
  refine ⟨t, congrArg Host.Outcome.next ((chainBy_of_granted hon rfl _).trans ((if_pos hx).trans (hop.trans ht))), ?_, ?_, hfull⟩
  · rw [hport']
  · rw [hport']

theorem rxFull_takes (hruns : portRuns s x = true) (hmode : linkMode s x = 2) :
    (tunFrame (tunBytes s x) = none → exec (.rxFull 0x300 x) s = .next (bump s (aChain x 0x048))) ∧
    (tunFrame (tunBytes s x) = some f → exec (.rxFull 0x300 x) s = .next (frameArrives s x f s.time.now)) := by
  obtain ⟨hx, hon, -, -⟩ := portRuns_facts hruns
  have hop : exec (.rxFull 0x300 x) s = .next (rxFullOp s x) :=
    congrArg Host.Outcome.next ((chainBy_of_granted hon rfl _).trans (if_pos hx))
  have hopen : ¬ ((!portRuns s x || linkMode s x ≠ 2) = true) := by simp [hruns, hmode]
  refine ⟨fun hnone => ?_, fun hsome => ?_⟩
  · rw [hop, rxFullOp, if_neg hopen, hnone]
  · rw [hop, rxFullOp, if_neg hopen, hsome]

end

/-- Settles O48: a mode write that changes the mode, lost block lock, a missing HELLO and a stranger's each take the link down and a
ready link rises; a delivered frame lands in the ring, a transmission sends what its buffer holds, a tunnel its waiting frame. -/
theorem linksCarryFrames : Obligations.LinksCarryFrames := by
  unfold Obligations.LinksCarryFrames
  refine ⟨fun s m x v f hx hon => ⟨fun hm hfrozen h3 hnew => linkMode_write hx hon hm hfrozen h3 hnew, fun hruns =>
      ⟨fun hlock hhello hid hdelays hdown => linkUp_rises hruns hlock hhello hid hdelays hdown, linkUp_waits,
        fun hmode => ⟨blockLock_acquired hruns hmode, blockLock_lost hruns hmode, helloInterval_sends hruns hmode⟩,
        helloTimeout_effect hruns, hello_stranger hruns, hello_neighbour hruns, badFrame_counts hruns⟩⟩,
    fun s m x k b v f hx hon => ⟨fun htaken hup hdst hroom hmax htail hgrants hat hin hbank hsettled =>
        frames_land rfl rfl rfl htaken hup hdst hroom hmax htail hgrants hat hin hbank hsettled,
      fun w hheard hruns hmode => imageQuery_answered hheard hruns hmode,
      fun hm hk hidle hports => txGo_effects hm hon hk hidle hports,
      fun hk hbusy hports hruns hmode hgrants hat hin hbank hsettled =>
        txDone_sends hon hk hbusy hports hruns hmode rfl rfl hgrants hat hin hbank hsettled,
      txFullClear_idle hx hon, fun g rest hwait hquiet => txFullClear_next hx hon hwait hquiet, rxFull_takes⟩⟩

end Sys2Proof.Machine
end

section
/-! SUPPORT. Peloton time and membership. -/

namespace Sys2Proof.Machine

/-! ### Peloton time (R397 to R405) -/

section
variable {s t u : State} {m x t1 t4 : Nat} {hi : W32} {f : Frame}

/-- The arm compare raises its mark, its interrupt and at most a wake event. -/
theorem armFireOp_frame (s : State) :
    armFireOp s = { s with regs := (armFireOp s).regs, out := (armFireOp s).out, pwr := (armFireOp s).pwr } := by
  have hwake (u : State) : noteWake u 2 0 = { u with pwr := (noteWake u 2 0).pwr } := by
    unfold noteWake
    split <;> rfl
  unfold armFireOp
  dsimp only
  split_ifs
  · rw [hwake]
    rfl
  · rfl
  · rfl

theorem reg_armFireOp (s : State) {a : Nat} (ha : a ≠ aPt 0x038) : reg (armFireOp s) a = reg s a := by
  have hwake (u : State) : reg (noteWake u 2 0) a = reg u a := by
    unfold noteWake
    split <;> rfl
  have hfired : reg (hubInt (setRegB (setRegB s (aPt 0x038) 1 true) (aPt 0x038) 0 false) "PT_FIRE") a = reg s a :=
    (reg_setRegB_other _ ha _).trans (reg_setRegB_other _ ha _)
  unfold armFireOp
  dsimp only
  split_ifs
  · rw [hwake, hfired]
  · exact hfired
  · rfl

/-- Memory, the state of time sync and its count of accepted messages stay. -/
structure SyncKept (s t : State) : Prop where
  mem : t.mem = s.mem
  accepted : t.time.accepted = s.time.accepted
  state : ptState t = ptState s

theorem SyncKept.trans (h : SyncKept s t) (h' : SyncKept t u) : SyncKept s u :=
  ⟨h'.mem.trans h.mem, h'.accepted.trans h.accepted, h'.state.trans h.state⟩

theorem SyncKept.refl (s : State) : SyncKept s s := ⟨rfl, rfl, rfl⟩

theorem ptState_congr (h : reg t (aPt 0x00C) = reg s (aPt 0x00C)) : ptState t = ptState s := congrArg (fld · 0 3) h

theorem syncKept_setReg (s : State) {a : Nat} (v : W32) (ha : aPt 0x00C ≠ a) : SyncKept s (setReg s a v) :=
  ⟨rfl, rfl, ptState_congr (reg_setReg_other s ha v)⟩

theorem syncKept_setField (s : State) {lo len : Nat} (v : Nat) (hlo : 3 ≤ lo) : SyncKept s (setRegF s (aPt 0x00C) lo len v) :=
  ⟨rfl, rfl, regF_setRegF_other _ _ _ (by omega)⟩

theorem syncKept_armFire (s : State) : SyncKept s (armFireOp s) := by
  refine ⟨?_, ?_, ptState_congr (reg_armFireOp s (by simp only [aPt]; omega))⟩
  · rw [armFireOp_frame]
  · rw [armFireOp_frame]

theorem not_recordReg_aPt {off : Nat} (hoff : off < 0x10000) : ¬ RecordReg (aPt off) := by
  simp only [RecordReg, aPt, aFs, aHost]
  omega

theorem not_tunReg_aPt {off : Nat} (hoff : off < 0x10000) : ¬ TunReg (aPt off) := by
  rintro ⟨y, hy, h⟩
  simp only [aPt, aChain] at h
  omega

theorem syncKept_emit (s : State) (island source rtype : Nat) (payload : List W32) : SyncKept s (emit s island source rtype payload) := by
  refine ⟨mem_emit s _ _ _ _, ?_, ptState_congr (reg_emit s _ _ _ _ (not_recordReg_aPt (by decide)))⟩
  rw [noted_emit s island source rtype payload]

theorem Sends.syncKept (h : Sends s t) : SyncKept s t := by
  refine ⟨?_, ?_, ptState_congr (h.regs _ (not_tunReg_aPt (by decide)))⟩
  · rw [h.frame]
  · rw [h.frame]

/-- The clock after a correction: forward at once, back slowly or, where it is far ahead, at once. -/
def clockMoved (s : State) (offset : Int) : State :=
  if 0 ≤ offset then { s with time := { s.time with now := s.time.now + offset.toNat, slow := 0 } }
  else if (-offset).toNat ≤ 1000000 * 65536 then { s with time := { s.time with slow := (-offset).toNat } }
  else setRegB { s with time := { s.time with now := s.time.now - (-offset).toNat, slow := 0 } } (aPt 0x00C) 8 true

theorem correct_eq (s : State) (offset : Int) :
    correct s offset = armFireOp (if 1000 * 65536 < offset.natAbs then
      emit (clockMoved s offset) islAon 0x430 0x0D6 (words64 ((offset / 65536) % 2 ^ 64).toNat) else clockMoved s offset) := rfl

theorem syncKept_clockMoved (s : State) (offset : Int) : SyncKept s (clockMoved s offset) := by
  unfold clockMoved
  split_ifs
  · exact ⟨rfl, rfl, rfl⟩
  · exact ⟨rfl, rfl, rfl⟩
  · exact .trans (t := { s with time := { s.time with now := s.time.now - (-offset).toNat, slow := 0 } }) ⟨rfl, rfl, rfl⟩
      (syncKept_setField _ _ (by omega))

/-- The correction of the clock (R404). -/
theorem syncKept_correct (s : State) (offset : Int) : SyncKept s (correct s offset) := by
  rw [correct_eq]
  refine ((syncKept_clockMoved s offset).trans ?_).trans (syncKept_armFire _)
  split
  · exact syncKept_emit _ _ _ _ _
  · exact .refl _

/-- An accepted `TIME` counts, and decides between syncing and locked (R403). -/
theorem timeSelect_effect (s : State) :
    ∃ t, timeSelect s = t ∧ t.mem = s.mem ∧ t.time.accepted = min 8 (s.time.accepted + 1) ∧
      ptState t = if s.time.accepted + 1 < 8 then ptSyncing else ptLocked := by
  refine ⟨_, rfl, rfl, rfl, ?_⟩
  unfold timeSelect
  dsimp only
  rw [(syncKept_setReg _ _ (by simp only [aPt]; omega)).state, (syncKept_setField _ _ (by omega)).state,
    (syncKept_setField _ _ (by omega)).state]
  have hless : min 8 (s.time.accepted + 1) < 8 ↔ s.time.accepted + 1 < 8 := by omega
  unfold setPtState ptState
  rw [regF_setRegF_same _ _ _ (by omega), if_congr hless rfl rfl]
  split <;> rfl

theorem time_synced (htype : f.ftype = 0x04) (h : timeAccepted s x f = true) :
    ∃ t, exec (.time x f t4) s = .next t ∧ t.time.accepted = min 8 (s.time.accepted + 1) ∧ t.mem = s.mem ∧
      ptState t = if s.time.accepted + 1 < 8 then ptSyncing else ptLocked := by
  obtain ⟨u, hu, hmem, haccepted, hstate⟩ := timeSelect_effect (setCport s x { cport s x with bound := some (field f.payload 12 4 + hopBound s x, field f.payload 10 2) })
  have hkept : SyncKept u (timeOp s x f t4) := by
    unfold timeOp
    rw [if_neg (by simp [h])]
    dsimp only
    rw [hu]
    split
    · exact .refl u
    · generalize hcorrected : correct u _ = w
      have hw : SyncKept u w := hcorrected ▸ syncKept_correct u _
      have hrate : SyncKept w (setReg (drawWord w).2 (aPt 0x014) (drawWord w).1) :=
        .trans (t := (drawWord w).2) ⟨rfl, rfl, rfl⟩ (syncKept_setReg _ _ (by simp only [aPt]; omega))
      refine (hw.trans hrate).trans ?_
      split
      · exact (sends_sendRaw _ _ _ _).syncKept
      · exact .refl _
  exact ⟨_, congrArg Host.Outcome.next (if_pos htype), hkept.accepted.trans haccepted, hkept.mem.trans hmem, hkept.state.trans hstate⟩

theorem time_refused (htype : f.ftype = 0x04) (h : timeAccepted s x f = false) : exec (.time x f t4) s = .next s :=
  congrArg Host.Outcome.next ((if_pos htype).trans (if_pos (by simp [h])))

/-! #### Link delay (R401) -/

theorem portRuns_of_taken (h : frameTaken s x f = true) : portRuns s x = true := by
  simp only [frameTaken, Bool.and_eq_true] at h
  exact h.1.1

theorem delayReq_answered (htype : f.ftype = 0x02) (htaken : frameTaken s x f = true) (hmode : linkMode s x = 1) :
    ∃ t g, exec (.delayReq x f t4) s = .next t ∧ t = { s with chain := { s.chain with seq := t.chain.seq }, out := s.out ++ [.frame x g] } ∧
      g.ftype = 0x03 ∧ g.payload = timeBytes t4 ++ timeBytes s.time.now := by
  have hop : delayReqOp s x f t4 = _ := (if_pos htaken).trans (sendRaw_serial (portRuns_of_taken htaken) hmode 0x03 (timeBytes t4 ++ timeBytes s.time.now))
  exact ⟨_, _, congrArg Host.Outcome.next ((if_pos htype).trans hop), rfl, rfl, rfl⟩

theorem delayResp_measures (htype : f.ftype = 0x03) (htaken : frameTaken s x f = true) (hsent : (cport s x).reqSent = some t1)
    {rtt : Nat} (hrtt : rtt = ((t4 : Int) - t1 - (timeField f.payload 10 - timeField f.payload 0)).toNat) :
    ∃ t, exec (.delayResp x f t4) s = .next t ∧ t = { s with regs := t.regs, chain := { s.chain with ports := t.chain.ports } } ∧
      (cport t x).delays = (cport s x).delays + 1 ∧ (cport t x).reqSent = none ∧
      reg t (aChain x 0x024) = w32 (rtt / 65536) ∧ reg t (aChain x 0x020) = w32 (rtt * 1000 / 131072) := by
  have hop : delayRespOp s x f t4 = setReg (setReg (setCport s x { cport s x with reqSent := none, delays := (cport s x).delays + 1 })
      (aChain x 0x024) (w32 (rtt / 65536))) (aChain x 0x020) (w32 (rtt * 1000 / 131072)) := by
    rw [delayRespOp, hsent, hrtt]
    exact if_pos htaken
  have hport (a b : Nat) (v w : W32) (k : ChainPort) : cport (setReg (setReg (setCport s x k) a v) b w) x = k := by
    rw [cport_setReg, cport_setReg, cport_setCport, if_pos rfl]
  have hne : aChain x 0x024 ≠ aChain x 0x020 := by simp only [aChain]; omega
  refine ⟨_, congrArg Host.Outcome.next ((if_pos htype).trans hop), rfl, ?_, ?_, ?_, reg_setReg_same _ _ _⟩
  · rw [hport]
  · rw [hport]
  · rw [reg_setReg_other _ hne, reg_setReg_same]

/-! #### The tick, holdover, and the pacer's set (R397, R398, R401, R403) -/

/-- One side of `SYNC_INTERVAL_TICK`. -/
def tickSide (s : State) (x : Nat) : State :=
  if !portRuns s x then s
  else
    let s := sendRaw (setCport s x { cport s x with reqSent := some s.time.now }) x 0x02 []
    if isPacer s && syncEn s && linkIsUp s x then sendRaw s x 0x04 (timePayload s 0 0 (uid s)) else s

theorem syncTickOp_eq (s : State) : syncTickOp s = tickSide (tickSide s 0) 1 := rfl

/-- One side of the tick: time and memory stay, the request's time is noted on a running port, the other port's stays. -/
structure Ticked (s t : State) (x : Nat) : Prop where
  time : t.time = s.time
  mem : t.mem = s.mem
  runs : ∀ y, portRuns t y = portRuns s y
  asked : portRuns s x = true → (cport t x).reqSent = some s.time.now
  other : ∀ y, y ≠ x → (cport t y).reqSent = (cport s y).reqSent

theorem Sends.reqSent (h : Sends s t) (y : Nat) : (cport t y).reqSent = (cport s y).reqSent := by
  obtain ⟨tx, wait, hport⟩ := h.ports y
  rw [hport]

theorem Sends.frozen (h : Sends s t) (y : Nat) : (cport t y).frozen = (cport s y).frozen := by
  obtain ⟨tx, wait, hport⟩ := h.ports y
  rw [hport]

theorem Sends.runs (h : Sends s t) (y : Nat) : portRuns t y = portRuns s y := by
  have hon : chainOn t = chainOn s := by rw [h.frame]; rfl
  have hmode : linkMode t y = linkMode s y := congrArg (fld · 0 2) h.mode
  rw [portRuns, hon, hmode, h.frozen, portRuns]

/-- A side whose request's time was noted and whose frames then left. -/
theorem Sends.ticked (hsends : Sends (setCport s x { cport s x with reqSent := some s.time.now }) t) : Ticked s t x := by
  revert hsends
  generalize hasked : setCport s x { cport s x with reqSent := some s.time.now } = u
  intro hsends
  have hport (y : Nat) : cport u y = if y = x then { cport s x with reqSent := some s.time.now } else cport s y := by
    rw [← hasked, cport_setCport]
  have hframe : u = { s with chain := u.chain } := by rw [← hasked]; rfl
  have hfrozen (y : Nat) : (cport u y).frozen = (cport s y).frozen := by
    rw [hport]
    split
    · next h => rw [h]
    · rfl
  have hruns (y : Nat) : portRuns u y = portRuns s y := by
    have hon : chainOn u = chainOn s := by rw [hframe]; rfl
    have hmode : linkMode u y = linkMode s y := by rw [hframe]; rfl
    rw [portRuns, hon, hmode, hfrozen, portRuns]
  refine ⟨?_, ?_, fun y => (hsends.runs y).trans (hruns y), fun _ => ?_, fun y hy => ?_⟩
  · rw [hsends.frame, hframe]
  · rw [hsends.frame, hframe]
  · rw [hsends.reqSent, hport, if_pos rfl]
  · rw [hsends.reqSent, hport, if_neg hy]

theorem ticked_tickSide (s : State) (x : Nat) : Ticked s (tickSide s x) x := by
  unfold tickSide
  split
  · next h => exact ⟨rfl, rfl, fun _ => rfl, fun hruns => by simp [hruns] at h, fun _ _ => rfl⟩
  · have hreq := sends_sendRaw (setCport s x { cport s x with reqSent := some s.time.now }) x 0x02 []
    exact (hreq.trans (sends_ite (sends_sendRaw _ x 0x04 _) (.refl _))).ticked

theorem syncTick_effect (hx : x < 2) :
    ∃ t, exec .syncIntervalTick s = .next t ∧ t.time = s.time ∧ t.mem = s.mem ∧ (portRuns s x = true → (cport t x).reqSent = some s.time.now) := by
  have h0 := ticked_tickSide s 0
  have h1 := ticked_tickSide (tickSide s 0) 1
  refine ⟨_, congrArg Host.Outcome.next (syncTickOp_eq s), h1.time.trans h0.time, h1.mem.trans h0.mem, fun hruns => ?_⟩
  obtain rfl | rfl : x = 0 ∨ x = 1 := by omega
  · exact (h1.other 0 (by decide)).trans (h0.asked hruns)
  · rw [h1.asked ((h0.runs 1).trans hruns), h0.time]

theorem holdover_effect (h : ptState s = ptSyncing ∨ ptState s = ptLocked) :
    exec .holdover s = .next (emit (setPtState { s with time := { s.time with accepted := 0, heldAt := s.time.now } } ptHoldover)
      islAon 0x430 0x0D7 []) :=
  congrArg Host.Outcome.next (if_pos (by simpa using h))

theorem ptSet_applies (hpacer : isPacer s = true) {v : Nat} (hv : v = pair64 (reg s (aPt 0x020)) hi) (hlater : nowNs s ≤ v) :
    ∃ t, exec (.ptSet hubB hi) s = .next t ∧ t.time = { s.time with now := v * 65536 } := by
  have hop : ptSetOp s hi = armFireOp { s with time := { s.time with now := v * 65536 } } := by
    rw [ptSetOp, ← hv]
    exact if_pos (by simp [hpacer, hlater])
  refine ⟨_, congrArg Host.Outcome.next ((if_pos rfl).trans hop), ?_⟩
  rw [armFireOp_frame]

theorem ptSet_ignored (h : isPacer s = false ∨ pair64 (reg s (aPt 0x020)) hi < nowNs s) : exec (.ptSet hubB hi) s = .next s := by
  have hclosed : ¬ (isPacer s && nowNs s ≤ pair64 (reg s (aPt 0x020)) hi) = true := by
    obtain h | h := h
    · simp [h]
    · simp [Nat.not_le.mpr h]
  exact congrArg Host.Outcome.next ((if_pos rfl).trans (if_neg hclosed))

theorem armFire_fires (harmed : regB s (aPt 0x038) 0 = true) (hdue : regPair s (aPt 0x030) ≤ nowNs s) (hawake : regB s (aPwr 0x008) 2 = false) :
    exec .armFire s = .next (hubInt (setRegB (setRegB s (aPt 0x038) 1 true) (aPt 0x038) 0 false) "PT_FIRE") := by
  have hne : aPwr 0x008 ≠ aPt 0x038 := by simp only [aPwr, aPt]; omega
  have hstill : regB (hubInt (setRegB (setRegB s (aPt 0x038) 1 true) (aPt 0x038) 0 false) "PT_FIRE") (aPwr 0x008) 2 = false :=
    (regB_congr ((reg_setRegB_other _ hne _).trans (reg_setRegB_other _ hne _)) 2).trans hawake
  exact congrArg Host.Outcome.next ((if_pos (by simp [harmed, hdue])).trans (if_neg (Bool.eq_false_iff.mp hstill)))

theorem armFire_waits (h : regB s (aPt 0x038) 0 = false ∨ nowNs s < regPair s (aPt 0x030)) : exec .armFire s = .next s := by
  have hclosed : ¬ (regB s (aPt 0x038) 0 && regPair s (aPt 0x030) ≤ nowNs s) = true := by
    obtain h | h := h
    · simp [h]
    · simp [Nat.not_le.mpr h]
  exact congrArg Host.Outcome.next (if_neg hclosed)

end

/-! ### Roll calls, rosters and the pacer (R392 to R396) -/

section
variable {s t u v : State} {x epoch : Nat} {f : Frame}

/-- What the member holds about its peloton: all of the chain's state but its ports and the sequence number. -/
def PeerKept (s t : State) : Prop := t.chain = { s.chain with ports := t.chain.ports, seq := t.chain.seq }

theorem PeerKept.refl (s : State) : PeerKept s s := rfl

theorem PeerKept.trans (h : PeerKept s t) (h' : PeerKept t u) : PeerKept s u := by
  unfold PeerKept at *
  rw [h', h]

theorem Sends.peerKept (h : Sends s t) : PeerKept s t := by
  unfold PeerKept
  rw [h.frame]

theorem chain_hubBRecord (s : State) (rtype : Nat) (payload : List W32) : (hubBRecord s rtype payload).chain = s.chain := by
  rw [hubBRecord, noted_emit s islHub hubB rtype payload]

/-! #### Calls -/

theorem callRoll_effect (s : State) :
    ∃ t, callRoll s = t ∧ t.chain.epoch = s.chain.epoch + 1 ∧ t.chain.collecting = true ∧ t.chain.answers = [] := by
  have hkept := (sends_sendAll { s with chain := { s.chain with epoch := s.chain.epoch + 1, collecting := true, answers := [] } } 0x10
    (leBytes 8 (s.chain.epoch + 1))).peerKept
  exact ⟨_, rfl, congrArg Chain.epoch hkept, congrArg Chain.collecting hkept, congrArg Chain.answers hkept⟩

theorem rollInterval_calls (hup : hubBUp s = true) (hcaller : s.chain.caller = true) :
    ∃ t, exec .rollInterval s = .next t ∧ t.chain.epoch = s.chain.epoch + 1 ∧ t.chain.collecting = true ∧ t.chain.answers = [] := by
  obtain ⟨t, ht, hepoch, hcollecting, hanswers⟩ := callRoll_effect (ageCaller s)
  have hcaller' : (ageCaller s).chain.caller = true := hcaller
  have hop : rollIntervalOp s = t := by
    rw [rollIntervalOp, if_neg (by simp [hup])]
    dsimp only
    rw [if_pos hcaller', ht]
  exact ⟨t, congrArg Host.Outcome.next hop, hepoch, hcollecting, hanswers⟩

theorem rollInterval_misses (hup : hubBUp s = true) (hcaller : s.chain.caller = false) (hmissed : s.chain.missed = 0) :
    ∃ t, exec .rollInterval s = .next t ∧
      t = { s with chain := { s.chain with missed := 1, heardAge := s.chain.heardAge + 1, heardCaller := t.chain.heardCaller } } ∧
      (s.chain.heardAge = 0 → t.chain.heardCaller = s.chain.heardCaller) ∧ (1 ≤ s.chain.heardAge → t.chain.heardCaller = none) := by
  have hcaller' : ¬ (ageCaller s).chain.caller = true := Bool.eq_false_iff.mp hcaller
  have hmissed' : (ageCaller s).chain.missed = 0 := hmissed
  have hop : rollIntervalOp s = { ageCaller s with chain := { (ageCaller s).chain with missed := 1 } } := by
    rw [rollIntervalOp, if_neg (by simp [hup])]
    dsimp only
    rw [if_neg hcaller', if_neg (by omega), hmissed']
  refine ⟨_, congrArg Host.Outcome.next hop, rfl, fun hage => if_neg (by omega), fun hage => if_pos (by omega)⟩

theorem topoChange_effect (h : FrameHeard s x f 0x14 v) :
    (v.chain.caller = true → ∃ t, exec (.topoChange x f) s = .next t ∧ t.chain.epoch = v.chain.epoch + 1 ∧ t.chain.collecting = true) ∧
    (v.chain.caller = false → exec (.topoChange x f) s = .next v) := by
  have hexec : exec (.topoChange x f) s = .next (topoChangeOp v) := congrArg Host.Outcome.next (onFrame_heard h _)
  refine ⟨fun hcaller => ?_, fun hcaller => ?_⟩
  · obtain ⟨t, ht, hepoch, hcollecting, -⟩ := callRoll_effect v
    exact ⟨t, hexec.trans (congrArg Host.Outcome.next ((if_pos hcaller).trans ht)), hepoch, hcollecting⟩
  · exact hexec.trans (congrArg Host.Outcome.next (if_neg (Bool.eq_false_iff.mp hcaller)))

/-- The lowest caller heard, the sender of the call included (R393). -/
def lowestHeard (s : State) (f : Frame) : BitVec 128 :=
  match s.chain.heardCaller with
  | some u => if f.src.toNat ≤ u.toNat then f.src else u
  | none => f.src

/-- The call is to be answered. -/
def answerDue (s : State) (f : Frame) : Bool := lowestHeard s f = f.src && s.chain.answered ≠ some (field f.payload 0 8)

/-- What a call leaves of the member's own calling. -/
def callHeard (s : State) (f : Frame) : State :=
  { s with chain := { s.chain with heardCaller := some (lowestHeard s f),
                                   heardAge := if lowestHeard s f = f.src then 0 else s.chain.heardAge,
                                   caller := s.chain.caller && !decide (f.src.toNat < (uid s).toNat),
                                   missed := if f.src.toNat < (uid s).toNat then 0 else s.chain.missed,
                                   answered := if answerDue s f then some (field f.payload 0 8) else s.chain.answered } }

theorem rollCallOp_eq (s : State) (f : Frame) :
    rollCallOp s f = if answerDue s f then sendTo (callHeard s f) 0x11 f.src (rollAnswerPayload (callHeard s f) f) else callHeard s f := rfl

theorem rollCall_effect (h : FrameHeard s x f 0x10 v) :
    ∃ t, exec (.rollCall x f) s = .next t ∧ t.chain.caller = (v.chain.caller && !decide (f.src.toNat < (uid v).toNat)) ∧
      (v.chain.heardCaller = none → t.chain.heardCaller = some f.src ∧ t.chain.answered = some (field f.payload 0 8)) := by
  have hkept : PeerKept (callHeard v f) (rollCallOp v f) := by
    rw [rollCallOp_eq]
    split
    · exact (sends_sendTo _ _ _ _).peerKept
    · exact .refl _
  have hexec : exec (.rollCall x f) s = .next (rollCallOp v f) := congrArg Host.Outcome.next (onFrame_heard h _)
  generalize rollCallOp v f = t at hkept hexec
  refine ⟨t, hexec, congrArg Chain.caller hkept, fun hnone => ?_⟩
  have hfirst : lowestHeard v f = f.src := by rw [lowestHeard, hnone]
  refine ⟨(congrArg Chain.heardCaller hkept).trans (congrArg some hfirst), (congrArg Chain.answered hkept).trans ?_⟩
  change (if answerDue v f then some (field f.payload 0 8) else v.chain.answered) = some (field f.payload 0 8)
  split
  · rfl
  · next hearlier => simpa [answerDue, hfirst] using hearlier

theorem rollAnswer_collected (h : FrameHeard s x f 0x11 v) (hcollecting : v.chain.collecting = true) (hmine : f.dst = uid v)
    (hepoch : field f.payload 0 8 = v.chain.epoch) (hlen : f.payload.length = 64) (hfar : (cport v x).neighbour ≠ some f.src) :
    exec (.rollAnswer x f) s = .next { v with chain := { v.chain with
      answers := v.chain.answers.filter (fun a => a.1 ≠ f.src) ++ [(f.src, f.payload)] } } := by
  obtain ⟨w, hw, hop, hfar'⟩ : ∃ w, w = { v with chain := { v.chain with
      answers := v.chain.answers.filter (fun a => a.1 ≠ f.src) ++ [(f.src, f.payload)] } } ∧ rollAnswerOp v f = w ∧
      (cport w x).neighbour ≠ some f.src :=
    ⟨_, rfl, if_pos (by simp [hcollecting, hmine, hepoch, hlen]), hfar⟩
  rw [← hw]
  refine congrArg Host.Outcome.next ((onFrame_heard h _).trans ?_)
  dsimp only
  rw [hop]
  simp only [hfar', decide_false, Bool.false_and, Bool.false_eq_true, if_false]

/-! #### The pacer's registers (R396, R408) -/

theorem pacerUid_congr (h : ∀ off, 0x040 ≤ off → off < 0x050 → reg t (aPt off) = reg s (aPt off)) : pacerUid t = pacerUid s := by
  have hpair (off : Nat) (hlo : 0x040 ≤ off) (hhi : off + 4 < 0x050) : regPair t (aPt off) = regPair s (aPt off) := by
    rw [regPair, h off hlo (by omega), show aPt off + 4 = aPt (off + 4) from rfl, h (off + 4) (by omega) hhi]
    rfl
  rw [pacerUid, hpair 0x040 (by omega) (by omega), hpair 0x048 (by omega) (by omega), pacerUid]

theorem regPair_setPair_same (s : State) (a v : Nat) (hv : v < 2 ^ 64) : regPair (setPair s a v) a = v := by
  rw [regPair, setPair, reg_setReg_same, reg_setReg_other _ (by omega), reg_setReg_same, pair64, w32, w32, BitVec.toNat_ofNat,
    BitVec.toNat_ofNat]
  omega

theorem regPair_setPair_other (s : State) {a b : Nat} (v : Nat) (h : b + 4 < a ∨ a + 4 < b) : regPair (setPair s a v) b = regPair s b := by
  rw [regPair, setPair, reg_setReg_other _ (by omega), reg_setReg_other _ (by omega), reg_setReg_other _ (by omega),
    reg_setReg_other _ (by omega), regPair]

theorem pacerUid_setPacerUid (s : State) (w : BitVec 128) : pacerUid (setPacerUid s w) = w := by
  have hw := w.isLt
  rw [pacerUid, setPacerUid, regPair_setPair_other _ _ (by simp only [aPt]; omega), regPair_setPair_same _ _ _ (by omega),
    regPair_setPair_same _ _ _ (by omega)]
  apply BitVec.eq_of_toNat_eq
  rw [BitVec.toNat_ofNat]
  omega

theorem chain_ptCtrlOp (s : State) (w : W32) : (ptCtrlOp s w).chain = s.chain := by
  unfold ptCtrlOp
  dsimp only
  split_ifs <;> rfl

theorem reg_ptCtrlOp (s : State) (w : W32) {a : Nat} (hstatus : a ≠ aPt 0x00C) (hbound : a ≠ aPt 0x010) :
    reg (ptCtrlOp s w) a = reg (plainWrite s (aPt 0x008) w) a := by
  unfold ptCtrlOp
  dsimp only
  split_ifs
  · rw [reg_setReg_other _ hbound, reg_setRegF_other _ hstatus]
    exact reg_setRegF_other _ hstatus
  · rw [reg_setReg_other _ hbound]
    exact reg_setRegF_other _ hstatus
  · rfl

theorem pacerUid_ptCtrlOp (s : State) (w : W32) : pacerUid (ptCtrlOp s w) = pacerUid s := by
  refine pacerUid_congr fun off hlo hhi => ?_
  rw [reg_ptCtrlOp _ _ (by simp only [aPt]; omega) (by simp only [aPt]; omega)]
  exact reg_setReg_other _ (by simp only [aPt]; omega) _

theorem isPacer_becomePacer (s : State) : isPacer (becomePacer s) = true := by
  have hmask : (regInfo (aPt 0x008)).rw.getLsbD 0 = true := by decide
  have hne : aPt 0x008 ≠ aPt 0x00C ∧ aPt 0x008 ≠ aPt 0x010 := by decide
  rw [isPacer, becomePacer, regB, reg_ptCtrlOp _ _ hne.1 hne.2, plainWrite, reg_setReg_same, bitOf, accessWrite, BitVec.getLsbD_or,
    BitVec.getLsbD_and (y := (regInfo _).rw), hmask, getLsbD_setFld]
  simp

theorem pacerAssign_effect (h : FrameHeard s x f 0x13 v) (hmine : f.dst = uid v) :
    ∃ t, exec (.pacerAssign x f) s = .next t ∧ isPacer t = true :=
  ⟨_, congrArg Host.Outcome.next ((onFrame_heard h _).trans (if_pos hmine)), isPacer_becomePacer v⟩

/-! #### Rosters (R395) -/

theorem chain_notePacer (s : State) (w : BitVec 128) : (notePacer s w).chain = s.chain := by
  have hrecord : (hubBRecord (setPacerUid s w) 0x0D5 []).chain = s.chain := chain_hubBRecord _ _ _
  unfold notePacer
  dsimp only
  split_ifs
  · rfl
  · rw [chain_ptCtrlOp, hrecord]
  · exact hrecord

theorem pacerUid_notePacer (s : State) (w : BitVec 128) : pacerUid (notePacer s w) = w := by
  have hrecord : pacerUid (hubBRecord (setPacerUid s w) 0x0D5 []) = w :=
    (pacerUid_congr fun off _ hhi => reg_emit _ _ _ _ _ (not_recordReg_aPt (by omega))).trans (pacerUid_setPacerUid s w)
  unfold notePacer
  dsimp only
  split_ifs with hsame
  · exact hsame
  · rw [pacerUid_ptCtrlOp, hrecord]
  · exact hrecord

theorem takeRoster_effect (s : State) (us : List (BitVec 128)) (ring : Bool) :
    ∃ t, takeRoster s us ring = t ∧ t.chain = { s.chain with
      roster := us, ring, rosterParts := [], caller := s.chain.caller || !us.contains (uid s) } := by
  refine ⟨_, rfl, ?_⟩
  unfold takeRoster
  dsimp only
  split
  · exact chain_hubBRecord _ _ _
  · rfl

/-- The members that a chunk of a roster lists. -/
def listed (f : Frame) : List (BitVec 128) :=
  (List.range ((f.payload.length - 32) / 16)).map fun i => BitVec.ofNat 128 (field f.payload (32 + 16 * i) 16)

theorem roster_effect (h : FrameHeard s x f 0x12 v) (hfirst : field f.payload 4 2 = 0) (hwhole : field f.payload 0 2 = (listed f).length) :
    ∃ t, exec (.roster x f) s = .next t ∧ t.chain.roster = listed f ∧ t.chain.rosterParts = [] ∧
      pacerUid t = BitVec.ofNat 128 (field f.payload 8 16) := by
  obtain ⟨u, hu, hchain⟩ := takeRoster_effect { v with chain := { v.chain with rosterParts := [(0, listed f)] } } (listed f)
    (field f.payload 2 1 = 1)
  have hop : rosterOp v f = notePacer u (BitVec.ofNat 128 (field f.payload 8 16)) := by
    unfold rosterOp
    dsimp only
    rw [hfirst, if_pos rfl, ← listed]
    have hparts : smIns (smDel ([] : List (Nat × List (BitVec 128))) 0) 0 (listed f) = [(0, listed f)] := rfl
    rw [hparts, List.flatMap_cons, List.flatMap_nil, List.append_nil, if_pos hwhole.symm, hu]
  refine ⟨_, congrArg Host.Outcome.next ((onFrame_heard h _).trans hop), ?_, ?_, pacerUid_notePacer u _⟩
  · rw [chain_notePacer, hchain]
  · rw [chain_notePacer, hchain]

theorem chain_noteMissing (s : State) (us : List (BitVec 128)) :
    (noteMissing s us).chain = { s.chain with missing := s.chain.roster.filter fun u => !us.contains u } := by
  have hrecords (l : List (BitVec 128)) (s : State) : (l.foldl (fun s _ => hubBRecord s 0x0D4 []) s).chain = s.chain := by
    induction l generalizing s with
    | nil => rfl
    | cons _ l ih => rw [List.foldl_cons, ih, chain_hubBRecord]
  exact hrecords _ _

theorem peerKept_rosterSent (us : List (BitVec 128)) (ring : Bool) (pacer : Nat) (l : List Nat) (s : State) :
    PeerKept s (l.foldl (fun s i => sendAll s 0x12 (rosterPayload us ring pacer s.chain.epoch i)) s) :=
  (sends_foldl (fun s _ => sends_sendAll s _ _) l s).peerKept

theorem rollWait_effect (hup : hubBUp s = true) (hcollecting : s.chain.collecting = true) :
    ∃ t, exec .rollWait s = .next t ∧ t.chain.collecting = false ∧ t.chain.roster = positions s := by
  obtain ⟨u, hu, hchain⟩ := takeRoster_effect (noteMissing { s with chain := { s.chain with collecting := false } } (positions s))
    (positions s) (isRing s)
  rw [chain_noteMissing] at hchain
  refine ⟨_, congrArg Host.Outcome.next (if_neg (by simp [hup, hcollecting])), ?_⟩
  dsimp only
  rw [hu]
  generalize (positions s).getD _ 0 = w
  have hpacer : PeerKept u (if w = uid u then becomePacer (notePacer u w) else sendTo (notePacer u w) 0x13 w (leBytes 8 u.chain.epoch)) := by
    have hnoted : PeerKept u (notePacer u w) := by
      unfold PeerKept
      rw [chain_notePacer]
    split
    · refine hnoted.trans ?_
      unfold PeerKept
      rw [becomePacer, chain_ptCtrlOp]
    · exact hnoted.trans (sends_sendTo _ _ _ _).peerKept
  have hkept := hpacer.trans (peerKept_rosterSent (positions s) (isRing s)
    (pacerPosition (positions s) (isRing s) (positionOf (positions s) (uid s))) (List.range (((positions s).length + 253) / 254)) _)
  exact ⟨(congrArg Chain.collecting hkept).trans (congrArg Chain.collecting hchain),
    (congrArg Chain.roster hkept).trans (congrArg Chain.roster hchain)⟩

end

/-- Settles O49: the delay, the sync, the tick, holdover and the arm compare clause by clause; then the roll call, its answers, the
roster and the pacer on what Hub-B heard. -/
theorem pelotonKeepsTimeAndRoster : Obligations.PelotonKeepsTimeAndRoster := by
  unfold Obligations.PelotonKeepsTimeAndRoster
  refine ⟨fun s x t1 t4 f hi hx => ⟨delayReq_answered, fun htype htaken hsent => delayResp_measures htype htaken hsent rfl,
      time_refused, time_synced, syncTick_effect hx, holdover_effect, fun hpacer hlater => ptSet_applies hpacer rfl hlater,
      ptSet_ignored, armFire_fires, armFire_waits⟩,
    fun s v x f => ⟨rollCall_effect, fun hheard hcollecting hmine hepoch hlen hfar =>
        rollAnswer_collected hheard hcollecting hmine hepoch hlen hfar, roster_effect, pacerAssign_effect, topoChange_effect,
      fun hup => ⟨rollInterval_calls hup, rollInterval_misses hup, rollWait_effect hup⟩⟩⟩

end Sys2Proof.Machine
end

section
/-! SUPPORT. Recovery requests. -/

namespace Sys2Proof.Machine

/-! ### Recovery requests (R316 to R321) -/

section
variable {s u : State} {tr t x q index : Nat} {seq : BitVec 8} {data : List Byte} {f : Frame} {k : RcvTarget}

/-! #### What answers and records leave of the claims -/

theorem rcvTarget_setRcvTarget (s : State) (t : Nat) (k : RcvTarget) : rcvTarget (setRcvTarget s t k) t = k :=
  smGet_smSet_same ..

theorem rcv_i3cRespond (s : State) (bytes : List Byte) : (i3cRespond s bytes).rcv = s.rcv := by
  have hibi (s : State) : (i3cIbi s).rcv = s.rcv := by
    unfold i3cIbi
    split <;> rfl
  exact hibi _

theorem rcv_respond (s : State) (tr rtype seq state code next : Nat) :
    (respond s tr rtype seq state code next).rcv = s.rcv := by
  have hsetRegs (vals : Nat → W32) (l : List Nat) (s : State) :
      (l.foldl (fun s i => setReg s (aHost (0x2020 + 4 * i)) (vals i)) s).rcv = s.rcv := by
    obtain ⟨u, hu, hframe, -⟩ := setRegs_effect (fun i => aHost (0x2020 + 4 * i)) vals l s
    rw [hu, hframe]
  unfold respond
  dsimp only
  split
  · rw [setRegB_rcv, setRegB_rcv]
    exact hsetRegs _ _ _
  · split
    · exact rcv_i3cRespond _ _
    · rw [(sends_sendRaw _ _ _ _).frame]
      rfl

theorem noted_claimRecord (s : State) (t code : Nat) : Noted s (claimRecord s t code) := by
  unfold claimRecord
  split
  · exact noted_emit ..
  · exact noted_emit ..

/-- A claim that ended leaves no claimant, no container, and its code. -/
theorem endClaim_effect (s : State) (t code : Nat) :
    (rcvTarget (endClaim s t code) t).claimant = none ∧ (rcvTarget (endClaim s t code) t).container = [] ∧
      (rcvTarget (endClaim s t code) t).code = code := by
  unfold endClaim
  extract_lets v w
  have hw : rcvTarget w t = { state := if t = 0 then .listen else .idle, code } := rcvTarget_setRcvTarget v t _
  have hkept : rcvTarget (if code = 0 then w else claimRecord w t code) t = rcvTarget w t := by
    split
    · rfl
    · rw [rcvTarget, noted_claimRecord w t code]
      rfl
  rw [hkept, hw]
  exact ⟨rfl, rfl, rfl⟩

theorem rcvTimeout_ends (hserver : rcvServer s ≠ 0) (hclaim : (rcvTarget s t).claimant ≠ none) :
    ∃ u, exec (.rcvTimeout t) s = .next u ∧ (rcvTarget u t).claimant = none ∧ (rcvTarget u t).code = rcTimeout := by
  obtain ⟨hnone, -, hcode⟩ := endClaim_effect s t rcTimeout
  exact ⟨_, congrArg Host.Outcome.next (if_pos (by simp [hserver, Option.isSome_iff_ne_none, hclaim])), hnone, hcode⟩

theorem rcvTimeout_free (hfree : (rcvTarget s t).claimant = none) : exec (.rcvTimeout t) s = .next s :=
  congrArg Host.Outcome.next (if_neg (by simp [hfree]))

/-! #### Requests that are heard -/

/-- A request for target t on transport tr is heard: a server listens there, and the target exists for it. -/
structure Heard (s : State) (tr t : Nat) : Prop where
  server : rcvServer s ≠ 0
  enabled : rcvEnabled s tr = true
  exist : t ≤ 4
  rom : rcvServer s = 1 → t = 0

theorem Heard.answers (h : Heard s tr t) (rtype seq : Nat) (f : State → State) : rcvHeard s tr rtype seq t f = f s := by
  obtain ⟨hserver, henabled, hexist, hrom⟩ := h
  have hplace : ¬(rcvServer s = 1 && t ≠ 0) = true := by
    simp only [Bool.and_eq_true, decide_eq_true_eq, ne_eq, decide_not, Bool.not_eq_true', decide_eq_false_iff_not]
    exact fun hboth => hboth.2 (hrom hboth.1)
  rw [rcvHeard, if_neg (by simp [hserver, henabled]), if_neg (by omega), if_neg hplace]

theorem rcvStatus_answers (h : Heard s tr t) (hk : k = rcvTarget s t) :
    exec (.rcvStatus tr seq t) s =
      .next (setRcvTarget (respond s tr 0x81 seq.toNat (rcvState s t).num k.code k.next) t { k with code := 0 }) := by
  subst hk
  exact congrArg Host.Outcome.next (h.answers _ _ _)

/-! #### Chunks -/

/-- What a heard chunk of full length does. -/
theorem rcvData_whole (h : Heard s tr t) (hlen : data.length = 4096) :
    rcvDataOp s tr q t index data =
      match rcvState s t with
      | .idle => rcvAnswer s tr 2 q t rcTarget
      | .listen => rcvHeader s tr q t index data
      | _ =>
        if (rcvTarget s t).claimant ≠ some tr then rcvAnswer s tr 2 q t rcBusy
        else if index ≠ (rcvTarget s t).next then rcvAnswer s tr 2 q t rcSequence
        else rcvChunk s tr q t data :=
  (h.answers _ _ _).trans (if_neg (by simp [hlen]))

theorem rcvData_cut (h : Heard s tr t) (hlen : data.length ≠ 4096) :
    exec (.rcvData tr seq t index data) s =
      .next (respond s tr 0x82 seq.toNat (rcvState s t).num rcFormat (rcvTarget s t).next) :=
  congrArg Host.Outcome.next ((h.answers _ _ _).trans (if_pos hlen))

theorem rcvData_idle (h : Heard s tr t) (hlen : data.length = 4096) (hidle : rcvState s t = .idle) :
    exec (.rcvData tr seq t index data) s = .next (respond s tr 0x82 seq.toNat 0 rcTarget (rcvTarget s t).next) := by
  have hop : rcvDataOp s tr seq.toNat t index data = rcvAnswer s tr 2 seq.toNat t rcTarget := by
    rw [rcvData_whole h hlen, hidle]
  rw [rcvAnswer, hidle] at hop
  exact congrArg Host.Outcome.next hop

theorem rcvData_firstHeader (h : Heard s tr t) (hlen : data.length = 4096) (hlisten : rcvState s t = .listen)
    (hindex : index = 0) :
    exec (.rcvData tr seq t index data) s = .next (respond (setHeaderBuf s tr t data) tr 0x82 seq.toNat 1 0 1) := by
  subst hindex
  have hshort : data.length < hdrLen := by
    rw [hlen]
    decide
  have hheader : rcvHeader s tr seq.toNat t 0 data =
      respond (setHeaderBuf s tr t data) tr 0x82 seq.toNat (rcvState s t).num 0 1 := by
    unfold rcvHeader
    rw [if_pos rfl, if_neg (by simp), List.nil_append, if_pos hshort]
  rw [hlisten] at hheader
  refine congrArg Host.Outcome.next (Eq.trans ?_ hheader)
  rw [rcvData_whole h hlen, hlisten]

theorem rcvState_claimed (hclaimed : (rcvTarget s t).state = .claimed) : rcvState s t = .claimed := by
  rw [rcvState, hclaimed]

/-- What a heard chunk of full length does to a claimed target. -/
theorem rcvData_claimed (h : Heard s tr t) (hlen : data.length = 4096) (hclaimed : (rcvTarget s t).state = .claimed) :
    rcvDataOp s tr q t index data =
      if (rcvTarget s t).claimant ≠ some tr then respond s tr 0x82 q 2 rcBusy (rcvTarget s t).next
      else if index ≠ (rcvTarget s t).next then respond s tr 0x82 q 2 rcSequence (rcvTarget s t).next
      else rcvChunk s tr q t data := by
  have hstate := rcvState_claimed hclaimed
  have hanswer (code : Nat) : rcvAnswer s tr 2 q t code = respond s tr 0x82 q 2 code (rcvTarget s t).next := by
    rw [rcvAnswer, hstate]
    rfl
  rw [rcvData_whole h hlen, hstate]
  dsimp only
  rw [hanswer, hanswer]

theorem rcvData_next (h : Heard s tr t) (hlen : data.length = 4096) (hk : k = rcvTarget s t) (hclaimed : k.state = .claimed)
    (hmine : k.claimant = some tr) (hindex : index = k.next)
    (hmore : (k.container ++ data).length < zManifestEnd (k.container ++ data)) :
    exec (.rcvData tr seq t index data) s =
      .next (respond (setRcvTarget s t { k with container := k.container ++ data, next := k.next + 1 }) tr 0x82 seq.toNat 2 0
        (k.next + 1)) := by
  have hchunk : rcvChunk s tr seq.toNat t data =
      rcvAnswer (setRcvTarget s t { k with container := k.container ++ data, next := k.next + 1 }) tr 2 seq.toNat t 0 := by
    rw [rcvChunk, ← hk]
    exact if_pos hmore
  have hstate : rcvState (setRcvTarget s t { k with container := k.container ++ data, next := k.next + 1 }) t = .claimed :=
    rcvState_claimed (by rw [rcvTarget_setRcvTarget, hclaimed])
  rw [rcvAnswer, hstate, rcvTarget_setRcvTarget] at hchunk
  refine congrArg Host.Outcome.next ((rcvData_claimed h hlen (hk ▸ hclaimed)).trans ?_)
  rw [← hk, if_neg (not_not_intro hmine), if_neg (not_not_intro hindex)]
  exact hchunk

theorem rcvData_others (h : Heard s tr t) (hlen : data.length = 4096) (hk : k = rcvTarget s t) (hclaimed : k.state = .claimed)
    (hmine : k.claimant ≠ some tr) :
    exec (.rcvData tr seq t index data) s = .next (respond s tr 0x82 seq.toNat 2 rcBusy k.next) := by
  subst hk
  exact congrArg Host.Outcome.next ((rcvData_claimed h hlen hclaimed).trans (if_pos hmine))

theorem rcvData_outOfOrder (h : Heard s tr t) (hlen : data.length = 4096) (hk : k = rcvTarget s t)
    (hclaimed : k.state = .claimed) (hmine : k.claimant = some tr) (hindex : index ≠ k.next) :
    exec (.rcvData tr seq t index data) s = .next (respond s tr 0x82 seq.toNat 2 rcSequence k.next) := by
  subst hk
  exact congrArg Host.Outcome.next
    ((rcvData_claimed h hlen hclaimed).trans ((if_neg (not_not_intro hmine)).trans (if_pos hindex)))

/-! #### Ends and aborts -/

theorem rcvEnd_free (h : Heard s tr t) (hfree : (rcvTarget s t).claimant = none) :
    exec (.rcvEnd tr seq t) s = .next (respond s tr 0x83 seq.toNat (rcvState s t).num rcTarget (rcvTarget s t).next) :=
  congrArg Host.Outcome.next ((h.answers _ _ _).trans (if_pos hfree))

/-- The end by the claimant, before the image is judged. -/
theorem rcvEnd_claimant (h : Heard s tr t) (hmine : (rcvTarget s t).claimant = some tr) {r : State × Nat}
    (hr : (if t ≠ 0 then rcvPlatform s t (rcvTarget s t).container
      else if (rcvTarget s t).state = .entering then rcvCommit s (rcvTarget s t).container else (s, rcStream)) = r)
    (hgood : r.2 = 0) : rcvEndOp s tr q t = rcvAnswer (setRcvTarget r.1 t {}) tr 3 q t 0 := by
  refine (h.answers _ _ _).trans ?_
  dsimp only
  rw [if_neg (by simp [hmine]), if_neg (not_not_intro hmine), hr]
  exact if_pos hgood

theorem rcvEnd_platform (h : Heard s tr t) (hk : k = rcvTarget s t) (hmine : k.claimant = some tr) (ht : t ≠ 0)
    (hgood : (rcvPlatform s t k.container).2 = 0) :
    exec (.rcvEnd tr seq t) s =
      .next (rcvAnswer (setRcvTarget (rcvPlatform s t k.container).1 t {}) tr 3 seq.toNat t 0) := by
  subst hk
  exact congrArg Host.Outcome.next (rcvEnd_claimant h hmine (if_pos ht) hgood)

theorem rcvEnd_device (h : Heard s tr 0) (hk : k = rcvTarget s 0) (hmine : k.claimant = some tr)
    (hentering : k.state = .entering) (hgood : (rcvCommit s k.container).2 = 0) :
    exec (.rcvEnd tr seq 0) s =
      .next (respond (setRcvTarget (rcvCommit s k.container).1 0 {}) tr 0x83 seq.toNat 0 0 0) := by
  subst hk
  have hop := rcvEnd_claimant (q := seq.toNat) h hmine ((if_neg (not_not_intro rfl)).trans (if_pos hentering)) hgood
  rw [rcvAnswer, rcvState, rcvTarget_setRcvTarget] at hop
  exact congrArg Host.Outcome.next hop

theorem rcvAbort_free (h : Heard s tr t) (hfree : (rcvTarget s t).claimant = none) :
    exec (.rcvAbort tr seq t) s = .next (respond s tr 0x84 seq.toNat (rcvState s t).num rcTarget (rcvTarget s t).next) := by
  refine congrArg Host.Outcome.next ((h.answers _ _ _).trans ?_)
  rw [hfree]
  rfl

theorem rcvAbort_claimant (h : Heard s tr t) (hmine : (rcvTarget s t).claimant = some tr) :
    ∃ u, exec (.rcvAbort tr seq t) s = .next u ∧ (rcvTarget u t).claimant = none ∧ (rcvTarget u t).container = [] ∧
      (rcvTarget u t).code = 0 := by
  have hop : rcvAbortOp s tr seq.toNat t = rcvAnswer (endClaim s t 0) tr 4 seq.toNat t 0 := by
    refine (h.answers _ _ _).trans ?_
    rw [hmine]
    exact if_pos rfl
  have hkept : rcvTarget (rcvAnswer (endClaim s t 0) tr 4 seq.toNat t 0) t = rcvTarget (endClaim s t 0) t := by
    rw [rcvTarget, rcvAnswer, rcv_respond, rcvTarget]
  refine ⟨_, congrArg Host.Outcome.next hop, ?_⟩
  rw [hkept]
  exact endClaim_effect s t 0

/-! #### Messages on the chain (R321) -/

section
variable (htype : f.ftype = 0x30) (hr : receive s x f = (u, true)) (hserver : rcvServer u ≠ 0)
include htype hr hserver

/-- What a delivered message does, by its form. -/
theorem rcvMsg_delivered :
    rcvMsgOp s x f =
      if f.payload.length ≠ 10 + field f.payload 8 2 || f.payload.length < 10 then bump (consume u x) (aChain x 0x04C)
      else if field f.payload 3 1 ≠ 0 then
        (if rcvEnabled u (2 + x) then
          respond (consume u x) (2 + x) (field f.payload 0 1 % 128 + 0x80) (field f.payload 1 1) 0 rcFormat 0
        else consume u x)
      else rcvRequest (consume u x) (2 + x) (field f.payload 0 1) (field f.payload 1 1) (field f.payload 2 1)
        (field f.payload 4 4) (f.payload.drop 10) := by
  rw [rcvMsgOp, if_neg (not_not_intro htype), hr]
  exact if_neg (by simp [hserver])

theorem rcvMsg_unknownForm (hlong : 10 ≤ f.payload.length) (hlen : f.payload.length = 10 + field f.payload 8 2)
    (hform : field f.payload 3 1 ≠ 0) (henabled : rcvEnabled u (2 + x) = true) :
    exec (.rcvMsg x f) s =
      .next (respond (consume u x) (2 + x) (field f.payload 0 1 % 128 + 0x80) (field f.payload 1 1) 0 rcFormat 0) := by
  refine congrArg Host.Outcome.next ((rcvMsg_delivered htype hr hserver).trans ?_)
  rw [if_neg (by simp only [Bool.or_eq_true, decide_eq_true_eq]; omega), if_pos hform, if_pos henabled]

theorem rcvMsg_request (hlong : 10 ≤ f.payload.length) (hlen : f.payload.length = 10 + field f.payload 8 2)
    (hform : field f.payload 3 1 = 0) :
    exec (.rcvMsg x f) s =
      .next (rcvRequest (consume u x) (2 + x) (field f.payload 0 1) (field f.payload 1 1) (field f.payload 2 1)
        (field f.payload 4 4) (f.payload.drop 10)) := by
  refine congrArg Host.Outcome.next ((rcvMsg_delivered htype hr hserver).trans ?_)
  rw [if_neg (by simp only [Bool.or_eq_true, decide_eq_true_eq]; omega), if_neg (not_not_intro hform)]

theorem rcvMsg_wrongLength (hlen : f.payload.length ≠ 10 + field f.payload 8 2) :
    exec (.rcvMsg x f) s = .next (bump (consume u x) (aChain x 0x04C)) :=
  congrArg Host.Outcome.next ((rcvMsg_delivered htype hr hserver).trans (if_pos (by simp [hlen])))

end

end

/-- Settles O50: what a heard request, a past end and a delivered message do, form by form. -/
theorem recoveryRequestsAreAnswered : Obligations.RecoveryRequestsAreAnswered := by
  unfold Obligations.RecoveryRequestsAreAnswered
  intro s tr t x index seq data f
  dsimp only
  refine ⟨fun hserver henabled hexist hrom => ?_, rcvTimeout_ends, rcvTimeout_free, fun u htype hr hserver =>
    ⟨rcvMsg_unknownForm htype hr hserver, rcvMsg_request htype hr hserver, rcvMsg_wrongLength htype hr hserver⟩⟩
  have h : Heard s tr t := ⟨hserver, henabled, hexist, hrom⟩
  refine ⟨rcvStatus_answers h rfl, rcvData_cut h, fun hlen => ⟨rcvData_idle h hlen, rcvData_firstHeader h hlen,
    rcvData_others h hlen rfl, rcvData_outOfOrder h hlen rfl, rcvData_next h hlen rfl⟩, fun hmine =>
    ⟨rcvEnd_platform h rfl hmine, ?_, rcvAbort_claimant h hmine⟩, fun hfree => ⟨rcvEnd_free h hfree, rcvAbort_free h hfree⟩⟩
  rintro rfl
  exact rcvEnd_device h rfl hmine

end Sys2Proof.Machine
end

section
/-! SUPPORT. Updates offered and staged. -/

namespace Sys2Proof.Machine

/-! ### Updates offered and staged (R419 to R423) -/

section
variable {s v : State} {tr q code : Nat} {f : Frame} {u offered : FwSet}

theorem length_slice (bs : List Byte) (off n : Nat) : (slice bs off n).length = n := by
  rw [slice, fitBytes, List.length_append, List.length_take, zeros, List.length_replicate]
  omega

theorem settleBank_settled {b : Nat} (h : wiping s b = false) : settleBank s b = s := if_neg (Bool.eq_false_iff.mp h)

/-- A message of PF0 or I3C that the firmware hears. -/
theorem updHear_served (htr : tr < 2) (hserver : rcvServer s = 2) (ftype rtype : Nat) (act : State → State) :
    updHear s tr ftype rtype f act = act s := by
  rw [updHear, if_neg (by omega), if_neg (by omega), if_pos hserver]

theorem updAnswer_local (htr : tr < 2) (s : State) (rtype seq : Nat) (digest : List Byte) (code detail next : Nat) :
    updAnswer s tr rtype seq digest code detail next = respond s tr (rtype + 0x80) seq s.upd.state.num code next := if_pos htr

theorem updStatus_answered (hserver : rcvServer s = 2) :
    exec (.updStatus tr) s = .next (respond s tr 0x92 0 s.upd.state.num 0 (updNext s)) := by
  refine congrArg Host.Outcome.next ((if_neg ?_).trans (if_pos hserver))
  omega

/-! #### Offers (R421) -/

/-- The set that an offer describes. -/
def offeredSet (f : Frame) : FwSet :=
  { digest := slice f.payload 0 48, manifestDigest := slice f.payload 52 48, rollback := field f.payload 48 4, floor := 0 }

/-- What the firmware answers to an offer that it hears. -/
theorem updOffer_heard (htr : tr < 2) (hserver : rcvServer s = 2) : exec (.updOffer tr f) s = .next (updOfferOp s tr f) :=
  congrArg Host.Outcome.next (updHear_served htr hserver _ _ _)

section
variable (htr : tr < 2) (hserver : rcvServer s = 2) (hq : q = f.seq.toNat % 256)
include htr hserver hq

theorem updOffer_malformed (hlen : f.payload.length ≠ 104) :
    exec (.updOffer tr f) s = .next (respond s tr 0x90 q s.upd.state.num ucHdrFail 0) := by
  have hop : updOfferOp s tr f = updAnswer s tr 0x10 (f.seq.toNat % 256) (slice f.payload 0 48) ucHdrFail 0 0 := if_pos hlen
  rw [updOffer_heard htr hserver, hop, updAnswer_local htr, ← hq]

/-- An offer that the fields alone decide. -/
theorem updOffer_decided (hlen : f.payload.length = 104) (hcode : offerCode s (offeredSet f) = some code) :
    exec (.updOffer tr f) s = .next (respond s tr 0x90 q s.upd.state.num code 0) := by
  have hop : updOfferOp s tr f = updAnswer s tr 0x10 (f.seq.toNat % 256) (slice f.payload 0 48) code 0 0 := by
    rw [updOfferOp, if_neg (not_not_intro hlen), ← offeredSet, hcode]
    rfl
  rw [updOffer_heard htr hserver, hop, updAnswer_local htr, ← hq]

theorem updOffer_refused (hlen : f.payload.length = 104) (hopen : offerCode s (offeredSet f) = none)
    (hcode : claimCode s (offeredSet f) = some code) :
    exec (.updOffer tr f) s = .next (respond s tr 0x90 q s.upd.state.num code 0) := by
  have hop : updOfferOp s tr f = updAnswer s tr 0x10 (f.seq.toNat % 256) (slice f.payload 0 48) code 0 0 := by
    rw [updOfferOp, if_neg (not_not_intro hlen), ← offeredSet, hopen, hcode]
    rfl
  rw [updOffer_heard htr hserver, hop, updAnswer_local htr, ← hq]

theorem updOffer_accepted (hlen : f.payload.length = 104) (hopen : offerCode s (offeredSet f) = none)
    (hclaim : claimCode s (offeredSet f) = none) (hfree : s.upd.candidate = none) {state : UpdState}
    (hstate : state = if s.upd.state = .idle then .claiming else s.upd.state) :
    exec (.updOffer tr f) s = .next (respond { s with upd := { s.upd with
      candidate := some { tr, set := offeredSet f, total := field f.payload 100 4, header := [] }, state } } tr 0x90 q state.num 0 0) := by
  have hop : updOfferOp s tr f = updAnswer { s with upd := { s.upd with
      candidate := some { tr, set := offeredSet f, total := field f.payload 100 4, header := [] }, state } } tr 0x10
      (f.seq.toNat % 256) (slice f.payload 0 48) ucAccept 0 0 := by
    rw [updOfferOp, if_neg (not_not_intro hlen), ← offeredSet, hopen, hclaim]
    dsimp only
    rw [hfree, if_neg (by simp), hstate]
    rfl
  rw [updOffer_heard htr hserver, hop, updAnswer_local htr, ← hq]
  rfl

end

/-! #### What decides an offer (R421) -/

/-- The manifest runs or is claimed. -/
def ManifestHeld (s : State) (m : List Byte) : Prop :=
  m = s.upd.active.manifestDigest ∨ ∃ c, s.upd.claim = some c ∧ c.manifestDigest = m

theorem offerCode_notReady (h : s.upd.firstStartDone = false ∨ s.upd.state = .armed) : offerCode s u = some ucNotReady :=
  if_pos (by simpa using h)

theorem held_iff : (u.manifestDigest = s.upd.active.manifestDigest ||
    s.upd.claim.any fun c => c.manifestDigest = u.manifestDigest) = true ↔ ManifestHeld s u.manifestDigest := by
  rw [Bool.or_eq_true, decide_eq_true_eq, ManifestHeld, Option.any_eq_true]
  simp only [decide_eq_true_eq]

section
variable (hready : s.upd.firstStartDone = true) (harmed : s.upd.state ≠ .armed)
include hready harmed

/-- The rows after the first, for a member that is ready. -/
theorem offerCode_ready : offerCode s u =
    (if (u.manifestDigest = s.upd.active.manifestDigest || s.upd.claim.any fun c => c.manifestDigest = u.manifestDigest) = true then some ucSame
    else if u.rollback ≤ s.upd.active.rollback then some ucOlder
    else if s.upd.withdrawn.contains u.digest then some ucWithdrawn else none) :=
  if_neg (by simp [hready, harmed])

theorem offerCode_same (hheld : ManifestHeld s u.manifestDigest) : offerCode s u = some ucSame :=
  (offerCode_ready hready harmed).trans (if_pos (held_iff.mpr hheld))

theorem offerCode_older (hheld : ¬ ManifestHeld s u.manifestDigest) (hold : u.rollback ≤ s.upd.active.rollback) :
    offerCode s u = some ucOlder :=
  (offerCode_ready hready harmed).trans ((if_neg (mt held_iff.mp hheld)).trans (if_pos hold))

theorem offerCode_withdrawn (hheld : ¬ ManifestHeld s u.manifestDigest) (hnew : s.upd.active.rollback < u.rollback)
    (hgone : u.digest ∈ s.upd.withdrawn) : offerCode s u = some ucWithdrawn :=
  (offerCode_ready hready harmed).trans
    ((if_neg (mt held_iff.mp hheld)).trans ((if_neg (by omega)).trans (if_pos (by simpa using hgone))))

theorem offerCode_open (hheld : ¬ ManifestHeld s u.manifestDigest) (hnew : s.upd.active.rollback < u.rollback)
    (hgood : u.digest ∉ s.upd.withdrawn) : offerCode s u = none :=
  (offerCode_ready hready harmed).trans
    ((if_neg (mt held_iff.mp hheld)).trans ((if_neg (by omega)).trans (if_neg (by simpa using hgood))))

end

theorem claimCode_busy (hstate : s.upd.state ≠ .conflict) (hclaim : s.upd.claim = some u) (hlower : offered.rollback < u.rollback) :
    claimCode s offered = some ucBusy := by
  rw [claimCode, if_neg (by simp [hstate]), hclaim]
  exact if_pos hlower

theorem claimCode_open (hstate : s.upd.state ≠ .conflict)
    (hclaim : s.upd.claim = none ∨ (s.upd.claim = some u ∧ u.rollback ≤ offered.rollback)) : claimCode s offered = none := by
  rw [claimCode, if_neg (by simp [hstate])]
  obtain hnone | ⟨hsome, hle⟩ := hclaim
  · rw [hnone]
  · rw [hsome]
    exact if_neg (by omega)

/-! #### Chunks (R422, R423) -/

theorem upd_hubStore (s : State) (a : Nat) (bs : List Byte) : (hubStore s a bs).upd = s.upd := by
  have hwipe (b : Nat) : (settleBank s b).upd = s.upd := by
    unfold settleBank bankWipeDoneOp
    split <;> rfl
  have hoff : (offAccess s hubB a).upd = s.upd := by rw [offAccess, noted_emit s _ _ _ _]
  unfold hubStore
  split
  · split_ifs
    · exact hoff
    · rw [wrBytes_frame]
      exact hwipe _
    · rfl
  · rfl

theorem hubStore_stores {a b : Nat} {bs : List Byte} (hat : bankOf a = some b) (hon : bankOn s b = true)
    (hgrants : bankGrants s hubB b true false = true) (hsettled : wiping s b = false) :
    rdBytes (hubStore s a bs) a bs.length = bs := by
  have hstore : hubStore s a bs = wrBytes s a bs := by
    rw [hubStore, hat]
    dsimp only
    rw [if_neg (by simp [hon]), if_pos hgrants, settleBank_settled hsettled]
  rw [hstore, rdBytes_wrBytes]

section
variable (htr : tr < 2) (hserver : rcvServer s = 2) (hq : q = f.seq.toNat % 256) (hcandidate : s.upd.candidate = none)
include htr hserver hq hcandidate

theorem updChunk_unclaimed (hclaim : s.upd.claim = none) :
    exec (.updChunk tr f) s = .next (respond s tr 0x91 q s.upd.state.num ucNotReady 0) := by
  have hop : updChunkOp s tr f = updAnswer s tr 0x11 (f.seq.toNat % 256) (slice f.payload 0 8) ucNotReady 0 0 := by
    rw [updChunkOp, hcandidate, hclaim]
    exact if_pos htr
  rw [updAnswer_local htr, ← hq] at hop
  exact congrArg Host.Outcome.next ((updHear_served htr hserver _ _ _).trans hop)

section
variable (hclaim : s.upd.claim = some u) (hsource : s.upd.source = tr) (hstate : s.upd.state = .staging) (hbuilt : s.upd.built = false)
  (hset : u.digest.take 8 = f.payload.take 8) (hlen : f.payload.length = 4108) {next : Nat} (hnext : next = s.upd.container.length / 4096)
include hclaim hsource hstate hbuilt hset hlen hnext

/-- A whole chunk from the source of the claim. -/
theorem updChunk_claim : exec (.updChunk tr f) s = .next (
    if field f.payload 8 4 ≠ next then respond s tr 0x91 q 2 0 next
    else if !busFree s 0 || !chunkRoom s then s
    else
      let s := takeChunk s u (slice f.payload 12 4096)
      let now := s.upd.container.length / 4096
      if s.upd.claim.isNone then updAnswer s tr 0x11 q u.digest ucChunkFail 0 0
      else if tr < 2 || now % 16 = 0 || now ≠ next + 1 || s.upd.built then updAnswer s tr 0x11 q u.digest ucAccept 0 now
      else s) := by
  have hanswer : updAnswer s tr 0x11 q u.digest ucAccept 0 next = respond s tr 0x91 q 2 0 next := by
    rw [updAnswer_local htr, hstate]
    rfl
  refine congrArg Host.Outcome.next ((updHear_served htr hserver _ _ _).trans ?_)
  rw [updChunkOp, hcandidate, hclaim]
  dsimp only [Option.filter_none]
  rw [if_neg (by simp [hsource, hstate, hbuilt, hset]), ← hnext, ← hq, hanswer]
  simp only [hlen, ne_eq, not_true_eq_false, decide_false, Bool.false_or, decide_eq_true_eq]

theorem updChunk_outOfOrder (hindex : field f.payload 8 4 ≠ next) :
    exec (.updChunk tr f) s = .next (respond s tr 0x91 q 2 0 next) :=
  (updChunk_claim htr hserver hq hcandidate hclaim hsource hstate hbuilt hset hlen hnext).trans
    (congrArg Host.Outcome.next (if_pos hindex))

theorem updChunk_waits (hindex : field f.payload 8 4 = next) (hfull : busFree s 0 = false ∨ chunkRoom s = false) :
    exec (.updChunk tr f) s = .next s :=
  (updChunk_claim htr hserver hq hcandidate hclaim hsource hstate hbuilt hset hlen hnext).trans
    (congrArg Host.Outcome.next ((if_neg (not_not_intro hindex)).trans (if_pos (by simpa using hfull))))

theorem updChunk_taken {c : List Byte} (hc : c = s.upd.container ++ slice f.payload 12 4096)
    (hv : v = hubStore s (chunkAddr next) (slice f.payload 12 4096)) (hindex : field f.payload 8 4 = next)
    (hfree : busFree s 0 = true) (hroom : chunkRoom s = true) (hmore : c.length < zManifestEnd c) :
    exec (.updChunk tr f) s = .next (respond { v with upd := { s.upd with container := c } } tr 0x91 q 2 0 (next + 1)) := by
  have hupd : v.upd = s.upd := hv ▸ upd_hubStore _ _ _
  have htaken : takeChunk s u (slice f.payload 12 4096) = { v with upd := { s.upd with container := c } } := by
    rw [takeChunk, ← hnext, ← hv, setUpd, hupd, ← hc]
    exact if_pos hmore
  have hcount : c.length / 4096 = next + 1 := by
    rw [hc, List.length_append, length_slice, hnext]
    omega
  refine (updChunk_claim htr hserver hq hcandidate hclaim hsource hstate hbuilt hset hlen hnext).trans
    (congrArg Host.Outcome.next ((if_neg (not_not_intro hindex)).trans ((if_neg (by simp [hfree, hroom])).trans ?_)))
  rw [htaken]
  dsimp only
  rw [if_neg (by simp [hclaim]), if_pos (by simp [htr]), updAnswer_local htr, hcount, hstate]
  rfl

end

end

end

/-- Settles O51: status, the rows of an offer in their order, and chunks of the claim, of PF0 and I3C. -/
theorem updatesAreOfferedAndStaged : Obligations.UpdatesAreOfferedAndStaged := by
  unfold Obligations.UpdatesAreOfferedAndStaged
  intro s tr f u htr hserver
  dsimp only
  refine ⟨updStatus_answered hserver, updOffer_malformed htr hserver rfl, fun hlen => ⟨fun hbusy =>
      updOffer_decided htr hserver rfl hlen (offerCode_notReady hbusy), fun hready harmed => ⟨fun hheld =>
        updOffer_decided htr hserver rfl hlen (offerCode_same hready harmed hheld), fun hheld => ⟨fun hold =>
          updOffer_decided htr hserver rfl hlen (offerCode_older hready harmed hheld hold), fun hnew => ⟨fun hgone =>
            updOffer_decided htr hserver rfl hlen (offerCode_withdrawn hready harmed hheld hnew hgone), ?_⟩⟩⟩⟩,
    fun hcandidate hclaim hsource hstate hbuilt hset hlen => ⟨
      updChunk_outOfOrder htr hserver rfl hcandidate hclaim hsource hstate hbuilt hset hlen rfl,
      updChunk_waits htr hserver rfl hcandidate hclaim hsource hstate hbuilt hset hlen rfl, fun hindex hfree hroom hmore => ⟨
        updChunk_taken htr hserver rfl hcandidate hclaim hsource hstate hbuilt hset hlen rfl rfl rfl hindex hfree hroom hmore,
        fun b hat hon hgrants hsettled => ?_⟩⟩,
    updChunk_unclaimed htr hserver rfl⟩
  · intro hgood hconflict hfree
    have hopen := offerCode_open (u := offeredSet f) hready harmed hheld hnew hgood
    exact ⟨fun hclaim hlower => updOffer_refused htr hserver rfl hlen hopen (claimCode_busy hconflict hclaim hlower),
      fun hclaim => updOffer_accepted htr hserver rfl hlen hopen (claimCode_open hconflict hclaim) hfree rfl⟩
  · have hbytes := hubStore_stores (bs := slice f.payload 12 4096) hat hon hgrants hsettled
    rw [length_slice] at hbytes
    exact hbytes

end Sys2Proof.Machine
end

section
/-! SUPPORT. Updates on the chain, and activation. -/

namespace Sys2Proof.Machine

/-! ### Updates on the chain (R420, R424 to R431) -/

section
variable {s t v w : State} {x n next sent τ : Nat} {f : Frame} {u : FwSet} {digest : List Byte}

/-! #### What own commands, records and frames leave -/

/-- Own commands and their effect on the device's flash: outputs, the flash and its count of commands moved. -/
def Stored (s t : State) : Prop := t = { s with out := t.out, flash := t.flash, flashGen := t.flashGen }

theorem Stored.refl (s : State) : Stored s s := rfl

theorem Stored.trans (h : Stored s t) (h' : Stored t v) : Stored s v := by
  unfold Stored at *
  rw [h', h]

theorem stored_ownChange (s : State) (p k opcode addr : Nat) (bytes : List Byte) : Stored s (ownChange s p k opcode addr bytes) := rfl

theorem stored_flashProgram (bs : List Byte) (s : State) (a : Nat) : Stored s (flashProgram s a bs) := by
  induction bs generalizing s a with
  | nil => exact .refl s
  | cons b bs ih => exact Stored.trans (t := { s with flash := smSet s.flash a 0xFF (flashByte s a &&& b) }) rfl (ih _ _)

theorem stored_foldl {α : Type} {g : State → α → State} (h : ∀ s i, Stored s (g s i)) (l : List α) (s : State) : Stored s (l.foldl g s) := by
  induction l generalizing s with
  | nil => exact .refl s
  | cons i l ih => exact (h s i).trans (ih _)

theorem stored_devErase (s : State) (lo hi : Nat) : Stored s (devErase s lo hi) :=
  (stored_foldl (fun s _ => stored_ownChange s _ _ _ _ _) _ s).trans rfl

theorem stored_devProgram (s : State) (a : Nat) (bs : List Byte) : Stored s (devProgram s a bs) := by
  refine Stored.trans (stored_foldl (fun s e => ?_) _ s) (stored_flashProgram _ _ _)
  dsimp only
  split
  · exact .refl s
  · exact stored_ownChange s _ _ _ _ _

theorem stored_writeArm (s : State) (digest : List Byte) (τ : Nat) : Stored s (writeArm s digest τ) :=
  (stored_devErase s _ _).trans ((stored_devProgram _ _ _).trans (stored_devProgram _ _ _))

theorem noted_updRecord (s : State) (rtype : Nat) (digest : List Byte) (more : List W32) : Noted s (updRecord s rtype digest more) :=
  noted_emit s _ _ _ _

theorem reg_updRecord (s : State) (rtype : Nat) (digest : List Byte) (more : List W32) {a : Nat} (ha : ¬ RecordReg a) :
    reg (updRecord s rtype digest more) a = reg s a := reg_emit s _ _ _ _ ha

/-- The update's state and memory stay. -/
structure UpdSame (s t : State) : Prop where
  upd : t.upd = s.upd
  mem : t.mem = s.mem

theorem UpdSame.trans (h : UpdSame s t) (h' : UpdSame t v) : UpdSame s v := ⟨h'.upd.trans h.upd, h'.mem.trans h.mem⟩

theorem Sends.updSame (h : Sends s t) : UpdSame s t := by
  rw [h.frame]
  exact ⟨rfl, rfl⟩

theorem Noted.updSame (h : Noted s t) : UpdSame s t := by
  unfold Noted at h
  rw [h]
  exact ⟨rfl, rfl⟩

theorem Stored.updSame (h : Stored s t) : UpdSame s t := by
  unfold Stored at h
  rw [h]
  exact ⟨rfl, rfl⟩

theorem sends_tellSource (s : State) (tr : Nat) (digest : List Byte) (code : Nat) : Sends s (tellSource s tr digest code) := by
  unfold tellSource
  split
  · exact sends_emitOut s _
  · next htr =>
    rw [updAnswer, if_neg htr]
    exact sends_sendRaw s _ _ _

/-! #### Frames that are heard (R420) -/

/-- An update frame that the shipped Hub-B hears acts on what it left; one for the pacer's word acts only from the pacer. -/
theorem updFrame_heard (h : FrameHeard s x f n v) (pacerOnly : Bool) (act : State → State) :
    updFrame s x n f pacerOnly act = if pacerOnly && f.src ≠ pacerUid v then v else act v := by
  obtain ⟨htype, hmine, hsingle, htaken, hup, hread⟩ := h
  have hmine' : ¬ (!(f.dst = uid s || f.dst = 0 || f.dst = broadcast)) = true := by
    simp only [Bool.not_eq_true', Bool.or_eq_false_iff, decide_eq_false_iff_not, not_and, not_not]
    intro hno
    exact absurd hmine (not_or.mpr hno)
  unfold updFrame
  dsimp only
  rw [if_neg (not_not_intro htype), if_neg hmine']
  revert htaken hup hread
  generalize receive s x f = r
  intro htaken hup hread
  rw [htaken, hup, ← hread, if_neg hsingle]
  rfl

/-! #### Answers of neighbours (R423, R424) -/

theorem updAnswer_heard (h : FrameHeard s x f 0x21 v) : exec (.updAnswer (2 + x) f) s = .next (updAnswerOp v x f) := by
  have hport : 2 + x - 2 = x := by omega
  refine congrArg Host.Outcome.next ((if_pos (by omega)).trans ?_)
  rw [hport, updFrame_heard h]
  exact if_neg (by simp)

/-- The chunks from `sent` up to `stop` leave on port x. -/
def windowSent (s : State) (x sent stop : Nat) : State :=
  (List.range (stop - sent)).foldl
    (fun w i => sendRaw w x 0x22 ((heldSet s).digest.take 8 ++ leBytes 4 (sent + i) ++ heldChunk w (sent + i))) s

theorem windowSent_same (s : State) (x sent stop : Nat) : UpdSame s (windowSent s x sent stop) :=
  (sends_foldl (fun w _ => sends_sendRaw w _ _ _) _ s).updSame

/-- What the pump leaves of a port's window. -/
theorem pumpPort_effect (h : smGet s.upd.forward x none = some (next, sent)) :
    ∃ t, pumpPort s x = t ∧ t.mem = s.mem ∧
      t.upd = { s.upd with forward := smSet s.upd.forward x none (some (next, max sent (min (sendable s) (next + 64)))) } := by
  obtain ⟨hupd, hmem⟩ := windowSent_same s x sent (min (sendable s) (next + 64))
  have hop : pumpPort s x = setUpd (windowSent s x sent (min (sendable s) (next + 64))) { (windowSent s x sent (min (sendable s) (next + 64))).upd with
      forward := smSet (windowSent s x sent (min (sendable s) (next + 64))).upd.forward x none
        (some (next, max sent (min (sendable s) (next + 64)))) } := by
    rw [pumpPort, h]
    rfl
  refine ⟨_, hop, hmem, ?_⟩
  rw [hupd]
  rfl

/-- The pump after a window was set. -/
theorem pumpPort_window (s : State) (x next sent : Nat) :
    ∃ t, pumpPort (setUpd s { s.upd with forward := smSet s.upd.forward x none (some (next, sent)) }) x = t ∧ t.mem = s.mem ∧
      t.upd.lastAnswer = s.upd.lastAnswer ∧
      smGet t.upd.forward x none = some (next, max sent (min (sendable s) (next + 64))) := by
  generalize hv : setUpd s { s.upd with forward := smSet s.upd.forward x none (some (next, sent)) } = v
  have hfrom : smGet v.upd.forward x none = some (next, sent) := hv ▸ smGet_smSet_same s.upd.forward x none (some (next, sent))
  have hanswer : v.upd.lastAnswer = s.upd.lastAnswer := hv ▸ rfl
  have hmem : v.mem = s.mem := hv ▸ rfl
  have hsendable : sendable v = sendable s := hv ▸ rfl
  obtain ⟨t, ht, hmem', hupd⟩ := pumpPort_effect hfrom
  refine ⟨t, ht, hmem'.trans hmem, ?_, ?_⟩
  · rw [hupd, ← hanswer]
  · rw [hupd, hsendable]
    exact smGet_smSet_same v.upd.forward x none (some (next, max sent (min (sendable s) (next + 64))))

theorem updAnswer_stale (h : FrameHeard s x f 0x21 v) (hstale : slice f.payload 0 48 ≠ fitBytes 48 (heldSet v).digest) :
    exec (.updAnswer (2 + x) f) s = .next v := (updAnswer_heard h).trans (congrArg Host.Outcome.next (if_pos hstale))

theorem updAnswer_taken (h : FrameHeard s x f 0x21 v) (hheld : slice f.payload 0 48 = fitBytes 48 (heldSet v).digest) :
    ∃ t, exec (.updAnswer (2 + x) f) s = .next t ∧ smGet t.upd.lastAnswer x none = some (field f.payload 48 1) ∧
      (field f.payload 48 1 ≠ ucAccept → smGet t.upd.forward x none = none) := by
  refine ⟨_, (updAnswer_heard h).trans (congrArg Host.Outcome.next (if_neg (not_not_intro hheld))), ?_⟩
  dsimp only
  generalize hw : setUpd v { v.upd with lastAnswer := smSet v.upd.lastAnswer x none (some (field f.payload 48 1)) } = w
  have hanswer : smGet w.upd.lastAnswer x none = some (field f.payload 48 1) := hw ▸ smGet_smSet_same v.upd.lastAnswer x none (some (field f.payload 48 1))
  split
  · next haccept =>
    obtain ⟨t, ht, -, hkept, -⟩ := pumpPort_window w x (field f.payload 52 4) (match smGet w.upd.forward x none with
      | some (_, sent) => max sent (field f.payload 52 4)
      | none => field f.payload 52 4)
    refine ⟨?_, fun hno => absurd haccept hno⟩
    refine (congrArg (fun t : State => smGet t.upd.lastAnswer x none) ht).trans ?_
    rw [hkept]
    exact hanswer
  · exact ⟨hanswer, fun _ => smGet_smSet_same w.upd.forward x none none⟩

/-! #### Withdrawals and aborts (R426) -/

theorem withdrawSet_armed (h : s.upd.state = .armed) : withdrawSet s digest = s := if_pos h

/-- A set that is withdrawn while the member is not armed. -/
theorem withdrawSet_effect (h : s.upd.state ≠ .armed) (digest : List Byte) :
    ∃ t, withdrawSet s digest = t ∧ t = { s with upd := t.upd } ∧ t.upd.withdrawn = s.upd.withdrawn ++ [digest] ∧
      t.upd.reports = s.upd.reports ∧
      ((∃ u, s.upd.claim = some u ∧ u.digest = digest) → t.upd.claim = none ∧ t.upd.state = .idle) ∧
      ((∀ u, s.upd.claim = some u → u.digest ≠ digest) → t.upd.claim = s.upd.claim ∧ t.upd.state = s.upd.state) := by
  by_cases hclaimed : (s.upd.claim.any fun c => c.digest = digest) = true
  · refine ⟨_, (if_neg h).trans (if_pos hclaimed), rfl, rfl, rfl, fun _ => ⟨rfl, rfl⟩, fun hother => ?_⟩
    obtain ⟨u, hu, hdigest⟩ := (Option.any_eq_true _ _).mp hclaimed
    exact absurd (of_decide_eq_true hdigest) (hother u hu)
  · refine ⟨_, (if_neg h).trans (if_neg hclaimed), rfl, rfl, rfl, fun ⟨u, hu, hdigest⟩ => ?_, fun _ => ⟨rfl, rfl⟩⟩
    exact absurd ((Option.any_eq_true _ _).mpr ⟨u, hu, decide_eq_true hdigest⟩) hclaimed

/-- The pacer's abort: the set is withdrawn, and no report of it stays. -/
theorem abortSet_effect (h : s.upd.state ≠ .armed) (digest : List Byte) :
    ∃ t, abortSet s digest = t ∧ t.mem = s.mem ∧ digest ∈ t.upd.withdrawn ∧ (∀ r ∈ t.upd.reports, r.2.1 ≠ digest) ∧
      (s.upd.claim = none → t.upd.claim = none ∧ t.upd.state = s.upd.state) := by
  have hsent := (sends_sendAll s 0x25 (fitBytes 48 digest)).updSame
  have hsent' : (sendAll s 0x25 (fitBytes 48 digest)).upd.state ≠ .armed := by rw [hsent.upd]; exact h
  obtain ⟨v, hv, hframe, hwithdrawn, hreports, -, hkept⟩ := withdrawSet_effect hsent' digest
  have hnoted := (noted_updRecord (setUpd v { v.upd with reports := v.upd.reports.filter fun r => r.2.1 ≠ digest }) 0x0E4 digest []).updSame
  refine ⟨_, by rw [abortSet, hv], hnoted.mem.trans ?_, ?_, fun r hr => ?_, fun hclaim => ?_⟩
  · exact (by rw [hframe] : v.mem = _).trans hsent.mem
  · rw [hnoted.upd]
    change digest ∈ v.upd.withdrawn
    rw [hwithdrawn]
    simp
  · rw [hnoted.upd] at hr
    simpa using (List.mem_filter.mp hr).2
  · rw [hnoted.upd]
    rw [hsent.upd] at hkept
    obtain ⟨hclaim', hstate'⟩ := hkept fun u hu => absurd (hclaim.symm.trans hu) (by simp)
    exact ⟨hclaim'.trans hclaim, hstate'⟩

/-! #### Reports (R426) -/

/-- The member armed for τ, with its arm record written. -/
def armedAt (s : State) (τ : Nat) : State := setUpd (setArm s τ) { (setArm s τ).upd with state := .armed, armTime := some τ }

theorem armSelf_eq (s : State) (u : FwSet) (τ : Nat) :
    armSelf s u τ = updRecord (armedAt (writeArm s u.digest τ) τ) 0x0E5 u.digest (words64 τ) := rfl

theorem upd_armSelf (s : State) (u : FwSet) (τ : Nat) :
    (armSelf s u τ).upd = { s.upd with state := .armed, armTime := some τ } ∧ (armSelf s u τ).mem = s.mem := by
  obtain ⟨hupd, hmem⟩ := (stored_writeArm s u.digest τ).updSame
  have harmed (w : State) : (armedAt w τ).upd = { w.upd with state := .armed, armTime := some τ } ∧ (armedAt w τ).mem = w.mem := ⟨rfl, rfl⟩
  obtain ⟨hupd', hmem'⟩ := (noted_updRecord (armedAt (writeArm s u.digest τ) τ) 0x0E5 u.digest (words64 τ)).updSame
  rw [armSelf_eq, hupd', hmem', (harmed _).1, (harmed _).2, hupd, hmem]
  exact ⟨rfl, rfl⟩

theorem sends_sendArm (s : State) : Sends s (sendArm s) := by
  unfold sendArm
  split
  · exact sends_sendAll s _ _
  · exact .refl s

/-- Arming keeps the reports that the pacer holds, and what a member without a claim has. -/
theorem armIfReady_effect (s : State) :
    (∀ r ∈ s.upd.reports, r ∈ (armIfReady s).upd.reports) ∧ (s.upd.claim = none → armIfReady s = s) := by
  refine ⟨fun r hr => ?_, fun hclaim => by rw [armIfReady, hclaim]⟩
  unfold armIfReady
  split
  · dsimp only
    split
    · rw [(sends_sendArm _).updSame.upd]
      change r ∈ (armSelf _ _ _).upd.reports ++ _
      rw [(upd_armSelf _ _ _).1]
      exact List.mem_append_left _ hr
    · exact hr
  · exact hr

theorem updReport_heard (h : FrameHeard s x f 0x23 v) : exec (.updReport x f) s = .next (updReportOp v f) := by
  refine congrArg Host.Outcome.next ((updFrame_heard h _ _).trans (if_neg (by simp)))

theorem updReport_ignored (h : FrameHeard s x f 0x23 v) (hmember : isPacer v = false) : exec (.updReport x f) s = .next v :=
  (updReport_heard h).trans (congrArg Host.Outcome.next (if_neg (Bool.eq_false_iff.mp hmember)))

theorem updReport_kept (h : FrameHeard s x f 0x23 v) (hpacer : isPacer v = true) (hgood : field f.payload 48 1 ≠ rpFailed) :
    ∃ t, exec (.updReport x f) s = .next t ∧ (f.src, slice f.payload 0 48, field f.payload 48 1) ∈ t.upd.reports := by
  refine ⟨_, (updReport_heard h).trans (congrArg Host.Outcome.next ((if_pos hpacer).trans (if_neg (by simp [hgood])))), ?_⟩
  exact (armIfReady_effect _).1 _ (List.mem_append_right _ (List.mem_singleton_self _))

theorem updReport_failed (h : FrameHeard s x f 0x23 v) (hpacer : isPacer v = true) (hbad : field f.payload 48 1 = rpFailed)
    (hunarmed : v.upd.armedAny = false) (hstate : v.upd.state ≠ .armed) :
    ∃ t, exec (.updReport x f) s = .next t ∧ slice f.payload 0 48 ∈ t.upd.withdrawn ∧
      ∀ r ∈ t.upd.reports, r.2.1 ≠ slice f.payload 0 48 := by
  have hopen : (rpFailed = rpFailed && !v.upd.armedAny) = true := by simp [hunarmed]
  have hop : updReportOp v f = abortSet (setUpd v { v.upd with
      reports := v.upd.reports.filter (fun r => ¬(r.1 = f.src ∧ r.2.1 = slice f.payload 0 48)) ++ [(f.src, slice f.payload 0 48, rpFailed)] })
      (slice f.payload 0 48) := by
    rw [updReportOp, if_pos hpacer, hbad]
    exact if_pos hopen
  have hstate' (reports : List (BitVec 128 × List Byte × Nat)) : (setUpd v { v.upd with reports }).upd.state ≠ .armed := hstate
  obtain ⟨t, ht, -, hwithdrawn, hreports, -⟩ := abortSet_effect (hstate' _) (slice f.payload 0 48)
  exact ⟨t, (updReport_heard h).trans (congrArg Host.Outcome.next (hop.trans ht)), hwithdrawn, hreports⟩

/-! #### Arming (R427) -/

theorem updArm_heard (h : FrameHeard s x f 0x24 v) :
    exec (.updArm x f) s = .next (if f.src ≠ pacerUid v then v else updArmOp v f) := by
  refine congrArg Host.Outcome.next ((updFrame_heard h _ _).trans ?_)
  simp

theorem updArm_stranger (h : FrameHeard s x f 0x24 v) (hsrc : f.src ≠ pacerUid v) : exec (.updArm x f) s = .next v :=
  (updArm_heard h).trans (congrArg Host.Outcome.next (if_pos hsrc))

theorem reg_armSelf (s : State) (u : FwSet) (τ : Nat) {a : Nat} (ha : ¬ RecordReg a) :
    reg (armSelf s u τ) a = reg (setArm s τ) a := by
  have hstored : (writeArm s u.digest τ).regs = s.regs := by rw [stored_writeArm s u.digest τ]
  have harmed (w : State) : reg (armedAt w τ) a = reg (setArm w τ) a := rfl
  rw [armSelf_eq, reg_updRecord _ _ _ _ ha, harmed]
  unfold setArm setPair
  by_cases h38 : a = aPt 0x038
  · rw [h38, reg_setReg_same, reg_setReg_same]
  · rw [reg_setReg_other _ h38, reg_setReg_other _ h38]
    by_cases h34 : a = aPt 0x030 + 4
    · rw [h34, reg_setReg_same, reg_setReg_same]
    · rw [reg_setReg_other _ h34, reg_setReg_other _ h34]
      by_cases h30 : a = aPt 0x030
      · rw [h30, reg_setReg_same, reg_setReg_same]
      · rw [reg_setReg_other _ h30, reg_setReg_other _ h30, reg, hstored]
        rfl

theorem sends_sendReport (s : State) (u : FwSet) (report code : Nat) (hmember : isPacer s = false) : Sends s (sendReport s u report code) := by
  unfold sendReport
  rw [if_neg (Bool.eq_false_iff.mp hmember)]
  exact sends_ite (.refl s) (sends_sendTo s _ _ _)

theorem updArm_arms (h : FrameHeard s x f 0x24 v) (hsrc : f.src = pacerUid v) (hmember : isPacer v = false)
    (hnew : slice f.payload 0 48 ≠ fitBytes 48 v.upd.active.digest) (hclaim : v.upd.claim = some u)
    (hset : fitBytes 48 u.digest = slice f.payload 0 48) (hstaged : v.upd.state = .staged) (hlater : nowNs v < field f.payload 48 8) :
    ∃ t, exec (.updArm x f) s = .next t ∧ t.upd.state = .armed ∧ t.upd.armTime = some (field f.payload 48 8) ∧
      regPair t (aPt 0x030) = field f.payload 48 8 ∧ regB t (aPt 0x038) 0 = true ∧ t.mem = v.mem := by
  generalize hτ : field f.payload 48 8 = τ at hlater ⊢
  have hbound : τ < 2 ^ 64 := hτ ▸ field_lt f.payload 48 8
  have hop : updArmOp v f = sendReport (armSelf v u τ) u rpArmed 0 := by
    unfold updArmOp
    dsimp only
    rw [if_neg (Bool.eq_false_iff.mp hmember), if_neg hnew, hclaim]
    dsimp only
    rw [if_neg (not_not_intro hset), if_pos hstaged, hτ, if_pos hlater]
  obtain ⟨hupd, hmem⟩ := upd_armSelf v u τ
  have hpacer : isPacer (armSelf v u τ) = false := by
    rw [isPacer, regB, reg_armSelf v u τ (not_recordReg_aPt (by decide)), setArm, setPair, reg_setReg_other _ (by decide),
      reg_setReg_other _ (by decide), reg_setReg_other _ (by decide)]
    exact hmember
  have hsends := sends_sendReport (armSelf v u τ) u rpArmed 0 hpacer
  have hreg {off : Nat} (hoff : off < 0x10000) :
      reg (sendReport (armSelf v u τ) u rpArmed 0) (aPt off) = reg (setArm v τ) (aPt off) :=
    (hsends.regs _ (not_tunReg_aPt hoff)).trans (reg_armSelf v u τ (not_recordReg_aPt hoff))
  refine ⟨_, (updArm_heard h).trans (congrArg Host.Outcome.next ((if_neg (not_not_intro hsrc)).trans hop)), ?_, ?_, ?_, ?_,
    hsends.updSame.mem.trans hmem⟩
  · rw [hsends.updSame.upd, hupd]
  · rw [hsends.updSame.upd, hupd]
  · have hpair : regPair (setPair v (aPt 0x030) τ) (aPt 0x030) = τ := regPair_setPair_same v _ τ hbound
    rw [regPair, hreg (off := 0x030) (by decide), show aPt 0x030 + 4 = aPt 0x034 from rfl, hreg (off := 0x034) (by decide), setArm,
      reg_setReg_other _ (by decide), reg_setReg_other _ (by decide)]
    exact hpair
  · rw [regB, hreg (by decide), setArm, reg_setReg_same]
    rfl

/-! #### Aborts at a member (R426) -/

theorem updAbort_heard (h : FrameHeard s x f 0x25 v) :
    exec (.updAbort x f) s = .next (if f.src ≠ pacerUid v then v else withdrawSet v (slice f.payload 0 48)) := by
  refine congrArg Host.Outcome.next ((updFrame_heard h _ _).trans ?_)
  simp only [Bool.true_and, decide_eq_true_eq]
  rfl

theorem updAbort_ignored (h : FrameHeard s x f 0x25 v) (hno : f.src ≠ pacerUid v ∨ v.upd.state = .armed) :
    exec (.updAbort x f) s = .next v := by
  refine (updAbort_heard h).trans (congrArg Host.Outcome.next ?_)
  split
  · rfl
  · next hsrc => exact withdrawSet_armed (hno.resolve_left hsrc)

theorem updAbort_withdraws (h : FrameHeard s x f 0x25 v) (hsrc : f.src = pacerUid v) (hstate : v.upd.state ≠ .armed)
    (hclaim : v.upd.claim = some u) :
    ∃ t, exec (.updAbort x f) s = .next t ∧ t = { v with upd := t.upd } ∧ t.upd.withdrawn = v.upd.withdrawn ++ [slice f.payload 0 48] ∧
      (u.digest = slice f.payload 0 48 → t.upd.claim = none ∧ t.upd.state = .idle) ∧
      (u.digest ≠ slice f.payload 0 48 → t.upd.claim = v.upd.claim ∧ t.upd.state = v.upd.state) := by
  obtain ⟨t, ht, hframe, hwithdrawn, -, hended, hkept⟩ := withdrawSet_effect hstate (slice f.payload 0 48)
  refine ⟨t, (updAbort_heard h).trans (congrArg Host.Outcome.next ((if_neg (not_not_intro hsrc)).trans ht)), hframe, hwithdrawn,
    fun hdigest => hended ⟨u, hclaim, hdigest⟩, fun hdigest => hkept fun u' hu' => ?_⟩
  obtain rfl : u = u' := Option.some.inj (hclaim.symm.trans hu')
  exact hdigest

/-! #### What time brings (R422, R423, R426) -/

/-- A member without a claim that reports stays without one. -/
theorem sendReport_unclaimed (hclaim : s.upd.claim = none) (hidle : s.upd.state = .idle) (u : FwSet) (report code : Nat) :
    ∃ t, sendReport s u report code = t ∧ t.mem = s.mem ∧ t.upd.claim = none ∧ t.upd.state = .idle := by
  by_cases hpacer : isPacer s = true
  · have hop : sendReport s u report code = takeReport s (uid s) u.digest report := if_pos hpacer
    rw [hop, takeReport]
    dsimp only
    generalize hv : setUpd s _ = v
    have hclaim' : v.upd.claim = none := hv ▸ hclaim
    have hidle' : v.upd.state = .idle := hv ▸ hidle
    have hmem : v.mem = s.mem := hv ▸ rfl
    split
    · obtain ⟨t, ht, hmem', -, -, hkept⟩ := abortSet_effect (s := v) (by rw [hidle']; decide) u.digest
      obtain ⟨hnone, hstate⟩ := hkept hclaim'
      exact ⟨t, ht, hmem'.trans hmem, hnone, hstate.trans hidle'⟩
    · exact ⟨v, (armIfReady_effect v).2 hclaim', hmem, hclaim', hidle'⟩
  · have hsends := (sends_sendReport s u report code (Bool.eq_false_iff.mpr hpacer)).updSame
    exact ⟨_, rfl, hsends.mem, by rw [hsends.upd, hclaim], by rw [hsends.upd, hidle]⟩

theorem updTimeout_failsClaim (hup : hubBUp s = true) (hcandidate : s.upd.candidate = none) (hclaim : s.upd.claim = some u)
    (hstate : s.upd.state = .staging) (hbuilt : s.upd.built = false) :
    ∃ t, exec .updTimeout s = .next t ∧ t.upd.claim = none ∧ t.upd.state = .idle ∧ t.mem = s.mem := by
  have htold := (sends_tellSource s s.upd.source u.digest ucTimeout).updSame
  have hop : updTimeoutOp s = failClaim (tellSource s s.upd.source u.digest ucTimeout) ucTimeout := by
    rw [updTimeoutOp, if_neg (by simp [hup]), hcandidate, hclaim]
    exact if_pos (by simp [hstate, hbuilt])
  generalize tellSource s s.upd.source u.digest ucTimeout = v at htold hop
  obtain ⟨t, ht, hmem, hnone, hidle⟩ := sendReport_unclaimed (s := setUpd v { v.upd with
    state := .idle, claim := none, container := [], built := false, forward := [] }) rfl rfl u rpFailed ucTimeout
  have hfail : failClaim v ucTimeout = t := by
    rw [failClaim, htold.upd, hclaim, ← ht, htold.upd]
  exact ⟨t, congrArg Host.Outcome.next (hop.trans hfail), hnone, hidle, hmem.trans htold.mem⟩

theorem updTimeout_free (hup : hubBUp s = true) (hcandidate : s.upd.candidate = none) (hclaim : s.upd.claim = none) :
    exec .updTimeout s = .next s := by
  refine congrArg Host.Outcome.next ((if_neg (by simp [hup])).trans ?_)
  rw [hcandidate, hclaim]

theorem forwardResend_effect (hup : hubBUp s = true) (h : smGet s.upd.forward x none = some (next, sent)) :
    ∃ t, exec (.forwardResend x) s = .next t ∧ t.mem = s.mem ∧
      smGet t.upd.forward x none = some (next, max next (min (sendable s) (next + 64))) := by
  obtain ⟨t, ht, hmem, -, hwindow⟩ := pumpPort_window s x next next
  have hop : resendOp s x = t := by
    rw [resendOp, h]
    dsimp only
    rw [if_pos hup, ht]
  exact ⟨t, congrArg Host.Outcome.next hop, hmem, hwindow⟩

theorem forwardResend_none (h : smGet s.upd.forward x none = none) : exec (.forwardResend x) s = .next s := by
  refine congrArg Host.Outcome.next ?_
  rw [resendOp, h]

theorem armWait_aborts (hup : hubBUp s = true) (hpacer : isPacer s = true) (hunarmed : s.upd.armedAny = false) (hstate : s.upd.state ≠ .armed)
    {r : BitVec 128 × List Byte × Nat} (hr : (s.upd.reports.find? fun r => r.2.2 = rpStaged) = some r) :
    ∃ t, exec .armWait s = .next t ∧ r.2.1 ∈ t.upd.withdrawn ∧ ∀ r' ∈ t.upd.reports, r'.2.1 ≠ r.2.1 := by
  obtain ⟨t, ht, -, hwithdrawn, hreports, -⟩ := abortSet_effect hstate r.2.1
  refine ⟨t, congrArg Host.Outcome.next ((if_pos (by simp [hup, hpacer, hunarmed])).trans ?_), hwithdrawn, hreports⟩
  rw [hr]
  exact ht

theorem armWait_idle (h : isPacer s = false ∨ s.upd.armedAny = true) : exec .armWait s = .next s := by
  refine congrArg Host.Outcome.next (if_neg ?_)
  obtain h | h := h
  · simp [h]
  · simp [h]

end

/-! ### Activation (R427 to R430) -/

section
variable {s t v : State}

theorem activation_idle (h : s.upd.state ≠ .armed ∨ regB s (aPt 0x038) 1 = false) : exec .activation s = .next s := by
  refine congrArg Host.Outcome.next (if_neg ?_)
  obtain h | h := h
  · simp [h]
  · simp [h]

/-- Dispatch stopped for an activation. -/
def dispatchStopped (s : State) (late : Bool) : State :=
  let v := setUpd s { s.upd with activating := true, late }
  if qfOn v then setReg v (aQf 0x010) 0 else v

theorem activate_eq (s : State) (late : Bool) :
    activate s late = (if wheelIdle (dispatchStopped s late) ≠ all32 then dispatchStopped s late
      else if !busFree (dispatchStopped s late) 0 then
        (if (dispatchStopped s late).upd.delayed then dispatchStopped s late
         else updRecord (setUpd (dispatchStopped s late) { (dispatchStopped s late).upd with delayed := true }) 0x0E8
           (heldSet (dispatchStopped s late)).digest [])
      else hubRestart (freeKeys (commitSet (dispatchStopped s late) (spareSlot (dispatchStopped s late))))) := rfl

theorem dispatchStopped_frame (s : State) (late : Bool) :
    dispatchStopped s late = { s with upd := { s.upd with activating := true, late }, regs := (dispatchStopped s late).regs } := by
  unfold dispatchStopped
  dsimp only
  split <;> rfl

theorem reg_dispatchStopped (s : State) (late : Bool) {a : Nat} (ha : a ≠ aQf 0x010) : reg (dispatchStopped s late) a = reg s a := by
  unfold dispatchStopped
  dsimp only
  split
  · exact reg_setReg_other _ ha _
  · rfl

theorem wheelIdle_dispatchStopped (s : State) (late : Bool) : wheelIdle (dispatchStopped s late) = wheelIdle s := by
  rw [dispatchStopped_frame]
  rfl

theorem busFree_dispatchStopped (s : State) (late : Bool) : busFree (dispatchStopped s late) 0 = busFree s 0 := by
  have hne : aPlat 0 0x008 ≠ aQf 0x010 ∧ aPlat 0 0x000 ≠ aQf 0x010 ∧ aPort 0 0x008 ≠ aQf 0x010 := by decide
  obtain ⟨hstatus, hplat, hport⟩ := hne
  have hports : port (dispatchStopped s late) 0 = port s 0 := by rw [dispatchStopped_frame]; rfl
  rw [busFree, released, platStatus, regB_congr (reg_dispatchStopped s late hstatus), regB_congr (reg_dispatchStopped s late hplat),
    regB_congr (reg_dispatchStopped s late hport), hports]
  rfl

section
variable (hup : hubBUp s = true) (harmed : s.upd.state = .armed) (hfired : regB s (aPt 0x038) 1 = true)
include hup harmed hfired

theorem activation_fires : exec .activation s = .next (activate s false) :=
  congrArg Host.Outcome.next (if_pos (by simp [hup, harmed, hfired]))

theorem activation_drains (hbusy : wheelIdle s ≠ all32) : exec .activation s = .next (dispatchStopped s false) := by
  rw [activation_fires hup harmed hfired, activate_eq, wheelIdle_dispatchStopped, if_pos hbusy]

theorem activation_delays (hidle : wheelIdle s = all32) (htaken : busFree s 0 = false) (hdelayed : s.upd.delayed = false) :
    ∃ t, exec .activation s = .next t ∧ t.upd.delayed = true ∧ t.upd.activating = true ∧ t.upd.state = .armed ∧
      t.mem = s.mem ∧ t.flash = s.flash ∧ t.hubs = s.hubs := by
  have hframe := dispatchStopped_frame s false
  have hidle' := (wheelIdle_dispatchStopped s false).trans hidle
  have htaken' := (busFree_dispatchStopped s false).trans htaken
  have hop := activation_fires hup harmed hfired
  rw [activate_eq] at hop
  generalize dispatchStopped s false = v at hop hframe hidle' htaken'
  have hdelayed' : v.upd.delayed = false := by rw [hframe]; exact hdelayed
  rw [if_neg (not_not_intro hidle'), if_pos (by simp [htaken']), if_neg (by simp [hdelayed'])] at hop
  have hnoted := noted_updRecord (setUpd v { v.upd with delayed := true }) 0x0E8 (heldSet v).digest []
  generalize updRecord (setUpd v { v.upd with delayed := true }) 0x0E8 (heldSet v).digest [] = t at hnoted hop
  refine ⟨t, hop, ?_⟩
  have hupd : t.upd = { v.upd with delayed := true } := by rw [hnoted]; rfl
  have hupd' : v.upd = { s.upd with activating := true, late := false } := by rw [hframe]
  have hmem : v.mem = s.mem := by rw [hframe]
  have hflash : v.flash = s.flash := by rw [hframe]
  have hhubs : v.hubs = s.hubs := by rw [hframe]
  rw [hupd, hupd', hnoted]
  exact ⟨rfl, rfl, harmed, hmem, hflash, hhubs⟩

end

/-! #### The restart (R429) -/

/-- Holding the platforms leaves the cores, the boot state and the Hub cores' controls. -/
structure BootKept (s t : State) : Prop where
  boot : t.boot = s.boot
  hubs : t.hubs = s.hubs
  cores : t.cores = s.cores

theorem BootKept.refl (s : State) : BootKept s s := ⟨rfl, rfl, rfl⟩

theorem BootKept.trans (h : BootKept s t) (h' : BootKept t v) : BootKept s v :=
  ⟨h'.boot.trans h.boot, h'.hubs.trans h.hubs, h'.cores.trans h.cores⟩

theorem bootKept_cutTxn (s : State) (p : Nat) : BootKept s (cutTxn s p) := by
  have hrelease (u : State) (t : HostTxn) : BootKept u (releaseBus u p 0 t) := by
    unfold releaseBus
    dsimp only
    split_ifs <;> exact ⟨rfl, rfl, rfl⟩
  unfold cutTxn
  split
  · next t _ =>
    dsimp only
    split
    · exact .trans (t := setPort s p { port s p with txn := none }) ⟨rfl, rfl, rfl⟩ (hrelease _ t)
    · exact ⟨rfl, rfl, rfl⟩
  · exact .refl s

theorem bootKept_settle (s : State) : BootKept s (settle s) := by
  have hdelay (u : State) (p : Nat) : BootKept u (settleDelay u p) := by
    unfold settleDelay
    split
    · exact .refl u
    · exact ⟨rfl, rfl, rfl⟩
  exact (((hdelay s 0).trans (hdelay _ 1)).trans (hdelay _ 2)).trans (hdelay _ 3)

theorem bootKept_portHold (s : State) (p : Nat) : BootKept s (portHold s p) :=
  (bootKept_cutTxn s p).trans ⟨rfl, rfl, rfl⟩

theorem bootKept_holdOp (s : State) (p : Nat) : BootKept s (holdOp s p) := by
  have hwake (u : State) : BootKept u (noteWake u 0 0) := by
    unfold noteWake
    split <;> exact ⟨rfl, rfl, rfl⟩
  have hmarked (v : W32) (k : Platform) : BootKept s (setPlat (setReg s (aPlat p 0x008) v) p k) := ⟨rfl, rfl, rfl⟩
  exact (((hmarked _ _).trans (bootKept_portHold _ p)).trans (bootKept_settle _)).trans (hwake _)

theorem bootKept_holdAll (s : State) : BootKept s (holdAll s) :=
  (((bootKept_holdOp s 0).trans (bootKept_holdOp _ 1)).trans (bootKept_holdOp _ 2)).trans (bootKept_holdOp _ 3)

theorem romStart_effect (s : State) :
    ∃ t, romStart s = t ∧ t.boot = { s.boot with rom := t.boot.rom } ∧ t.hubs = s.hubs ∧ ∀ c, core t c = core s c := by
  refine ⟨_, rfl, ?_⟩
  unfold romStart
  split
  · obtain ⟨hboot, hhubs, hcores⟩ := bootKept_holdAll (setRom s .stopped)
    have hcore (c : Nat) : core (holdAll (setRom s .stopped)) c = core (setRom s .stopped) c := by rw [core, hcores, core]
    rw [hboot, hhubs]
    exact ⟨rfl, rfl, hcore⟩
  · exact ⟨rfl, rfl, fun _ => rfl⟩

/-- Both Hub cores lost what they ran. -/
def hubCoresLost (s : State) : State := [hubA, hubB].foldl (fun s c => coreLost (stopMaster s c) c) s

/-- The privileged registers and the Hub lanes after a reset of the Hub. -/
def hubCleared (s : State) : State :=
  { s with hubs := [], lanes := smDrop s.lanes 64 68,
           boot := { s.boot with fwMeasure := [], measureLock := false, bootInfo := 0, bootGen := 0,
                                 hubBVector := 0, hubBGo := false, fwDone := false } }

theorem hubRestart_eq (s : State) :
    hubRestart s = romStart (modCore (firmwareLost (hubCleared (hubCoresLost s))) hubA fun k => { k with run := .running }) := rfl

theorem hubB_hubCoresLost (s : State) : (core (hubCoresLost s) hubB).run = .reset := by
  have hlost (u : State) : (core (coreLost u hubB) hubB).run = .reset := by
    rw [coreLost, core_modCore_same]
    rfl
  exact hlost _

/-- The Hub after its reset, whatever was lost before. -/
theorem hubRestart_effect (s : State) :
    ∃ t, hubRestart s = t ∧ t.boot.measureLock = false ∧ t.boot.bootInfo = 0 ∧ t.hubs = [] ∧
      (core t hubA).run = .running ∧ (core t hubB).run = .reset := by
  have hlost := hubB_hubCoresLost s
  rw [hubRestart_eq]
  generalize hubCoresLost s = u at hlost
  obtain ⟨t, ht, hboot, hhubs, hcores⟩ := romStart_effect (modCore (firmwareLost (hubCleared u)) hubA fun k => { k with run := .running })
  refine ⟨t, ht, ?_, ?_, hhubs, ?_, ?_⟩
  · rw [hboot]
    rfl
  · rw [hboot]
    rfl
  · rw [hcores, core_modCore_same]
  · rw [hcores, core_modCore_other _ (by decide)]
    exact hlost

theorem activation_restarts (hup : hubBUp s = true) (harmed : s.upd.state = .armed) (hfired : regB s (aPt 0x038) 1 = true)
    (hidle : wheelIdle s = all32) (hfree : busFree s 0 = true) :
    ∃ t, exec .activation s = .next t ∧ t.boot.measureLock = false ∧ t.boot.bootInfo = 0 ∧ t.hubs = [] ∧
      (core t hubA).run = .running ∧ (core t hubB).run = .reset := by
  obtain ⟨t, ht, heffect⟩ := hubRestart_effect (freeKeys (commitSet (dispatchStopped s false) (spareSlot (dispatchStopped s false))))
  refine ⟨t, ?_, heffect⟩
  rw [activation_fires hup harmed hfired, activate_eq, wheelIdle_dispatchStopped, busFree_dispatchStopped, if_neg (not_not_intro hidle),
    if_neg (by simp [hfree]), ht]

end

/-- Settles O52: what each frame of the pacer and of a neighbour leaves, what time brings, and the activation. -/
theorem updatesRunOnTheChain : Obligations.UpdatesRunOnTheChain := by
  unfold Obligations.UpdatesRunOnTheChain
  refine ⟨fun s v x f u => ⟨fun h => ⟨updAnswer_stale h, updAnswer_taken h⟩,
      fun h => ⟨updReport_ignored h, fun hpacer => ⟨updReport_kept h hpacer, updReport_failed h hpacer⟩⟩,
      fun h => ⟨updArm_stranger h, fun hsrc hmember hnew hclaim hset hstaged hlater =>
        updArm_arms h hsrc hmember hnew hclaim hset hstaged hlater⟩,
      fun h => ⟨updAbort_ignored h, updAbort_withdraws h⟩⟩,
    fun s x next sent u r hup => ⟨updTimeout_failsClaim hup, updTimeout_free hup, forwardResend_effect hup, forwardResend_none,
      fun hpacer hunarmed hstate hr => armWait_aborts hup hpacer hunarmed hstate hr, armWait_idle, activation_idle, fun harmed hfired => ⟨activation_drains hup harmed hfired,
        activation_delays hup harmed hfired, activation_restarts hup harmed hfired⟩⟩⟩

end Sys2Proof.Machine
end

section
/-! SUPPORT. Host flash transactions, the audit and sweeps. -/

namespace Sys2Proof.Machine

/-! ### Host transactions (R258 to R270) -/

section
variable {s t u : State} {p bytes n o : Nat} {x : HostTxn} {opcode modeByte : Byte} {addr : W32}

theorem port_setPort (s : State) (p : Nat) (k : Port) : port (setPort s p k) p = k := smGet_smSet_same s.ports p {} k

theorem port_setPort_other (s : State) {p q : Nat} (h : q ≠ p) (k : Port) : port (setPort s p k) q = port s q :=
  smGet_smSet_other s.ports h {} {} k

theorem port_setReg (s : State) (a : Nat) (v : W32) (p : Nat) : port (setReg s a v) p = port s p := rfl

/-- An interrupt moves its core and what the governor is asked. -/
theorem interrupt_frame (s : State) (c v : Nat) :
    interrupt s c v = { s with cores := (interrupt s c v).cores, gov := (interrupt s c v).gov } := by
  have hask (u : State) (work : Work) (n : Nat) (class0 : Bool) : askAdmission u work n class0 =
      { u with cores := (askAdmission u work n class0).cores, gov := (askAdmission u work n class0).gov } := by rw [askAdmission_frame]
  have hreadmit (u : State) : readmit u c = { u with cores := (readmit u c).cores, gov := (readmit u c).gov } := by
    unfold readmit
    split
    · rw [hask]
      rfl
    · rfl
  have hwake (u : State) : wakeCore u c = { u with cores := (wakeCore u c).cores, gov := (wakeCore u c).gov } := by
    unfold wakeCore
    dsimp only
    split
    · split
      · exact hreadmit u
      · rw [hreadmit]
        rfl
      · rfl
    · rfl
  unfold interrupt
  rw [hwake]
  rfl

/-! #### The start -/

section
variable (hon : portOn s p = true) (hreleased : released s p = true) (hfree : (port s p).txn = none)
include hon hreleased hfree

theorem txnStart_open : exec (.hostTransactionStart p) s = .next (
    if (port s p).owner.isSome then
      portRecord (setRegB (setPort s p { port s p with txn := some { kind := 2 } }) (aPort p 0x008) 6 true) p 0x0A2
        (reg s (aPort p (0x044 + 0x20 * (port s p).owner.getD 0))).toNat
    else if (port s p).brake then
      portRecord (setRegB (setPort s p { port s p with txn := some { kind := 1 } }) (aPort p 0x008) 7 true) p 0x0A1 (port s p).brakeAddr
    else emitOut (setPort s p { port s p with txn := some {} }) (.flashSelect p true)) :=
  congrArg Host.Outcome.next (if_neg (by simp [hon, hreleased, hfree]))

theorem txnStart_quietViolation (howner : (port s p).owner = some o) :
    exec (.hostTransactionStart p) s = .next (portRecord
      (setRegB (setPort s p { port s p with txn := some { kind := 2 } }) (aPort p 0x008) 6 true) p 0x0A2
      (reg s (aPort p (0x044 + 0x20 * o))).toNat) := by
  rw [txnStart_open hon hreleased hfree, if_pos (by rw [howner]; rfl)]
  simp only [howner, Option.getD_some]

theorem txnStart_taken (howner : (port s p).owner = none) (hbrake : (port s p).brake = false) :
    exec (.hostTransactionStart p) s = .next (emitOut (setPort s p { port s p with txn := some {} }) (.flashSelect p true)) := by
  rw [txnStart_open hon hreleased hfree, if_neg (by simp [howner]), if_neg (by simp [hbrake])]

theorem txnStart_braked (howner : (port s p).owner = none) (hbrake : (port s p).brake = true) :
    exec (.hostTransactionStart p) s = .next (portRecord
      (setRegB (setPort s p { port s p with txn := some { kind := 1 } }) (aPort p 0x008) 7 true) p 0x0A1 (port s p).brakeAddr) := by
  rw [txnStart_open hon hreleased hfree, if_neg (by simp [howner]), if_pos hbrake]

end

theorem txnStart_held (hheld : released s p = false) : exec (.hostTransactionStart p) s = .next s :=
  congrArg Host.Outcome.next (if_pos (by simp [hheld]))

/-! #### What the end of a transaction does at the port -/

theorem releaseBus_effect (s : State) (p bytes : Nat) (x : HostTxn) :
    ∃ u last, releaseBus s p bytes x = u ∧ u.out = s.out ++ [last] ∧ (isBraked x = false → last = .flashSelect p false) ∧
      u.mem = s.mem ∧ port u p = { port s p with brake := (port s p).brake || isBraked x, brakeAddr := (port u p).brakeAddr } := by
  unfold releaseBus
  by_cases hbraked : isBraked x = true
  · rw [if_pos hbraked]
    refine ⟨_, _, rfl, rfl, fun h => absurd h (by simp [hbraked]), rfl, ?_⟩
    unfold brakeOp bump
    dsimp only
    rw [port_setReg, port_setPort, hbraked, Bool.or_true]
    rfl
  · rw [if_neg hbraked]
    dsimp only
    refine ⟨_, .flashSelect p false, rfl, ?_, fun _ => rfl, ?_, ?_⟩
    · split <;> rfl
    · split <;> rfl
    · rw [Bool.eq_false_iff.mpr hbraked, Bool.or_false]
      split <;> rfl

theorem trackMode_effect (s : State) (p : Nat) (x : HostTxn) :
    ∃ u, trackMode s p x = u ∧ u.out = s.out ∧ u.mem = s.mem ∧ port u p = { port s p with resetArmed := (port u p).resetArmed } := by
  obtain ⟨w, b, hop, hout, hmem, hports⟩ : ∃ w b, trackMode s p x = setPort w p { port w p with resetArmed := b } ∧ w.out = s.out ∧
      w.mem = s.mem ∧ w.ports = s.ports := by
    have hreset (c : Bool) (y : State) : (if c then hostModeReset y p else y).out = y.out ∧
        (if c then hostModeReset y p else y).mem = y.mem ∧ (if c then hostModeReset y p else y).ports = y.ports := by
      cases c <;> exact ⟨rfl, rfl, rfl⟩
    unfold trackMode
    dsimp only
    by_cases hpassed : (x.denied || x.cont) = true
    · rw [if_pos hpassed]
      exact ⟨_, _, rfl, rfl, rfl, rfl⟩
    · rw [if_neg hpassed]
      exact ⟨_, _, rfl, hreset _ _⟩
  refine ⟨_, hop, hout, hmem, ?_⟩
  rw [port_setPort, port, hports, port]

theorem tlogWrite_effect (s : State) (p : Nat) (w0 w1 w2 : W32) :
    ∃ u, tlogWrite s p w0 w1 w2 = u ∧ u.out = s.out ∧ u.mem = s.mem ∧ (port u p).txn = (port s p).txn ∧
      (port u p).brake = (port s p).brake ∧
      ((port s p).tlog.length < 256 → (port u p).tlog.length = (port s p).tlog.length + 1) := by
  unfold tlogWrite
  dsimp only
  split
  · next hfull =>
    refine ⟨_, rfl, ?_, ?_, ?_, ?_, fun hroom => absurd hroom (by omega)⟩
    · rw [bump, setReg_out, setPort_out]
    · rw [bump, setReg_mem, setPort_mem]
    · rw [bump, port_setReg, port_setPort]
    · rw [bump, port_setReg, port_setPort]
  · have hport (w : State) (v : Nat) : port (interrupt w (gkId p) v) p = port w p := by rw [interrupt_frame]; rfl
    refine ⟨_, rfl, ?_, ?_, ?_, ?_, fun _ => ?_⟩
    · rw [interrupt_frame]
      rfl
    · rw [interrupt_frame]
      rfl
    · rw [hport, port_setPort]
    · rw [hport, port_setPort]
    · rw [hport, port_setPort, List.length_append]
      rfl

/-- The end of a decided transaction. -/
theorem txnFinish_effect (s : State) (p bytes : Nat) (x : HostTxn) {passed : Nat} (hpassed : passed = passedBytes s p x bytes) :
    ∃ t last, txnFinish s p bytes x = t ∧ (port t p).txn = none ∧ (port t p).brake = ((port s p).brake || isBraked x) ∧ t.mem = s.mem ∧
      t.out = s.out ++ [if bitOf x.entry 12 then .hostData p false bytes 0 else .hostData p true passed (bytes - passed), last] ∧
      (isBraked x = false → last = .flashSelect p false) ∧ (x.substituted = true → passed = 0) ∧
      (x.logged = true → (port s p).tlog.length < 256 → (port t p).tlog.length = (port s p).tlog.length + 1) ∧
      (x.logged = false → (port t p).tlog = (port s p).tlog) := by
  obtain ⟨o, ho⟩ : ∃ o : Out, o = if dataToHost x then .hostData p true passed (bytes - passed) else .hostData p false bytes 0 := ⟨_, rfl⟩
  have ho' : o = if bitOf x.entry 12 then .hostData p false bytes 0 else .hostData p true passed (bytes - passed) := by
    rw [ho, dataToHost]
    cases bitOf x.entry 12 <;> rfl
  have hclosed : port (emitOut (setPort s p { port s p with txn := none }) o) p = { port s p with txn := none } := port_setPort s p _
  obtain ⟨u, last, hu, hout, hlast, hmem, hport⟩ := releaseBus_effect (emitOut (setPort s p { port s p with txn := none }) o) p bytes x
  obtain ⟨v, hv, hout', hmem', hport'⟩ := trackMode_effect u p x
  rw [hclosed] at hport
  have hsubst (h : x.substituted = true) : passed = 0 := by rw [hpassed, passedBytes, if_pos h]
  have houts : v.out = s.out ++ [o, last] := by
    rw [hout', hout]
    exact List.append_assoc s.out [o] [last]
  rw [← ho']
  have hop : txnFinish s p bytes x = if x.logged then tlogWrite v p (logWord x (bytes ≠ 0 && dataToHost x && passed ≠ bytes))
      (w32 x.addr) (logEpoch v p bytes) else v := by
    unfold txnFinish
    dsimp only
    rw [← hpassed, ← ho, hu, hv]
  by_cases hlogged : x.logged = true
  · obtain ⟨t, ht, htout, htmem, htxn, hbrake, hlen⟩ := tlogWrite_effect v p (logWord x (bytes ≠ 0 && dataToHost x && passed ≠ bytes))
      (w32 x.addr) (logEpoch v p bytes)
    refine ⟨t, last, (hop.trans (if_pos hlogged)).trans ht, ?_, ?_, htmem.trans (hmem'.trans hmem), htout.trans houts, hlast, hsubst,
      fun _ hroom => ?_, fun h => absurd h (by simp [hlogged])⟩
    · rw [htxn, hport', hport]
    · rw [hbrake, hport', hport]
    · rw [hport', hport] at hlen
      exact hlen hroom
  · refine ⟨v, last, hop.trans (if_neg hlogged), ?_, ?_, hmem'.trans hmem, houts, hlast, hsubst, fun h => absurd h hlogged, fun _ => ?_⟩
    · rw [hport', hport]
    · rw [hport', hport]
    · rw [hport', hport]

/-- A discarded transaction ends (R270, R277). -/
theorem discardFinish_effect (s : State) (p bytes : Nat) (x : HostTxn) :
    ∃ t, discardFinish s p bytes x = t ∧ (port t p).txn = none ∧ t.mem = s.mem ∧ t.out = s.out ++ [.hostData p true 0 bytes] ∧
      (port t p).brake = (port s p).brake := by
  have hclosed : port (emitOut (setPort s p { port s p with txn := none }) (.hostData p true 0 bytes)) p = { port s p with txn := none } :=
    port_setPort s p _
  generalize hu : emitOut (setPort s p { port s p with txn := none }) (.hostData p true 0 bytes) = u at hclosed
  have huout : u.out = s.out ++ [.hostData p true 0 bytes] := hu ▸ rfl
  have humem : u.mem = s.mem := hu ▸ rfl
  obtain ⟨t, ht, hout, hmem, htxn, hbrake, -⟩ := tlogWrite_effect u p (w32 (b2n (bytes ≠ 0) <<< 18 + x.kind <<< 15 + 127 <<< 8)) 0
    (logEpoch u p bytes)
  rw [hclosed] at htxn hbrake
  refine ⟨t, ?_, htxn, hmem.trans humem, hout.trans huout, hbrake⟩
  rw [discardFinish, hu]
  exact ht

section
variable (htxn : (port s p).txn = some x) (hended : x.ended = none)
include htxn hended

theorem txnEnd_of_open : exec (.hostTransactionEnd p bytes) s = .next (
    if x.kind ≠ 0 then discardFinish s p bytes x
    else if !x.decided then setPort s p { port s p with txn := some { x with ended := some bytes } }
    else txnFinish s p bytes x) := by
  refine congrArg Host.Outcome.next ?_
  rw [txnEndOp, htxn]
  exact if_neg (by simp [hended])

theorem txnEnd_waits (hkind : x.kind = 0) (hdecided : x.decided = false) :
    exec (.hostTransactionEnd p bytes) s = .next (setPort s p { port s p with txn := some { x with ended := some bytes } }) := by
  rw [txnEnd_of_open htxn hended, if_neg (not_not_intro hkind), if_pos (by simp [hdecided])]

theorem txnEnd_discarded (hkind : x.kind ≠ 0) :
    ∃ t, exec (.hostTransactionEnd p bytes) s = .next t ∧ (port t p).txn = none ∧ t.mem = s.mem ∧
      t.out = s.out ++ [.hostData p true 0 bytes] ∧ (port t p).brake = (port s p).brake := by
  obtain ⟨t, ht, heffect⟩ := discardFinish_effect s p bytes x
  refine ⟨t, ?_, heffect⟩
  rw [txnEnd_of_open htxn hended, if_pos hkind, ht]

theorem txnEnd_finishes (hkind : x.kind = 0) (hdecided : x.decided = true) {passed : Nat} (hpassed : passed = passedBytes s p x bytes) :
    ∃ t last, exec (.hostTransactionEnd p bytes) s = .next t ∧ (port t p).txn = none ∧
      (port t p).brake = ((port s p).brake || isBraked x) ∧ t.mem = s.mem ∧
      t.out = s.out ++ [if bitOf x.entry 12 then .hostData p false bytes 0 else .hostData p true passed (bytes - passed), last] ∧
      (isBraked x = false → last = .flashSelect p false) ∧ (x.substituted = true → passed = 0) ∧
      (x.logged = true → (port s p).tlog.length < 256 → (port t p).tlog.length = (port s p).tlog.length + 1) ∧
      (x.logged = false → (port t p).tlog = (port s p).tlog) := by
  obtain ⟨t, last, ht, heffect⟩ := txnFinish_effect s p bytes x hpassed
  refine ⟨t, last, ?_, heffect⟩
  rw [txnEnd_of_open htxn hended, if_neg (not_not_intro hkind), if_neg (by simp [hdecided]), ht]

end

/-! #### The decision (R264, R286, R288, R296) -/

/-- The state that holds a decision: the transaction as decided, a denied read counted. -/
def decided (s : State) (p : Nat) (y : HostTxn) : State :=
  if y.denied && eClass y.entry = clsRead then bump (setPort s p { port s p with txn := some y }) (aPort p 0x0C0)
  else setPort s p { port s p with txn := some y }

theorem decided_frame (s : State) (p : Nat) (y : HostTxn) :
    decided s p y = { s with ports := (decided s p y).ports, regs := (decided s p y).regs } ∧
      (port (decided s p y) p).txn = some y := by
  unfold decided
  split
  · refine ⟨rfl, ?_⟩
    rw [bump, port_setReg, port_setPort]
  · refine ⟨rfl, ?_⟩
    rw [port_setPort]

section
variable (hon : portOn s p = true) (htxn : (port s p).txn = some x) (hkind : x.kind = 0) (hdecided : x.decided = false)
include hon htxn hkind hdecided

theorem hostDecision_decides : exec (.hostDecision p opcode addr modeByte false) s = .next (match x.ended with
    | some bytes => txnFinish (decided s p (txnDecided s p opcode.toNat addr.toNat modeByte false x)) p bytes
        (txnDecided s p opcode.toNat addr.toNat modeByte false x)
    | none => decided s p (txnDecided s p opcode.toNat addr.toNat modeByte false x)) := by
  refine congrArg Host.Outcome.next ?_
  rw [txnDecideOp, htxn]
  exact if_neg (by simp [hkind, hdecided, hon])

theorem hostDecision_ends (hended : x.ended = some bytes) :
    ∃ t, exec (.hostDecision p opcode addr modeByte false) s = .next t ∧ (port t p).txn = none ∧ t.mem = s.mem := by
  obtain ⟨hframe, -⟩ := decided_frame s p (txnDecided s p opcode.toNat addr.toNat modeByte false x)
  obtain ⟨t, last, ht, hclosed, -, hmem, -⟩ := txnFinish_effect (decided s p (txnDecided s p opcode.toNat addr.toNat modeByte false x)) p
    bytes (txnDecided s p opcode.toNat addr.toNat modeByte false x) rfl
  refine ⟨t, ?_, hclosed, hmem.trans (by rw [hframe])⟩
  rw [hostDecision_decides hon htxn hkind hdecided, hended]
  exact congrArg Host.Outcome.next ht

theorem hostDecision_stands (hended : x.ended = none) (hcont : contRead s p = false) {b : Nat} (hb : b = activeBank s p) {e : W32}
    (he : e = entryActs (reg s (opAddr p b opcode.toNat))) :
    ∃ t y, exec (.hostDecision p opcode addr modeByte false) s = .next t ∧ t = { s with ports := t.ports, regs := t.regs } ∧
      (port t p).txn = some y ∧ y.decided = true ∧ y.opcode = opcode.toNat ∧
      (staticNow s p = false → y.entry = e ∧ y.addr = wrapAddr s p e addr.toNat ∧
        y.denied = (decideBank s p b e (wrapAddr s p e addr.toNat)).denied) ∧
      (staticNow s p = true → y.entry = opDefault opcode.toNat ∧ y.denied = (decideStatic (opDefault opcode.toNat)).denied) := by
  obtain ⟨hframe, htxn'⟩ := decided_frame s p (txnDecided s p opcode.toNat addr.toNat modeByte false x)
  refine ⟨_, txnDecided s p opcode.toNat addr.toNat modeByte false x, ?_, hframe, htxn', rfl, ?_, fun hst => ?_, fun hst => ?_⟩
  · rw [hostDecision_decides hon htxn hkind hdecided, hended]
  · exact if_neg (Bool.eq_false_iff.mp hcont)
  · simp only [txnDecided, hcont, hst, Bool.false_eq_true, if_false, ← hb, ← he, and_self]
  · simp only [txnDecided, hcont, hst, Bool.false_eq_true, if_false, if_true, and_self]

end

end

/-! ### The boot fetch audit and sweeps (R254 to R256, R278 to R280) -/

section
variable {s t u : State} {p i n a : Nat} {addr : W32} {data entry digest : List Byte}

/-! #### What a DMA read leaves of the registers -/

/-- A register that no DMA read touches: no counter of records, no bank's status. -/
def OffDma (a : Nat) : Prop := ¬ RecordReg a ∧ ∀ b < 192, a ≠ statusAddr b

theorem reg_dmaTouch (s : State) (x : Nat) (ha : OffDma a) : reg (dmaTouch s x) a = reg s a := by
  unfold dmaTouch
  split
  · next b hb =>
    have hsettle : reg (settleBank s b) a = reg s a := by
      unfold settleBank bankWipeDoneOp
      split
      · exact reg_setRegB_other _ (ha.2 b (bank_lt hb)) _
      · rfl
    exact hsettle
  · rfl

theorem reg_dmaReadPart (s : State) (unit x n : Nat) (ha : OffDma a) : reg (dmaReadPart s unit x n).2 a = reg s a := by
  unfold dmaReadPart
  split
  · exact reg_dmaTouch s x ha
  · exact reg_emit s _ _ _ _ ha.1

theorem reg_dmaRead (s : State) (unit m x n : Nat) (ha : OffDma a) : reg (dmaRead s unit m x n).2.1 a = reg s a := by
  have hparts (l : List (Nat × Nat)) (r : List Byte × State) :
      reg (l.foldl (fun (r : List Byte × State) e => (r.1 ++ (dmaReadPart r.2 unit e.1 e.2).1, (dmaReadPart r.2 unit e.1 e.2).2)) r).2 a =
        reg r.2 a := by
    induction l generalizing r with
    | nil => rfl
    | cons e l ih => rw [List.foldl_cons, ih, reg_dmaReadPart _ _ _ _ ha]
  unfold dmaRead
  dsimp only
  split
  · exact hparts _ _
  · exact hparts _ _

theorem offDma_aPlat (hp : p < 4) {off : Nat} (hoff : off < 0x1000) : OffDma (aPlat p off) := by
  refine ⟨?_, fun b hb => ?_⟩
  · simp only [RecordReg, aPlat, aFs, aHost]
    omega
  · unfold statusAddr
    split
    · simp only [aPlat, aFw]
      omega
    · simp only [aPlat, aWheel]
      omega

theorem port_lt_of_on (hon : portOn s p = true) : p < 4 := by
  simp only [portOn, Bool.and_eq_true, decide_eq_true_eq] at hon
  exact hon.1

theorem auditEntry_arrived (h : auditEntry s p i = (some entry, u)) :
    u = (dmaRead s (gkId p) (gkId p) (auditEntryAddr s p i) 32).2.1 :=
  (congrArg Prod.snd h).symm

/-! #### Holding a platform (R250, R256) -/

theorem aPlat_ne_aPort (hp : p < 4) {q off off' : Nat} (hoff : off < 0x1000) : aPlat p off ≠ aPort q off' := by
  simp only [aPlat, aPort]
  omega

theorem reg_cutTxn (s : State) (p : Nat) (ha : a ≠ aPort p 0x0C4) : reg (cutTxn s p) a = reg s a := by
  have hrelease (u : State) (x : HostTxn) : reg (releaseBus u p 0 x) a = reg u a := by
    unfold releaseBus
    dsimp only
    split_ifs
    · exact reg_setReg_other _ ha _
    · rfl
    · rfl
  unfold cutTxn
  split
  · dsimp only
    split
    · exact hrelease _ _
    · rfl
  · rfl

theorem reg_settle (s : State) (a : Nat) : reg (settle s) a = reg s a := by
  have hdelay (u : State) (q : Nat) : reg (settleDelay u q) a = reg u a := by
    unfold settleDelay
    split <;> rfl
  exact (((hdelay _ 3).trans (hdelay _ 2)).trans (hdelay _ 1)).trans (hdelay s 0)

theorem reg_portHold (s : State) (p : Nat) (ha : a ≠ aPort p 0x0C4) (ha' : a ≠ aPort p 0x00C) : reg (portHold s p) a = reg s a :=
  (reg_setReg_other (cutTxn s p) ha' _).trans (reg_cutTxn s p ha)

/-- The status of a platform after a hold. -/
theorem reg_holdOp (s : State) (hp : p < 4) :
    reg (holdOp s p) (aPlat p 0x008) = setFld (setFld (setFld (reg s (aPlat p 0x008)) 0 2 0) 8 1 0) 24 8 (epoch s p + 1) := by
  have hwake (u : State) : reg (noteWake u 0 0) (aPlat p 0x008) = reg u (aPlat p 0x008) := by
    unfold noteWake
    split <;> rfl
  have hmarked (u : State) (v : W32) (k : Platform) : reg (setPlat (setReg u (aPlat p 0x008) v) p k) (aPlat p 0x008) = v :=
    reg_setReg_same u _ v
  unfold holdOp
  dsimp only
  rw [hwake, reg_settle, reg_portHold _ _ (aPlat_ne_aPort hp (by decide)) (aPlat_ne_aPort hp (by decide)), hmarked]

theorem holdOp_effect (s : State) (hp : p < 4) :
    released (holdOp s p) p = false ∧ platStatus (holdOp s p) p 10 = platStatus s p 10 ∧
      epoch (holdOp s p) p = (epoch s p + 1) % 256 := by
  refine ⟨?_, ?_, ?_⟩
  · rw [released, platStatus, regB, reg_holdOp s hp, bitOf_setFld_other _ _ (by omega), bitOf_setFld_same _ (by omega)]
    rfl
  · rw [platStatus, regB, reg_holdOp s hp, bitOf_setFld_other _ _ (by omega), bitOf_setFld_other _ _ (by omega),
      bitOf_setFld_other _ _ (by omega)]
    rfl
  · rw [epoch, regF, reg_holdOp s hp, fld_setFld_same _ _ (by omega)]
    rfl

/-! #### The audit (R254 to R256) -/

/-- The platform is held after a mismatch, with its mark and a new epoch. -/
def Mismatched (s t : State) (p : Nat) : Prop :=
  released t p = false ∧ platStatus t p 10 = true ∧ epoch t p = (epoch s p + 1) % 256

theorem auditMismatch_effect (s : State) (hp : p < 4) (a : Nat) : Mismatched s (auditMismatch s p a) p := by
  have hrecord : reg (portRecord s p 0x0A5 a) (aPlat p 0x008) = reg s (aPlat p 0x008) :=
    reg_emit s _ _ _ _ (offDma_aPlat hp (by decide)).1
  obtain ⟨hheld, hmark, hepoch⟩ := holdOp_effect (setPlatStatus (portRecord s p 0x0A5 a) p 10 true) hp
  have hepoch' : epoch (setPlatStatus (portRecord s p 0x0A5 a) p 10 true) p = epoch s p := by
    rw [epoch, setPlatStatus, setRegB, regF_setRegF_other _ _ _ (by omega)]
    exact congrArg (fld · 24 8) hrecord
  refine ⟨hheld, hmark.trans (regB_setRegB_same _ _ _ (by omega)), ?_⟩
  rw [auditMismatch, hepoch, hepoch']

theorem auditCompare_of_entry (hindex : auditIndex s p a = some i) (hentry : auditEntry s p i = (some entry, u)) :
    auditCompare s p a digest = if entry = digest then u else auditMismatch u p a := by
  rw [auditCompare]
  split
  · next j hj =>
    obtain rfl : i = j := Option.some.inj (hindex.symm.trans hj)
    rw [hentry]
  · next hnone => exact absurd (hnone.symm.trans hindex) (by simp)

theorem auditCompare_match (hindex : auditIndex s p a = some i) (hentry : auditEntry s p i = (some entry, u)) (h : entry = digest) :
    auditCompare s p a digest = u := (auditCompare_of_entry hindex hentry).trans (if_pos h)

theorem auditCompare_mismatch (hp : p < 4) (hindex : auditIndex s p a = some i) (hentry : auditEntry s p i = (some entry, u))
    (h : entry ≠ digest) : Mismatched s (auditCompare s p a digest) p := by
  have hop : auditCompare s p a digest = auditMismatch u p a := (auditCompare_of_entry hindex hentry).trans (if_neg h)
  have hepoch : epoch u p = epoch s p := by
    rw [auditEntry_arrived hentry]
    exact congrArg (fld · 24 8) (reg_dmaRead s _ _ _ _ (offDma_aPlat hp (by decide)))
  obtain ⟨hheld, hmark, hnext⟩ := auditMismatch_effect u hp a
  rw [hop]
  exact ⟨hheld, hmark, by rw [hnext, hepoch]⟩

section
variable (hon : portOn s p = true) (hlen : data.length = 4096) (hreleased : released s p = true) (harmed : platStatus s p 9 = true)
  (hindex : auditIndex s p addr.toNat = some i) (hdelivers : deliversBlock s p addr.toNat = true)
include hon hlen hreleased harmed hindex hdelivers

theorem auditBlock_taken (entryHere : Bool) :
    exec (.auditBlock p addr data entryHere) s = .next (if entryHere then auditCompare s p addr.toNat (sha256 data)
      else setPort s p { port s p with pendingAudits := (port s p).pendingAudits ++ [(addr.toNat, sha256 data)] }) :=
  congrArg Host.Outcome.next (if_pos (by simp [hon, hreleased, harmed, hindex, hlen, hdelivers]))

theorem auditBlock_matches (hentry : auditEntry s p i = (some entry, u)) (h : entry = sha256 data) :
    exec (.auditBlock p addr data true) s = .next u := by
  rw [auditBlock_taken hon hlen hreleased harmed hindex hdelivers, if_pos rfl, auditCompare_match hindex hentry h]

theorem auditBlock_mismatches (hentry : auditEntry s p i = (some entry, u)) (h : entry ≠ sha256 data) :
    ∃ t, exec (.auditBlock p addr data true) s = .next t ∧ Mismatched s t p := by
  refine ⟨_, ?_, auditCompare_mismatch (port_lt_of_on hon) hindex hentry h⟩
  rw [auditBlock_taken hon hlen hreleased harmed hindex hdelivers, if_pos rfl]

end

theorem auditArrival_compares {rest : List (Nat × List Byte)} (hpending : (port s p).pendingAudits = (a, digest) :: rest) :
    exec (.auditEntryArrival p) s = .next (auditCompare (setPort s p { port s p with pendingAudits := rest }) p a digest) := by
  refine congrArg Host.Outcome.next ?_
  rw [auditArrivalOp, hpending]

section
variable {rest : List (Nat × List Byte)} (hpending : (port s p).pendingAudits = (a, digest) :: rest) (hindex : auditIndex s p a = some i)
  (hentry : auditEntry (setPort s p { port s p with pendingAudits := rest }) p i = (some entry, u))
include hpending hindex hentry

theorem auditArrival_matches (h : entry = digest) : exec (.auditEntryArrival p) s = .next u := by
  rw [auditArrival_compares hpending, auditCompare_match (s := setPort s p { port s p with pendingAudits := rest }) hindex hentry h]

theorem auditArrival_mismatches (hp : p < 4) (h : entry ≠ digest) : ∃ t, exec (.auditEntryArrival p) s = .next t ∧ Mismatched s t p :=
  ⟨_, auditArrival_compares hpending,
    auditCompare_mismatch (s := setPort s p { port s p with pendingAudits := rest }) hp hindex hentry h⟩

end

/-! #### Sweeps (R279, R280) -/

theorem sweepCompare_of_entry (hentry : auditEntry s p i = (some entry, u)) :
    sweepCompare s p i a data =
      if entry = sha256 data then u else portRecord (setRegB u (aPort p 0x008) 5 true) p 0x0A3 a := by
  rw [sweepCompare, hentry]

theorem sweepCompare_effect (s : State) (hp : p < 4) (a : Nat) (hentry : auditEntry s p i = (some entry, u)) :
    ∃ t, sweepCompare s p i a data = t ∧ t = { u with regs := t.regs, fs := t.fs } ∧ (entry = sha256 data → t = u) ∧
      (entry ≠ sha256 data → regB t (aPort p 0x008) 5 = true ∧ released t p = released u p) := by
  by_cases h : entry = sha256 data
  · exact ⟨u, (sweepCompare_of_entry hentry).trans (if_pos h), rfl, fun _ => rfl, fun hno => absurd h hno⟩
  · have hrecorded := logged_emit (setRegB u (aPort p 0x008) 5 true) (islPort p) (0x438 + p) [w32 p, w32 a,
      w32 (epoch (setRegB u (aPort p 0x008) 5 true) p)] (show 0x0A3 ∉ diagTypes by decide)
    refine ⟨portRecord (setRegB u (aPort p 0x008) 5 true) p 0x0A3 a, (sweepCompare_of_entry hentry).trans (if_neg h),
      hrecorded.frame, fun hyes => absurd hyes h, fun _ => ⟨?_, ?_⟩⟩
    · rw [portRecord, regB_congr (hrecorded.regs _ (by simp only [aPort, aFs]; omega) (by simp only [aPort, aFs]; omega))]
      exact regB_setRegB_same _ _ _ (by omega)
    · rw [portRecord, released, platStatus, regB_congr (hrecorded.regs _ (by simp only [aPlat, aFs]; omega) (by simp only [aPlat, aFs]; omega))]
      exact regB_congr (reg_setRegB_other _ (aPlat_ne_aPort hp (by decide)) _) 8

theorem sweepBlock_effect (hon : portOn s p = true) (hlen : data.length = 4096) {n pos : Nat} (hn : n = min 32768 (reg s (aPort p 0x0AC)).toNat)
    (hpos : pos = (reg s (aPort p 0x084)).toNat % n) {cmd : FlashCmd}
    (hcmd : cmd = sweepCmd s p ((reg s (aPort p 0x0A8)).toNat + 4096 * pos)) (hstarted : regB s (aPort p 0x080) 8 = true)
    (hfree : busFree s p = true) (h0 : ownBusy s p 0 = false) (h1 : ownBusy s p 1 = false) (hsome : 0 < n) (hpower : powerTarget s < 2)
    (hmay : sweepMay s p (readTime cmd) = true)
    (hentry : auditEntry (emitOut (sweepCharge s p (readTime cmd)) (.flash cmd)) p pos = (some entry, u)) :
    ∃ t, exec (.sweepBlock p data) s = .next t ∧ t = { u with regs := t.regs, fs := t.fs } ∧
      (reg t (aPort p 0x084)).toNat = (pos + 1) % n ∧
      (entry = sha256 data → t.fs = u.fs ∧ reg t (aPort p 0x008) = reg u (aPort p 0x008)) ∧
      (entry ≠ sha256 data → regB t (aPort p 0x008) 5 = true ∧ released t p = released u p) := by
  have hp := port_lt_of_on hon
  obtain ⟨v, hv, hframe, hsame, hbad⟩ := sweepCompare_effect (data := data) (emitOut (sweepCharge s p (readTime cmd)) (.flash cmd)) hp
    ((reg s (aPort p 0x0A8)).toNat + 4096 * pos) hentry
  have hop : sweepBlockOp s p data = if pos + 1 = n then bump (setReg v (aPort p 0x084) (w32 ((pos + 1) % n))) (aPort p 0x088)
      else setReg v (aPort p 0x084) (w32 ((pos + 1) % n)) := by
    unfold sweepBlockOp
    dsimp only
    rw [← hn, ← hpos, ← hcmd, if_pos (by simp [hon, hstarted, hfree, h0, h1, Nat.pos_iff_ne_zero.mp hsome, hlen, hpower, hmay]), hv]
  have hregs (a : Nat) (hne : a ≠ aPort p 0x084) (hne' : a ≠ aPort p 0x088) : reg (sweepBlockOp s p data) a = reg v a := by
    rw [hop]
    split
    · rw [bump, reg_setReg_other _ hne', reg_setReg_other _ hne]
    · exact reg_setReg_other _ hne _
  refine ⟨_, rfl, ?_, ?_, fun h => ?_, fun h => ?_⟩
  · have hset {v : State} (hv : v = { u with regs := v.regs, fs := v.fs }) (w : W32) (a : Nat) :
        setReg v a w = { u with regs := (setReg v a w).regs, fs := (setReg v a w).fs } := by rw [setReg, hv]
    rw [hop]
    split
    · exact hset (hset hframe _ _) _ _
    · exact hset hframe _ _
  · have hbound : (pos + 1) % n < 4294967296 := (Nat.mod_lt _ hsome).trans_le (by omega)
    rw [hop]
    split
    · rw [bump, reg_setReg_other _ (by simp only [aPort]; omega), reg_setReg_same, toNat_w32 hbound]
    · rw [reg_setReg_same, toNat_w32 hbound]
  · rw [hregs _ (by simp only [aPort]; omega) (by simp only [aPort]; omega), hsame h]
    refine ⟨?_, rfl⟩
    rw [hop, hsame h]
    split <;> rfl
  · obtain ⟨hmark, hreleased⟩ := hbad h
    rw [regB_congr (hregs _ (by simp only [aPort]; omega) (by simp only [aPort]; omega))]
    refine ⟨hmark, Eq.trans ?_ hreleased⟩
    exact regB_congr (hregs _ (aPlat_ne_aPort hp (by decide)) (aPlat_ne_aPort hp (by decide))) 8

end

/-- Settles O39: a transaction's start, decision and end; audited blocks and swept ones. -/
theorem hostTransactionsAreDecidedAndAudited : Obligations.HostTransactionsAreDecidedAndAudited := by
  unfold Obligations.HostTransactionsAreDecidedAndAudited
  refine ⟨fun s p bytes opcode modeByte addr x hon => ⟨fun hreleased hfree => ⟨fun o => txnStart_quietViolation hon hreleased hfree,
        txnStart_taken hon hreleased hfree, txnStart_braked hon hreleased hfree⟩, txnStart_held,
      hostDecision_ends hon, fun htxn hkind hdecided hended hcont => hostDecision_stands hon htxn hkind hdecided hended hcont rfl rfl,
      fun htxn hended => ⟨txnEnd_waits htxn hended, txnEnd_discarded htxn hended, fun hkind hdecided =>
        txnEnd_finishes htxn hended hkind hdecided rfl⟩⟩,
    fun s u p i addr data entry hon hlen => ⟨fun hreleased harmed hindex hdelivers => ⟨fun hentry =>
        ⟨auditBlock_matches hon hlen hreleased harmed hindex hdelivers hentry,
          auditBlock_mismatches hon hlen hreleased harmed hindex hdelivers hentry⟩,
        auditBlock_taken hon hlen hreleased harmed hindex hdelivers false⟩,
      fun rest hpending hindex hentry => ⟨auditArrival_matches hpending hindex hentry,
        auditArrival_mismatches hpending hindex hentry (port_lt_of_on hon)⟩,
      fun hstarted hfree h0 h1 hsome hpower hmay hentry =>
        sweepBlock_effect hon hlen rfl rfl rfl hstarted hfree h0 h1 hsome hpower hmay hentry⟩⟩

end Sys2Proof.Machine
end

section
/-! SUPPORT. Rule tables and gatekeepers. -/

namespace Sys2Proof.Machine

/-! ### Writes of a port's block (R281, R293, R306) -/

section
variable {s t u : State} {p m off a image : Nat} {v : W32}

theorem portCmd_granted (hon : portOn s p = true) (hmay : portMayWrite m p off = true) (v : W32) :
    portCmd s m p off v = portWriteOp s m p off v := by
  rw [portCmd, if_pos (port_lt_of_on hon), portWrite, guarded, if_pos hon, granted, if_pos hmay]

theorem portWriteOp_swap (s : State) (m p : Nat) :
    portWriteOp s m p 0x3008 1 = if m ≠ tableOwner s p then writeIgnored s p else swapOp s m p := rfl

theorem portWriteOp_copyActive (s : State) (m p : Nat) :
    portWriteOp s m p 0x3008 2 = if m ≠ tableOwner s p then writeIgnored s p else copyActiveOp s m p := rfl

theorem portWriteOp_gkReset (s : State) (m p : Nat) : portWriteOp s m p 0x320C 1 = gkResetOp s p := rfl

theorem portWriteOp_mailIn (s : State) (m p : Nat) (v : W32) :
    portWriteOp s m p 0x3224 v = if isHub m then mailInOp s p v else s := rfl

theorem portWriteOp_mailOut (s : State) (m p : Nat) (v : W32) :
    portWriteOp s m p 0x322C v = if m = gkId p then mailOutOp s p v else s := rfl

theorem portWriteOp_inTaken (s : State) (p : Nat) : portWriteOp s (gkId p) p 0x3230 1 = inTakenOp s p := by
  have hop : portWriteOp s (gkId p) p 0x3230 1 =
      if gkId p = gkId p then inTakenOp s p else plainWrite s (aPort p 0x3230) 1 := rfl
  rw [hop, if_pos rfl]

theorem tableOwner_mayWrite (s : State) (p : Nat) : portMayWrite (tableOwner s p) p 0x3008 = true := by
  unfold tableOwner
  split <;> simp [portMayWrite]

theorem swap_owner (hon : portOn s p = true) :
    exec (.swap (tableOwner s p) p) s = .next (setRegB s (aPort p 0x3004) 1 true) := by
  refine congrArg Host.Outcome.next ((portCmd_granted hon (tableOwner_mayWrite s p) 1).trans ?_)
  rw [portWriteOp_swap, if_neg (not_not_intro rfl), swapOp, if_neg (not_not_intro rfl)]

theorem copyActive_owner (hon : portOn s p = true) :
    exec (.copyActive (tableOwner s p) p) s = .next (setRegB s (aPort p 0x3004) 2 true) := by
  refine congrArg Host.Outcome.next ((portCmd_granted hon (tableOwner_mayWrite s p) 2).trans ?_)
  rw [portWriteOp_copyActive, if_neg (not_not_intro rfl), copyActiveOp, if_neg (not_not_intro rfl)]

theorem tableControl_ignored (hon : portOn s p = true) (hm : m ≠ tableOwner s p) (hmay : portMayWrite m p 0x3008 = true) :
    exec (.swap m p) s = .next (writeIgnored s p) ∧ exec (.copyActive m p) s = .next (writeIgnored s p) := by
  constructor
  · refine congrArg Host.Outcome.next ((portCmd_granted hon hmay 1).trans ?_)
    rw [portWriteOp_swap, if_pos hm]
  · refine congrArg Host.Outcome.next ((portCmd_granted hon hmay 2).trans ?_)
    rw [portWriteOp_copyActive, if_pos hm]

/-! ### What stops a gatekeeper, and when its program is ready (R302 to R304) -/

theorem coreStopped_of_core {c : Nat} (h : core t c = core s c) : coreStopped t c = coreStopped s c := by
  rw [coreStopped, h, coreStopped]

theorem coreStopped_modCore (s : State) (c : Nat) {f : Core → Core} (hrun : (f (core s c)).run = (core s c).run)
    (hfrozen : (f (core s c)).frozen = (core s c).frozen) (d : Nat) : coreStopped (modCore s c f) d = coreStopped s d := by
  by_cases hd : d = c
  · subst hd
    rw [coreStopped, core_modCore_same, hrun, hfrozen, coreStopped]
  · exact coreStopped_of_core (core_modCore_other _ hd _)

theorem coreStopped_readmit (s : State) (c : Nat) (hreset : (core s c).run ≠ .reset) (hhalted : (core s c).run ≠ .halted) (d : Nat) :
    coreStopped (readmit s c) d = coreStopped s d := by
  have hwaits {r : RunState} (hr : r ≠ .reset) (hr' : r ≠ .halted) :
      coreStopped (modCore s c fun k => { k with run := r }) d = coreStopped s d := by
    by_cases hd : d = c
    · subst hd
      rw [coreStopped, core_modCore_same, coreStopped]
      simp [hr, hr', hreset, hhalted]
    · exact coreStopped_of_core (core_modCore_other _ hd _)
  unfold readmit
  split
  · exact (coreStopped_of_core (core_askAdmission _ _ _ _ _)).trans (hwaits (by decide) (by decide))
  · exact hwaits (by decide) (by decide)

theorem coreStopped_wr (s : State) (c r : Nat) (v : W64) (d : Nat) : coreStopped (wr s c r v) d = coreStopped s d :=
  coreStopped_modCore s c (by rw [setR_keeps]) (by rw [setR_keeps]) d

theorem coreStopped_interrupt (s : State) (c v d : Nat) : coreStopped (interrupt s c v) d = coreStopped s d := by
  have hraise : coreStopped (raiseInt s c v) d = coreStopped s d := coreStopped_modCore s c rfl rfl d
  rw [← hraise, interrupt]
  generalize raiseInt s c v = u
  unfold wakeCore
  dsimp only
  split
  · split
    · next hwait => exact coreStopped_readmit u c (by rw [hwait]; decide) (by rw [hwait]; decide) d
    · next r hwait =>
      have hrun : (core (wr u c r 0) c).run = (core u c).run := by
        rw [wr, core_modCore_same, setR_keeps]
      exact (coreStopped_readmit _ c (by rw [hrun, hwait]; simp) (by rw [hrun, hwait]; simp) d).trans (coreStopped_wr u c r 0 d)
    · rfl
  · rfl

theorem OnlyRegs.port (h : OnlyRegs s t) (p : Nat) : port t p = port s p := by
  rw [h.rest]
  rfl

theorem portOn_eq (s : State) (p : Nat) : portOn s p = (decide (p < 4) && decide (domState s (18 + p) = .on)) := by
  rw [portOn, domOn, decide_eq_false (by omega : ¬ 18 + p < 16)]
  simp

theorem gkRuns_of_frame (h : t = { s with regs := t.regs, ports := t.ports, cores := t.cores, gov := t.gov, out := t.out })
    (hstopped : coreStopped t (gkId p) = coreStopped s (gkId p)) : gkRuns t p = gkRuns s p := by
  have hdom : domState t (18 + p) = domState s (18 + p) := by
    rw [h]
    rfl
  have hon : portOn t p = portOn s p := by rw [portOn_eq, hdom, portOn_eq]
  rw [gkRuns, hon, hstopped, gkRuns]

theorem gkShipped_of_scratch (h : (port t p).scratch = (port s p).scratch) : gkShipped t p = gkShipped s p := by
  rw [gkShipped, h, gkShipped]

theorem gkReady_iff : gkReady s p = true ↔ gkRuns s p = true ∧ gkShipped s p = true ∧ (port s p).gk.waiting = false := by
  simp [gkReady, and_assoc]

/-! ### The program's turns (R304) -/

theorem gkNext_notReady (h : gkReady s p = false) : gkNext s p = s := by rw [gkNext, h]; rfl

theorem gkNext_idle (htodo : (port s p).gk.todo = []) (hmail : (port s p).mail = false) : gkNext s p = s := by
  unfold gkNext
  rw [htodo, hmail]
  split <;> rfl

theorem gkNext_mail (hready : gkReady s p = true) (htodo : (port s p).gk.todo = []) (hmail : (port s p).mail = true) :
    gkNext s p = gkTake s p := by
  unfold gkNext
  rw [htodo, hmail, hready]
  rfl

theorem gkNext_change {c : GkChange} {rest : List GkChange} (hready : gkReady s p = true) (htodo : (port s p).gk.todo = c :: rest) :
    gkNext s p = gkAct (modGk s p fun k => { k with todo := rest }) p c := by
  unfold gkNext
  rw [htodo, hready]
  rfl

theorem gkRun_fixed (h : gkNext s p = s) : gkRun s p = s := by
  have hfold (l : List Nat) : l.foldl (fun s _ => gkNext s p) s = s := by
    induction l with
    | nil => rfl
    | cons n l ih => rw [List.foldl_cons, h, ih]
  exact hfold _

theorem gkRun_empty (htodo : (port s p).gk.todo = []) : gkRun s p = gkNext s p := by
  rw [gkRun, htodo]
  rfl

theorem gkRun_single {c : GkChange} (htodo : (port s p).gk.todo = [c]) : gkRun s p = gkNext (gkNext s p) p := by
  rw [gkRun, htodo]
  rfl

theorem port_modGk (s : State) (p : Nat) (f : GkProgram → GkProgram) :
    port (modGk s p f) p = { port s p with gk := f (port s p).gk } := port_setPort _ _ _

end

/-! ### A change of the shipped program (R293, R304) -/

/-- An address that loading an image leaves alone: neither a table word of port `p` nor its swap register. -/
def OffTables (p a : Nat) : Prop := (a < aPort p 0x1000 ∨ aPort p 0x2808 ≤ a) ∧ a ≠ aPort p 0x3004

/-- Only table words and the swap register of port `p` differ. -/
structure TablesOnly (p : Nat) (s t : State) : Prop where
  regs : OnlyRegs s t
  off : ∀ a, OffTables p a → reg t a = reg s a

section
variable {s t u : State} {p m off a image : Nat} {v : W32}

theorem TablesOnly.refl (s : State) : TablesOnly p s s := ⟨.refl s, fun _ _ => rfl⟩

theorem TablesOnly.trans (h : TablesOnly p s t) (h' : TablesOnly p t u) : TablesOnly p s u :=
  ⟨⟨u.regs, by rw [h'.regs.rest, h.regs.rest]⟩, fun a ha => (h'.off a ha).trans (h.off a ha)⟩

theorem tablesOnly_setReg (s : State) (ha : ¬ OffTables p a) (v : W32) : TablesOnly p s (setReg s a v) :=
  ⟨(OnlyRegs.refl s).setReg a v, fun x hx => reg_setReg_other s (fun h : x = a => ha (h ▸ hx)) v⟩

theorem tablesOnly_swapRegister (s : State) (p i : Nat) (b : Bool) : TablesOnly p s (setRegB s (aPort p 0x3004) i b) :=
  tablesOnly_setReg s (fun h => h.2 rfl) _

theorem tablesOnly_tableWrite (s : State) (m : Nat) (hlo : 0x1000 ≤ off) (hhi : off < 0x2808) (v : W32) :
    TablesOnly p s (tableWrite s m p off v) := by
  unfold tableWrite
  split
  · exact tablesOnly_swapRegister s p _ _
  · refine tablesOnly_setReg s (fun h => ?_) _
    have := h.1
    simp only [aPort] at this
    omega

theorem tablesOnly_foldl {α : Type} {f : State → α → State} {l : List α} (h : ∀ s, ∀ x ∈ l, TablesOnly p s (f s x)) (s : State) :
    TablesOnly p s (l.foldl f s) := by
  induction l generalizing s with
  | nil => exact .refl s
  | cons x l ih => exact (h s x List.mem_cons_self).trans (ih (fun s y hy => h s y (List.mem_cons_of_mem x hy)) _)

/-- The table words that the program writes before it asks for the swap. -/
def gkTables (s : State) (p image : Nat) : State :=
  let m := gkId p
  let b := 1 - activeBank s p
  let s := (List.range 256).foldl (fun s n => tableWrite s m p (0x1000 + 0x400 * b + 4 * n) (gkWord s p (image + 4 * n))) s
  let s := (List.range 64).foldl (fun s i =>
    let o := 0x2000 + 0x400 * b + 0x10 * i
    let src := image + 0x400 + 0x10 * i
    let s := tableWrite s m p o (gkWord s p src)
    let s := tableWrite s m p (o + 4) (gkWord s p (src + 4))
    tableWrite s m p (o + 8) (gkPerm (port s p).gk (gkWord s p (src + 8)))) s
  tableWrite s m p (0x2800 + 4 * b) (gkWord s p (image + 0x800))

theorem gkLoad_eq (s : State) (p image : Nat) : gkLoad s p image = swapOp (gkTables s p image) (gkId p) p := rfl

theorem tablesOnly_gkTables (s : State) (p image : Nat) : TablesOnly p s (gkTables s p image) := by
  have hb : 1 - activeBank s p ≤ 1 := Nat.sub_le 1 _
  unfold gkTables
  dsimp only
  generalize 1 - activeBank s p = b at hb
  have hentries := tablesOnly_foldl (p := p) (l := List.range 256)
    (f := fun s n => tableWrite s (gkId p) p (0x1000 + 0x400 * b + 4 * n) (gkWord s p (image + 4 * n)))
    (fun s n hn => tablesOnly_tableWrite s _ (by omega) (by have := List.mem_range.1 hn; omega) _) s
  refine (hentries.trans (tablesOnly_foldl (fun s i hi => ?_) _)).trans (tablesOnly_tableWrite _ _ (by omega) (by omega) _)
  have hi := List.mem_range.1 hi
  exact ((tablesOnly_tableWrite s _ (by omega) (by omega) _).trans (tablesOnly_tableWrite _ _ (by omega) (by omega) _)).trans
    (tablesOnly_tableWrite _ _ (by omega) (by omega) _)

theorem tableOwner_of_reg (h : reg t (aPort p 0x3000) = reg s (aPort p 0x3000)) : tableOwner t p = tableOwner s p := by
  rw [tableOwner, regB_congr h, tableOwner]

theorem offTables_low (hoff : off < 0x1000) : OffTables p (aPort p off) := by
  simp only [OffTables, aPort]
  omega

theorem offTables_high (hoff : 0x2808 ≤ off) (hswap : off ≠ 0x3004) : OffTables p (aPort p off) := by
  simp only [OffTables, aPort]
  omega

theorem gkLoad_effect (howner : tableOwner s p = gkId p) (image : Nat) :
    ∃ t, gkLoad s p image = t ∧ TablesOnly p s t ∧ regB t (aPort p 0x3004) 1 = true := by
  have htables := tablesOnly_gkTables s p image
  have howner' : tableOwner (gkTables s p image) p = gkId p :=
    (tableOwner_of_reg (htables.off _ (offTables_high (by decide) (by decide)))).trans howner
  refine ⟨_, gkLoad_eq s p image, ?_⟩
  rw [swapOp, if_neg (by rw [howner']; exact not_not_intro rfl)]
  exact ⟨htables.trans (tablesOnly_swapRegister _ _ _ _), regB_setRegB_same _ _ _ (by decide)⟩

/-- A change leaves only registers and its port's program different, and waits for its swap. -/
theorem gkChange_effect (howner : tableOwner s p = gkId p) (reply : Option Nat) (f : GkProgram → GkProgram) :
    ∃ t, gkChange s p reply f = t ∧ t = { s with regs := t.regs, ports := t.ports } ∧
      port t p = { port s p with gk := { f (port s p).gk with reply, waiting := true } } ∧
      (∀ a, OffTables p a → reg t a = reg s a) ∧ regB t (aPort p 0x3004) 1 = true := by
  have howner' : tableOwner (modGk s p fun k => { f k with reply, waiting := true }) p = gkId p := howner
  obtain ⟨t, ht, htables, hswap⟩ := gkLoad_effect howner' (gkImage (modGk s p fun k => { f k with reply, waiting := true }) p)
  refine ⟨t, ht, ?_, ?_, htables.off, hswap⟩
  · rw [htables.regs.rest]
    rfl
  · rw [htables.regs.port, port_modGk]

/-! ### Messages to the gatekeeper (R303, R305) -/

theorem OnlyRegs.coreStopped (h : OnlyRegs s t) (c : Nat) : coreStopped t c = coreStopped s c := by
  obtain ⟨regs, rfl⟩ := h
  rfl

theorem OnlyRegs.gkReady (h : OnlyRegs s t) : gkReady t p = gkReady s p := by
  have hframe : t = { s with regs := t.regs, ports := t.ports, cores := t.cores, gov := t.gov, out := t.out } := by
    obtain ⟨regs, rfl⟩ := h
    rfl
  rw [Machine.gkReady, gkRuns_of_frame hframe (h.coreStopped _), gkShipped_of_scratch (s := s) (t := t) (by rw [h.port]), h.port, Machine.gkReady]

/-- A Hub core's message up to the interrupt that tells the gatekeeper. -/
def mailLaid (s : State) (p : Nat) (hi : W32) : State :=
  let k := port s p
  let s := setReg s (aPort p 0x3224) hi
  let s := if k.mail then setRegB s (aPort p 0x3230) 1 true else s
  setRegB (setPort s p { k with mail := true }) (aPort p 0x3230) 0 false

theorem mailInOp_eq (s : State) (p : Nat) (hi : W32) :
    mailInOp s p hi = gkRun (interrupt (mailLaid s p hi) (gkId p) intHubSignal) p := rfl

/-- What the gatekeeper finds when a message has been laid in its mailbox. -/
structure Mailed (s t : State) (p : Nat) (hi : W32) : Prop where
  frame : t = { s with regs := t.regs, ports := t.ports, cores := t.cores, gov := t.gov }
  atPort : port t p = { port s p with mail := true }
  stopped : coreStopped t (gkId p) = coreStopped s (gkId p)
  time : reg t (aPort p 0x3224) = hi
  open_ : regB t (aPort p 0x3230) 0 = false
  lost : (port s p).mail = true → regB t (aPort p 0x3230) 1 = true
  off : ∀ a, a ≠ aPort p 0x3224 → a ≠ aPort p 0x3230 → reg t a = reg s a

theorem reg_interrupt (s : State) (c v a : Nat) : reg (interrupt s c v) a = reg s a := by
  rw [interrupt_frame]
  rfl

theorem port_interrupt (s : State) (c v p : Nat) : port (interrupt s c v) p = port s p := by
  rw [interrupt_frame]
  rfl

theorem aPort_ne {off off' : Nat} (h : off ≠ off') : aPort p off ≠ aPort p off' := by
  simp only [aPort]
  omega

theorem mailed_interrupt (s : State) (p : Nat) (hi : W32) : Mailed s (interrupt (mailLaid s p hi) (gkId p) intHubSignal) p hi := by
  have hlaid : ∃ u, mailLaid s p hi = setRegB (setPort u p { port s p with mail := true }) (aPort p 0x3230) 0 false ∧ OnlyRegs s u ∧
      reg u (aPort p 0x3224) = hi ∧ ((port s p).mail = true → regB u (aPort p 0x3230) 1 = true) ∧
      ∀ a, a ≠ aPort p 0x3224 → a ≠ aPort p 0x3230 → reg u a = reg s a := by
    refine ⟨_, rfl, ?_, ?_, fun hmail => ?_, fun a ha ha' => ?_⟩
    · exact ((OnlyRegs.refl s).setReg _ _ |>.setRegB _ _ _).ite ((OnlyRegs.refl s).setReg _ _)
    · split
      · exact (reg_setRegB_other _ (aPort_ne (by decide)) _).trans (reg_setReg_same _ _ _)
      · exact reg_setReg_same _ _ _
    · rw [if_pos hmail]
      exact regB_setRegB_same _ _ _ (by decide)
    · split
      · exact (reg_setRegB_other _ ha' _).trans (reg_setReg_other _ ha _)
      · exact reg_setReg_other _ ha _
  obtain ⟨u, hu, honly, htime, hlost, hoff⟩ := hlaid
  rw [hu]
  have hport : port (setPort u p { port s p with mail := true }) p = { port s p with mail := true } := port_setPort _ _ _
  have hframe : ∃ regs ports, setPort u p { port s p with mail := true } = { s with regs, ports } := by
    obtain ⟨regs, rfl⟩ := honly
    exact ⟨_, _, rfl⟩
  have hsame (a : Nat) : reg (setPort u p { port s p with mail := true }) a = reg u a := rfl
  generalize setPort u p { port s p with mail := true } = w at hport hframe hsame
  have hset := (OnlyRegs.refl w).setRegB (aPort p 0x3230) 0 false
  have hopen : regB (setRegB w (aPort p 0x3230) 0 false) (aPort p 0x3230) 0 = false := regB_setRegB_same _ _ _ (by decide)
  have hrest : regB (setRegB w (aPort p 0x3230) 0 false) (aPort p 0x3230) 1 = regB u (aPort p 0x3230) 1 :=
    (regB_setRegB_other _ _ (by decide) _).trans (regB_congr (hsame _) _)
  have hreg {a : Nat} (ha : a ≠ aPort p 0x3230) : reg (setRegB w (aPort p 0x3230) 0 false) a = reg u a :=
    (reg_setRegB_other _ ha _).trans (hsame a)
  generalize setRegB w (aPort p 0x3230) 0 false = x at hset hopen hrest hreg
  have hint := interrupt_frame x (gkId p) intHubSignal
  obtain ⟨regs, ports, rfl⟩ := hframe
  refine ⟨?_, ?_, ?_, ?_, ?_, fun hmail => ?_, fun a ha ha' => ?_⟩
  · rw [hint, hset.rest]
  · rw [port_interrupt, hset.port, hport]
  · rw [coreStopped_interrupt, hset.coreStopped]
    rfl
  · rw [reg_interrupt, hreg (aPort_ne (by decide)), htime]
  · rw [regB_congr (reg_interrupt _ _ _ _), hopen]
  · rw [regB_congr (reg_interrupt _ _ _ _), hrest, hlost hmail]
  · rw [reg_interrupt, hreg ha', hoff a ha ha']

theorem Mailed.gkRuns {hi : W32} (h : Mailed s t p hi) : gkRuns t p = gkRuns s p :=
  gkRuns_of_frame (by rw [h.frame]) h.stopped

theorem Mailed.gkShipped {hi : W32} (h : Mailed s t p hi) : gkShipped t p = gkShipped s p := gkShipped_of_scratch (by rw [h.atPort])

theorem Mailed.gkReady {hi : W32} (h : Mailed s t p hi) : gkReady t p = gkReady s p := by
  rw [Machine.gkReady, h.gkRuns, h.gkShipped, h.atPort, Machine.gkReady]

theorem gkMailboxIn_waits {hi : W32} (hon : portOn s p = true) (hm : isHub m = true) (hbusy : gkReady s p = false) :
    ∃ t, exec (.gkMailboxIn m p hi) s = .next t ∧ Mailed s t p hi := by
  have hmay : portMayWrite m p 0x3224 = true := by
    simp only [isHub, Bool.or_eq_true, decide_eq_true_eq] at hm
    simp [portMayWrite, hm]
  have hmailed := mailed_interrupt s p hi
  refine ⟨_, congrArg Host.Outcome.next ((portCmd_granted hon hmay hi).trans ?_), hmailed⟩
  rw [portWriteOp_mailIn, if_pos hm, mailInOp_eq, gkRun_fixed (gkNext_notReady (hmailed.gkReady.trans hbusy))]

theorem inTakenOp_effect (s : State) (p : Nat) :
    ∃ t, inTakenOp s p = t ∧ t = { s with regs := t.regs, ports := t.ports } ∧ port t p = { port s p with mail := false } ∧
      regB t (aPort p 0x3230) 0 = true ∧ ∀ a, a ≠ aPort p 0x3230 → reg t a = reg s a := by
  have hport : port (setPort s p { port s p with mail := false }) p = { port s p with mail := false } := port_setPort _ _ _
  have hframe : setPort s p { port s p with mail := false } =
      { s with ports := (setPort s p { port s p with mail := false }).ports } := rfl
  refine ⟨_, rfl, ?_⟩
  unfold inTakenOp
  generalize setPort s p { port s p with mail := false } = w at hport hframe
  have hset := (OnlyRegs.refl w).setRegB (aPort p 0x3230) 0 true
  refine ⟨?_, hset.port p |>.trans hport, regB_setRegB_same _ _ _ (by decide), fun a ha => ?_⟩
  · rw [hset.rest, hframe]
  · rw [reg_setRegB_other _ ha, hframe]
    rfl

/-- The ready program has taken a message and acts on it. -/
structure Taken (s t : State) (p : Nat) : Prop where
  frame : t = { s with regs := t.regs, ports := t.ports, cores := t.cores, gov := t.gov }
  atPort : port t p = { port s p with mail := false }
  free : regB t (aPort p 0x3230) 0 = true
  off : ∀ a, a ≠ aPort p 0x3220 → a ≠ aPort p 0x3224 → a ≠ aPort p 0x3230 → reg t a = reg s a

/-- The word of a message and its tag. -/
def messageWord (msg tag : Nat) : W32 := w32 (msg <<< 24 + tag)

theorem messageOp_taken {msg tag : Nat} (ms : W32) (hon : portOn s p = true) (hready : gkReady s p = true)
    (htodo : (port s p).gk.todo = []) :
    ∃ u, messageOp s p msg tag ms = gkMessage u p (fld (messageWord msg tag) 24 8) (fld (messageWord msg tag) 0 8) ms.toNat ∧
      Taken s u p := by
  have hlo : OnlyRegs s (setReg s (aPort p 0x3220) (messageWord msg tag)) := (OnlyRegs.refl s).setReg _ _
  have hloff {a : Nat} (ha : a ≠ aPort p 0x3220) : reg (setReg s (aPort p 0x3220) (messageWord msg tag)) a = reg s a :=
    reg_setReg_other s ha _
  have hword : reg (setReg s (aPort p 0x3220) (messageWord msg tag)) (aPort p 0x3220) = messageWord msg tag := reg_setReg_same _ _ _
  have hreadyLo : gkReady (setReg s (aPort p 0x3220) (messageWord msg tag)) p = true := hlo.gkReady.trans hready
  have hop : messageOp s p msg tag ms = mailInOp (setReg s (aPort p 0x3220) (messageWord msg tag)) p ms := by
    rw [messageOp, if_pos hon, messageWord]
  rw [hop, mailInOp_eq]
  generalize setReg s (aPort p 0x3220) (messageWord msg tag) = l at hlo hloff hword hreadyLo
  have hmailed := mailed_interrupt l p ms
  generalize interrupt (mailLaid l p ms) (gkId p) intHubSignal = t at hmailed
  have htodoT : (port t p).gk.todo = [] := by rw [hmailed.atPort, hlo.port]; exact htodo
  rw [gkRun_empty htodoT, gkNext_mail (hmailed.gkReady.trans hreadyLo) htodoT (by rw [hmailed.atPort])]
  have hlow : reg t (aPort p 0x3220) = messageWord msg tag :=
    (hmailed.off _ (aPort_ne (by decide)) (aPort_ne (by decide))).trans hword
  obtain ⟨u, hu, hframe, hport, hfree, hoff⟩ := inTakenOp_effect t p
  refine ⟨u, by rw [gkTake, hlow, hmailed.time, hu], ?_, ?_, hfree, fun a ha ha' ha'' => ?_⟩
  · rw [hframe, hmailed.frame, hlo.rest]
  · rw [hport, hmailed.atPort, hlo.port]
  · exact (hoff a ha'').trans ((hmailed.off a ha' ha'').trans (hloff ha))

end

/-! ### What the messages of R305 bring -/

section
variable {s t u w : State} {p m image : Nat} {tag : BitVec 8} {ms : W32}

/-- What every change leaves that a message brought: the mailbox is free and the swap is asked for. -/
def MailServed (s t : State) (p : Nat) : Prop :=
  t = { s with regs := t.regs, ports := t.ports, cores := t.cores, gov := t.gov } ∧ (port t p).mail = false ∧
    regB t (aPort p 0x3230) 0 = true ∧ regB t (aPort p 0x3004) 1 = true

theorem Taken.owner (h : Taken s u p) (howner : tableOwner s p = gkId p) : tableOwner u p = gkId p :=
  (tableOwner_of_reg (h.off _ (aPort_ne (by decide)) (aPort_ne (by decide)) (aPort_ne (by decide)))).trans howner

theorem Taken.gkScratch (h : Taken s u p) (a : Nat) : gkScratch u p a = gkScratch s p a := by
  rw [Machine.gkScratch, h.atPort, Machine.gkScratch]

theorem Taken.tagUsed (h : Taken s u p) (n : Nat) : tagUsed u p n = tagUsed s p n := by
  have hword (a : Nat) : gkWord u p a = gkWord s p a := by rw [gkWord, h.gkScratch, gkWord]
  exact congrArg (List.any (List.range 64)) (funext fun i => by rw [hword, hword])

theorem Taken.gk (h : Taken s u p) : (port u p).gk = (port s p).gk := by rw [h.atPort]

/-- A change that a message brought, after writes of registers that it makes first. -/
theorem Taken.change (h : Taken s u p) (howner : tableOwner s p = gkId p) (hw : OnlyRegs u w)
    (hfree : reg w (aPort p 0x3230) = reg u (aPort p 0x3230)) (hkeep : reg w (aPort p 0x3000) = reg u (aPort p 0x3000))
    (reply : Option Nat) (f : GkProgram → GkProgram) :
    ∃ t, gkChange w p reply f = t ∧ MailServed s t p ∧ (port t p).gk = { f (port s p).gk with reply, waiting := true } ∧
      ∀ a, OffTables p a → reg t a = reg w a := by
  obtain ⟨t, ht, hframe, hport, hoff, hswap⟩ := gkChange_effect ((tableOwner_of_reg hkeep).trans (h.owner howner)) reply f
  refine ⟨t, ht, ⟨?_, ?_, ?_, hswap⟩, ?_, hoff⟩
  · rw [hframe, hw.rest, h.frame]
  · rw [hport, hw.port, h.atPort]
  · rw [regB_congr (hoff _ (offTables_high (by decide) (by decide))), regB_congr hfree, h.free]
  · rw [hport, hw.port, h.atPort]

theorem messageWord_fields {msg n : Nat} (hmsg : msg < 256) (hn : n < 256) :
    fld (messageWord msg n) 24 8 = msg ∧ fld (messageWord msg n) 0 8 = n := by
  have hword : msg <<< 24 + n < 4294967296 := by
    rw [Nat.shiftLeft_eq]
    omega
  rw [messageWord, fld_w32 hword, fld_w32 hword, Nat.shiftLeft_eq]
  omega

theorem onlyRegs_portBootDoneOp (s : State) (p : Nat) : OnlyRegs s (portBootDoneOp s p) :=
  ((OnlyRegs.refl s).setRegB _ _ _).setRegB _ _ _

theorem reg_portBootDoneOp (s : State) (hp : p < 4) {off : Nat} (hoff : off ≠ 0x0B0) :
    reg (portBootDoneOp s p) (aPort p off) = reg s (aPort p off) :=
  (reg_setRegB_other _ (aPlat_ne_aPort hp (by decide)).symm _).trans (reg_setRegB_other _ (aPort_ne hoff) _)

section
variable (hon : portOn s p = true) (hready : gkReady s p = true) (htodo : (port s p).gk.todo = []) (howner : tableOwner s p = gkId p)
include hon hready htodo howner

theorem bootDoneMessage_enters (hfirst : (port s p).gk.lockdown = false) :
    ∃ t, exec (.gkBootDoneMsg p) s = .next t ∧ MailServed s t p ∧
      (port t p).gk = { (port s p).gk with lockdown := true, reply := some 1, waiting := true } ∧
      regB t (aPort p 0x0B0) 0 = true ∧ platStatus t p 9 = false := by
  have hp := port_lt_of_on hon
  obtain ⟨u, hu, htaken⟩ := messageOp_taken (msg := 1) (tag := 0) (0 : W32) hon hready htodo
  obtain ⟨t, ht, hserved, hgk, hoff⟩ := htaken.change howner (onlyRegs_portBootDoneOp u p) (reg_portBootDoneOp u hp (by decide))
    (reg_portBootDoneOp u hp (by decide)) (some 1) fun k => { k with lockdown := true }
  have hact : gkMessage u p 1 (fld (messageWord 1 0) 0 8) (0 : W32).toNat = t := by
    have hlock : (port u p).gk.lockdown = false := by rw [htaken.gk, hfirst]
    have hdone : gkMessage u p 1 (fld (messageWord 1 0) 0 8) (0 : W32).toNat = gkLockdown u p (some 1) := rfl
    rw [hdone, gkLockdown, hlock]
    exact ht
  refine ⟨t, congrArg Host.Outcome.next ?_, hserved, hgk, ?_, ?_⟩
  · rw [hu, (messageWord_fields (by decide) (by decide)).1, hact]
  · rw [regB_congr (hoff _ (offTables_low (by decide))), portBootDoneOp, armAudit, setPlatStatus,
      regB_congr (reg_setRegB_other _ (aPlat_ne_aPort hp (by decide)).symm _)]
    exact regB_setRegB_same _ _ _ (by decide)
  · have hplat : OffTables p (aPlat p 0x008) := by
      simp only [OffTables, aPlat, aPort]
      omega
    rw [platStatus, regB_congr (hoff _ hplat)]
    exact regB_setRegB_same _ _ _ (by decide)

theorem openWindow_opens (hlocked : (port s p).gk.lockdown = true) (hclosed : (port s p).gk.window = none)
    (hused : tagUsed s p tag.toNat = true) :
    ∃ t, exec (.openWindow p tag ms) s = .next t ∧ MailServed s t p ∧
      (port t p).gk = { (port s p).gk with window := some tag.toNat, windowMs := min ms.toNat (gkScratch s p 0xD010),
                                           reply := some 2, waiting := true } ∧
      regB t (aPort p 0x004) 0 = false := by
  obtain ⟨u, hu, htaken⟩ := messageOp_taken (msg := 2) (tag := tag.toNat) ms hon hready htodo
  obtain ⟨t, ht, hserved, hgk, hoff⟩ := htaken.change howner ((OnlyRegs.refl u).setRegB (aPort p 0x004) 0 false)
    (reg_setRegB_other _ (aPort_ne (by decide)) _) (reg_setRegB_other _ (aPort_ne (by decide)) _) (some 2)
    fun k => { k with window := some tag.toNat, windowMs := min ms.toNat (gkScratch (setWp u p false) p 0xD010) }
  have hact : gkMessage u p 2 tag.toNat ms.toNat = t := by
    have hopen : gkMessage u p 2 tag.toNat ms.toNat =
        if !tagUsed u p tag.toNat then gkReply u p 2 2
        else if !(port u p).gk.lockdown || (port u p).gk.window.isSome then gkReply u p 2 1
        else gkAct u p (.openWindow tag.toNat ms.toNat) := rfl
    rw [hopen, htaken.tagUsed, hused, htaken.gk, hlocked, hclosed]
    exact ht
  refine ⟨t, congrArg Host.Outcome.next ?_, hserved, ?_, ?_⟩
  · rw [hu, (messageWord_fields (by decide) tag.isLt).1, (messageWord_fields (by decide) tag.isLt).2, hact]
  · rw [hgk, ← htaken.gkScratch]
    rfl
  · rw [regB_congr (hoff _ (offTables_low (by decide)))]
    exact regB_setRegB_same _ _ _ (by decide)

theorem closeWindow_closes (hopen : (port s p).gk.window = some tag.toNat) :
    ∃ t, exec (.closeWindow p tag) s = .next t ∧ MailServed s t p ∧
      (port t p).gk = { (port s p).gk with window := none, windowMs := 0, reply := some 3, waiting := true } ∧
      regB t (aPort p 0x004) 0 = true := by
  obtain ⟨u, hu, htaken⟩ := messageOp_taken (msg := 3) (tag := tag.toNat) (0 : W32) hon hready htodo
  obtain ⟨t, ht, hserved, hgk, hoff⟩ := htaken.change howner ((OnlyRegs.refl u).setRegB (aPort p 0x004) 0 true)
    (reg_setRegB_other _ (aPort_ne (by decide)) _) (reg_setRegB_other _ (aPort_ne (by decide)) _) (some 3)
    fun k => { k with window := none, windowMs := 0 }
  have hact : gkMessage u p 3 tag.toNat (0 : W32).toNat = t := by
    have hclose : gkMessage u p 3 tag.toNat (0 : W32).toNat =
        if (port u p).gk.window = some tag.toNat then gkAct u p (.closeWindow (some 3)) else gkReply u p 3 2 := rfl
    have hact : gkAct u p (.closeWindow (some 3)) =
        if (port u p).gk.window.isNone then gkAnswer u p (some 3)
        else gkChange (setWp u p true) p (some 3) fun k => { k with window := none, windowMs := 0 } := rfl
    rw [hclose, hact, htaken.gk, hopen, if_pos rfl, if_neg (by simp)]
    exact ht
  refine ⟨t, congrArg Host.Outcome.next ?_, hserved, hgk, ?_⟩
  · rw [hu, (messageWord_fields (by decide) tag.isLt).1, (messageWord_fields (by decide) tag.isLt).2, hact]
  · rw [regB_congr (hoff _ (offTables_low (by decide)))]
    exact regB_setRegB_same _ _ _ (by decide)

end

end

/-! ### The end of a window and of an interval (R304) -/

section
variable {s t u : State} {p m b c : Nat}

/-- A change that joins an empty queue of the ready program is its next act. -/
theorem gkWant_acts (hready : gkReady s p = true) (htodo : (port s p).gk.todo = []) (x : GkChange) :
    ∃ v, gkWant s p x = gkNext (gkAct v p x) p ∧ v = { s with ports := v.ports } ∧ port v p = port s p ∧
      ∀ q, q ≠ p → port v q = port s q := by
  have hport : port (modGk s p fun k => { k with todo := k.todo ++ [x] }) p =
      { port s p with gk := { (port s p).gk with todo := (port s p).gk.todo ++ [x] } } := port_modGk _ _ _
  have hother (q : Nat) (hq : q ≠ p) : port (modGk s p fun k => { k with todo := k.todo ++ [x] }) q = port s q :=
    port_setPort_other s hq _
  have hready' : gkReady (modGk s p fun k => { k with todo := k.todo ++ [x] }) p = true := by
    obtain ⟨hruns, hshipped, hwaiting⟩ := gkReady_iff.1 hready
    refine gkReady_iff.2 ⟨(gkRuns_of_frame rfl rfl).trans hruns, (gkShipped_of_scratch ?_).trans hshipped, ?_⟩
    · rw [hport]
    · rw [hport, hwaiting]
  have hframe : (modGk s p fun k => { k with todo := k.todo ++ [x] }) =
      { s with ports := (modGk s p fun k => { k with todo := k.todo ++ [x] }).ports } := rfl
  unfold gkWant
  generalize (modGk s p fun k => { k with todo := k.todo ++ [x] }) = w at hport hother hready' hframe
  have hqueue : (port w p).gk.todo = [x] := by rw [hport, htodo]; rfl
  refine ⟨modGk w p fun k => { k with todo := [] }, ?_, ?_, ?_, fun q hq => ?_⟩
  · rw [gkRun_single hqueue, gkNext_change hready' hqueue]
  · rw [hframe]
    rfl
  · rw [port_modGk, hport, ← htodo]
  · exact (port_setPort_other w hq _).trans (hother q hq)

theorem windowExpiry_closes (hready : gkReady s p = true) (htodo : (port s p).gk.todo = []) (howner : tableOwner s p = gkId p)
    {tag : Nat} (hopen : (port s p).gk.window = some tag) :
    ∃ t, exec (.updateWindowExpiry p) s = .next t ∧ t = { s with regs := t.regs, ports := t.ports } ∧
      (port t p).gk = { (port s p).gk with window := none, windowMs := 0, reply := none, waiting := true } ∧
      regB t (aPort p 0x3004) 1 = true ∧ regB t (aPort p 0x004) 0 = true := by
  obtain ⟨hruns, hshipped, _⟩ := gkReady_iff.1 hready
  obtain ⟨v, hwant, hframe, hport, _⟩ := gkWant_acts hready htodo (.closeWindow none)
  have howner' : tableOwner (setWp v p true) p = gkId p := by
    refine (tableOwner_of_reg (reg_setRegB_other v (aPort_ne (by decide)) true)).trans ?_
    rw [hframe]
    exact howner
  obtain ⟨t, ht, hrest, hgk, hoff, hswap⟩ := gkChange_effect howner' none fun k => { k with window := none, windowMs := 0 }
  have hwp : port (setWp v p true) p = port s p := hport
  have hact : gkAct v p (.closeWindow none) = t := by
    have hclose : gkAct v p (.closeWindow none) = if (port v p).gk.window.isNone then gkAnswer v p none
        else gkChange (setWp v p true) p none fun k => { k with window := none, windowMs := 0 } := rfl
    rw [hclose, hport, hopen, if_neg (by simp), ht]
  refine ⟨t, congrArg Host.Outcome.next ?_, ?_, ?_, hswap, ?_⟩
  · rw [windowExpiryOp, hruns, hshipped, hopen, if_pos (by rfl), hwant, hact]
    refine gkNext_notReady (Bool.eq_false_iff.2 fun h => ?_)
    have hwaiting := (gkReady_iff.1 h).2.2
    rw [hgk] at hwaiting
    exact absurd hwaiting (by simp)
  · have hset := ((OnlyRegs.refl v).setRegB (aPort p 0x004) 0 true).rest
    rw [hrest, setWp, hset, hframe]
  · rw [hgk, hwp]
  · rw [regB_congr (hoff _ (offTables_low (by decide)))]
    exact regB_setRegB_same _ _ _ (by decide)

theorem windowExpiry_waits (hruns : gkRuns s p = true) (hshipped : gkShipped s p = true) (hwaiting : (port s p).gk.waiting = true)
    (hopen : (port s p).gk.window ≠ none) :
    exec (.updateWindowExpiry p) s = .next (setPort s p
      { port s p with gk := { (port s p).gk with todo := (port s p).gk.todo ++ [.closeWindow none] } }) := by
  have hbusy : gkReady (modGk s p fun k => { k with todo := k.todo ++ [.closeWindow none] }) p = false := by
    refine Bool.eq_false_iff.2 fun h => ?_
    have hfree := (gkReady_iff.1 h).2.2
    rw [port_modGk] at hfree
    exact absurd (hwaiting.symm.trans hfree) (by decide)
  refine congrArg Host.Outcome.next ?_
  rw [windowExpiryOp, hruns, hshipped, Option.isSome_iff_ne_none.2 hopen, if_pos (by rfl), gkWant, gkRun_fixed (gkNext_notReady hbusy)]
  rfl

/-- The counters of an interval lie above the images, so that the program stays shipped. -/
theorem any_smDrop_counters (cells : List Host.Cell) :
    (smDrop cells 0xE800 0xF000).any (fun e => 0x8000 ≤ e.1 && e.1 < 0x9804) = cells.any fun e => 0x8000 ≤ e.1 && e.1 < 0x9804 := by
  rw [smDrop, List.any_filter]
  refine congrArg (List.any cells) (funext fun e => ?_)
  rw [Bool.eq_iff_iff]
  simp only [Bool.and_eq_true, Bool.or_eq_true, decide_eq_true_eq]
  omega

theorem intervalEnd_zeroes (hready : gkReady s p = true) (htodo : (port s p).gk.todo = []) (hlimited : (port s p).gk.limited = [])
    (hmail : (port s p).mail = false) :
    ∃ t, exec (.intervalEnd p) s = .next t ∧ t = { s with ports := t.ports } ∧
      port t p = { port s p with scratch := smDrop (port s p).scratch 0xE800 0xF000 } ∧ ∀ q, q ≠ p → port t q = port s q := by
  obtain ⟨hruns, hshipped, hwaiting⟩ := gkReady_iff.1 hready
  have hop : exec (.intervalEnd p) s =
      .next (gkWant (setPort s p { port s p with scratch := smDrop (port s p).scratch 0xE800 0xF000 }) p .interval) :=
    congrArg Host.Outcome.next (if_pos (by rw [hruns, hshipped]; rfl))
  have hport := port_setPort s p { port s p with scratch := smDrop (port s p).scratch 0xE800 0xF000 }
  have hother (q : Nat) (hq : q ≠ p) := port_setPort_other s hq { port s p with scratch := smDrop (port s p).scratch 0xE800 0xF000 }
  have hframe : setPort s p { port s p with scratch := smDrop (port s p).scratch 0xE800 0xF000 } =
      { s with ports := (setPort s p { port s p with scratch := smDrop (port s p).scratch 0xE800 0xF000 }).ports } := rfl
  rw [hop]
  generalize setPort s p { port s p with scratch := smDrop (port s p).scratch 0xE800 0xF000 } = w at hport hother hframe
  have hready' : gkReady w p = true := by
    refine gkReady_iff.2 ⟨(gkRuns_of_frame (by rw [hframe]) (by rw [hframe]; rfl)).trans hruns, ?_, ?_⟩
    · rw [gkShipped, hport, any_smDrop_counters]
      exact hshipped
    · rw [hport, hwaiting]
  obtain ⟨v, hwant, hvframe, hvport, hvother⟩ := gkWant_acts hready' (by rw [hport, htodo]) .interval
  have hact : gkAct v p .interval = v := if_pos (by rw [hvport, hport, hlimited])
  refine ⟨v, ?_, ?_, ?_, fun q hq => (hvother q hq).trans (hother q hq)⟩
  · rw [hwant, hact, gkNext_idle (by rw [hvport, hport, htodo]) (by rw [hvport, hport, hmail])]
  · rw [hvframe, hframe]
  · rw [hvport, hport]

end

/-! ### Swaps and copies of the tables (R294, R295) -/

section
variable {s t u : State} {p m b c : Nat}

/-- The swap register after a swap: the other bank, no request, one more swap counted. -/
def swappedWord (v : W32) : W32 := setFld (setFld (setFld v 0 1 (1 - fld v 0 1)) 1 1 0) 16 16 (fld v 16 16 + 1)

/-- The swap itself, with its interrupt. -/
def swapped (s : State) (p : Nat) : State :=
  interrupt (setReg s (aPort p 0x3004) (swappedWord (reg s (aPort p 0x3004)))) (gkId p) intTableSwapped

theorem swapApply_open (hswap : regB s (aPort p 0x3004) 1 = true) (htxn : (port s p).txn = none) (hbrake : (port s p).brake = false)
    (hcopy : copyBusy s p = false) :
    exec (.swapApply p) s =
      .next (if gkRuns (swapped s p) p && gkShipped (swapped s p) p then gkSwapped (swapped s p) p else swapped s p) :=
  congrArg Host.Outcome.next (if_pos (by rw [hswap, htxn, hbrake, hcopy]; rfl))

/-- What a swap leaves. -/
structure Swapped (s t : State) (p : Nat) : Prop where
  frame : t = { s with regs := t.regs, cores := t.cores, gov := t.gov }
  stopped : coreStopped t (gkId p) = coreStopped s (gkId p)
  word : reg t (aPort p 0x3004) = swappedWord (reg s (aPort p 0x3004))

theorem swapped_effect (s : State) (p : Nat) : Swapped s (swapped s p) p := by
  have hset := (OnlyRegs.refl s).setReg (aPort p 0x3004) (swappedWord (reg s (aPort p 0x3004)))
  have hword := reg_setReg_same s (aPort p 0x3004) (swappedWord (reg s (aPort p 0x3004)))
  unfold swapped
  generalize setReg s (aPort p 0x3004) (swappedWord (reg s (aPort p 0x3004))) = u at hset hword
  refine ⟨?_, ?_, ?_⟩
  · rw [interrupt_frame, hset.rest]
  · rw [coreStopped_interrupt, hset.coreStopped]
  · rw [reg_interrupt, hword]

theorem Swapped.port (h : Swapped s t p) (q : Nat) : port t q = port s q := by
  rw [h.frame]
  rfl

theorem Swapped.gkRuns (h : Swapped s t p) : gkRuns t p = gkRuns s p := gkRuns_of_frame (by rw [h.frame]) h.stopped

theorem Swapped.gkShipped (h : Swapped s t p) : gkShipped t p = gkShipped s p := gkShipped_of_scratch (by rw [h.port])

theorem activeBank_swappedWord (h : reg t (aPort p 0x3004) = swappedWord (reg s (aPort p 0x3004))) :
    activeBank t p = 1 - activeBank s p := by
  rw [activeBank, regF, h, swappedWord, fld_setFld_other _ _ (by omega), fld_setFld_other _ _ (by omega),
    fld_setFld_same _ _ (by decide), activeBank, regF]
  exact Nat.mod_eq_of_lt (by omega)

theorem swapBit_swappedWord (h : reg t (aPort p 0x3004) = swappedWord (reg s (aPort p 0x3004))) :
    regB t (aPort p 0x3004) 1 = false := by
  rw [regB, h, swappedWord, bitOf_setFld_other _ _ (by omega), bitOf_setFld_same _ (by decide)]
  rfl

theorem swapCount_swappedWord (h : reg t (aPort p 0x3004) = swappedWord (reg s (aPort p 0x3004))) :
    regF t (aPort p 0x3004) 16 16 = (regF s (aPort p 0x3004) 16 16 + 1) % 65536 := by
  rw [regF, h, swappedWord, fld_setFld_same _ _ (by decide), regF]
  rfl

/-- The shipped program's answer to the message whose change took effect. -/
theorem gkAnswer_effect (s : State) (p : Nat) (reply : Option Nat) :
    ∃ t, gkAnswer s p reply = t ∧ port t p = port s p ∧ reg t (aPort p 0x3004) = reg s (aPort p 0x3004) ∧
      (reply ≠ none → regB t (aPort p 0x3230) 2 = true) := by
  cases reply with
  | none => exact ⟨s, rfl, rfl, rfl, fun h => absurd rfl h⟩
  | some msg =>
    have hset (u : State) (x y : W32) : ∃ w, setRegB (setReg (setReg u (aPort p 0x3228) x) (aPort p 0x322C) y) (aPort p 0x3230) 2 true = w ∧
        OnlyRegs u w ∧ reg w (aPort p 0x3004) = reg u (aPort p 0x3004) ∧ regB w (aPort p 0x3230) 2 = true :=
      ⟨_, rfl, (((OnlyRegs.refl u).setReg _ _).setReg _ _).setRegB _ _ _,
        (reg_setRegB_other _ (aPort_ne (by decide)) _).trans ((reg_setReg_other _ (aPort_ne (by decide)) _).trans
          (reg_setReg_other _ (aPort_ne (by decide)) _)), regB_setRegB_same _ _ _ (by decide)⟩
    obtain ⟨w, hw, honly, hreg, hready⟩ := hset s (w32 (msg <<< 24 + 0)) 0
    refine ⟨hubInt w "GK_OUT_READY" p, ?_, honly.port p, hreg, fun _ => hready⟩
    rw [gkAnswer, gkReply, mailOutOp, hw]

theorem swapApply_shipped (hswap : regB s (aPort p 0x3004) 1 = true) (htxn : (port s p).txn = none) (hbrake : (port s p).brake = false)
    (hcopy : copyBusy s p = false) (hruns : gkRuns s p = true) (hshipped : gkShipped s p = true) (htodo : (port s p).gk.todo = [])
    (hmail : (port s p).mail = false) :
    ∃ t, exec (.swapApply p) s = .next t ∧ activeBank t p = 1 - activeBank s p ∧ regB t (aPort p 0x3004) 1 = false ∧
      (port t p).gk = { (port s p).gk with reply := none, waiting := false } ∧
      ((port s p).gk.reply ≠ none → regB t (aPort p 0x3230) 2 = true) := by
  have heff := swapped_effect s p
  rw [swapApply_open hswap htxn hbrake hcopy]
  generalize swapped s p = w at heff
  rw [heff.gkRuns, heff.gkShipped, hruns, hshipped]
  have hfree := port_modGk w p fun k => { k with reply := none, waiting := false }
  obtain ⟨t, ht, hport, hreg, hanswered⟩ :=
    gkAnswer_effect (modGk w p fun k => { k with reply := none, waiting := false }) p (port w p).gk.reply
  rw [hfree, heff.port] at hport
  have hword : reg t (aPort p 0x3004) = swappedWord (reg s (aPort p 0x3004)) := hreg.trans heff.word
  refine ⟨t, ?_, activeBank_swappedWord hword, swapBit_swappedWord hword, by rw [hport], fun h => hanswered (by rw [heff.port]; exact h)⟩
  refine congrArg Host.Outcome.next ((if_pos rfl).trans ?_)
  rw [gkSwapped, ht]
  exact gkRun_fixed (gkNext_idle (by rw [hport]; exact htodo) (by rw [hport]; exact hmail))

theorem swapApply_bare (hswap : regB s (aPort p 0x3004) 1 = true) (htxn : (port s p).txn = none) (hbrake : (port s p).brake = false)
    (hcopy : copyBusy s p = false) (hshipped : gkShipped s p = false) :
    ∃ t, exec (.swapApply p) s = .next t ∧ Swapped s t p := by
  have heff := swapped_effect s p
  refine ⟨_, ?_, heff⟩
  rw [swapApply_open hswap htxn hbrake hcopy, heff.gkShipped, hshipped, Bool.and_false, if_neg Bool.false_ne_true]

/-! #### The copy of the active bank -/

/-- Copy registers of a block, each from its source to its destination. -/
def copyRegs (p : Nat) (l : List (Nat × Nat)) (s : State) : State :=
  l.foldl (fun s e => setReg s (aPort p e.2) (reg s (aPort p e.1))) s

theorem copyRegs_effect {l : List (Nat × Nat)} (hapart : ∀ e ∈ l, ∀ f ∈ l, e.1 ≠ f.2) (hsource : ∀ e ∈ l, ∀ f ∈ l, e.2 = f.2 → e.1 = f.1)
    (s : State) :
    ∃ t, copyRegs p l s = t ∧ OnlyRegs s t ∧ (∀ e ∈ l, reg t (aPort p e.2) = reg s (aPort p e.1)) ∧
      ∀ a, (∀ e ∈ l, a ≠ aPort p e.2) → reg t a = reg s a := by
  induction l generalizing s with
  | nil => exact ⟨s, rfl, .refl s, fun e he => absurd he List.not_mem_nil, fun _ _ => rfl⟩
  | cons e l ih =>
    have hmem {f : Nat × Nat} (hf : f ∈ l) : f ∈ e :: l := List.mem_cons_of_mem e hf
    obtain ⟨t, ht, honly, hcopied, hoff⟩ := ih (fun f hf g hg => hapart f (hmem hf) g (hmem hg))
      (fun f hf g hg => hsource f (hmem hf) g (hmem hg)) (setReg s (aPort p e.2) (reg s (aPort p e.1)))
    have hset : OnlyRegs s (setReg s (aPort p e.2) (reg s (aPort p e.1))) := (OnlyRegs.refl s).setReg _ _
    have hlater (f : Nat × Nat) (hf : f ∈ l) : reg t (aPort p f.2) = reg s (aPort p f.1) :=
      (hcopied f hf).trans (reg_setReg_other s (aPort_ne (hapart f (hmem hf) e List.mem_cons_self)) _)
    refine ⟨t, ht, ⟨t.regs, by rw [honly.rest, hset.rest]⟩, fun f hf => ?_, fun a ha => ?_⟩
    · rcases List.mem_cons.1 hf with rfl | hf
      · by_cases hagain : ∃ g ∈ l, g.2 = f.2
        · obtain ⟨g, hg, hdst⟩ := hagain
          rw [← hdst, hlater g hg, hsource g (hmem hg) f List.mem_cons_self hdst]
        · rw [hoff _ fun g hg => aPort_ne fun h => hagain ⟨g, hg, h.symm⟩]
          exact reg_setReg_same _ _ _
      · exact hlater f hf
    · rw [hoff a fun f hf => ha f (hmem hf)]
      exact reg_setReg_other s (ha e List.mem_cons_self) _

/-- The words of two banks in pairs. -/
def bankPairs (b c : Nat) : List (Nat × Nat) := (bankWords b).zip (bankWords c)

theorem mem_bankPairs {e : Nat × Nat} : e ∈ bankPairs b c ↔
    (∃ n < 256, e = (0x1000 + 0x400 * b + 4 * n, 0x1000 + 0x400 * c + 4 * n)) ∨
      (∃ n < 256, e = (0x2000 + 0x400 * b + 4 * n, 0x2000 + 0x400 * c + 4 * n)) ∨ e = (0x2800 + 4 * b, 0x2800 + 4 * c) := by
  rw [bankPairs, bankWords, bankWords, List.zip_append (by simp), List.zip_append (by simp), List.zip_map', List.zip_map']
  simp only [List.mem_append, List.mem_map, List.mem_range, List.zip_cons_cons, List.zip_nil_right, List.mem_singleton, or_assoc, eq_comm]

theorem bankPairs_apart (hb : b + c = 1) : ∀ e ∈ bankPairs b c, ∀ f ∈ bankPairs b c, e.1 ≠ f.2 := by
  intro e he f hf
  rcases mem_bankPairs.1 he with ⟨n, hn, rfl⟩ | ⟨n, hn, rfl⟩ | rfl <;>
    rcases mem_bankPairs.1 hf with ⟨k, hk, rfl⟩ | ⟨k, hk, rfl⟩ | rfl <;> dsimp only <;> omega

theorem bankPairs_source (hb : b + c = 1) : ∀ e ∈ bankPairs b c, ∀ f ∈ bankPairs b c, e.2 = f.2 → e.1 = f.1 := by
  intro e he f hf
  rcases mem_bankPairs.1 he with ⟨n, hn, rfl⟩ | ⟨n, hn, rfl⟩ | rfl <;>
    rcases mem_bankPairs.1 hf with ⟨k, hk, rfl⟩ | ⟨k, hk, rfl⟩ | rfl <;> dsimp only <;> omega

theorem copyDone_copies (hcopy : copyBusy s p = true) :
    ∃ t, exec (.copyDone p) s = .next t ∧ t = { s with regs := t.regs } ∧ copyBusy t p = false ∧ activeBank t p = activeBank s p ∧
      ∀ e ∈ bankPairs (activeBank s p) (1 - activeBank s p), reg t (aPort p e.2) = reg s (aPort p e.1) := by
  have hbank : activeBank s p + (1 - activeBank s p) = 1 := by
    have : activeBank s p < 2 ^ 1 := regF_lt _ _ _ _
    omega
  obtain ⟨u, hu, honly, hcopied, hoff⟩ := copyRegs_effect (p := p) (bankPairs_apart hbank) (bankPairs_source hbank) s
  have hop : exec (.copyDone p) s =
      .next (setRegB (copyRegs p (bankPairs (activeBank s p) (1 - activeBank s p)) s) (aPort p 0x3004) 2 false) :=
    congrArg Host.Outcome.next (if_pos hcopy)
  have hswap : reg u (aPort p 0x3004) = reg s (aPort p 0x3004) := by
    refine hoff _ fun e he => aPort_ne ?_
    rcases mem_bankPairs.1 he with ⟨n, hn, rfl⟩ | ⟨n, hn, rfl⟩ | rfl <;> dsimp only <;> omega
  refine ⟨_, by rw [hop, hu], (honly.setRegB _ _ _).rest, regB_setRegB_same _ _ _ (by decide), ?_, fun e he => ?_⟩
  · rw [activeBank, regF, setRegB, setRegF, reg_setReg_same, fld_setFld_other _ _ (by omega), hswap, activeBank, regF]
  · rw [reg_setRegB_other _ (aPort_ne ?_), hcopied e he]
    rcases mem_bankPairs.1 he with ⟨n, hn, rfl⟩ | ⟨n, hn, rfl⟩ | rfl <;> dsimp only <;> omega

end

/-! ### What the end of a core leaves of the ports and of the reset counts (R31, R306, R449) -/

/-- The ports and every core's reset count are the same. -/
structure KeepsPorts (s t : State) : Prop where
  ports : t.ports = s.ports
  count : ∀ c, (core t c).resetCount = (core s c).resetCount

section
variable {s t u : State} {p m : Nat} {hi : W32}

theorem KeepsPorts.refl (s : State) : KeepsPorts s s := ⟨rfl, fun _ => rfl⟩

theorem KeepsPorts.trans (h : KeepsPorts s t) (h' : KeepsPorts t u) : KeepsPorts s u :=
  ⟨h'.ports.trans h.ports, fun c => (h'.count c).trans (h.count c)⟩

theorem KeepsPorts.of_cores (hports : t.ports = s.ports) (hcores : t.cores = s.cores) : KeepsPorts s t :=
  ⟨hports, fun c => by rw [core_congr hcores]⟩

theorem KeepsPorts.of_onlyGov (h : OnlyGov s t) : KeepsPorts s t := by
  rw [h]
  exact .of_cores rfl rfl

theorem keepsPorts_ite {q : Prop} [Decidable q] (ht : KeepsPorts s t) (hu : KeepsPorts s u) : KeepsPorts s (if q then t else u) := by
  split <;> assumption

theorem keepsPorts_foldl {α : Type} {f : State → α → State} (h : ∀ s x, KeepsPorts s (f s x)) (l : List α) (s : State) :
    KeepsPorts s (l.foldl f s) := by
  induction l generalizing s with
  | nil => exact .refl s
  | cons x l ih => exact (h s x).trans (ih _)

theorem keepsPorts_modCore (s : State) (c : Nat) {f : Core → Core} (hf : (f (core s c)).resetCount = (core s c).resetCount) :
    KeepsPorts s (modCore s c f) := by
  refine ⟨rfl, fun d => ?_⟩
  by_cases hd : d = c
  · subst hd
    rw [core_modCore_same, hf]
  · rw [core_modCore_other _ hd]

theorem keepsPorts_setCtx (s : State) (w x : Nat) (c : Ctx) : KeepsPorts s (setCtx s w x c) := ⟨rfl, fun _ => rfl⟩

theorem keepsPorts_setCrank (s : State) (w : Nat) (k : Crank) : KeepsPorts s (setCrank s w k) := ⟨rfl, fun _ => rfl⟩

theorem keepsPorts_setLane (s : State) (l : Nat) (k : Lane) : KeepsPorts s (setLane s l k) := ⟨rfl, fun _ => rfl⟩

theorem keepsPorts_switchOn (s : State) (w x : Nat) : KeepsPorts s (switchOn s w x) := by
  have hstart (y : Nat) : KeepsPorts s (startCtx s w y) := ⟨rfl, fun _ => rfl⟩
  exact keepsPorts_ite (hstart _) (.refl s)

theorem keepsPorts_dropFifo (s : State) (w x : Nat) : KeepsPorts s (dropFifo s w x) :=
  (keepsPorts_ite (.refl s) (keepsPorts_modCore s _ rfl)).trans (keepsPorts_setCtx _ _ _ _)

theorem keepsPorts_endCtx (s : State) (w x : Nat) : KeepsPorts s (endCtx s w x) := by
  have hgov := (onlyGov_withdraw (dropFifo s w x) (.ctx w x)).trans (onlyGov_withdraw _ (.ctxGrow w x))
  exact (((keepsPorts_dropFifo s w x).trans (.of_onlyGov hgov)).trans (keepsPorts_setCtx _ _ _ _)).trans (keepsPorts_switchOn _ _ _)

theorem keepsPorts_dropCrank (s : State) (m w : Nat) : KeepsPorts s (dropCrank s m w) := by
  have hclaims : KeepsPorts s (if (crank s w).claims.any (fun c => c.master = m) then
      setCrank s w { crank s w with claims := (crank s w).claims.filter fun c => c.master ≠ m } else s) :=
    keepsPorts_ite (keepsPorts_setCrank s _ _) (.refl s)
  unfold dropCrank
  simp only
  split
  · exact hclaims.trans (keepsPorts_endCtx _ _ _)
  · exact hclaims

theorem keepsPorts_endLane (s : State) (l : Nat) : KeepsPorts s (endLane s l) := by
  have hgone := KeepsPorts.of_onlyGov (onlyGov_withdraw s (.lane l))
  exact (hgone.trans (keepsPorts_ite (.refl _) (keepsPorts_modCore _ _ rfl))).trans (keepsPorts_setLane _ _ _)

theorem keepsPorts_dropLane (s : State) (m l : Nat) : KeepsPorts s (dropLane s m l) :=
  (keepsPorts_ite (keepsPorts_setLane s _ _) (.refl s)).trans (keepsPorts_ite (keepsPorts_endLane _ _) (.refl _))

theorem keepsPorts_endHolds (s : State) (m : Nat) : KeepsPorts s (endHolds s m) := by
  have hcranks := keepsPorts_foldl (fun s w => keepsPorts_dropCrank s m w) (wheelsOf m) s
  have hlanes := keepsPorts_foldl (fun s l => keepsPorts_dropLane s m l) (lanesOf m)
    ((wheelsOf m).foldl (fun s w => dropCrank s m w) s)
  have hunwrap (v : State) : KeepsPorts v (dropUnwrap v m) := .of_cores rfl rfl
  exact (hcranks.trans hlanes).trans (hunwrap _)

theorem keepsPorts_wipeSlots (s : State) (q : Slot → Bool) : KeepsPorts s (wipeSlots s q) :=
  keepsPorts_foldl (fun (s : State) (e : Nat × Slot) => by
    obtain ⟨slots, hframe⟩ := (wipeExtent_effect s e.1).1
    rw [hframe]
    exact .of_cores rfl rfl) _ s

theorem keepsPorts_reserveMoveOp (s : State) (w : Nat) : KeepsPorts s (reserveMoveOp s w) :=
  keepsPorts_ite ⟨rfl, fun _ => rfl⟩ (.refl s)

theorem keepsPorts_endJob (s : State) (c how : Nat) : KeepsPorts s (endJob s c how) := by
  have hset (v : State) (j : Option Job) : KeepsPorts v (setJob v c j) := ⟨rfl, fun _ => rfl⟩
  unfold endJob
  split
  · exact keepsPorts_endHolds s c
  · have hends := (keepsPorts_wipeSlots s _).trans (keepsPorts_endHolds (endJobSlots s c) c)
    exact (hends.trans (hset _ _)).trans (keepsPorts_ite (keepsPorts_reserveMoveOp _ _) (.refl _))

theorem keepsPorts_dropSpokeToken (s : State) (c : Nat) : KeepsPorts s (dropSpokeToken s c) := by
  have hgone := KeepsPorts.of_onlyGov (onlyGov_withdraw s (.spoke c))
  have hback (v : State) (n : Nat) (class0 : Bool) : KeepsPorts v (giveBack v n class0) := .of_onlyGov (onlyGov_giveBack v n class0)
  exact hgone.trans (keepsPorts_ite ((hback _ _ _).trans (keepsPorts_modCore _ _ rfl)) (.refl _))

theorem keepsPorts_stopMaster (s : State) (m : Nat) : KeepsPorts s (stopMaster s m) :=
  ((keepsPorts_endJob s m 1).trans (keepsPorts_wipeSlots _ _)).trans (keepsPorts_dropSpokeToken _ _)

/-! ### The gatekeeper's reset, log and mailboxes (R298 to R303, R306) -/

theorem gkReset_resets (hon : portOn s p = true) :
    ∃ t, exec (.gkReset hubA p) s = .next t ∧ (core t (gkId p)).run = .reset ∧ (core t (gkId p)).pc = 0 ∧
      (core t (gkId p)).resetCount = ((core s (gkId p)).resetCount + 1) % 4 ∧ (port t p).gk = {} ∧
      (port t p).scratch = (port s p).scratch := by
  have hprog := port_modGk s p fun _ => {}
  have hcores : (modGk s p fun _ => {}).cores = s.cores := rfl
  have hmay : portMayWrite hubA p 0x320C = true := by simp [portMayWrite]
  have hop : exec (.gkReset hubA p) s = .next (gkResetOp s p) := 
    congrArg Host.Outcome.next ((portCmd_granted hon hmay 1).trans (portWriteOp_gkReset s hubA p))
  rw [hop, gkResetOp]
  generalize modGk s p (fun _ => {}) = w at hprog hcores
  have hstop := keepsPorts_stopMaster w (gkId p)
  have hgk : isHub (gkId p) = false := by
    rw [isHub, Bool.or_eq_false_iff]
    exact ⟨decide_eq_false (by simp only [gkId, hubA]; omega), decide_eq_false (by simp only [gkId, hubB]; omega)⟩
  have hcore := core_resetCore w (gkId p)
  rw [coreReset_of_not_hub hgk] at hcore
  have hports : (resetCore w (gkId p)).ports = w.ports := by
    rw [resetCore]
    generalize stopMaster w (gkId p) = x at hstop
    exact hstop.ports
  have hport : port (resetCore w (gkId p)) p = { port s p with gk := {} } := by rw [port, hports, ← port, hprog]
  refine ⟨_, rfl, by rw [hcore], by rw [hcore], ?_, by rw [hport], by rw [hport]⟩
  rw [hcore]
  exact congrArg (fun n => (n + 1) % 4) ((hstop.count _).trans (by rw [core_congr hcores]))

theorem tlogPop_granted (hon : portOn s p = true) (hmay : portMayWrite m p 0x3120 = true) :
    exec (.tlogPop m p) s = .next (gkPop s m p) :=
  congrArg Host.Outcome.next (by rw [guarded, if_pos hon, granted, if_pos hmay])

theorem gkPop_bare (hmay : mayPop s m p = true) (hprogram : gkShipped s p = false ∨ m ≠ gkId p) :
    gkPop s m p = setPort s p { port s p with tlog := (port s p).tlog.drop 1 } := by
  have hacts : ¬ ((m = gkId p && mayPop s m p && gkRuns s p && gkShipped s p) = true) := by
    rcases hprogram with h | h <;> simp [h]
  have hpop : tlogPopOp s m p = setPort s p { port s p with tlog := (port s p).tlog.drop 1 } := if_pos hmay
  unfold gkPop
  dsimp only
  split
  · rw [if_neg hacts, hpop]
  · exact hpop

theorem tlogPop_gatekeeper (hon : portOn s p = true) (hruns : coreStopped s (gkId p) = false) (hbare : gkShipped s p = false) :
    exec (.tlogPop (gkId p) p) s = .next (setPort s p { port s p with tlog := (port s p).tlog.drop 1 }) := by
  rw [tlogPop_granted hon (by simp [portMayWrite]), gkPop_bare (by simp [mayPop, hruns]) (.inl hbare)]

theorem tlogPop_hub (hon : portOn s p = true) (hstopped : coreStopped s (gkId p) = true) :
    exec (.tlogPop hubA p) s = .next (setPort s p { port s p with tlog := (port s p).tlog.drop 1 }) := by
  have hne : hubA ≠ gkId p := by
    simp only [hubA, gkId]
    omega
  rw [tlogPop_granted hon (by simp [portMayWrite]), gkPop_bare (by simp [mayPop, hstopped]) (.inr hne)]

theorem gkMailboxOut_answers (hon : portOn s p = true) :
    exec (.gkMailboxOut (gkId p) p hi) s =
      .next (hubInt (setRegB (setReg s (aPort p 0x322C) hi) (aPort p 0x3230) 2 true) "GK_OUT_READY" p) := by
  refine congrArg Host.Outcome.next ((portCmd_granted hon (by simp [portMayWrite]) hi).trans ?_)
  rw [portWriteOp_mailOut, if_pos rfl, mailOutOp]

theorem inTaken_frees (hon : portOn s p = true) :
    exec (.inTaken (gkId p) p) s = .next (setRegB (setPort s p { port s p with mail := false }) (aPort p 0x3230) 0 true) :=
  congrArg Host.Outcome.next ((portCmd_granted hon (by simp [portMayWrite]) 1).trans (portWriteOp_inTaken s p))

/-! ### The obligation -/

theorem ruleTables_complete (s : State) (p : Nat) (hon : portOn s p = true) :
    let owner := tableOwner s p
    let b := activeBank s p
    exec (.swap owner p) s = .next (setRegB s (aPort p 0x3004) 1 true) ∧
    exec (.copyActive owner p) s = .next (setRegB s (aPort p 0x3004) 2 true) ∧
    (∀ m, m ≠ owner → portMayWrite m p 0x3008 = true →
      exec (.swap m p) s = .next (writeIgnored s p) ∧ exec (.copyActive m p) s = .next (writeIgnored s p)) ∧
    (regB s (aPort p 0x3004) 1 = true → (port s p).txn = none → (port s p).brake = false → copyBusy s p = false →
      (gkShipped s p = false →
        ∃ t, exec (.swapApply p) s = .next t ∧ t = { s with regs := t.regs, cores := t.cores, gov := t.gov } ∧
          activeBank t p = 1 - b ∧ regB t (aPort p 0x3004) 1 = false ∧
          regF t (aPort p 0x3004) 16 16 = (regF s (aPort p 0x3004) 16 16 + 1) % 65536) ∧
      (gkRuns s p = true → gkShipped s p = true → (port s p).gk.todo = [] → (port s p).mail = false →
        ∃ t, exec (.swapApply p) s = .next t ∧ activeBank t p = 1 - b ∧ regB t (aPort p 0x3004) 1 = false ∧
          (port t p).gk = { (port s p).gk with reply := none, waiting := false } ∧
          ((port s p).gk.reply ≠ none → regB t (aPort p 0x3230) 2 = true))) ∧
    (copyBusy s p = true →
      ∃ t, exec (.copyDone p) s = .next t ∧ t = { s with regs := t.regs } ∧ copyBusy t p = false ∧ activeBank t p = b ∧
        (∀ n, n < 256 → reg t (opAddr p (1 - b) n) = reg s (opAddr p b n) ∧
          reg t (aPort p (0x2000 + 0x400 * (1 - b) + 4 * n)) = reg s (aPort p (0x2000 + 0x400 * b + 4 * n))) ∧
        reg t (aPort p (0x2800 + 4 * (1 - b))) = reg s (aPort p (0x2800 + 4 * b))) := by
  refine ⟨swap_owner hon, copyActive_owner hon, fun m hm hmay => tableControl_ignored hon hm hmay,
    fun hswap htxn hbrake hcopy => ⟨fun hbare => ?_, swapApply_shipped hswap htxn hbrake hcopy⟩, fun hcopy => ?_⟩
  · obtain ⟨t, ht, hswapped⟩ := swapApply_bare hswap htxn hbrake hcopy hbare
    exact ⟨t, ht, hswapped.frame, activeBank_swappedWord hswapped.word, swapBit_swappedWord hswapped.word,
      swapCount_swappedWord hswapped.word⟩
  · obtain ⟨t, ht, hframe, hdone, hbank, hcopied⟩ := copyDone_copies hcopy
    exact ⟨t, ht, hframe, hdone, hbank, fun n hn =>
      ⟨hcopied _ (mem_bankPairs.2 (.inl ⟨n, hn, rfl⟩)), hcopied _ (mem_bankPairs.2 (.inr (.inl ⟨n, hn, rfl⟩)))⟩,
      hcopied _ (mem_bankPairs.2 (.inr (.inr rfl)))⟩

end

/-- Settles O41: the tables through the swap register's laws, the shipped program through its turns, which act on one change
or message and stop at its swap. -/
theorem ruleTablesAndGatekeepersComplete : Obligations.RuleTablesAndGatekeepersComplete := by
  unfold Obligations.RuleTablesAndGatekeepersComplete
  refine ⟨ruleTables_complete, fun s p hi ms tag hon => ⟨tlogPop_gatekeeper hon, tlogPop_hub hon, gkReset_resets hon,
    fun m hm hbusy => ?_, gkMailboxOut_answers hon, inTaken_frees hon, fun hready howner htodo => ?_, windowExpiry_waits⟩⟩
  · obtain ⟨t, ht, hmailed⟩ := gkMailboxIn_waits hon hm hbusy
    exact ⟨t, ht, hmailed.time, by rw [hmailed.atPort], hmailed.open_, hmailed.lost⟩
  · exact ⟨bootDoneMessage_enters hon hready htodo howner,
      fun hlocked hclosed hused => openWindow_opens hon hready htodo howner hlocked hclosed hused,
      fun hopen => ⟨closeWindow_closes hon hready htodo howner hopen, windowExpiry_closes hready htodo howner hopen⟩,
      intervalEnd_zeroes hready htodo⟩

end Sys2Proof.Machine
end

section
/-! SUPPORT. Memory in its canonical form: registers, the recorder, the governor, Drip and fuses. -/

namespace Sys2Proof.Machine

/-! ### Memory in its canonical form -/

/-- Memory is in its canonical form. -/
def WfMem (s : State) : Prop := Memory.wf s.mem = true

section
variable {s t u : State} {α β : Type}

theorem WfMem.of_mem (h : WfMem s) (hm : t.mem = s.mem) : WfMem t := by
  rw [WfMem, hm]
  exact h

/-- Of an answer whose state comes first: the state has memory in its canonical form. As a predicate on the whole answer it
spares the comparison of projections. -/
def WfFst (r : State × α) : Prop := WfMem r.1

/-- The same of an answer whose state comes last. -/
def WfSnd (r : α × State) : Prop := WfMem r.2

theorem WfFst.of_eq {r : State × α} {x : α} (h : WfFst r) (hr : r = (t, x)) : WfMem t := by
  rw [hr] at h
  exact h

theorem WfSnd.of_eq {r : α × State} {x : α} (h : WfSnd r) (hr : r = (x, t)) : WfMem t := by
  rw [hr] at h
  exact h

theorem wfFst_mk {x : α} (h : WfMem t) : WfFst (t, x) := h

theorem wfSnd_mk {x : α} (h : WfMem t) : WfSnd (x, t) := h

theorem wfMem_ite {c : Prop} [Decidable c] (ht : WfMem t) (hu : WfMem u) : WfMem (if c then t else u) := by
  split <;> assumption

theorem wfFst_ite {c : Prop} [Decidable c] {r r' : State × α} (hr : WfFst r) (hr' : WfFst r') :
    WfFst (if c then r else r') := by
  split <;> assumption

theorem wfSnd_ite {c : Prop} [Decidable c] {r r' : α × State} (hr : WfSnd r) (hr' : WfSnd r') :
    WfSnd (if c then r else r') := by
  split <;> assumption

theorem wfMem_foldl {f : State → α → State} {l : List α} (hf : ∀ s x, WfMem s → WfMem (f s x)) (h : WfMem s) :
    WfMem (l.foldl f s) := by
  induction l generalizing s with
  | nil => exact h
  | cons x l ih => exact ih (hf s x h)

theorem wfSnd_foldl {f : β × State → α → β × State} {l : List α} {r : β × State} (hf : ∀ r x, WfSnd r → WfSnd (f r x))
    (h : WfSnd r) : WfSnd (l.foldl f r) := by
  induction l generalizing r with
  | nil => exact h
  | cons x l ih => exact ih (hf r x h)

theorem wfMem_with_pending {x} (h : WfMem s) : WfMem { s with pending := x } := h.of_mem rfl

theorem wfMem_with_boot {x} (h : WfMem s) : WfMem { s with boot := x } := h.of_mem rfl

theorem wfMem_with_chain {x} (h : WfMem s) : WfMem { s with chain := x } := h.of_mem rfl

theorem wfMem_with_chamber {x} (h : WfMem s) : WfMem { s with chamber := x } := h.of_mem rfl

theorem wfMem_with_chamber_otp {x y} (h : WfMem s) : WfMem { s with chamber := x, otp := y } := h.of_mem rfl

theorem wfMem_with_drip {x} (h : WfMem s) : WfMem { s with drip := x } := h.of_mem rfl

theorem wfMem_with_fabric {x} (h : WfMem s) : WfMem { s with fabric := x } := h.of_mem rfl

theorem wfMem_with_flash {x} (h : WfMem s) : WfMem { s with flash := x } := h.of_mem rfl

theorem wfMem_with_fs {x} (h : WfMem s) : WfMem { s with fs := x } := h.of_mem rfl

theorem wfMem_with_gov {x} (h : WfMem s) : WfMem { s with gov := x } := h.of_mem rfl

theorem wfMem_with_gov_pwr {x y} (h : WfMem s) : WfMem { s with gov := x, pwr := y } := h.of_mem rfl

theorem wfMem_with_hubs_lanes_boot {x y z} (h : WfMem s) : WfMem { s with hubs := x, lanes := y, boot := z } := h.of_mem rfl

theorem wfMem_with_i3c {x} (h : WfMem s) : WfMem { s with i3c := x } := h.of_mem rfl

theorem wfMem_with_lanes {x} (h : WfMem s) : WfMem { s with lanes := x } := h.of_mem rfl

theorem wfMem_with_lc {x} (h : WfMem s) : WfMem { s with lc := x } := h.of_mem rfl

theorem wfMem_with_otp {x} (h : WfMem s) : WfMem { s with otp := x } := h.of_mem rfl

theorem wfMem_with_ports {x} (h : WfMem s) : WfMem { s with ports := x } := h.of_mem rfl

theorem wfMem_with_pwr {x} (h : WfMem s) : WfMem { s with pwr := x } := h.of_mem rfl

theorem wfMem_with_starved {x} (h : WfMem s) : WfMem { s with starved := x } := h.of_mem rfl

theorem wfMem_with_svc {x} (h : WfMem s) : WfMem { s with svc := x } := h.of_mem rfl

theorem wfMem_with_time {x} (h : WfMem s) : WfMem { s with time := x } := h.of_mem rfl

theorem wfMem_with_upd {x} (h : WfMem s) : WfMem { s with upd := x } := h.of_mem rfl

theorem wfMem_with_wdma {x} (h : WfMem s) : WfMem { s with wdma := x } := h.of_mem rfl

/-- What the loss of every domain puts back beside memory. -/
theorem wfMem_with_lostUnits {cores wdma wdmaNext bankNext starved i3c fabric chain otp lc fw pwr} (h : WfMem s) :
    WfMem { s with cores := cores, wdma := wdma, wdmaNext := wdmaNext, bankNext := bankNext, starved := starved, i3c := i3c,
                   fabric := fabric, chain := chain, otp := otp, lc := lc, fw := fw, pwr := pwr } := h.of_mem rfl

/-- What `PORST_N` puts back beside memory. -/
theorem wfMem_with_heldUnits {regs platforms ports time gov pwr shadows} (h : WfMem s) :
    WfMem { s with regs := regs, platforms := platforms, ports := ports, time := time, gov := gov, pwr := pwr,
                   shadows := shadows } := h.of_mem rfl

theorem wfMem_wrBytes {a : Nat} {bs : List Byte} (h : WfMem s) : WfMem (wrBytes s a bs) := wrBytes_wf bs a h

theorem wfMem_wipeMem {lo hi : Nat} (h : WfMem s) : WfMem (wipeMem s lo hi) := wipeMem_wf lo hi h

end

/-! #### Registers, outputs, cores, records and violations -/

section
variable {s t : State} {a addr c i island lo m rtype source tokens v : Nat} {class0 : Bool} {payload : List W32} {o : Out}
  {f : State → State} {work : Work}

theorem wfMem_wrMem {n : Nat} (h : WfMem s) : WfMem (wrMem s a n v) := wfMem_wrBytes h

theorem wfMem_setReg {v : W32} (h : WfMem s) : WfMem (setReg s a v) := h.of_mem rfl

theorem wfMem_setRegF {len : Nat} (h : WfMem s) : WfMem (setRegF s a lo len v) := wfMem_setReg h

theorem wfMem_setRegB {v : Bool} (h : WfMem s) : WfMem (setRegB s a i v) := wfMem_setRegF h

theorem wfMem_setPair (h : WfMem s) : WfMem (setPair s a v) := wfMem_setReg (wfMem_setReg h)

theorem wfMem_resetRegs {hi : Nat} (h : WfMem s) : WfMem (resetRegs s lo hi) := h.of_mem rfl

theorem wfMem_plainWrite {v : W32} (h : WfMem s) : WfMem (plainWrite s a v) := wfMem_setReg h

theorem wfMem_emitOut (h : WfMem s) : WfMem (emitOut s o) := h.of_mem rfl

theorem wfSnd_drawWord (h : WfMem s) : WfSnd (drawWord s) := wfSnd_mk (h.of_mem rfl)

theorem wfSnd_drawWords {n : Nat} (h : WfMem s) : WfSnd (drawWords n s) := by
  induction n generalizing s with
  | zero => exact h
  | succ n ih => exact ih (wfSnd_drawWord h)

theorem wfSnd_drawBit (h : WfMem s) : WfSnd (drawBit s) := wfSnd_mk (wfSnd_drawWord h)

theorem wfMem_setCore {k : Core} (h : WfMem s) : WfMem (setCore s c k) := h.of_mem rfl

theorem wfMem_modCore {f : Core → Core} (h : WfMem s) : WfMem (modCore s c f) := wfMem_setCore h

theorem wfMem_raiseInt (h : WfMem s) : WfMem (raiseInt s c v) := wfMem_modCore h

theorem wfMem_hubInt {name : String} {arg : Nat} (h : WfMem s) : WfMem (hubInt s name arg) := wfMem_emitOut h

theorem wfMem_setDom {d : Nat} {v : DomState} (h : WfMem s) : WfMem (setDom s d v) := h.of_mem rfl

theorem wfMem_setFunc {f : Nat} {k : Func} (h : WfMem s) : WfMem (setFunc s f k) := h.of_mem rfl

theorem wfMem_setVector {v : Vector32} (h : WfMem s) : WfMem (setVector s i v) := h.of_mem rfl

theorem wfMem_hostOut {f : Nat} (h : WfMem s) : WfMem (hostOut s f o) := wfMem_ite (wfMem_emitOut h) (h.of_mem rfl)

theorem wfMem_sendMsix {f : Nat} (h : WfMem s) : WfMem (sendMsix s f v) :=
  wfMem_ite h (wfMem_ite (wfMem_setVector h) (wfMem_hostOut h))

theorem wfMem_bump (h : WfMem s) : WfMem (bump s a) := wfMem_setReg h

theorem wfMem_diagEntry {f : Option Nat} {q cid tag : Nat} {code : W32} {detail : List Byte} (h : WfMem s) :
    WfMem (diagEntry s rtype f q cid code detail tag) :=
  wfMem_ite h (wfMem_ite (wfMem_bump h) (wfMem_sendMsix (wfMem_setReg (wfMem_hostOut h))))

theorem wfMem_diagRecord (h : WfMem s) : WfMem (diagRecord s source rtype payload) := wfMem_ite (wfMem_diagEntry h) h

theorem wfMem_countDrop (h : WfMem s) : WfMem (countDrop s) := wfMem_bump h

theorem wfMem_raiseRecord (h : WfMem s) : WfMem (raiseRecord s island source rtype payload) :=
  wfMem_ite (h.of_mem rfl) (wfMem_ite (wfMem_with_fs (wfMem_countDrop h)) (wfMem_with_fs (wfMem_countDrop h)))

theorem wfMem_emit (h : WfMem s) : WfMem (emit s island source rtype payload) := wfMem_raiseRecord (wfMem_diagRecord h)

theorem wfMem_violate {kind : Nat} (h : WfMem s) : WfMem (violate s m kind addr) := h.of_mem rfl

theorem wfMem_offAccess (h : WfMem s) : WfMem (offAccess s m addr) := wfMem_emit h

theorem wfMem_guarded {on : Bool} (h : WfMem s) (hf : ∀ x0, WfMem x0 → WfMem (f x0)) : WfMem (guarded s m addr on f) :=
  wfMem_ite (hf _ h) (wfMem_offAccess h)

theorem wfMem_onWheel {w : Nat} (h : WfMem s) (hf : ∀ x0, WfMem x0 → WfMem (f x0)) : WfMem (onWheel s m w addr f) :=
  wfMem_ite h (wfMem_guarded h (fun _ h1 => hf _ h1))

theorem wfMem_granted {ok : Bool} (h : WfMem s) (hf : ∀ x0, WfMem x0 → WfMem (f x0)) : WfMem (granted s m addr ok f) :=
  wfMem_ite (hf _ h) (wfMem_violate h)

theorem wfMem_byHubA (h : WfMem s) (hf : ∀ x0, WfMem x0 → WfMem (f x0)) : WfMem (byHubA s m addr f) :=
  wfMem_granted h (fun _ h1 => hf _ h1)

theorem wfMem_byHub (h : WfMem s) (hf : ∀ x0, WfMem x0 → WfMem (f x0)) : WfMem (byHub s m addr f) :=
  wfMem_granted h (fun _ h1 => hf _ h1)

theorem wfMem_askTokens (h : WfMem s) : WfMem (askTokens s work tokens class0) := h.of_mem rfl

theorem wfMem_giveBack (h : WfMem s) : WfMem (giveBack s tokens class0) := wfMem_ite (h.of_mem rfl) (h.of_mem rfl)

theorem wfMem_dropRequests (h : WfMem s) : WfMem (dropRequests s work) := h.of_mem rfl

theorem wfMem_dropGrants (h : WfMem s) : WfMem (dropGrants s work) :=
  wfMem_with_gov (wfMem_foldl (fun _ _ h1 => wfMem_giveBack h1) h)

theorem wfMem_withdraw (h : WfMem s) : WfMem (withdraw s work) := wfMem_dropGrants (wfMem_dropRequests h)

end

/-! #### The flight recorder -/

section
variable {s t : State} {island m off : Nat} {r : Record} {v : W32}

theorem wfMem_fsWriteRecord {lost : Bool} (h : WfMem s) : WfMem (fsWriteRecord s off r lost) := wfMem_wrBytes h

theorem wfMem_storeRecord (h : WfMem s) : WfMem (storeRecord s r) :=
  wfMem_ite (wfMem_with_fs (wfMem_setRegB (wfMem_setReg (wfMem_fsWriteRecord (wfMem_ite h (wfMem_fsWriteRecord h))))))
    (wfMem_setRegB (wfMem_countDrop h))

theorem wfMem_holdRecord (h : WfMem s) : WfMem (holdRecord s r) := wfMem_ite (h.of_mem rfl) (wfMem_with_fs (wfMem_countDrop h))

theorem wfMem_arriveRecord (h : WfMem s) : WfMem (arriveRecord s island r) := wfMem_ite (wfMem_holdRecord h) (h.of_mem rfl)

theorem wfMem_recordArrivalOp (h : WfMem s) : WfMem (recordArrivalOp s island) := by
  unfold recordArrivalOp
  split
  · exact h
  · exact wfMem_arriveRecord (h.of_mem rfl)

theorem wfMem_recordStoreOp (h : WfMem s) : WfMem (recordStoreOp s) := by
  unfold recordStoreOp
  refine wfMem_ite h ?_
  split
  · exact wfMem_storeRecord (h.of_mem rfl)
  · exact wfMem_storeRecord (h.of_mem rfl)
  · exact h

theorem wfMem_holdArrived (h : WfMem s) : WfMem (holdArrived s) :=
  wfMem_foldl (fun _ _ h1 => wfMem_holdRecord h1) (h.of_mem rfl)

theorem wfMem_fsFreezeOp (h : WfMem s) : WfMem (fsFreezeOp s m) := wfMem_holdArrived (wfMem_with_fs (wfMem_setRegB h))

theorem wfMem_thawStart (h : WfMem s) : WfMem (thawStart s) := wfMem_with_fs (wfMem_setReg (wfMem_setReg h))

theorem wfMem_fsThawOp (h : WfMem s) : WfMem (fsThawOp s m) :=
  wfMem_ite (wfMem_ite (wfMem_setRegB h) (wfMem_thawStart (wfMem_setRegB h))) h

theorem wfMem_mergeEndOp (h : WfMem s) : WfMem (mergeEndOp s) := wfMem_ite (h.of_mem rfl) h

theorem wfMem_fsThawAll (h : WfMem s) : WfMem (fsThawAll s) := wfMem_ite (wfMem_thawStart (wfMem_setRegF h)) h

theorem wfMem_freezeTimeoutOp (h : WfMem s) : WfMem (freezeTimeoutOp s) := wfMem_ite (wfMem_setRegB (wfMem_fsThawAll h)) h

theorem wfMem_fsResult {code : Nat} (h : WfMem s) : WfMem (fsResult s code) := wfMem_setReg h

theorem wfMem_fsReleaseOp (h : WfMem s) : WfMem (fsReleaseOp s v) :=
  wfMem_ite (wfMem_fsResult h) (wfMem_ite (wfMem_fsResult h) (wfMem_fsResult (wfMem_setReg h)))

theorem wfMem_commitOp (h : WfMem s) : WfMem (commitOp s) :=
  wfMem_ite (wfMem_fsResult h) (wfMem_hubInt (wfMem_fsResult (wfMem_setRegB (wfMem_setReg (wfMem_setReg h)))))

theorem wfMem_commitDoneOp {release : Bool} (h : WfMem s) : WfMem (commitDoneOp s release) :=
  wfMem_ite (wfMem_fsResult (wfMem_ite (wfMem_setReg (wfMem_setRegB h)) (wfMem_setRegB h))) h

theorem wfMem_droppedClrOp (h : WfMem s) : WfMem (droppedClrOp s) := wfMem_setReg h

theorem wfMem_fsCmdOp (h : WfMem s) : WfMem (fsCmdOp s m v) := by
  unfold fsCmdOp
  extract_lets +onlyGivenNames s₁ s₂ s₃ s₄
  have hs₁ : WfMem s₁ := wfMem_ite (wfMem_fsFreezeOp h) h
  have hs₂ : WfMem s₂ := wfMem_ite (wfMem_fsThawOp hs₁) hs₁
  have hs₃ : WfMem s₃ := wfMem_ite (wfMem_commitOp hs₂) hs₂
  have hs₄ : WfMem s₄ := wfMem_ite (wfMem_commitDoneOp hs₃) hs₃
  exact wfMem_ite (wfMem_droppedClrOp hs₄) hs₄

theorem wfMem_fsSwGoOp (h : WfMem s) : WfMem (fsSwGoOp s m) := wfMem_ite (wfMem_emit h) h

theorem wfMem_resetMark {cause : Nat} (h : WfMem s) : WfMem (resetMark s cause) := wfMem_arriveRecord h

theorem wfMem_fsDeviceReset (h : WfMem s) : WfMem (fsDeviceReset s) := wfMem_setRegB (wfMem_fsThawAll h)

theorem wfMem_fsPowerUp (h : WfMem s) : WfMem (fsPowerUp s) := wfMem_with_fs (wfMem_wipeMem (wfMem_resetRegs h))

theorem wfMem_fsWrite (h : WfMem s) : WfMem (fsWrite s m off v) := by
  unfold fsWrite
  refine wfMem_ite (wfMem_fsCmdOp h) (wfMem_ite (wfMem_fsReleaseOp h) (wfMem_ite ?_ ?_))
  · exact wfMem_ite h (wfMem_plainWrite h)
  · exact wfMem_ite (h.of_mem rfl) (wfMem_ite (wfMem_ite (wfMem_fsSwGoOp h) h) (wfMem_ite (h.of_mem rfl) (wfMem_plainWrite h)))

end

/-! #### The governor -/

section
variable {s t : State} {island w : Nat} {class0 : Bool} {r : Request} {v : W32}

theorem wfMem_setParked {v : Bool} (h : WfMem s) : WfMem (setParked s w v) := h.of_mem rfl

theorem wfMem_setBase {b : Base} (h : WfMem s) : WfMem (setBase s w b) := h.of_mem rfl

theorem wfMem_setLock {v : Bool} (h : WfMem s) : WfMem (setLock s island v) := wfMem_setRegB h

theorem wfMem_setCrank {k : Crank} (h : WfMem s) : WfMem (setCrank s w k) := h.of_mem rfl

theorem wfMem_setCtx {x : Nat} {c : Ctx} (h : WfMem s) : WfMem (setCtx s w x c) := wfMem_setCrank h

theorem wfMem_setLane {l : Nat} {k : Lane} (h : WfMem s) : WfMem (setLane s l k) := h.of_mem rfl

theorem wfMem_askAdmission {work : Work} {tokens : Nat} (h : WfMem s) : WfMem (askAdmission s work tokens class0) := by
  unfold askAdmission
  split
  · exact wfMem_askTokens (wfMem_ite (wfMem_askTokens h) h)
  · exact wfMem_askTokens h

theorem wfMem_wakeWheel (h : WfMem s) : WfMem (wakeWheel s w class0) := wfMem_ite (wfMem_askTokens h) h

theorem wfMem_recompute (h : WfMem s) : WfMem (recompute s) := wfMem_ite (h.of_mem rfl) (h.of_mem rfl)

theorem wfMem_governorRequestOp (h : WfMem s) : WfMem (governorRequestOp s) := by
  unfold governorRequestOp
  split
  · exact h
  · exact h.of_mem rfl

theorem wfMem_grantRequest (h : WfMem s) : WfMem (grantRequest s r) := by
  unfold grantRequest
  dsimp only
  split
  · exact h.of_mem rfl
  · exact wfMem_setBase (h.of_mem rfl)
  · exact h.of_mem rfl

theorem wfMem_grantClass0 {l : List Request} (h : WfMem s) : WfMem (grantClass0 l s) := by
  induction l generalizing s with
  | nil => exact h
  | cons r l ih => exact wfMem_ite (ih (wfMem_grantRequest h)) (ih (h.of_mem rfl))

theorem wfMem_moveBases {l : List Nat} (h : WfMem s) : WfMem (moveBases l s) := by
  induction l generalizing s with
  | nil => exact h
  | cons w l ih => exact wfMem_ite (ih h) (wfMem_ite (ih (wfMem_with_gov (wfMem_setBase h))) (h.of_mem rfl))

theorem wfMem_noteWait (h : WfMem s) : WfMem (noteWait s r) := by
  unfold noteWait
  extract_lets +onlyGivenNames _ _ s₁
  have hs₁ : WfMem s₁ := wfMem_ite (wfMem_setReg h) h
  exact wfMem_ite (wfMem_emit hs₁) hs₁

theorem wfMem_grantGeneral {n : Nat} {l : List Request} (h : WfMem s) : WfMem (grantGeneral n l s) := by
  induction l generalizing n s with
  | nil =>
    cases n with
    | zero => exact h.of_mem rfl
    | succ n => exact h
  | cons r l ih =>
    cases n with
    | zero => exact h.of_mem rfl
    | succ n => exact wfMem_ite (ih (h.of_mem rfl)) (wfMem_ite (h.of_mem rfl) (ih (wfMem_grantRequest (wfMem_noteWait h))))

theorem wfMem_governorDecisionOp (h : WfMem s) : WfMem (governorDecisionOp s) :=
  wfMem_ite h (wfMem_grantGeneral (wfMem_with_gov (wfMem_moveBases (wfMem_with_gov (wfMem_grantClass0 (h.of_mem rfl))))))

theorem wfMem_recomputeEndOp (h : WfMem s) : WfMem (recomputeEndOp s) := wfMem_ite (h.of_mem rfl) h

theorem wfMem_startWork (h : WfMem s) : WfMem (startWork s r) := by
  unfold startWork
  split
  · exact wfMem_modCore h
  · exact wfMem_setCtx h
  · exact wfMem_setCtx h
  · exact wfMem_setLane h
  · exact wfMem_recompute (wfMem_setDom (h.of_mem rfl))
  · exact h
  · exact h

theorem wfMem_admissionGrantOp (h : WfMem s) : WfMem (admissionGrantOp s) := by
  unfold admissionGrantOp
  split
  · exact h
  · exact wfMem_startWork (h.of_mem rfl)

theorem wfMem_ceilingWriteOp (h : WfMem s) : WfMem (ceilingWriteOp s v) :=
  wfMem_ite h (wfMem_recompute (wfMem_setReg (wfMem_emit h)))

theorem wfMem_wheelParkOp (h : WfMem s) : WfMem (wheelParkOp s w) :=
  wfMem_ite (wfMem_recompute (wfMem_with_gov (wfMem_setLock (wfMem_setParked (wfMem_setBase (wfMem_giveBack h)))))) h

theorem wfMem_wheelUnparkOp (h : WfMem s) : WfMem (wheelUnparkOp s w) := wfMem_ite (wfMem_setLock (wfMem_setParked h)) h

theorem wfMem_wheelWarmOp (h : WfMem s) : WfMem (wheelWarmOp s v) :=
  wfMem_foldl (fun _ _ h1 => wfMem_ite (wfMem_wakeWheel h1) h1) (wfMem_setReg h)

theorem wfMem_setStep {v : Nat} (h : WfMem s) : WfMem (setStep s w v) :=
  wfMem_ite (wfMem_ite (wfMem_setLock (wfMem_with_pwr (wfMem_setRegF h))) (wfMem_setRegF h)) h

theorem wfMem_wheelFreqOp {j : Nat} (h : WfMem s) : WfMem (wheelFreqOp s j v) := wfMem_foldl (fun _ _ h1 => wfMem_setStep h1) h

theorem wfMem_relockDoneOp (h : WfMem s) : WfMem (relockDoneOp s w) := wfMem_ite (wfMem_setLock (h.of_mem rfl)) h

theorem wfMem_reserveMoveOp (h : WfMem s) : WfMem (reserveMoveOp s w) := wfMem_ite (h.of_mem rfl) h

theorem wfMem_takePreGrant (h : WfMem s) : WfMem (takePreGrant s) := wfMem_ite (h.of_mem rfl) (h.of_mem rfl)

theorem wfMem_dropSpokeToken {c : Nat} (h : WfMem s) : WfMem (dropSpokeToken s c) :=
  wfMem_ite (wfMem_modCore (wfMem_giveBack (wfMem_withdraw h))) (wfMem_withdraw h)

theorem wfMem_clockFaultOp (h : WfMem s) : WfMem (clockFaultOp s island) := wfMem_ite (wfMem_emit (wfMem_setLock h)) h

end

/-! #### Entropy -/

section
variable {s t : State} {off : Nat}

theorem wfMem_dripFill {n : Nat} (h : WfMem s) : WfMem (dripFill n s) := by
  induction n generalizing s with
  | zero => exact h
  | succ n ih => exact wfMem_ite (ih (wfMem_with_drip (wfSnd_drawWord h))) h

theorem wfMem_of_dripTake {n : Nat} {ws : List W32} (h : WfMem s) (ht : dripTake s n = some (ws, t)) : WfMem t := by
  unfold dripTake at ht
  split at ht
  · cases ht
  · split at ht
    · cases ht
      exact h.of_mem rfl
    · split at ht
      · cases ht
        exact wfSnd_drawWords (h.of_mem rfl)
      · cases ht

theorem wfMem_selftestOp (h : WfMem s) : WfMem (selftestOp s) := wfMem_setRegB (h.of_mem rfl)

theorem wfMem_selftestEndOp {pass : Bool} (h : WfMem s) : WfMem (selftestEndOp s pass) :=
  wfMem_ite (wfMem_ite (wfMem_setRegB (wfMem_setRegB (h.of_mem rfl))) (wfMem_bump (h.of_mem rfl))) h

theorem wfMem_healthFailOp (h : WfMem s) : WfMem (healthFailOp s) := wfMem_ite (wfMem_setRegB (wfMem_bump (h.of_mem rfl))) h

theorem wfSnd_dripDataOp (h : WfMem s) : WfSnd (dripDataOp s) := by
  unfold dripDataOp
  split
  · next htake => exact wfMem_of_dripTake h htake
  · exact wfMem_setRegB h

theorem wfMem_dripWrite {v : W32} (h : WfMem s) : WfMem (dripWrite s off v) :=
  wfMem_ite (wfMem_ite (wfMem_selftestOp (wfMem_plainWrite h)) (wfMem_plainWrite h)) (wfMem_plainWrite h)

theorem wfSnd_dripRead (h : WfMem s) : WfSnd (dripRead s off) :=
  wfSnd_ite (wfSnd_mk h) (wfSnd_ite (wfSnd_mk h) (wfSnd_ite (wfSnd_dripDataOp h) (wfSnd_mk h)))

theorem wfMem_dripDataRead {m : Nat} (h : WfMem s) : WfMem (dripDataRead s m) :=
  wfMem_ite (wfMem_emitOut (wfMem_offAccess h)) (wfMem_ite (wfMem_emitOut (wfMem_violate h))
    (wfMem_emitOut (wfSnd_dripDataOp h)))

end

/-! #### Fuses -/

section
variable {s t : State} {a c i op source : Nat} {weak : BitVec 39} {ps : List (Nat × BitVec 39)} {d : W32}

theorem wfMem_otpLog {r marg : Nat} (h : WfMem s) : WfMem (otpLog s source a r marg) := by
  unfold otpLog
  extract_lets +onlyGivenNames s₁
  have hs₁ : WfMem s₁ := wfMem_ite (wfMem_emit h) h
  exact wfMem_ite (wfMem_emit hs₁) hs₁

theorem wfMem_otpLogWords {as : List Nat} (h : WfMem s) : WfMem (otpLogWords s source as) :=
  wfMem_foldl (fun _ _ h1 => wfMem_otpLog h1) h

theorem wfMem_setOtpCode {code : Nat} (h : WfMem s) : WfMem (setOtpCode s code) := wfMem_setRegF h

theorem wfMem_showOtpBusy (h : WfMem s) : WfMem (showOtpBusy s) := wfMem_setRegB h

theorem wfMem_pumpStart (h : WfMem s) : WfMem (pumpStart s) := wfMem_setRegB (h.of_mem rfl)

theorem wfMem_otpStart (h : WfMem s) : WfMem (otpStart s op a d) := by
  unfold otpStart
  refine wfMem_ite (wfMem_setRegB h) (wfMem_ite ?_ ?_)
  · extract_lets +onlyGivenNames _ s₁
    have hs₁ : WfMem s₁ := wfMem_showOtpBusy (wfMem_with_otp (wfMem_otpLogWords h))
    exact wfMem_ite (wfMem_pumpStart hs₁) hs₁
  · extract_lets +onlyGivenNames s₁
    have hs₁ : WfMem s₁ := wfMem_setOtpCode (wfMem_otpLogWords h)
    exact wfMem_ite (wfMem_setReg hs₁) hs₁

theorem wfSnd_drawCell (h : WfMem s) : WfSnd (drawCell s) := wfSnd_mk (wfSnd_drawWords h)

theorem wfMem_setCell {solid marg : BitVec 39} (h : WfMem s) : WfMem (setCell s c solid marg) := h.of_mem rfl

theorem wfFst_pulseCell {target : BitVec 39} (h : WfMem s) : WfFst (pulseCell s c target weak) :=
  wfFst_ite (wfFst_mk (wfMem_setCell h)) (wfFst_mk (wfMem_setCell (wfSnd_drawCell h)))

theorem wfFst_pulseAll {weak : BitVec 39} {l : List (Nat × BitVec 39)} (h : WfMem s) : WfFst (pulseAll weak l s) := by
  induction l generalizing s with
  | nil => exact h
  | cons e l ih =>
    rw [pulseAll]
    split
    · next hpulse => exact ih ((wfFst_pulseCell h).of_eq hpulse)
    · next hpulse => exact (wfFst_pulseCell h).of_eq hpulse

theorem wfMem_otpEnd {a : Nat} {r : State × Bool} (h : WfFst r) : WfMem (otpEnd a r) := by
  obtain ⟨u, ok⟩ := r
  cases ok with
  | true => exact wfMem_setOtpCode h
  | false => exact wfMem_setOtpCode (wfMem_emit h)

theorem wfMem_showRedirect (h : WfMem s) : WfMem (showRedirect s) := wfMem_setReg h

theorem wfMem_otpFinish {cmd : OtpCmd} {weak : BitVec 39} (h : WfMem s) : WfMem (otpFinish s cmd weak) := by
  unfold otpFinish
  dsimp only
  split
  · exact wfMem_setOtpCode (wfMem_setRegF (wfMem_setReg (wfMem_setReg (wfMem_setReg (wfMem_otpLog h)))))
  · exact wfMem_otpEnd (wfFst_pulseAll h)
  · exact wfMem_otpEnd (wfFst_pulseAll h)
  · exact wfMem_setOtpCode (wfMem_setReg (wfMem_otpLogWords h))
  · split
    · exact h
    · next htake => exact wfMem_otpEnd (wfFst_pulseAll (wfMem_of_dripTake h htake))
  · split
    · exact wfMem_setOtpCode h
    · split
      · next hpulses => exact wfMem_setOtpCode (wfMem_showRedirect (((wfFst_pulseAll h).of_eq hpulses).of_mem rfl))
      · next hpulses => exact wfMem_setOtpCode (wfMem_emit ((wfFst_pulseAll h).of_eq hpulses))
  · exact h

theorem wfMem_otpDoneOp (h : WfMem s) : WfMem (otpDoneOp s weak) := by
  unfold otpDoneOp
  split
  · exact h
  · exact wfMem_ite h (wfMem_showOtpBusy (wfMem_with_otp (wfMem_otpFinish h)))

theorem wfSnd_abandonPulses {cmd : OtpCmd} (h : WfMem s) : WfSnd (abandonPulses s cmd) := by
  unfold abandonPulses
  split
  · exact wfSnd_mk h
  · exact wfSnd_mk h
  · exact wfSnd_mk (wfSnd_drawWords h)
  · split
    · exact wfSnd_mk h
    · exact wfSnd_mk h
  · exact wfSnd_mk h

theorem wfMem_stopPulses {k : Nat} (h : WfMem s) : WfMem (stopPulses s ps k) := by
  unfold stopPulses
  dsimp only
  split
  · exact wfMem_setCell (wfSnd_drawCell (wfSnd_drawCell (wfFst_pulseAll h)))
  · exact (wfFst_pulseAll h)

theorem wfMem_stopAnywhere (h : WfMem s) : WfMem (stopAnywhere s ps) := wfMem_stopPulses (wfSnd_drawWord h)

theorem wfMem_abandonCommand (h : WfMem s) : WfMem (abandonCommand s) := by
  unfold abandonCommand
  split
  · exact h
  · extract_lets +onlyGivenNames _ s₁
    have hs₁ : WfMem s₁ := wfMem_stopAnywhere (wfSnd_abandonPulses h)
    exact wfMem_with_otp (wfMem_ite (wfMem_setCell (wfSnd_drawWord hs₁)) hs₁)

theorem wfMem_pumpIdleOp (h : WfMem s) : WfMem (pumpIdleOp s) := wfMem_ite h (wfMem_setRegB (h.of_mem rfl))

theorem wfMem_otpWrite {off : Nat} {v : W32} (h : WfMem s) : WfMem (otpWrite s off v) :=
  wfMem_ite (wfMem_ite (wfMem_otpStart h) h) (wfMem_plainWrite h)

theorem wfMem_senseRedirect (h : WfMem s) : WfMem (senseRedirect s i) := by
  unfold senseRedirect
  split
  · exact h.of_mem rfl
  · exact wfMem_setRegB (wfMem_emit (h.of_mem rfl))

theorem wfMem_senseCrit (h : WfMem s) : WfMem (senseCrit s i) :=
  wfMem_setReg (wfMem_ite (wfMem_setRegB (wfMem_setReg (wfMem_otpLog h))) (wfMem_setReg (wfMem_otpLog h)))

theorem wfMem_senseArray (h : WfMem s) : WfMem (senseArray s) :=
  wfMem_foldl (fun _ _ h1 => wfMem_senseCrit h1) (wfMem_showRedirect (wfMem_foldl (fun _ _ h1 => wfMem_senseRedirect h1) h))

theorem wfMem_seqProgram (h : WfMem s) : WfMem (seqProgram s a d) := wfFst_pulseCell (wfMem_pumpStart h)

theorem wfMem_seqWords {ws : List (Nat × W32)} (h : WfMem s) : WfMem (seqWords s ws) :=
  wfMem_foldl (fun _ _ h1 => wfMem_seqProgram h1) h

theorem wfMem_abandonStep (h : WfMem s) : WfMem (abandonStep s) := by
  unfold abandonStep
  split
  · exact h
  · exact wfMem_ite h (wfMem_stopAnywhere h)

theorem wfMem_abandonOtp (h : WfMem s) : WfMem (abandonOtp s) := wfMem_abandonStep (wfMem_abandonCommand h)

theorem wfMem_otpCommand {m : Nat} {addr : Option Nat} {data : Option W32} (h : WfMem s) :
    WfMem (otpCommand s m op addr data) := by
  unfold otpCommand
  refine wfMem_guarded h (fun _ h1 => ?_)
  refine wfMem_byHubA h1 (fun _ h2 => ?_)
  extract_lets +onlyGivenNames s₁
  have hs₁ : WfMem s₁ := by
    unfold s₁
    split
    · exact wfMem_setReg h2
    · exact h2
  refine wfMem_otpWrite ?_
  split
  · exact wfMem_setReg hs₁
  · exact hs₁

theorem wfMem_otpDone (h : WfMem s) : WfMem (otpDone s weak) := wfMem_ite (wfMem_otpDoneOp h) h

end

end Sys2Proof.Machine
end

section
/-! SUPPORT. Memory in its canonical form: platforms, jobs, memories and Cranks. -/

namespace Sys2Proof.Machine

/-! #### Platforms and pins -/

section
variable {s t : State} {act bytes m n p : Nat} {v : W32}

theorem wfMem_noteWake {cause pin : Nat} (h : WfMem s) : WfMem (noteWake s cause pin) := wfMem_ite (h.of_mem rfl) h

theorem wfMem_setPin {v : Bool} (h : WfMem s) : WfMem (setPin s n v) := h.of_mem rfl

theorem wfMem_setPlat {k : Platform} (h : WfMem s) : WfMem (setPlat s p k) := h.of_mem rfl

theorem wfMem_setPlatStatus {i : Nat} {v : Bool} (h : WfMem s) : WfMem (setPlatStatus s p i v) := wfMem_setRegB h

theorem wfMem_settleDelay (h : WfMem s) : WfMem (settleDelay s p) := wfMem_ite h (wfMem_setPlat h)

theorem wfMem_settle (h : WfMem s) : WfMem (settle s) := wfMem_foldl (fun _ _ h1 => wfMem_settleDelay h1) h

theorem wfMem_setPort {k : Port} (h : WfMem s) : WfMem (setPort s p k) := h.of_mem rfl

theorem wfMem_hostModeReset (h : WfMem s) : WfMem (hostModeReset s p) := wfMem_setReg h

theorem wfMem_brakeOp {t : HostTxn} (h : WfMem s) : WfMem (brakeOp s p bytes t) := wfMem_bump (wfMem_setPort (wfMem_emitOut h))

theorem wfMem_flashTouched {k : Nat} (h : WfMem s) : WfMem (flashTouched s p k) := h.of_mem rfl

theorem wfMem_releaseBus {t : HostTxn} (h : WfMem s) : WfMem (releaseBus s p bytes t) :=
  wfMem_ite (wfMem_brakeOp h) (wfMem_ite (wfMem_emitOut h) (wfMem_flashTouched (wfMem_emitOut h)))

theorem wfMem_cutTxn (h : WfMem s) : WfMem (cutTxn s p) := by
  unfold cutTxn
  split
  · exact wfMem_ite (wfMem_releaseBus (wfMem_setPort h)) (wfMem_setPort h)
  · exact h

theorem wfMem_portHold (h : WfMem s) : WfMem (portHold s p) := wfMem_setPort (wfMem_hostModeReset (wfMem_cutTxn h))

theorem wfMem_holdOp (h : WfMem s) : WfMem (holdOp s p) :=
  wfMem_noteWake (wfMem_settle (wfMem_portHold (wfMem_setPlat (wfMem_setReg h))))

theorem wfMem_holdAll (h : WfMem s) : WfMem (holdAll s) := wfMem_foldl (fun _ _ h1 => wfMem_holdOp h1) h

theorem wfMem_armAudit {v : Bool} (h : WfMem s) : WfMem (armAudit s p v) := wfMem_setPlatStatus h

theorem wfMem_platformReleaseOp (h : WfMem s) : WfMem (platformReleaseOp s p) :=
  wfMem_ite (wfMem_settle (wfMem_armAudit (wfMem_setRegB (wfMem_setPlatStatus h)))) h

theorem wfMem_delayDoneOp (h : WfMem s) : WfMem (delayDoneOp s p) := wfMem_ite (wfMem_setPlat h) h

theorem wfMem_powerGoodRiseOp (h : WfMem s) : WfMem (powerGoodRiseOp s n) := by
  unfold powerGoodRiseOp
  extract_lets +onlyGivenNames s₁
  have hs₁ : WfMem s₁ := wfMem_setPin h
  exact wfMem_ite (wfMem_ite (wfMem_setPlat hs₁) hs₁) hs₁

theorem wfMem_powerGoodStableOp (h : WfMem s) : WfMem (powerGoodStableOp s p) := wfMem_ite (wfMem_setPlat h) h

theorem wfMem_powerGoodFallOp (h : WfMem s) : WfMem (powerGoodFallOp s n) := by
  unfold powerGoodFallOp
  refine wfMem_ite ?_ (wfMem_setPin h)
  extract_lets +onlyGivenNames _ _ s₁
  have hs₁ : WfMem s₁ := wfMem_setPlat (wfMem_setPin h)
  exact wfMem_ite (wfMem_holdOp hs₁) (wfMem_settle hs₁)

theorem wfMem_verifyAct {ep : Nat} (h : WfMem s) : WfMem (verifyAct s p ep act) := by
  unfold verifyAct
  refine wfMem_ite (wfMem_setPlatStatus h) ?_
  split
  · exact wfMem_ite h (wfMem_setRegF (wfMem_setPlatStatus h))
  · exact wfMem_ite h (wfMem_setPlatStatus h)
  · exact wfMem_settle (wfMem_setPlatStatus h)
  · exact wfMem_setPlatStatus h

theorem wfMem_verifyWrite (h : WfMem s) : WfMem (verifyWrite s p v) :=
  wfMem_ite (wfMem_setPlatStatus h) (wfMem_foldl (fun _ _ h1 => wfMem_ite (wfMem_verifyAct h1) h1) h)

theorem wfMem_startOp (h : WfMem s) : WfMem (startOp s p) :=
  wfMem_ite (wfMem_emit (wfMem_setRegB h)) (wfMem_emit (wfMem_setRegF h))

theorem wfMem_quarantineClearOp (h : WfMem s) : WfMem (quarantineClearOp s p) := wfMem_setRegF (wfMem_setRegB h)

theorem wfMem_alertFallOp (h : WfMem s) : WfMem (alertFallOp s n) := by
  unfold alertFallOp
  refine wfMem_ite ?_ (wfMem_setPin h)
  extract_lets +onlyGivenNames s₁
  have hs₁ : WfMem s₁ := wfMem_hubInt (wfMem_setRegB (wfMem_setPin h))
  exact wfMem_ite (wfMem_noteWake hs₁) hs₁

theorem wfMem_pctlCfgOp (h : WfMem s) : WfMem (pctlCfgOp s n v) :=
  wfMem_ite h (wfMem_ite (wfMem_setReg h) (wfMem_ite (wfMem_setRegB h) (wfMem_settle
    (wfMem_setPlat (wfMem_setPlat (wfMem_setReg h))))))

theorem wfMem_auxTxOp (h : WfMem s) : WfMem (auxTxOp s v) :=
  wfMem_ite h (wfMem_ite (wfMem_emitOut (wfMem_setRegB h)) (wfMem_setRegB h))

theorem wfMem_auxDoneOp (h : WfMem s) : WfMem (auxDoneOp s) := wfMem_setRegB h

theorem wfMem_seqWrite (h : WfMem s) : WfMem (seqWrite s p v) :=
  wfMem_ite (wfMem_plainWrite h) (wfMem_settle (wfMem_setPlat (wfMem_plainWrite h)))

theorem wfMem_platWrite (h : WfMem s) : WfMem (platWrite s off v) := by
  have hclear {p : Nat} : WfMem (if bitOf v 15 then quarantineClearOp (plainWrite s (aPlat p 0x018) v) p
      else plainWrite s (aPlat p 0x018) v) :=
    wfMem_ite (wfMem_quarantineClearOp (wfMem_plainWrite h)) (wfMem_plainWrite h)
  unfold platWrite
  refine wfMem_ite ?_ ?_
  · dsimp only
    split
    · exact wfMem_ite (wfMem_holdOp (wfMem_plainWrite h)) (wfMem_plainWrite h)
    · exact wfMem_verifyWrite h
    · exact wfMem_ite (wfMem_startOp hclear) hclear
    · exact wfMem_seqWrite h
    · exact wfMem_ite (wfMem_settle (wfMem_plainWrite h)) (wfMem_plainWrite h)
  · exact wfMem_ite (wfMem_ite (wfMem_pctlCfgOp h) h) (wfMem_ite (wfMem_ite h (wfMem_plainWrite h))
      (wfMem_ite (wfMem_auxTxOp h) (wfMem_plainWrite h)))

theorem wfMem_verifyBy {ep : BitVec 8} (h : WfMem s) : WfMem (verifyBy s m p ep act) :=
  wfMem_byHubA h (fun _ h1 => wfMem_ite (wfMem_verifyAct h1) h1)

theorem wfMem_platBy {off : Nat} {f : State → State} (h : WfMem s) (hf : ∀ x0, WfMem x0 → WfMem (f x0)) :
    WfMem (platBy s m p off f) :=
  wfMem_byHubA h (fun _ h1 => wfMem_ite (hf _ h1) h1)

end

/-! #### Operands and jobs -/

section
variable {s : State} {c : Nat}

theorem wfMem_wr {r : Nat} {v : W64} (h : WfMem s) : WfMem (wr s c r v) := wfMem_modCore h

theorem wfMem_setJob {j : Option Job} (h : WfMem s) : WfMem (setJob s c j) := h.of_mem rfl

theorem wfMem_readmit (h : WfMem s) : WfMem (readmit s c) := wfMem_ite (wfMem_askAdmission (wfMem_modCore h)) (wfMem_modCore h)

theorem wfMem_wakeCore (h : WfMem s) : WfMem (wakeCore s c) := by
  unfold wakeCore
  refine wfMem_ite ?_ h
  split
  · exact wfMem_readmit h
  · exact wfMem_readmit (wfMem_wr h)
  · exact h

theorem wfMem_interrupt {v : Nat} (h : WfMem s) : WfMem (interrupt s c v) := wfMem_wakeCore (wfMem_raiseInt h)

end

/-! #### Memories, bank ownership and Wheel DMA -/

section
variable {s t : State} {a b c m n unit : Nat} {data : List Byte} {v : W32}

theorem wfMem_coreServed (h : WfMem s) : WfMem (coreServed s m b) := wfMem_ite (h.of_mem rfl) h

theorem wfMem_bankWipeDoneOp (h : WfMem s) : WfMem (bankWipeDoneOp s b) := wfMem_ite (wfMem_setRegB (wfMem_wipeMem h)) h

theorem wfMem_settleBank (h : WfMem s) : WfMem (settleBank s b) := wfMem_bankWipeDoneOp h

theorem wfMem_bankResult {code : Nat} (h : WfMem s) : WfMem (bankResult s b m code) := wfMem_setRegF (wfMem_setRegF h)

theorem wfMem_handoverOp (h : WfMem s) : WfMem (handoverOp s m b v) := by
  unfold handoverOp
  refine wfMem_ite ?_ ?_
  · exact wfMem_ite (wfMem_emit (wfMem_bankResult h)) (wfMem_violate h)
  · refine wfMem_ite (wfMem_bankResult h) (wfMem_ite (wfMem_emit (wfMem_bankResult h)) ?_)
    extract_lets +onlyGivenNames s₁ s₂
    have hs₂ : WfMem s₂ := wfMem_bankResult (wfMem_setReg h)
    refine wfMem_ite hs₂ ?_
    extract_lets +onlyGivenNames s₁ s₂
    have hs₂ : WfMem s₂ := wfMem_setRegF (wfMem_ite (wfMem_setReg hs₂) hs₂)
    exact wfMem_ite (wfMem_setRegB hs₂) hs₂

theorem wfMem_revertBank (h : WfMem s) : WfMem (revertBank s b) :=
  wfMem_setRegB (wfMem_setRegF (wfMem_ite (wfMem_setReg (wfMem_setReg h)) (wfMem_setReg h)))

theorem wfMem_revertBanks (h : WfMem s) : WfMem (revertBanks s m) :=
  wfMem_foldl (fun _ _ h1 => wfMem_ite (wfMem_revertBank h1) h1) h

theorem wfMem_bankStatusWrite (h : WfMem s) : WfMem (bankStatusWrite s b v) := wfMem_plainWrite h

theorem wfMem_dmaStarvedOp {dma : Nat} (h : WfMem s) : WfMem (dmaStarvedOp s b dma) :=
  wfMem_ite h (wfMem_setRegB (wfMem_with_starved (wfMem_emit h)))

theorem wfMem_dmaServed (h : WfMem s) : WfMem (dmaServed s b) := h.of_mem rfl

theorem wfMem_wdmaFinish (h : WfMem s) : WfMem (wdmaFinish s c) := wfMem_interrupt (wfMem_setRegB h)

theorem wfMem_wdmaGoOp (h : WfMem s) : WfMem (wdmaGoOp s m c) :=
  wfMem_ite h (wfMem_ite (wfMem_setRegF (wfMem_setRegB h)) (wfMem_ite (wfMem_wdmaFinish (h.of_mem rfl))
    (wfMem_setRegB (h.of_mem rfl))))

theorem wfMem_wdmaStop {err : Bool} (h : WfMem s) : WfMem (wdmaStop s c err) :=
  wfMem_ite (wfMem_setRegF (wfMem_setRegB (wfMem_setRegB h))) (wfMem_setRegB h)

theorem wfMem_dmaTouch (h : WfMem s) : WfMem (dmaTouch s a) := by
  unfold dmaTouch
  split
  · exact wfMem_dmaServed (wfMem_settleBank h)
  · exact h

theorem wfMem_scratchBusy (h : WfMem s) : WfMem (scratchBusy s m c) := wfMem_emit h

theorem wfMem_dmaPut (h : WfMem s) : WfMem (dmaPut s a data) := by
  unfold dmaPut
  split
  · exact wfMem_wrBytes h
  · exact wfMem_foldl (fun _ _ h1 => wfMem_wrMem h1) h
  · exact wfMem_wrBytes h

theorem wfSnd_wdmaRead {src : Nat} (h : WfMem s) : WfSnd (wdmaRead s c src n) :=
  wfSnd_ite (wfSnd_mk (wfMem_offAccess h)) (wfSnd_ite (wfSnd_mk (wfMem_scratchBusy h)) (wfSnd_mk (wfMem_dmaTouch h)))

theorem wfMem_wdmaWrite {dst : Nat} (h : WfMem s) : WfMem (wdmaWrite s c dst data) :=
  wfMem_ite (wfMem_offAccess h) (wfMem_ite (wfMem_scratchBusy h) (wfMem_dmaPut (wfMem_dmaTouch h)))

theorem wfMem_wdmaBeatSlot (h : WfMem s) : WfMem (wdmaBeatSlot s c) :=
  wfMem_ite (wfMem_violate (wfMem_wdmaStop h)) (wfMem_ite (wfMem_violate (wfMem_wdmaStop h))
    (wfMem_with_wdma (wfMem_wdmaWrite (wfSnd_wdmaRead h))))

theorem wfMem_wdmaBeatOp {w : Nat} (h : WfMem s) : WfMem (wdmaBeatOp s w) := by
  unfold wdmaBeatOp
  dsimp only
  split
  · exact wfMem_wdmaBeatSlot (h.of_mem rfl)
  · exact h

theorem wfMem_wdmaDoneOp (h : WfMem s) : WfMem (wdmaDoneOp s c) := wfMem_ite (wfMem_wdmaFinish h) h

theorem wfSnd_dmaReadPart (h : WfMem s) : WfSnd (dmaReadPart s unit a n) :=
  wfSnd_ite (wfSnd_mk (wfMem_dmaTouch h)) (wfSnd_mk (wfMem_offAccess h))

theorem wfMem_dmaWritePart (h : WfMem s) : WfMem (dmaWritePart s unit a data) :=
  wfMem_ite (wfMem_dmaPut (wfMem_dmaTouch h)) (wfMem_offAccess h)

theorem wfMem_dmaRead (h : WfMem s) : WfMem (dmaRead s unit m a n).2.1 := by
  unfold dmaRead
  refine wfFst_mk ?_
  split
  · exact wfMem_violate (wfSnd_foldl (fun _ _ h1 => wfSnd_mk (wfSnd_dmaReadPart h1)) (wfSnd_mk h))
  · exact wfSnd_foldl (fun _ _ h1 => wfSnd_mk (wfSnd_dmaReadPart h1)) (wfSnd_mk h)

theorem wfFst_dmaWrite (h : WfMem s) : WfFst (dmaWrite s unit m a data) := by
  unfold dmaWrite
  refine wfFst_mk ?_
  split
  · exact wfMem_violate (wfMem_foldl (fun _ _ h1 => wfMem_dmaWritePart h1) h)
  · exact wfMem_foldl (fun _ _ h1 => wfMem_dmaWritePart h1) h

theorem wfMem_pelotonReachedOp (h : WfMem s) : WfMem (pelotonReachedOp s c) := wfMem_ite (wfMem_setRegB h) h

theorem wfMem_relStatusWrite (h : WfMem s) : WfMem (relStatusWrite s a v) := wfMem_setReg h

theorem wfMem_wdmaGoBy (h : WfMem s) : WfMem (wdmaGoBy s m c) :=
  wfMem_onWheel h (fun _ h1 => wfMem_granted h1 (fun _ h2 => wfMem_wdmaGoOp (wfMem_wakeWheel h2)))

theorem wfMem_handoverBy (h : WfMem s) : WfMem (handoverBy s m b v) :=
  wfMem_ite (wfMem_guarded h (fun _ h1 => wfMem_handoverOp h1)) (wfMem_onWheel h
    (fun _ h1 => wfMem_handoverOp (wfMem_wakeWheel h1)))

end

/-! #### Cranks -/

section
variable {s t : State} {m n off w x : Nat} {k y : CrankCmd} {f : Ctx → CrankCmd → Ctx × CrankEnd} {v : W32}

theorem wfMem_addCycles {mac : Bool} (h : WfMem s) : WfMem (addCycles s w x n mac) := wfMem_setCrank (wfMem_setCtx h)

theorem wfMem_startCtx (h : WfMem s) : WfMem (startCtx s w x) := wfMem_setCrank (wfMem_setCtx h)

theorem wfMem_switchOn (h : WfMem s) : WfMem (switchOn s w x) := wfMem_ite (wfMem_startCtx h) h

theorem wfMem_yieldPoint (h : WfMem s) : WfMem (yieldPoint s w x) :=
  wfMem_ite (wfMem_startCtx (wfMem_setCtx (wfMem_setCrank h))) (wfMem_setCrank h)

theorem wfMem_pushCmd {v : W64} (h : WfMem s) : WfMem (pushCmd s w x v) :=
  wfMem_ite (wfMem_setCtx h) (wfMem_askAdmission (wfMem_setCtx h))

theorem wfMem_refillFifo (h : WfMem s) : WfMem (refillFifo s w x) := by
  unfold refillFifo
  dsimp only
  split
  · exact wfMem_ite (wfMem_modCore (wfMem_pushCmd (wfMem_setCtx h))) h
  · exact h

theorem wfMem_dropFifo (h : WfMem s) : WfMem (dropFifo s w x) := wfMem_setCtx (wfMem_ite h (wfMem_modCore h))

theorem wfMem_ctxError {e : CrankEnd} (h : WfMem s) : WfMem (ctxError s w x e) := by
  unfold ctxError
  extract_lets +onlyGivenNames s₁ _ s₂
  have hs₂ : WfMem s₂ := wfMem_setCtx (wfMem_dropFifo h)
  refine wfMem_switchOn ?_
  split
  · exact wfMem_interrupt hs₂
  · exact wfMem_interrupt (wfMem_emit hs₂)
  · exact wfMem_violate hs₂
  · exact hs₂

theorem wfMem_ctxDone (h : WfMem s) : WfMem (ctxDone s w x) := wfMem_setCtx h

theorem wfMem_noteDeclassified (h : WfMem s) : WfMem (noteDeclassified s w x) := by
  unfold noteDeclassified
  dsimp only
  split
  · exact wfMem_ite (wfMem_setJob h) h
  · exact h

theorem wfMem_crankApply (h : WfMem s) : WfMem (crankApply s w x k f) := by
  unfold crankApply
  refine wfMem_ite (wfMem_ctxError (wfMem_addCycles h)) ?_
  extract_lets +onlyGivenNames _ s₁
  have hs₁ : WfMem s₁ := wfMem_addCycles (wfMem_setCtx h)
  exact wfMem_ite (wfMem_ctxDone hs₁) (wfMem_ctxError hs₁)

theorem wfMem_runCtx (h : WfMem s) : WfMem (runCtx s w x) := wfMem_ite h (wfMem_startCtx h)

theorem wfMem_crankRow {op : Nat} {after : State → CrankCmd → State} (h : WfMem s)
    (hafter : ∀ x0, WfMem x0 → ∀ x1, WfMem (after x0 x1)) :
    WfMem (crankRow s w x op f after) := by
  unfold crankRow
  split
  · exact h
  · refine wfMem_ite (wfMem_ite (wfMem_runCtx h) ?_) h
    extract_lets +onlyGivenNames _ s₁ s₂
    have hs₂ : WfMem s₂ := wfMem_crankApply (wfMem_refillFifo (wfMem_setCtx (wfMem_runCtx h)))
    exact wfMem_ite (hafter _ hs₂ _) hs₂

theorem wfMem_syncsTick (h : WfMem s) : WfMem (syncsTick s w n) := by
  unfold syncsTick
  split
  · split
    · exact wfMem_ite (wfMem_addCycles h) h
    · exact h
  · exact h

theorem wfMem_noAfter (h : WfMem s) : WfMem (noAfter s y) := h

theorem wfMem_afterNotify (h : WfMem s) : WfMem (afterNotify w x s y) := wfMem_interrupt h

theorem wfMem_afterYield (h : WfMem s) : WfMem (afterYield w x s y) := wfMem_yieldPoint h

theorem wfMem_afterMode (h : WfMem s) : WfMem (afterMode w x s k) :=
  wfMem_yieldPoint (wfMem_ite (wfMem_askAdmission (wfMem_setCtx h)) (wfMem_ite (wfMem_giveBack (wfMem_setCtx h)) h))

theorem wfMem_afterDeclassify (h : WfMem s) : WfMem (afterDeclassify w x s y) := wfMem_noteDeclassified h

theorem wfMem_ctxClaimOp (h : WfMem s) : WfMem (ctxClaimOp s m w) :=
  wfMem_ite (wfMem_violate h) (wfMem_ite h (wfMem_setCrank h))

theorem wfSnd_pickClaim {cs : List Claim} {rotate : Nat} (h : WfMem s) : WfSnd (pickClaim s cs rotate) := by
  unfold pickClaim
  split
  · exact wfSnd_ite (wfSnd_mk h) (wfSnd_ite (wfSnd_mk h) (wfSnd_mk (wfSnd_drawBit h)))
  · exact wfSnd_mk h
  · exact wfSnd_mk h

theorem wfMem_grantCtx {c : Claim} (h : WfMem s) : WfMem (grantCtx s w x c) := wfMem_interrupt (wfMem_setCtx (wfMem_setCrank h))

theorem wfMem_crankGrantOp {w : Nat} (h : WfMem s) : WfMem (crankGrantOp s w) := by
  unfold crankGrantOp
  split
  · split
    · next hpick => exact wfMem_grantCtx ((wfSnd_pickClaim h).of_eq hpick)
    · exact h
  · exact h

theorem wfMem_endCtx (h : WfMem s) : WfMem (endCtx s w x) :=
  wfMem_switchOn (wfMem_setCtx (wfMem_withdraw (wfMem_withdraw (wfMem_dropFifo h))))

theorem wfMem_ctxReleaseOp (h : WfMem s) : WfMem (ctxReleaseOp s m w) := by
  unfold ctxReleaseOp
  split
  · exact wfMem_endCtx h
  · exact wfMem_violate h

theorem wfMem_dropCrank (h : WfMem s) : WfMem (dropCrank s m w) := by
  unfold dropCrank
  extract_lets +onlyGivenNames _ s₁
  have hs₁ : WfMem s₁ := wfMem_ite (wfMem_setCrank h) h
  split
  · exact wfMem_endCtx hs₁
  · exact hs₁

theorem wfMem_crankWipeDoneOp {zero : Bool} (h : WfMem s) : WfMem (crankWipeDoneOp s w x zero) := by
  unfold crankWipeDoneOp
  refine wfMem_ite (wfMem_ite (wfMem_setCtx (wfMem_giveBack h)) ?_) h
  extract_lets +onlyGivenNames _ s₁ s₂
  have hs₂ : WfMem s₂ := wfMem_emit (wfMem_setCtx (wfMem_giveBack h))
  split
  · exact wfMem_ite (wfMem_setJob hs₂) hs₂
  · exact hs₂

theorem wfMem_cmdLoOp (h : WfMem s) : WfMem (cmdLoOp s m w x v) := wfMem_ite (wfMem_setCtx h) (wfMem_violate h)

theorem wfMem_cmdHiOp (h : WfMem s) : WfMem (cmdHiOp s m w x v) :=
  wfMem_ite (wfMem_ite h (wfMem_ite (wfMem_modCore (wfMem_setCtx h)) (wfMem_pushCmd h))) (wfMem_violate h)

theorem wfMem_yieldOverrunOp (h : WfMem s) : WfMem (yieldOverrunOp s w) := by
  unfold yieldOverrunOp
  split
  · exact wfMem_ite (wfMem_emit (wfMem_setCrank h)) h
  · exact h

theorem wfMem_xferWrite {t : Xfer} (h : WfMem s) : WfMem (xferWrite s t) := wfMem_setCtx h

theorem wfMem_crankRegWrite (h : WfMem s) : WfMem (crankRegWrite s m w off v) := by
  unfold crankRegWrite
  refine wfMem_ite (wfMem_plainWrite h) (wfMem_ite ?_ ?_)
  · exact wfMem_ite (wfMem_ctxClaimOp h) (wfMem_ite h (wfMem_violate h))
  · exact wfMem_ite (wfMem_ite (wfMem_ctxReleaseOp h) h) (wfMem_ite (wfMem_cmdLoOp h)
        (wfMem_ite (wfMem_cmdHiOp h) (wfMem_ite (wfMem_violate h) h)))

theorem wfMem_areaWrite {size v : Nat} (h : WfMem s) : WfMem (areaWrite s w off size v) := wfMem_setCtx h

end

end Sys2Proof.Machine
end

section
/-! SUPPORT. Memory in its canonical form: the Chamber, lanes, the fabric. -/

namespace Sys2Proof.Machine

/-! #### The Chamber -/

section
variable {s t : State} {code i m : Nat} {v : Slot} {f : State → State} {arg0 arg1 : W32}

theorem wfMem_setSlot (h : WfMem s) : WfMem (setSlot s i v) := h.of_mem rfl

theorem wfMem_putExtent (h : WfMem s) : WfMem (putExtent s i v) := wfMem_foldl (fun _ _ h1 => wfMem_setSlot h1) h

theorem wfMem_wipeExtent (h : WfMem s) : WfMem (wipeExtent s i) := wfMem_foldl (fun _ _ h1 => wfMem_setSlot h1) h

theorem wfMem_setChBank {b : ChBank} (h : WfMem s) : WfMem (setChBank s m b) := h.of_mem rfl

theorem wfMem_chResult {result resultHi : W32} (h : WfMem s) : WfMem (chResult s m code result resultHi) :=
  wfMem_setChBank (wfMem_ite h (wfMem_emit h))

theorem wfMem_chCode (h : WfMem s) : WfMem (chCode s m code) := wfMem_chResult h

theorem wfMem_chViolation (h : WfMem s) : WfMem (chViolation s m) := wfMem_violate (wfMem_chCode h)

theorem wfMem_chStart (h : WfMem s) (hf : ∀ x0, WfMem x0 → WfMem (f x0)) : WfMem (chStart s m f) :=
  wfMem_ite h (hf _ (wfMem_setChBank h))

theorem wfMem_slotAllocOp {a : W32} (h : WfMem s) : WfMem (slotAllocOp s m a) := by
  unfold slotAllocOp
  refine wfMem_ite (wfMem_chCode h) ?_
  split
  · exact wfMem_chCode h
  · exact wfMem_chResult (wfMem_putExtent h)

theorem wfMem_slotFreeOp (h : WfMem s) : WfMem (slotFreeOp s m arg0) :=
  wfMem_ite (wfMem_chCode h) (wfMem_ite (wfMem_chCode h) (wfMem_ite (wfMem_chViolation h) (wfMem_chCode (wfMem_wipeExtent h))))

theorem wfMem_slotInfoOp (h : WfMem s) : WfMem (slotInfoOp s m arg0) := wfMem_ite (wfMem_chCode h) (wfMem_chResult h)

theorem wfMem_xferOp (h : WfMem s) : WfMem (xferOp s m arg0 arg1) := by
  unfold xferOp
  refine wfMem_ite (wfMem_chCode h) (wfMem_ite (wfMem_chCode h) ?_)
  split
  · exact wfMem_ite (wfMem_chCode h) (wfMem_ite (wfMem_chCode h) (h.of_mem rfl))
  · exact wfMem_ite (wfMem_chViolation h) (wfMem_chCode h)

theorem wfMem_sAreaTransferOp {w : Nat} (h : WfMem s) : WfMem (sAreaTransferOp s w) := by
  unfold sAreaTransferOp
  split
  · exact h
  · exact wfMem_ite (wfMem_chCode (wfMem_xferWrite (h.of_mem rfl))) (wfMem_chCode (h.of_mem rfl))

theorem wfMem_unwrapBeginOp {arg2 : W32} (h : WfMem s) : WfMem (unwrapBeginOp s m arg0 arg1 arg2) := by
  unfold unwrapBeginOp
  refine wfMem_ite (wfMem_chCode h) ?_
  split
  · exact wfMem_ite (wfMem_chCode h) (wfMem_chCode (h.of_mem rfl))
  · exact wfMem_ite (wfMem_chViolation h) (wfMem_chCode h)

theorem wfMem_chFeedOp {v : W32} (h : WfMem s) : WfMem (chFeedOp s m v) := h.of_mem rfl

theorem wfMem_dropUnwrap (h : WfMem s) : WfMem (dropUnwrap s m) := h.of_mem rfl

theorem wfMem_unwrapEndOp (h : WfMem s) : WfMem (unwrapEndOp s m) := by
  unfold unwrapEndOp
  split
  · exact wfMem_chCode h
  · extract_lets +onlyGivenNames _ _ s₁
    have hs₁ : WfMem s₁ := wfMem_dropUnwrap h
    refine wfMem_ite (wfMem_chCode hs₁) ?_
    split
    · exact wfMem_chCode hs₁
    · refine wfMem_ite (wfMem_chCode hs₁) ?_
      split
      · exact wfMem_chCode hs₁
      · exact wfMem_chResult (wfMem_putExtent hs₁)

theorem wfMem_chamberDoneOp (h : WfMem s) : WfMem (chamberDoneOp s m) := wfMem_ite h (wfMem_setChBank h)

theorem wfMem_slot0LoadOp (h : WfMem s) : WfMem (slot0LoadOp s) :=
  wfMem_ite (wfMem_setSlot (wfMem_otpLogWords (wfMem_showOtpBusy (h.of_mem rfl)))) h

theorem wfMem_chCmdOp {op : Nat} (h : WfMem s) : WfMem (chCmdOp s m op) := by
  unfold chCmdOp
  dsimp only
  split
  · exact wfMem_chStart h (fun _ h1 => wfMem_slotAllocOp h1)
  · exact wfMem_chStart h (fun _ h1 => wfMem_slotFreeOp h1)
  · exact wfMem_chStart h (fun _ h1 => wfMem_slotInfoOp h1)
  · exact wfMem_chStart h (fun _ h1 => wfMem_xferOp h1)
  · exact wfMem_chStart h (fun _ h1 => wfMem_unwrapBeginOp h1)
  · exact wfMem_chStart h (fun _ h1 => wfMem_unwrapEndOp h1)
  · exact wfMem_ite h (wfMem_chCode h)

theorem wfMem_wipeSlots {p : Slot → Bool} (h : WfMem s) : WfMem (wipeSlots s p) :=
  wfMem_foldl (fun _ _ h1 => wfMem_wipeExtent h1) h

theorem wfMem_endJobSlots (h : WfMem s) : WfMem (endJobSlots s m) := wfMem_wipeSlots h

theorem wfMem_stopSlots (h : WfMem s) : WfMem (stopSlots s m) := wfMem_wipeSlots h

theorem wfMem_endGroupSlots {g : Nat} (h : WfMem s) : WfMem (endGroupSlots s g) := wfMem_wipeSlots h

theorem wfMem_reseed {ctx : Byte} (h : WfMem s) : WfMem (reseed s ctx) := wfMem_hubInt (wfMem_setRegB (h.of_mem rfl))

theorem wfMem_chamberOff (h : WfMem s) : WfMem (chamberOff s) := wfMem_with_chamber (wfMem_resetRegs h)

theorem wfMem_chWrite {off : Nat} {v : W32} (h : WfMem s) : WfMem (chWrite s m off v) := by
  unfold chWrite
  refine wfMem_ite (wfMem_chCmdOp h) (wfMem_ite ?_ ?_)
  · exact wfMem_setChBank h
  · exact wfMem_ite (wfMem_setChBank h) (wfMem_ite (wfMem_setChBank h) (wfMem_ite (wfMem_chFeedOp h)
        (wfMem_ite h (wfMem_plainWrite h))))

theorem wfMem_chAccess (h : WfMem s) (hf : ∀ x0, WfMem x0 → WfMem (f x0)) : WfMem (chAccess s m f) :=
  wfMem_guarded h (fun _ h1 => wfMem_ite (hf _ h1) (wfMem_violate h1))

end

/-! #### Digest lanes -/

section
variable {s t : State} {l m off size : Nat} {rom : Bool} {bs : List Byte} {w : W32} {v : W64}

theorem wfMem_laneInt (h : WfMem s) : WfMem (laneInt s l m) := wfMem_ite (wfMem_hubInt h) (wfMem_interrupt h)

theorem wfMem_laneError {code : Nat} (h : WfMem s) : WfMem (laneError s l code) := by
  unfold laneError
  extract_lets +onlyGivenNames _ s₁
  have hs₁ : WfMem s₁ := wfMem_setLane h
  exact wfMem_laneInt (wfMem_ite hs₁ (wfMem_ite (wfMem_emit hs₁) (wfMem_emit hs₁)))

theorem wfMem_laneAbsorb (h : WfMem s) : WfMem (laneAbsorb s l bs) :=
  wfMem_ite (wfMem_laneError (wfMem_setLane h)) (wfMem_setLane h)

theorem wfMem_laneInit (h : WfMem s) : WfMem (laneInit s l w) := wfMem_ite (wfMem_setLane h) (wfMem_laneError h)

theorem wfMem_laneAbsorbSlot (h : WfMem s) : WfMem (laneAbsorbSlot s l w rom) := by
  unfold laneAbsorbSlot
  refine wfMem_ite (wfMem_laneError h) ?_
  split
  · exact wfMem_laneAbsorb (wfMem_setLane h)
  · exact wfMem_laneError (wfMem_ite (wfMem_violate h) h)

theorem wfMem_laneAbsorbHold (h : WfMem s) : WfMem (laneAbsorbHold s l) := wfMem_laneAbsorb (wfMem_setLane h)

theorem wfMem_laneFinish (h : WfMem s) : WfMem (laneFinish s l w) := wfMem_ite (wfMem_laneError h) (wfMem_setLane h)

theorem wfMem_laneSave (h : WfMem s) : WfMem (laneSave s l) :=
  wfMem_ite (wfMem_laneError h) (wfMem_ite (wfMem_laneError h) (wfMem_setLane h))

theorem wfMem_laneRestore (h : WfMem s) : WfMem (laneRestore s l) := by
  unfold laneRestore
  exact wfMem_ite (wfMem_setLane h) (wfMem_laneError h)

theorem wfMem_laneExportIv {key iv : List Byte} (h : WfMem s) : WfMem (laneExportIv s l key iv) := wfMem_setLane h

theorem wfMem_laneExport {l : Nat} (h : WfMem s) : WfMem (laneExport s l) := by
  unfold laneExport
  refine wfMem_ite (wfMem_laneError h) ?_
  split
  · exact wfMem_laneError h
  · split
    · exact h
    · next htake => exact wfMem_laneExportIv (wfMem_of_dripTake h htake)

theorem wfMem_laneImport (h : WfMem s) : WfMem (laneImport s l) := by
  unfold laneImport
  dsimp only
  split
  · exact wfMem_laneError h
  · exact wfMem_ite (wfMem_laneError h) (wfMem_setLane h)

theorem wfMem_laneCmd (h : WfMem s) : WfMem (laneCmd s l w rom) := by
  unfold laneCmd
  refine wfMem_ite h (wfMem_ite (wfMem_laneError h) (wfMem_ite (wfMem_laneError h) ?_))
  split
  · exact wfMem_laneInit h
  · exact wfMem_laneAbsorbSlot h
  · exact wfMem_laneAbsorbHold h
  · exact wfMem_laneFinish h
  · exact wfMem_laneSave h
  · exact wfMem_laneRestore h
  · exact wfMem_laneExport h
  · exact wfMem_laneImport h

theorem wfMem_laneWriteReg (h : WfMem s) : WfMem (laneWriteReg s l off size v) := by
  unfold laneWriteReg
  refine wfMem_ite ?_ ?_
  · exact wfMem_ite h (wfMem_setLane h)
  · exact wfMem_ite (wfMem_setLane h) (wfMem_ite (wfMem_setLane h) (wfMem_ite (wfMem_setLane h)
        (wfMem_ite (wfMem_setLane h) h)))

theorem wfMem_laneItem {y : LaneItem} (h : WfMem s) : WfMem (laneItem s l y) := by
  unfold laneItem
  split
  · exact wfMem_laneCmd h
  · exact wfMem_ite h (wfMem_ite (wfMem_laneError h) (wfMem_laneAbsorb h))
  · exact wfMem_laneWriteReg h

theorem wfMem_laneDrain {n l : Nat} (h : WfMem s) : WfMem (laneDrain n s l) := by
  induction n generalizing s with
  | zero => exact h
  | succ n ih =>
    rw [laneDrain]
    split
    · exact h
    · exact wfMem_ite (ih (wfMem_laneItem (wfMem_setLane h))) h

theorem wfMem_laneRun (h : WfMem s) : WfMem (laneRun s l) := wfMem_ite (wfMem_modCore (wfMem_laneDrain h)) (wfMem_laneDrain h)

theorem wfMem_laneArrive {i : LaneItem} (h : WfMem s) : WfMem (laneArrive s l i) := by
  unfold laneArrive
  extract_lets +onlyGivenNames _ _ _ s₁ s₂ s₃
  have hs₃ : WfMem s₃ := wfMem_laneDrain (wfMem_ite (wfMem_askAdmission (wfMem_setLane h)) (wfMem_setLane h))
  exact wfMem_ite (wfMem_modCore hs₃) hs₃

theorem wfMem_deriveInto {i : Nat} (h : WfMem s) : WfMem (deriveInto s i bs) := wfMem_putExtent h

theorem wfMem_laneDeliver (h : WfMem s) : WfMem (laneDeliver s l w) := by
  unfold laneDeliver
  refine wfMem_ite (wfMem_setLane (wfMem_laneError (wfMem_setLane h))) ?_
  split
  · exact wfMem_ite (wfMem_setLane (wfMem_laneError (wfMem_setLane (wfMem_violate h)))) (wfMem_laneInt (wfMem_setLane h))
  · exact wfMem_laneInt (wfMem_setLane h)
  · exact wfMem_ite (wfMem_laneInt (wfMem_setLane (wfMem_deriveInto h))) (wfMem_setLane (wfMem_laneError (wfMem_setLane h)))
  · exact wfMem_laneInt (wfMem_setLane h)

theorem wfMem_laneOpDoneOp (h : WfMem s) : WfMem (laneOpDoneOp s l) := by
  unfold laneOpDoneOp
  split
  · exact wfMem_ite (wfMem_laneRun (wfMem_laneDeliver h)) h
  · exact wfMem_ite (wfMem_laneRun h) h

theorem wfMem_yieldCheck (h : WfMem s) : WfMem (yieldCheck s l) := wfMem_ite (wfMem_laneInt (wfMem_setLane h)) h

theorem wfMem_laneClaimOp (h : WfMem s) : WfMem (laneClaimOp s m l) :=
  wfMem_ite (wfMem_violate h) (wfMem_ite h (wfMem_yieldCheck (wfMem_setLane h)))

theorem wfMem_grantLane {c : Claim} (h : WfMem s) : WfMem (grantLane s l c) := wfMem_laneInt (wfMem_setLane h)

theorem wfMem_laneGrantOp {l : Nat} (h : WfMem s) : WfMem (laneGrantOp s l) := by
  unfold laneGrantOp
  split
  · split
    · next hpick => exact wfMem_grantLane ((wfSnd_pickClaim h).of_eq hpick)
    · exact h
  · exact h

theorem wfMem_endLane (h : WfMem s) : WfMem (endLane s l) :=
  wfMem_setLane (wfMem_ite (wfMem_withdraw h) (wfMem_modCore (wfMem_withdraw h)))

theorem wfMem_laneWipeDoneOp (h : WfMem s) : WfMem (laneWipeDoneOp s l) :=
  wfMem_ite (wfMem_setLane (wfMem_ite (wfMem_giveBack h) h)) h

theorem wfMem_dropLane (h : WfMem s) : WfMem (dropLane s m l) := by
  unfold dropLane
  extract_lets +onlyGivenNames _ s₁
  have hs₁ : WfMem s₁ := wfMem_ite (wfMem_setLane h) h
  exact wfMem_ite (wfMem_endLane hs₁) hs₁

theorem wfMem_laneWrite (h : WfMem s) : WfMem (laneWrite s m l off size v) := by
  unfold laneWrite
  refine wfMem_ite (wfMem_violate h) (wfMem_ite (wfMem_ite (wfMem_laneClaimOp h) h) (wfMem_ite ?_ ?_))
  · exact wfMem_ite (wfMem_violate h) (wfMem_ite (wfMem_endLane h) h)
  · exact wfMem_ite (wfMem_ite (wfMem_violate h) (wfMem_ite (wfMem_laneArrive h)
        (wfMem_ite (wfMem_laneArrive h) (wfMem_laneArrive h)))) h

theorem wfMem_onLane {f : State → State} (h : WfMem s) (hf : ∀ x0, WfMem x0 → WfMem (f x0)) : WfMem (onLane s m l off f) :=
  wfMem_ite (wfMem_guarded h (fun _ h1 => hf _ h1)) (wfMem_onWheel h (fun _ h1 => hf _ h1))

theorem wfMem_laneAccess (h : WfMem s) : WfMem (laneAccess s m l off size v) :=
  wfMem_onLane h (fun _ h1 => wfMem_laneWrite (wfMem_ite h1 (wfMem_wakeWheel h1)))

theorem wfMem_laneCmdWrite (h : WfMem s) : WfMem (laneCmdWrite s m l w) := wfMem_laneAccess h

end

/-! #### The end of holds and jobs -/

section
variable {s t : State} {c m : Nat}

theorem wfMem_endHolds (h : WfMem s) : WfMem (endHolds s m) :=
  wfMem_dropUnwrap (wfMem_foldl (fun _ _ h1 => wfMem_dropLane h1) (wfMem_foldl (fun _ _ h1 => wfMem_dropCrank h1) h))

theorem wfMem_endJob {how : Nat} (h : WfMem s) : WfMem (endJob s c how) := by
  unfold endJob
  split
  · exact wfMem_endHolds h
  · extract_lets +onlyGivenNames s₁ s₂
    have hs₂ : WfMem s₂ := wfMem_setJob (wfMem_endHolds (wfMem_endJobSlots h))
    exact wfMem_ite (wfMem_reserveMoveOp hs₂) hs₂

theorem wfMem_stopMaster (h : WfMem s) : WfMem (stopMaster s m) := wfMem_dropSpokeToken (wfMem_stopSlots (wfMem_endJob h))

theorem wfMem_resetCore (h : WfMem s) : WfMem (resetCore s c) := wfMem_setRegB (wfMem_modCore (wfMem_stopMaster h))

theorem wfMem_spokeResetWrite {w : Nat} {v : W32} (h : WfMem s) : WfMem (spokeResetWrite s m w v) :=
  wfMem_ite (wfMem_foldl (fun _ _ h1 => wfMem_ite (wfMem_resetCore h1) h1) h) (wfMem_violate h)

end

/-! #### Host functions and queues -/

section
variable {s t : State} {c cid f i index info m off q status svc : Nat} {en : Bool} {e : Entry} {bs result : List Byte} {v : W32}

theorem wfMem_setQw (h : WfMem s) : WfMem (setQw s q i v) := wfMem_setReg h

theorem wfMem_setQf {lo len v : Nat} (h : WfMem s) : WfMem (setQf s q i lo len v) := wfMem_setRegF h

theorem wfMem_setQState {v : Nat} (h : WfMem s) : WfMem (setQState s q v) := wfMem_setQf h

theorem wfMem_setQErr {v : Nat} (h : WfMem s) : WfMem (setQErr s q v) := wfMem_setQf h

theorem wfMem_setFetched {es : List Entry} (h : WfMem s) : WfMem (setFetched s q es) := h.of_mem rfl

theorem wfMem_setFState {v : Nat} (h : WfMem s) : WfMem (setFState s f v) := wfMem_setRegF h

theorem wfMem_ringWrite {a : Nat} (h : WfMem s) : WfMem (ringWrite s q a bs) := wfMem_ite (wfFst_dmaWrite h) (wfMem_hostOut h)

theorem wfMem_postCompletion (h : WfMem s) : WfMem (postCompletion s q e status svc info result) := by
  unfold postCompletion
  extract_lets +onlyGivenNames s₁ _ s₂ _ s₃ s₄ s₅
  have hs₃ : WfMem s₃ := wfMem_setQf (wfMem_ringWrite (wfMem_ite h (wfMem_hostOut h)))
  have hs₅ : WfMem s₅ := wfMem_setQw (wfMem_ite (wfMem_setQf hs₃) hs₃)
  exact wfMem_ite (wfMem_sendMsix hs₅) hs₅

theorem wfMem_queueDiag {rtype code : Nat} (h : WfMem s) : WfMem (queueDiag s rtype q cid code) := wfMem_diagEntry h

theorem wfMem_completeEntry (h : WfMem s) : WfMem (completeEntry s q e status svc info result) := by
  unfold completeEntry
  extract_lets +onlyGivenNames s₁
  have hs₁ : WfMem s₁ := by
    unfold s₁
    split
    · exact wfMem_queueDiag h
    · exact h
  exact wfMem_setQf (wfMem_ite hs₁ (wfMem_postCompletion hs₁))

theorem wfMem_queueTurnOn (h : WfMem s) : WfMem (queueTurnOn s q) :=
  wfMem_ite (wfMem_setQState (wfMem_setQErr (wfMem_setQf (wfMem_setQw (wfMem_setQw (wfMem_setQw h))))))
    (wfMem_setQErr (wfMem_setQf h))

theorem wfMem_settleFunc (h : WfMem s) : WfMem (settleFunc s f) := wfMem_ite (wfMem_setFState (wfMem_setFunc h)) h

theorem wfMem_queueStop (h : WfMem s) : WfMem (queueStop s q) :=
  wfMem_foldl (fun _ _ h1 => wfMem_completeEntry h1) (wfMem_setFetched (wfMem_setQState h))

theorem wfMem_queueOnOp (h : WfMem s) : WfMem (queueOnOp s q) := by
  unfold queueOnOp
  extract_lets +onlyGivenNames s₁
  have hs₁ : WfMem s₁ := wfMem_setQf h
  exact wfMem_ite (wfMem_queueTurnOn hs₁) (wfMem_ite (wfMem_setQState hs₁) hs₁)

theorem wfMem_queueOffReq (h : WfMem s) : WfMem (queueOffReq s q) := by
  unfold queueOffReq
  extract_lets +onlyGivenNames s₁
  have hs₁ : WfMem s₁ := wfMem_setQf h
  exact wfMem_ite (wfMem_queueStop hs₁) (wfMem_ite (wfMem_setQState hs₁) hs₁)

theorem wfMem_endGroupState {g : Nat} (h : WfMem s) : WfMem (endGroupState s g) := wfMem_with_svc (wfMem_wipeMem h)

theorem wfMem_queueOffOp (h : WfMem s) : WfMem (queueOffOp s q) := by
  unfold queueOffOp
  refine wfMem_ite ?_ h
  extract_lets +onlyGivenNames _ s₁ s₂
  have hs₁ : WfMem s₁ := wfMem_foldl (fun _ _ h1 => wfMem_setQw h1) h
  have hs₂ : WfMem s₂ := wfMem_ite (wfMem_endGroupState (wfMem_endGroupSlots hs₁)) hs₁
  exact wfMem_settleFunc (wfMem_ite (wfMem_queueTurnOn hs₂) hs₂)

theorem wfMem_stopQueues (h : WfMem s) : WfMem (stopQueues s f) :=
  wfMem_foldl (fun _ _ h1 => wfMem_ite (wfMem_queueOffReq h1) h1) h

theorem wfMem_funcEnableOp (h : WfMem s) : WfMem (funcEnableOp s f en) := by
  unfold funcEnableOp
  extract_lets +onlyGivenNames s₁
  have hs₁ : WfMem s₁ := wfMem_setRegB h
  refine wfMem_ite (wfMem_ite (wfMem_setFState hs₁) (wfMem_ite (wfMem_setFState hs₁) hs₁)) (wfMem_ite ?_ ?_)
  · exact wfMem_settleFunc (wfMem_stopQueues (wfMem_setFState hs₁))
  · exact wfMem_ite (wfMem_setFState hs₁) (wfMem_ite (wfMem_setFunc hs₁) hs₁)

theorem wfMem_setBusMaster (h : WfMem s) : WfMem (setBusMaster s f en) :=
  wfMem_ite (wfMem_with_fabric (wfMem_foldl (fun _ _ h1 => wfMem_emitOut h1) (wfMem_setFunc h))) (wfMem_setFunc h)

theorem wfMem_flrOp (h : WfMem s) : WfMem (flrOp s f) := wfMem_funcEnableOp (wfMem_setFunc (wfMem_with_fabric (h.of_mem rfl)))

theorem wfMem_perstOp (h : WfMem s) : WfMem (perstOp s) :=
  wfMem_with_fabric (wfMem_foldl (fun _ _ h1 => wfMem_setReg h1) (wfMem_foldl (fun _ _ h1 => wfMem_ite (wfMem_flrOp h1) h1) h))

theorem wfMem_ctxWriteOp (h : WfMem s) : WfMem (ctxWriteOp s m q i v) := by
  unfold ctxWriteOp
  refine wfMem_ite h ?_
  extract_lets +onlyGivenNames _ _ _ s₁
  have hs₁ : WfMem s₁ := wfMem_ite (wfMem_ite (wfMem_emit h) h) (wfMem_ite h (wfMem_setQw h))
  exact wfMem_ite (wfMem_ite (wfMem_queueOnOp hs₁) (wfMem_queueOffReq hs₁)) hs₁

theorem wfMem_setHub {r : HubRegs} (h : WfMem s) : WfMem (setHub s m r) := h.of_mem rfl

theorem wfMem_groupWrite {mask : BitVec 256} (h : WfMem s) : WfMem (groupWrite s m mask off v) :=
  wfMem_foldl (fun _ _ h1 => wfMem_ctxWriteOp h1) h

theorem wfMem_aliasWriteOp (h : WfMem s) : WfMem (aliasWriteOp s m off v) :=
  wfMem_ite (wfMem_violate h) (wfMem_ite h (wfMem_groupWrite (wfMem_modCore (wfMem_setHub h))))

theorem wfMem_ringDoorbell (h : WfMem s) : WfMem (ringDoorbell s q v) := by
  unfold ringDoorbell
  refine wfMem_ite (wfMem_queueDiag (wfMem_setQErr h)) ?_
  extract_lets +onlyGivenNames s₁
  have hs₁ : WfMem s₁ := wfMem_ite (wfMem_setQf h) h
  exact wfMem_ite (wfMem_setQf hs₁) hs₁

theorem wfMem_doorbellOp (h : WfMem s) : WfMem (doorbellOp s f index v) := by
  unfold doorbellOp
  refine wfMem_ite h ?_
  split
  · exact wfMem_ringDoorbell h
  · exact wfMem_setRegF h

theorem wfMem_entryFetchOp {b : List Byte} (h : WfMem s) : WfMem (entryFetchOp s q b) := by
  unfold entryFetchOp
  refine wfMem_ite ?_ h
  extract_lets +onlyGivenNames s₁ s₂
  have hs₂ : WfMem s₂ := wfMem_setQf (wfMem_setQf h)
  exact wfMem_ite (wfMem_setFetched hs₂) (wfMem_completeEntry hs₂)

theorem wfMem_payloadFetchOp {ok : Bool} {data : List Byte} (h : WfMem s) : WfMem (payloadFetchOp s q ok data) := by
  unfold payloadFetchOp
  split
  · exact h
  · exact wfMem_ite (wfMem_completeEntry (wfMem_setFetched h)) (wfMem_ite (wfMem_completeEntry (wfMem_setFetched h))
        (wfMem_setFetched h))

theorem wfFst_bufferWrite (h : WfMem s) : WfFst (bufferWrite s c off bs) := wfFst_mk (wfFst_dmaWrite h)

theorem wfMem_fillBuffer (h : WfMem s) : WfMem (fillBuffer s c e) :=
  wfMem_ite (wfFst_bufferWrite (wfFst_bufferWrite h)) (wfFst_bufferWrite h)

theorem wfMem_dispatchToken {cls : Nat} (h : WfMem s) : WfMem (dispatchToken s c cls) :=
  wfMem_ite (wfMem_takePreGrant (wfMem_modCore (wfMem_ite (wfMem_askTokens h) h))) (wfMem_askAdmission (wfMem_modCore h))

theorem wfMem_placeJob (h : WfMem s) : WfMem (placeJob s q c e) :=
  wfMem_dispatchToken (wfMem_wr (wfMem_setJob (wfMem_with_fabric (wfMem_fillBuffer h))))

theorem wfMem_jobDispatchOp (h : WfMem s) : WfMem (jobDispatchOp s q c) := by
  unfold jobDispatchOp
  split
  · exact h
  · exact wfMem_ite (wfMem_ite (wfMem_setQw h) (wfMem_placeJob (wfMem_setQw (wfMem_setFetched h)))) h

theorem wfMem_jobWindowOp {size : Nat} {v : W64} (h : WfMem s) : WfMem (jobWindowOp s m off size v) := by
  unfold jobWindowOp
  split
  · exact wfMem_ite (wfMem_emit h) (wfMem_ite (wfMem_setJob (wfFst_bufferWrite h)) (wfFst_bufferWrite h))
  · exact wfMem_emit h

theorem wfSnd_bufferRead {n : Nat} (h : WfMem s) : WfSnd (bufferRead s c off n) := wfSnd_mk (wfMem_dmaRead h)

theorem wfSnd_jobOutcome {j : Job} (h : WfMem s) : WfSnd (jobOutcome s c j) := by
  unfold jobOutcome
  split
  · exact h
  · split
    next hhead =>
    have hread := (wfSnd_bufferRead h).of_eq hhead
    exact wfSnd_ite (wfSnd_mk hread) (wfSnd_mk (wfSnd_ite (wfSnd_bufferRead hread) (wfSnd_mk hread)))

theorem wfFst_rejection (h : WfMem s) : WfFst (rejection s c q cid status) :=
  wfFst_ite (wfFst_mk (wfMem_queueDiag (wfMem_emit h))) (wfFst_mk h)

theorem wfMem_queueWriteFault (h : WfMem s) : WfMem (queueWriteFault s q cid) :=
  wfMem_queueDiag (wfMem_setQErr (wfMem_queueOffReq h))

theorem wfMem_jobCompletionOp {writeOk : Bool} (h : WfMem s) : WfMem (jobCompletionOp s c writeOk) := by
  unfold jobCompletionOp
  split
  · refine wfMem_ite ?_ ?_
    · exact wfMem_with_fabric (wfMem_ite (wfMem_completeEntry (wfFst_rejection (wfSnd_jobOutcome h)))
          (wfMem_queueWriteFault (wfMem_setQf (wfFst_rejection (wfSnd_jobOutcome h)))))
    · exact h
  · exact h

theorem wfMem_bufferWipeDoneOp (h : WfMem s) : WfMem (bufferWipeDoneOp s c) := by
  unfold bufferWipeDoneOp
  split
  · exact wfMem_ite (wfMem_with_fabric (wfMem_setJob (wfFst_bufferWrite h))) h
  · exact h

theorem wfMem_jobTimeoutOp (h : WfMem s) : WfMem (jobTimeoutOp s c) := by
  unfold jobTimeoutOp
  split
  · exact wfMem_ite h (wfMem_hubInt (wfMem_setRegB (wfMem_setJob (wfMem_emit h))))
  · exact h

theorem wfMem_adminEnd {op : Nat} (h : WfMem s) : WfMem (adminEnd s op svc) := by
  unfold adminEnd
  split
  · exact wfMem_ite (wfMem_completeEntry (wfMem_setFetched h)) h
  · exact h

theorem wfMem_queueCreateOp {words : List W32} (h : WfMem s) : WfMem (queueCreateOp s q words) :=
  wfMem_ite (wfMem_adminEnd h) (wfMem_ite (wfMem_adminEnd h) (wfMem_adminEnd (wfMem_ctxWriteOp
    (wfMem_foldl (fun _ _ h1 => wfMem_ctxWriteOp h1) h))))

theorem wfMem_queueDestroyOp (h : WfMem s) : WfMem (queueDestroyOp s q) :=
  wfMem_ite (wfMem_adminEnd h) (wfMem_adminEnd (wfMem_queueOffReq h))

theorem wfMem_queueSetOp {groups : BitVec 256} {quantum wheelMask : W32} (h : WfMem s) :
    WfMem (queueSetOp s groups index quantum wheelMask) :=
  wfMem_ite (wfMem_adminEnd h) (wfMem_adminEnd (wfMem_groupWrite (wfMem_groupWrite h)))

theorem wfMem_funcVecOp (h : WfMem s) : WfMem (funcVecOp s f v) := wfMem_ite h (wfMem_ite (wfMem_setRegB h) (wfMem_setReg h))

theorem wfMem_funcSetOp {base count : Nat} (h : WfMem s) : WfMem (funcSetOp s f en base count) :=
  wfMem_ite (wfMem_adminEnd h) (wfMem_ite (wfMem_adminEnd h) (wfMem_adminEnd (wfMem_funcEnableOp
    (wfMem_ite (wfMem_funcVecOp h) h))))

theorem wfMem_bootDoneOp (h : WfMem s) : WfMem (bootDoneOp s) := wfMem_setRegB (wfMem_setRegB h)

theorem wfMem_qfWrite (h : WfMem s) : WfMem (qfWrite s off v) := by
  unfold qfWrite
  refine wfMem_ite (wfMem_ite (wfMem_bootDoneOp h) h) (wfMem_ite ?_ ?_)
  · exact wfMem_ite (wfMem_ringDoorbell h) h
  · exact wfMem_ite (wfMem_ite (wfMem_funcEnableOp h) (wfMem_ite (wfMem_funcVecOp h) h)) (wfMem_plainWrite h)

theorem wfMem_qfAccess {addr : Nat} {f : State → State} (h : WfMem s) (hf : ∀ x0, WfMem x0 → WfMem (f x0)) :
    WfMem (qfAccess s m addr f) :=
  wfMem_guarded h (fun _ h1 => wfMem_ite (hf _ h1) (wfMem_violate h1))

end

end Sys2Proof.Machine
end

section
/-! SUPPORT. Memory in its canonical form: links, the peloton, power and the life cycle. -/

namespace Sys2Proof.Machine

/-! #### Chain links -/

section
variable {s t : State} {ftype k m off x : Nat} {dst : BitVec 128} {f : Frame} {payload : List Byte} {v : W32}

theorem wfMem_hubBRecord {rtype : Nat} {payload : List W32} (h : WfMem s) : WfMem (hubBRecord s rtype payload) := wfMem_emit h

theorem wfMem_setCport {k : ChainPort} (h : WfMem s) : WfMem (setCport s x k) := h.of_mem rfl

theorem wfMem_tunPlace (h : WfMem s) : WfMem (tunPlace s x f) := by
  unfold tunPlace
  extract_lets +onlyGivenNames _ _ s₁ s₂
  have hs₂ : WfMem s₂ := wfMem_setRegB (wfMem_setReg (wfMem_setCport h))
  exact wfMem_ite (wfMem_sendMsix hs₂) hs₂

theorem wfMem_egress (h : WfMem s) : WfMem (egress s x f) :=
  wfMem_ite h (wfMem_ite (wfMem_emitOut h) (wfMem_ite (wfMem_setCport h) (wfMem_tunPlace h)))

theorem wfSnd_ownFrame (h : WfMem s) : WfSnd (ownFrame s ftype dst payload) := wfSnd_mk (h.of_mem rfl)

theorem wfMem_sendRaw (h : WfMem s) : WfMem (sendRaw s x ftype payload) :=
  wfMem_egress (wfSnd_ownFrame (ftype := ftype) (dst := 0) (payload := payload) h)

theorem wfMem_sendOn {xs : List Nat} (h : WfMem s) : WfMem (sendOn s xs ftype dst payload) :=
  wfMem_foldl (fun _ _ h1 => wfMem_ite (wfMem_egress h1) h1)
    (wfSnd_ownFrame (ftype := ftype) (dst := dst) (payload := payload) h)

theorem wfMem_sendAll (h : WfMem s) : WfMem (sendAll s ftype payload) := wfMem_sendOn h

theorem wfMem_sendTo (h : WfMem s) : WfMem (sendTo s ftype dst payload) := wfMem_sendOn h

theorem wfMem_setLink {up : Bool} (h : WfMem s) : WfMem (setLink s x up) := by
  unfold setLink
  refine wfMem_ite h ?_
  extract_lets +onlyGivenNames s₁ s₂ _ s₃
  have hs₂ : WfMem s₂ := wfMem_hubInt (wfMem_emit (wfMem_setRegB (wfMem_setRegB h)))
  have hs₃ : WfMem s₃ := wfMem_ite hs₂ (wfMem_setCport (wfMem_setRegB hs₂))
  exact wfMem_ite (wfMem_sendAll hs₃) hs₃

theorem wfMem_linkUpOp (h : WfMem s) : WfMem (linkUpOp s x) := wfMem_ite (wfMem_setLink h) h

theorem wfMem_blockLockOp (h : WfMem s) : WfMem (blockLockOp s x) := wfMem_ite (wfMem_setRegB h) h

theorem wfMem_blockLossOp (h : WfMem s) : WfMem (blockLossOp s x) := wfMem_ite (wfMem_setLink (wfMem_setRegB h)) h

theorem wfMem_helloTimeoutOp (h : WfMem s) : WfMem (helloTimeoutOp s x) := wfMem_ite (wfMem_setLink (wfMem_setRegB h)) h

theorem wfMem_helloIntervalOp (h : WfMem s) : WfMem (helloIntervalOp s x) := wfMem_ite (wfMem_sendRaw h) h

theorem wfMem_helloOp (h : WfMem s) : WfMem (helloOp s x f) := by
  unfold helloOp
  refine wfMem_ite h (wfMem_ite ?_ ?_)
  · exact wfMem_setLink (wfMem_setRegB h)
  · exact wfMem_ite h (wfMem_ite (wfMem_setLink h) (wfMem_foldl (fun _ _ h1 => wfMem_setReg h1)
        (wfMem_setCport (wfMem_setRegB (wfMem_setRegB h)))))

theorem wfMem_linkModeOp (h : WfMem s) : WfMem (linkModeOp s m x v) := by
  unfold linkModeOp
  extract_lets +onlyGivenNames _ _ _ s₁ s₂
  have hs₁ : WfMem s₁ := wfMem_ite (wfMem_setRegB h) h
  have hs₂ : WfMem s₂ := wfMem_ite hs₁ (wfMem_setRegF (wfMem_setRegB (wfMem_setLink hs₁)))
  exact wfMem_ite (wfMem_setCport hs₂) hs₂

theorem wfMem_noteSeen (h : WfMem s) : WfMem (noteSeen s f) := wfMem_ite h (h.of_mem rfl)

theorem wfFst_deliver (h : WfMem s) : WfFst (deliver s x f) :=
  wfFst_ite (wfFst_mk (wfMem_bump h)) (wfFst_ite (wfFst_mk (wfFst_dmaWrite h)) (wfFst_mk (wfMem_setRegF (wfFst_dmaWrite h))))

theorem wfMem_relay (h : WfMem s) : WfMem (relay s x f) := wfMem_ite h (wfMem_egress h)

theorem wfFst_receive (h : WfMem s) : WfFst (receive s x f) := by
  unfold receive
  refine wfFst_ite (wfFst_mk h) (wfFst_mk (wfMem_ite ?_ ?_))
  · exact wfMem_relay (wfFst_ite (wfFst_deliver (wfMem_noteSeen h)) (wfFst_mk (wfMem_noteSeen h)))
  · exact wfFst_ite (wfFst_deliver (wfMem_noteSeen h)) (wfFst_mk (wfMem_noteSeen h))

theorem wfMem_consume (h : WfMem s) : WfMem (consume s x) := wfMem_setReg h

theorem wfMem_onFrame {act : State → State} (h : WfMem s) (hact : ∀ x0, WfMem x0 → WfMem (act x0)) :
    WfMem (onFrame s x ftype f act) :=
  wfMem_ite h (wfMem_ite (hact _ (wfMem_consume (wfFst_receive h))) (wfFst_receive h))

theorem wfMem_onDelivery (h : WfMem s) : WfMem (onDelivery s x ftype f) := wfMem_ite h (wfFst_receive h)

theorem wfMem_badFrameOp {fcsOk : Bool} (h : WfMem s) : WfMem (badFrameOp s x f fcsOk) :=
  wfMem_ite h (wfMem_ite (wfMem_bump h) (wfMem_ite h (wfMem_bump h)))

theorem wfMem_txEnd {cause : Nat} (h : WfMem s) : WfMem (txEnd s k cause) := wfMem_setReg h

theorem wfMem_txCtrlOp (h : WfMem s) : WfMem (txCtrlOp s k v) := by
  unfold txCtrlOp
  extract_lets +onlyGivenNames _ s₁
  have hs₁ : WfMem s₁ := wfMem_plainWrite h
  exact wfMem_ite hs₁ (wfMem_ite (wfMem_txEnd hs₁) (wfMem_setRegB hs₁))

theorem wfMem_txDoneOp (h : WfMem s) : WfMem (txDoneOp s k) := by
  unfold txDoneOp
  refine wfMem_ite ?_ h
  dsimp only
  split
  · exact wfMem_txEnd (wfMem_dmaRead h)
  · split
    · exact wfMem_txEnd h
    · exact wfMem_txEnd (wfMem_foldl (fun _ _ h1 => wfMem_egress h1) (wfMem_dmaRead h))

theorem wfMem_txFullClearOp (h : WfMem s) : WfMem (txFullClearOp s x) := by
  unfold txFullClearOp
  dsimp only
  split
  · exact wfMem_tunPlace (wfMem_setCport (wfMem_setRegB h))
  · exact (wfMem_setRegB h)

theorem wfMem_tunRxWrite (h : WfMem s) : WfMem (tunRxWrite s x off v) := wfMem_ite (wfMem_bump h) (wfMem_setCport h)

theorem wfMem_chainBy {ok : Bool} {f : State → State} (h : WfMem s) (hf : ∀ x0, WfMem x0 → WfMem (f x0)) :
    WfMem (chainBy s m off ok f) :=
  wfMem_guarded h (fun _ h1 => wfMem_granted h1 (fun _ h2 => hf _ h2))

end

/-! #### Peloton time and membership -/

section
variable {s t : State} {x : Nat} {u : BitVec 128} {f : Frame} {us : List (BitVec 128)} {v : W32}

theorem wfMem_setPtState {v : Nat} (h : WfMem s) : WfMem (setPtState s v) := wfMem_setRegF h

theorem wfMem_setPacerUid (h : WfMem s) : WfMem (setPacerUid s u) := wfMem_setPair (wfMem_setPair h)

theorem wfMem_armFireOp (h : WfMem s) : WfMem (armFireOp s) := by
  unfold armFireOp
  refine wfMem_ite ?_ h
  extract_lets +onlyGivenNames s₁
  have hs₁ : WfMem s₁ := wfMem_hubInt (wfMem_setRegB (wfMem_setRegB h))
  exact wfMem_ite (wfMem_noteWake hs₁) hs₁

theorem wfMem_ptSetOp {hi : W32} (h : WfMem s) : WfMem (ptSetOp s hi) := wfMem_ite (wfMem_armFireOp (h.of_mem rfl)) h

theorem wfMem_ptCtrlOp (h : WfMem s) : WfMem (ptCtrlOp s v) := by
  unfold ptCtrlOp
  extract_lets +onlyGivenNames _ s₁
  have hs₁ : WfMem s₁ := wfMem_plainWrite h
  refine wfMem_ite ?_ ?_
  · exact wfMem_setReg (wfMem_setRegF (wfMem_setPtState hs₁))
  · exact wfMem_ite (wfMem_setReg (wfMem_setPtState (wfMem_with_time hs₁))) hs₁

theorem wfMem_delayReqOp {t : Nat} (h : WfMem s) : WfMem (delayReqOp s x f t) := wfMem_ite (wfMem_sendRaw h) h

theorem wfMem_delayRespOp {t4 : Nat} (h : WfMem s) : WfMem (delayRespOp s x f t4) := by
  unfold delayRespOp
  split
  · exact wfMem_ite (wfMem_setReg (wfMem_setReg (wfMem_setCport h))) h
  · exact h

theorem wfMem_correct {offset : ℤ} (h : WfMem s) : WfMem (correct s offset) := by
  unfold correct
  extract_lets +onlyGivenNames _ s₁
  have hs₁ : WfMem s₁ := wfMem_ite (h.of_mem rfl) (wfMem_ite (h.of_mem rfl) (wfMem_setRegB (h.of_mem rfl)))
  exact wfMem_armFireOp (wfMem_ite (wfMem_emit hs₁) hs₁)

theorem wfMem_timeSelect (h : WfMem s) : WfMem (timeSelect s) :=
  wfMem_setReg (wfMem_setRegF (wfMem_setRegF (wfMem_setPtState (h.of_mem rfl))))

theorem wfMem_timeOp {t : Nat} (h : WfMem s) : WfMem (timeOp s x f t) := by
  unfold timeOp
  refine wfMem_ite h ?_
  extract_lets +onlyGivenNames _ _ s₁ s₂
  have hs₂ : WfMem s₂ := wfMem_timeSelect (wfMem_setCport h)
  refine wfMem_ite hs₂ ?_
  extract_lets +onlyGivenNames _ s₁
  have hs₁ : WfMem s₁ := wfMem_correct hs₂
  exact wfMem_ite (wfMem_sendRaw (wfMem_setReg (wfSnd_drawWord hs₁))) (wfMem_setReg (wfSnd_drawWord hs₁))

theorem wfMem_syncTickOp (h : WfMem s) : WfMem (syncTickOp s) := by
  unfold syncTickOp
  refine wfMem_foldl (fun _ _ h1 => ?_) h
  refine wfMem_ite h1 ?_
  extract_lets +onlyGivenNames _ s₁
  have hs₁ : WfMem s₁ := wfMem_sendRaw (wfMem_setCport h1)
  exact wfMem_ite (wfMem_sendRaw hs₁) hs₁

theorem wfMem_holdoverOp (h : WfMem s) : WfMem (holdoverOp s) := wfMem_ite (wfMem_emit (wfMem_setPtState (h.of_mem rfl))) h

theorem wfMem_callRoll (h : WfMem s) : WfMem (callRoll s) := wfMem_sendAll (h.of_mem rfl)

theorem wfMem_ageCaller (h : WfMem s) : WfMem (ageCaller s) := h.of_mem rfl

theorem wfMem_rollIntervalOp (h : WfMem s) : WfMem (rollIntervalOp s) := by
  unfold rollIntervalOp
  refine wfMem_ite h ?_
  extract_lets +onlyGivenNames s₁
  have hs₁ : WfMem s₁ := wfMem_ageCaller h
  exact wfMem_ite (wfMem_callRoll hs₁) (wfMem_ite (wfMem_callRoll (wfMem_with_chain hs₁)) (wfMem_with_chain hs₁))

theorem wfMem_rollCallOp (h : WfMem s) : WfMem (rollCallOp s f) := wfMem_ite (wfMem_sendTo (h.of_mem rfl)) (h.of_mem rfl)

theorem wfMem_rollAnswerOp (h : WfMem s) : WfMem (rollAnswerOp s f) := wfMem_ite (h.of_mem rfl) h

theorem wfMem_topoChangeOp (h : WfMem s) : WfMem (topoChangeOp s) := wfMem_ite (wfMem_callRoll h) h

theorem wfMem_notePacer (h : WfMem s) : WfMem (notePacer s u) := by
  unfold notePacer
  refine wfMem_ite h ?_
  extract_lets +onlyGivenNames s₁
  have hs₁ : WfMem s₁ := wfMem_hubBRecord (wfMem_setPacerUid h)
  exact wfMem_ite (wfMem_ptCtrlOp hs₁) hs₁

theorem wfMem_becomePacer (h : WfMem s) : WfMem (becomePacer s) := wfMem_ptCtrlOp h

theorem wfMem_takeRoster {ring : Bool} (h : WfMem s) : WfMem (takeRoster s us ring) :=
  wfMem_ite (wfMem_hubBRecord (h.of_mem rfl)) (h.of_mem rfl)

theorem wfMem_noteMissing (h : WfMem s) : WfMem (noteMissing s us) :=
  wfMem_foldl (fun _ _ h1 => wfMem_hubBRecord h1) (h.of_mem rfl)

theorem wfMem_rollWaitOp (h : WfMem s) : WfMem (rollWaitOp s) := by
  unfold rollWaitOp
  refine wfMem_ite h ?_
  extract_lets +onlyGivenNames _ _ _ _ _ s₁ s₂
  have hs₂ : WfMem s₂ := wfMem_takeRoster (wfMem_noteMissing (h.of_mem rfl))
  exact wfMem_foldl (fun _ _ h1 => wfMem_sendAll h1) (wfMem_ite (wfMem_becomePacer (wfMem_notePacer hs₂))
      (wfMem_sendTo (wfMem_notePacer hs₂)))

theorem wfMem_rosterOp (h : WfMem s) : WfMem (rosterOp s f) :=
  wfMem_ite (wfMem_notePacer (wfMem_takeRoster (h.of_mem rfl))) (h.of_mem rfl)

theorem wfMem_pacerAssignOp (h : WfMem s) : WfMem (pacerAssignOp s f) := wfMem_ite (wfMem_becomePacer h) h

theorem wfMem_ptWrite {off : Nat} (h : WfMem s) : WfMem (ptWrite s off v) := by
  unfold ptWrite
  refine wfMem_ite ?_ ?_
  · exact wfMem_ptCtrlOp h
  · exact wfMem_ite (wfMem_ite h (wfMem_plainWrite h)) (wfMem_ite (wfMem_setReg h)
        (wfMem_ite (wfMem_ptSetOp h) (wfMem_plainWrite h)))

end

/-! #### Clocks, domains and resets -/

section
variable {s t : State} {c cause d p rail target : Nat} {v : W32}

theorem wfMem_releaseHalted (h : WfMem s) : WfMem (releaseHalted s) := wfMem_foldl (fun _ _ h1 => wfMem_modCore h1) h

theorem wfMem_closeSession (h : WfMem s) : WfMem (closeSession s) := by
  unfold closeSession
  split
  · exact h
  · extract_lets +onlyGivenNames _ s₁
    have hs₁ : WfMem s₁ := wfMem_releaseHalted (h.of_mem rfl)
    exact wfMem_ite (wfMem_reseed hs₁) hs₁

theorem wfMem_endChallenge (h : WfMem s) : WfMem (endChallenge s) := h.of_mem rfl

theorem wfMem_dropChallenge (h : WfMem s) : WfMem (dropChallenge s) := wfMem_with_lc (wfMem_endChallenge h)

theorem wfMem_coreLost (h : WfMem s) : WfMem (coreLost s c) := wfMem_modCore (wfMem_stopMaster h)

theorem wfMem_wheelLost (h : WfMem s) : WfMem (wheelLost s w) := by
  unfold wheelLost
  extract_lets +onlyGivenNames s₁ s₂
  have hlost : WfMem s₂ := wfMem_foldl (fun _ _ h1 => wfMem_coreLost h1) (wfMem_wipeMem (wfMem_resetRegs h))
  clear_value s₂
  exact hlost.of_mem rfl

theorem wfMem_banksLost {lo hi : Nat} (h : WfMem s) : WfMem (banksLost s lo hi) :=
  wfMem_wipeMem (wfMem_resetRegs (h.of_mem rfl))

theorem wfMem_fabricLost (h : WfMem s) : WfMem (fabricLost s) := wfMem_with_fabric (wfMem_setRegB (wfMem_resetRegs h))

theorem wfMem_pcieLost (h : WfMem s) : WfMem (pcieLost s) := wfMem_with_fabric (wfMem_resetRegs h)

theorem wfMem_portLost (h : WfMem s) : WfMem (portLost s p) := wfMem_coreLost (wfMem_with_ports (wfMem_resetRegs h))

theorem wfMem_chainLost (h : WfMem s) : WfMem (chainLost s) := wfMem_with_chain (wfMem_resetRegs h)

theorem wfMem_firmwareLost (h : WfMem s) : WfMem (firmwareLost s) := h.of_mem rfl

theorem wfMem_hubLost (h : WfMem s) : WfMem (hubLost s) :=
  wfMem_firmwareLost (wfMem_with_hubs_lanes_boot (wfMem_coreLost (wfMem_coreLost (wfMem_wipeMem h))))

theorem wfMem_domainLost (h : WfMem s) : WfMem (domainLost s d) := by
  unfold domainLost
  refine wfMem_ite (wfMem_wheelLost (wfMem_wheelLost h)) ?_
  split
  · exact wfMem_fabricLost h
  · exact wfMem_pcieLost h
  · exact wfMem_portLost h
  · exact wfMem_portLost h
  · exact wfMem_portLost h
  · exact wfMem_portLost h
  · exact wfMem_chainLost h
  · exact wfMem_banksLost h
  · exact wfMem_banksLost h
  · exact wfMem_banksLost h
  · exact wfMem_showOtpBusy (wfMem_with_otp (wfMem_chamberOff h))
  · exact wfMem_with_drip (wfMem_resetRegs h)
  · exact h.of_mem rfl
  · exact wfMem_hubLost h
  · exact h

theorem wfMem_setLocks {v : Bool} (h : WfMem s) : WfMem (setLocks s d v) := wfMem_foldl (fun _ _ h1 => wfMem_setLock h1) h

theorem wfMem_changeDom {v : DomState} (h : WfMem s) : WfMem (changeDom s d v) := wfMem_recompute (wfMem_setDom h)

theorem wfMem_rampNext (h : WfMem s) : WfMem (rampNext s) := by
  unfold rampNext
  split
  · exact wfMem_askTokens (h.of_mem rfl)
  · exact h

theorem wfMem_queueRamp (h : WfMem s) : WfMem (queueRamp s d) := wfMem_ite h (wfMem_rampNext (h.of_mem rfl))

theorem wfMem_cancelRamp (h : WfMem s) : WfMem (cancelRamp s d) :=
  wfMem_ite (wfMem_rampNext (wfMem_with_pwr (wfMem_withdraw (h.of_mem rfl)))) (h.of_mem rfl)

theorem wfMem_wheelStop {w : Nat} (h : WfMem s) : WfMem (wheelStop s w) :=
  wfMem_with_gov_pwr (wfMem_setLock (wfMem_setParked (wfMem_setBase (wfMem_giveBack
    (wfMem_with_gov (wfMem_foldl (fun _ _ h1 => wfMem_withdraw h1) (wfMem_dropRequests h)))))))

theorem wfMem_stopEffects (h : WfMem s) : WfMem (stopEffects s d) := by
  unfold stopEffects
  refine wfMem_ite (wfMem_wheelStop (wfMem_wheelStop h)) (wfMem_ite ?_ ?_)
  · exact wfMem_perstOp h
  · exact wfMem_ite (wfMem_ite (wfMem_holdOp h) h) (wfMem_ite (wfMem_setLink (wfMem_setLink h))
        (wfMem_ite (wfMem_setRegB (h.of_mem rfl)) h))

theorem wfMem_beginStop (h : WfMem s) : WfMem (beginStop s d) := wfMem_changeDom (wfMem_setLocks (wfMem_stopEffects h))

theorem wfMem_settleDomain (h : WfMem s) : WfMem (settleDomain s d) := by
  unfold settleDomain
  refine wfMem_ite h ?_
  split
  · exact wfMem_ite h (wfMem_ite (wfMem_queueRamp h) (wfMem_changeDom h))
  · exact wfMem_ite (wfMem_cancelRamp h) h
  · exact wfMem_ite (wfMem_beginStop h) h
  · exact h

theorem wfMem_settleDomains (h : WfMem s) : WfMem (settleDomains s) := wfMem_foldl (fun _ _ h1 => wfMem_settleDomain h1) h

theorem wfMem_enterState {new : Nat} (h : WfMem s) : WfMem (enterState s new) := wfMem_setRegF (wfMem_emit (h.of_mem rfl))

theorem wfMem_leaveLow (h : WfMem s) : WfMem (leaveLow s d) := wfMem_ite (wfMem_enterState h) h

theorem wfMem_powerUpWipe (h : WfMem s) : WfMem (powerUpWipe s d) := by
  unfold powerUpWipe
  refine wfMem_ite (wfMem_foldl (fun _ _ h1 => wfMem_wipeMem (wfMem_resetRegs h1)) h) ?_
  split
  · exact wfMem_banksLost h
  · exact wfMem_banksLost h
  · exact wfMem_banksLost h
  · exact wfMem_wipeMem h
  · exact h

theorem wfMem_startEffects (h : WfMem s) : WfMem (startEffects s d) := by
  unfold startEffects
  extract_lets +onlyGivenNames s₁
  have hs₁ : WfMem s₁ := wfMem_powerUpWipe h
  refine wfMem_ite ?_ ?_
  · exact wfMem_leaveLow (wfMem_foldl (fun _ _ h1 => wfMem_ite (wfMem_wakeWheel h1) h1)
        (wfMem_rampNext (wfMem_with_pwr (wfMem_giveBack hs₁))))
  · exact wfMem_ite (wfMem_showOtpBusy (wfMem_with_chamber_otp hs₁)) (wfMem_ite (wfMem_hostModeReset hs₁) hs₁)

theorem wfMem_domainOffOp (h : WfMem s) : WfMem (domainOffOp s d) := by
  unfold domainOffOp
  exact wfMem_ite (wfMem_settleDomains (wfMem_domainLost (wfMem_changeDom (wfMem_settleDomains h)))) (wfMem_settleDomains h)

theorem wfMem_domainFaultOp (h : WfMem s) : WfMem (domainFaultOp s d) :=
  wfMem_ite (wfMem_emit (wfMem_changeDom (wfMem_ite (wfMem_rampNext (wfMem_with_pwr (wfMem_giveBack h))) h))) h

theorem wfMem_pdReqOp (h : WfMem s) : WfMem (pdReqOp s v) := wfMem_ite (h.of_mem rfl) (wfMem_settleDomains (wfMem_setReg h))

theorem wfMem_clearReq {ds : List Nat} (h : WfMem s) : WfMem (clearReq s ds) := wfMem_foldl (fun _ _ h1 => wfMem_setRegB h1) h

theorem wfMem_gkHold (h : WfMem s) : WfMem (gkHold s p) := wfMem_ite (wfMem_resetCore h) h

theorem wfMem_beginSeq (h : WfMem s) : WfMem (beginSeq s target) := by
  unfold beginSeq
  extract_lets +onlyGivenNames _ s₁
  have hs₁ : WfMem s₁ := h.of_mem rfl
  split
  · exact wfMem_settleDomains (wfMem_clearReq hs₁)
  · exact wfMem_settleDomains (wfMem_clearReq (wfMem_foldl (fun _ _ h1 => wfMem_gkHold h1) hs₁))
  · exact wfMem_settleDomains (wfMem_clearReq (wfMem_dropChallenge (wfMem_closeSession (wfMem_holdAll hs₁))))

theorem wfMem_refusePower (h : WfMem s) : WfMem (refusePower s cause) := wfMem_emit (wfMem_setRegF h)

theorem wfMem_powerReqOp (h : WfMem s) : WfMem (powerReqOp s target) := by
  unfold powerReqOp
  refine wfMem_ite (wfMem_refusePower h) (wfMem_ite ?_ ?_)
  · exact wfMem_refusePower h
  · exact wfMem_ite (wfMem_refusePower h) (wfMem_ite (h.of_mem rfl) (wfMem_ite (wfMem_setRegF h)
        (wfMem_beginSeq (wfMem_setRegF h))))

theorem wfMem_deferredPower (h : WfMem s) : WfMem (deferredPower s) := by
  unfold deferredPower
  split
  · exact wfMem_powerReqOp (h.of_mem rfl)
  · exact h

theorem wfMem_domainOnOp (h : WfMem s) : WfMem (domainOnOp s d) := by
  unfold domainOnOp
  refine wfMem_ite ?_ h
  extract_lets +onlyGivenNames s₁
  have hs₁ : WfMem s₁ := wfMem_settleDomains (wfMem_startEffects (wfMem_setLocks (wfMem_changeDom h)))
  exact wfMem_ite (wfMem_deferredPower hs₁) hs₁

theorem wfMem_seqDoneOp (h : WfMem s) : WfMem (seqDoneOp s) := by
  unfold seqDoneOp
  split
  · exact h
  · refine wfMem_ite ?_ (wfMem_settleDomains h)
    extract_lets +onlyGivenNames s₁ _ s₂
    have hs₁ : WfMem s₁ := wfMem_enterState (wfMem_settleDomains h)
    have hs₂ : WfMem s₂ := wfMem_ite (wfMem_setLock (wfMem_with_pwr hs₁)) hs₁
    split
    · exact wfMem_pdReqOp (wfMem_with_pwr hs₂)
    · exact hs₂

theorem wfMem_resetBlocks (h : WfMem s) : WfMem (resetBlocks s) :=
  wfMem_resetRegs (wfMem_resetRegs (wfMem_resetRegs (wfMem_resetRegs (wfMem_setReg (wfMem_setReg (wfMem_resetRegs h))))))

theorem wfMem_allOff (h : WfMem s) : WfMem (allOff s) :=
  wfMem_with_lostUnits (wfMem_foldl (fun _ _ h1 => wfMem_domainLost h1) h)

theorem wfMem_govReset (h : WfMem s) : WfMem (govReset s) := h.of_mem rfl

theorem wfMem_pgReset (h : WfMem s) : WfMem (pgReset s) := wfMem_foldl (fun _ _ h1 => wfMem_setPlat h1) h

theorem wfMem_deviceResetOp {escalation : Option (Nat × Nat × Nat)} (h : WfMem s) : WfMem (deviceResetOp s escalation) := by
  unfold deviceResetOp
  extract_lets +onlyGivenNames s₁ _ s₂ s₃ s₄
  have hs₄ : WfMem s₄ := wfMem_resetMark (wfMem_fsDeviceReset (wfMem_pgReset (wfMem_govReset
      (wfMem_resetBlocks (wfMem_allOff (wfMem_dropChallenge (wfMem_with_lc (wfMem_holdAll (wfMem_abandonOtp h)))))))))
  refine wfMem_settleDomains (wfMem_with_boot ?_)
  split
  · exact wfMem_arriveRecord (wfMem_diagRecord hs₄)
  · exact hs₄

theorem wfMem_porstLowOp (h : WfMem s) : WfMem (porstLowOp s) :=
  wfMem_with_boot (wfMem_with_heldUnits (wfMem_allOff (wfMem_with_lc (wfMem_holdAll (wfMem_abandonOtp h)))))

theorem wfMem_startUp (h : WfMem s) : WfMem (startUp s) :=
  wfMem_ite (wfMem_settleDomains (wfMem_with_boot (wfMem_resetMark h))) h

theorem wfMem_porstRiseOp {straps : BitVec 2} (h : WfMem s) : WfMem (porstRiseOp s straps) :=
  wfMem_ite (wfMem_startUp (h.of_mem rfl)) h

theorem wfMem_porstAssertOp (h : WfMem s) : WfMem (porstAssertOp s) := wfMem_ite h (wfMem_porstLowOp (h.of_mem rfl))

theorem wfMem_supplyTripOp (h : WfMem s) : WfMem (supplyTripOp s rail) := wfMem_ite h (wfMem_porstLowOp (h.of_mem rfl))

theorem wfMem_supplyReleaseOp (h : WfMem s) : WfMem (supplyReleaseOp s rail) := wfMem_startUp (h.of_mem rfl)

theorem wfMem_aonLowOp (h : WfMem s) : WfMem (aonLowOp s) := wfMem_ite h (wfMem_porstLowOp (h.of_mem rfl))

theorem wfMem_aonPowerUpOp (h : WfMem s) : WfMem (aonPowerUpOp s) := wfMem_with_boot (wfMem_fsPowerUp (wfMem_porstLowOp h))

theorem wfMem_tamperOp (h : WfMem s) : WfMem (tamperOp s) := wfMem_ite h (wfMem_deviceResetOp (wfMem_emit h))

theorem wfMem_deviceResetEvent (h : WfMem s) : WfMem (deviceResetEvent s) := wfMem_ite h (wfMem_deviceResetOp h)

theorem wfMem_lockstepOp (h : WfMem s) : WfMem (lockstepOp s c) := wfMem_ite (wfMem_deviceResetOp (wfSnd_drawWords h)) h

theorem wfMem_wakeTimeOp (h : WfMem s) : WfMem (wakeTimeOp s) := wfMem_ite (wfMem_noteWake h) h

theorem wfMem_hubResume (h : WfMem s) : WfMem (hubResume s c) := by
  unfold hubResume
  split
  · exact wfMem_modCore h
  · exact h

theorem wfMem_pwrWakeOp {pin : Nat} (h : WfMem s) : WfMem (pwrWakeOp s cause pin) := by
  unfold pwrWakeOp
  refine wfMem_ite ?_ h
  extract_lets +onlyGivenNames s₁ s₂
  have hs₂ : WfMem s₂ := wfMem_setReg (wfMem_emit h)
  refine wfMem_ite ?_ ?_
  · exact wfMem_deviceResetOp hs₂
  · exact wfMem_hubInt (wfMem_hubResume (wfMem_hubResume (wfMem_enterState (wfMem_setLock (wfMem_with_pwr hs₂)))))

theorem wfMem_pwrWrite {off : Nat} (h : WfMem s) : WfMem (pwrWrite s off v) := by
  unfold pwrWrite
  refine wfMem_ite (wfMem_powerReqOp h) (wfMem_ite (wfMem_pdReqOp h) (wfMem_ite ?_ ?_))
  · exact wfMem_wheelWarmOp h
  · exact wfMem_ite (wfMem_wheelFreqOp h) (wfMem_ite (wfMem_ceilingWriteOp h)
        (wfMem_ite (wfMem_ite h (wfMem_setReg h)) (wfMem_plainWrite h)))

end

/-! #### Life cycle and Lantern -/

section
variable {s t : State} {m n off target : Nat} {ir : BitVec 5} {f : State → State} {v : W32}

theorem wfMem_markStep (h : WfMem s) : WfMem (markStep s target n) := wfMem_setReg (wfMem_seqWords h)

theorem wfMem_eraseCmd {proto opcode read : Nat} {addr : Option Nat} (h : WfMem s) :
    WfMem (eraseCmd s proto opcode addr read) :=
  wfMem_emitOut h

theorem wfMem_eraseReset (h : WfMem s) : WfMem (eraseReset s) :=
  wfMem_eraseCmd (wfMem_eraseCmd (wfMem_eraseCmd (wfMem_eraseCmd h)))

theorem wfMem_eraseRegion (h : WfMem s) : WfMem (eraseRegion s) := by
  unfold eraseRegion
  refine wfMem_foldl (fun _ _ h1 => ?_) (wfMem_eraseReset h)
  extract_lets +onlyGivenNames _ s₁
  have hs₁ : WfMem s₁ := wfMem_eraseCmd (wfMem_eraseCmd (wfMem_eraseCmd h1))
  exact wfMem_ite hs₁ (wfMem_with_flash hs₁)

theorem wfMem_withPort0 (h : WfMem s) (hf : ∀ x0, WfMem x0 → WfMem (f x0)) : WfMem (withPort0 s f) :=
  wfMem_ite (hf _ h) (wfMem_domainLost (wfMem_changeDom (wfMem_setLocks (hf _
    (wfMem_startEffects (wfMem_setLocks (wfMem_changeDom h)))))))

theorem wfMem_clearChamber (h : WfMem s) : WfMem (clearChamber s) := wfMem_ite (h.of_mem rfl) h

theorem wfMem_transitionAct (h : WfMem s) : WfMem (transitionAct s target n) := by
  unfold transitionAct
  split
  · exact wfMem_closeSession (wfMem_holdAll h)
  · exact wfMem_clearChamber h
  · extract_lets +onlyGivenNames s₁
    have hs₁ : WfMem s₁ := wfMem_withPort0 h (fun _ h1 => wfMem_eraseRegion h1)
    exact wfMem_ite hs₁ (wfMem_markStep hs₁)
  · exact wfMem_seqWords h

theorem wfMem_startTransition (h : WfMem s) : WfMem (startTransition s target) := h.of_mem rfl

theorem wfMem_transitionStepOp (h : WfMem s) : WfMem (transitionStepOp s) := by
  unfold transitionStepOp
  split
  · exact h
  · refine wfMem_ite h ?_
    extract_lets +onlyGivenNames s₁
    have hs₁ : WfMem s₁ := wfMem_markStep (wfMem_transitionAct h)
    exact wfMem_ite (wfMem_deviceResetOp (wfMem_with_lc hs₁)) (wfMem_with_lc hs₁)

theorem wfMem_eraseFaultOp {block : Nat} (h : WfMem s) : WfMem (eraseFaultOp s block) := wfMem_ite (wfMem_emit (h.of_mem rfl)) h

theorem wfMem_lcRequestOp (h : WfMem s) : WfMem (lcRequestOp s v) := by
  unfold lcRequestOp
  refine wfMem_ite h ?_
  extract_lets +onlyGivenNames _ _ s₁ s₂
  have hs₂ : WfMem s₂ := wfMem_setRegF (wfMem_ite (wfMem_otpLogWords h) h)
  exact wfMem_ite (wfMem_startTransition hs₂) hs₂

theorem wfMem_resumeTransition (h : WfMem s) : WfMem (resumeTransition s target) :=
  wfMem_ite (wfMem_with_lc (wfMem_foldl (fun _ _ h1 => wfMem_ite h1 (wfMem_markStep (wfMem_transitionAct h1))) h)) h

theorem wfMem_latchLifecycle (h : WfMem s) : WfMem (latchLifecycle s) :=
  wfMem_with_lc (wfMem_setReg (wfMem_ite (wfMem_setRegB (wfMem_setReg h)) (wfMem_setReg h)))

theorem wfMem_sensingOp (h : WfMem s) : WfMem (sensingOp s) := by
  unfold sensingOp
  refine wfMem_ite (wfMem_ite ?_ ?_) h
  · exact wfMem_deviceResetOp (wfMem_foldl (fun _ _ h1 => wfMem_resumeTransition h1) (wfMem_senseArray h))
  · exact wfMem_settleDomains (wfMem_with_boot (wfMem_latchLifecycle (wfMem_senseArray h)))

theorem wfMem_certWipe (h : WfMem s) : WfMem (certWipe s) := wfMem_with_lc (wfMem_setReg (wfMem_setReg h))

theorem wfMem_certEnd {code : Nat} (h : WfMem s) : WfMem (certEnd s code) := wfMem_setReg (wfMem_certWipe (wfMem_emit h))

theorem wfMem_openSession {rights : W32} (h : WfMem s) : WfMem (openSession s rights) :=
  wfMem_ite h (wfMem_ite (wfMem_reseed (h.of_mem rfl)) (h.of_mem rfl))

theorem wfMem_certCheckOp (h : WfMem s) : WfMem (certCheckOp s) := by
  unfold certCheckOp
  refine wfMem_ite (wfMem_ite (wfMem_certEnd h) ?_) h
  extract_lets +onlyGivenNames _ _ _ _ s₁
  have hs₁ : WfMem s₁ := wfMem_certEnd h
  exact wfMem_ite hs₁ (wfMem_ite (wfMem_openSession hs₁) (wfMem_startTransition hs₁))

theorem wfMem_certTimeoutOp (h : WfMem s) : WfMem (certTimeoutOp s) := wfMem_ite (wfMem_certEnd h) h

theorem wfMem_certSubmitOp (h : WfMem s) : WfMem (certSubmitOp s) :=
  wfMem_ite h (wfMem_ite (wfMem_certEnd (wfMem_endChallenge h)) (wfMem_hubInt (h.of_mem rfl)))

theorem wfMem_certClaimOp (h : WfMem s) : WfMem (certClaimOp s m v) := wfMem_ite (wfMem_setReg h) (wfMem_ite (wfMem_setReg h) h)

theorem wfMem_challengeReqOp (h : WfMem s) : WfMem (challengeReqOp s) := by
  unfold challengeReqOp
  dsimp only
  split
  · next htake => exact (wfMem_of_dripTake (wfMem_dropChallenge h) htake).of_mem rfl
  · exact (wfMem_dropChallenge h).of_mem rfl

theorem wfMem_lnCloseOp (h : WfMem s) : WfMem (lnCloseOp s) := wfMem_closeSession h

theorem wfMem_lcWriteOp (h : WfMem s) : WfMem (lcWriteOp s m off v) := by
  unfold lcWriteOp
  refine wfMem_ite (wfMem_lcRequestOp h) (wfMem_ite (wfMem_ite (wfMem_lnCloseOp h) h)
      (wfMem_ite (wfMem_openSession h) (wfMem_ite ?_ ?_)))
  · exact wfMem_ite (wfMem_challengeReqOp h) h
  · exact wfMem_ite (wfMem_certClaimOp h) (wfMem_ite (wfMem_ite (wfMem_certSubmitOp h) h)
        (wfMem_ite (h.of_mem rfl) (wfMem_plainWrite h)))

theorem wfMem_lcAccess {ok : Bool} (h : WfMem s) (hf : ∀ x0, WfMem x0 → WfMem (f x0)) : WfMem (lcAccess s m off ok f) :=
  wfMem_guarded h (fun _ h1 => wfMem_ite (hf _ h1) (wfMem_violate h1))

theorem wfMem_lcWrite (h : WfMem s) : WfMem (lcWrite s m off v) := wfMem_lcAccess h (fun _ h1 => wfMem_lcWriteOp h1)

theorem wfMem_lanternShift {bits v : Nat} (h : WfMem s) : WfMem (lanternShift s ir bits v) :=
  wfMem_ite (wfMem_emitOut (h.of_mem rfl)) h

theorem wfMem_boundaryOp (h : WfMem s) : WfMem (boundaryOp s ir) := by
  unfold boundaryOp
  refine wfMem_ite h ?_
  extract_lets +onlyGivenNames _ s₁
  have hs₁ : WfMem s₁ := h.of_mem rfl
  refine wfMem_ite ?_ ?_
  · exact wfMem_emitOut (wfMem_ite (wfMem_with_lc (wfSnd_drawWord hs₁)) (wfSnd_drawWord hs₁))
  · exact wfMem_violate hs₁

theorem wfMem_mailboxOp {write : Bool} (h : WfMem s) : WfMem (mailboxOp s write off v) := by
  unfold mailboxOp
  refine wfMem_ite ?_ ?_
  · exact h
  · exact wfMem_ite (wfMem_emitOut (wfSnd_drawWord (wfMem_lcWrite (h.of_mem rfl))))
        (wfMem_emitOut (wfMem_lcAccess (h.of_mem rfl) (fun _ h1 => h1)))

theorem wfMem_uidOp (h : WfMem s) : WfMem (uidOp s) := wfMem_lanternShift h

theorem wfMem_bypassOp (h : WfMem s) : WfMem (bypassOp s ir) := by
  unfold bypassOp
  split
  · exact wfMem_lanternShift h
  · exact wfMem_boundaryOp h
  · exact wfMem_boundaryOp h
  · exact wfMem_uidOp h
  · exact wfMem_mailboxOp h
  · exact wfMem_lanternShift h
  · exact wfMem_lanternShift h

theorem wfMem_escapeOp {kind : Nat} (h : WfMem s) : WfMem (escapeOp s kind) := by
  unfold escapeOp
  split
  · exact h.of_mem rfl
  · exact h.of_mem rfl
  · exact h.of_mem rfl
  · exact h

end

end Sys2Proof.Machine
end

section
/-! SUPPORT. Memory in its canonical form: flash, I3C, PCIe, the containers. -/

namespace Sys2Proof.Machine

/-! #### Rule tables and gatekeepers -/

section
variable {s : State} {m msg p tag : Nat} {f : GkProgram → GkProgram} {reply : Option Nat} {hi : W32}

theorem wfMem_writeIgnored (h : WfMem s) : WfMem (writeIgnored s p) := wfMem_setRegB h

theorem wfMem_tableWrite {off : Nat} {v : W32} (h : WfMem s) : WfMem (tableWrite s m p off v) :=
  wfMem_ite (wfMem_writeIgnored h) (wfMem_plainWrite h)

theorem wfMem_swapOp (h : WfMem s) : WfMem (swapOp s m p) := wfMem_ite (wfMem_writeIgnored h) (wfMem_setRegB h)

theorem wfMem_copyActiveOp (h : WfMem s) : WfMem (copyActiveOp s m p) := wfMem_ite (wfMem_writeIgnored h) (wfMem_setRegB h)

theorem wfMem_copyDoneOp (h : WfMem s) : WfMem (copyDoneOp s p) :=
  wfMem_ite (wfMem_setRegB (wfMem_foldl (fun _ _ h1 => wfMem_setReg h1) h)) h

theorem wfMem_tlogWrite {w0 w1 w2 : W32} (h : WfMem s) : WfMem (tlogWrite s p w0 w1 w2) :=
  wfMem_ite (wfMem_bump (wfMem_setPort h)) (wfMem_interrupt (wfMem_setPort h))

theorem wfMem_tlogPopOp (h : WfMem s) : WfMem (tlogPopOp s m p) := wfMem_ite (wfMem_setPort h) h

theorem wfMem_gkScratchWrite {a n v : Nat} (h : WfMem s) : WfMem (gkScratchWrite s p a n v) := wfMem_setPort h

theorem wfMem_gkLoad {image : Nat} (h : WfMem s) : WfMem (gkLoad s p image) :=
  wfMem_swapOp (wfMem_tableWrite (wfMem_foldl (fun _ _ h1 => wfMem_tableWrite (wfMem_tableWrite (wfMem_tableWrite h1)))
    (wfMem_foldl (fun _ _ h1 => wfMem_tableWrite h1) h)))

theorem wfMem_modGk (h : WfMem s) : WfMem (modGk s p f) := wfMem_setPort h

theorem wfMem_portBootDoneOp (h : WfMem s) : WfMem (portBootDoneOp s p) := wfMem_armAudit (wfMem_setRegB h)

theorem wfMem_mailOutOp (h : WfMem s) : WfMem (mailOutOp s p hi) := wfMem_hubInt (wfMem_setRegB (wfMem_setReg h))

theorem wfMem_inTakenOp (h : WfMem s) : WfMem (inTakenOp s p) := wfMem_setRegB (wfMem_setPort h)

theorem wfMem_gkReply {result : Nat} (h : WfMem s) : WfMem (gkReply s p msg result) := wfMem_mailOutOp (wfMem_setReg h)

theorem wfMem_gkAnswer (h : WfMem s) : WfMem (gkAnswer s p reply) := by
  unfold gkAnswer
  split
  · exact wfMem_gkReply h
  · exact h

theorem wfMem_gkChange (h : WfMem s) : WfMem (gkChange s p reply f) := wfMem_gkLoad (wfMem_modGk h)

theorem wfMem_gkLockdown (h : WfMem s) : WfMem (gkLockdown s p reply) :=
  wfMem_ite (wfMem_gkAnswer h) (wfMem_gkChange (wfMem_portBootDoneOp h))

theorem wfMem_setWp {v : Bool} (h : WfMem s) : WfMem (setWp s p v) := wfMem_setRegB h

theorem wfMem_gkAct {y : GkChange} (h : WfMem s) : WfMem (gkAct s p y) := by
  unfold gkAct
  split
  · exact wfMem_ite h (wfMem_ite (wfMem_gkLockdown h) (wfMem_gkChange h))
  · exact wfMem_gkLockdown h
  · exact wfMem_gkChange h
  · exact wfMem_ite h (wfMem_gkChange h)
  · exact wfMem_gkChange (wfMem_setWp h)
  · exact wfMem_ite (wfMem_gkAnswer h) (wfMem_gkChange (wfMem_setWp h))

theorem wfMem_gkMessage {ms : Nat} (h : WfMem s) : WfMem (gkMessage s p msg tag ms) := by
  unfold gkMessage
  split
  · exact wfMem_gkAct h
  · exact wfMem_ite (wfMem_gkReply h) (wfMem_ite (wfMem_gkReply h) (wfMem_gkAct h))
  · exact wfMem_ite (wfMem_gkAct h) (wfMem_gkReply h)
  · exact wfMem_gkReply h

theorem wfMem_gkTake (h : WfMem s) : WfMem (gkTake s p) := wfMem_gkMessage (wfMem_inTakenOp h)

theorem wfMem_gkNext (h : WfMem s) : WfMem (gkNext s p) := by
  unfold gkNext
  refine wfMem_ite h ?_
  split
  · exact wfMem_gkAct (wfMem_modGk h)
  · exact wfMem_ite (wfMem_gkTake h) h

theorem wfMem_gkRun (h : WfMem s) : WfMem (gkRun s p) := wfMem_foldl (fun _ _ h1 => wfMem_gkNext h1) h

theorem wfMem_gkWant {c : GkChange} (h : WfMem s) : WfMem (gkWant s p c) := wfMem_gkRun (wfMem_modGk h)

theorem wfMem_gkStart (h : WfMem s) : WfMem (gkStart s p) := wfMem_gkWant h

theorem wfMem_gkSwapped (h : WfMem s) : WfMem (gkSwapped s p) := wfMem_gkRun (wfMem_gkAnswer (wfMem_modGk h))

theorem wfMem_swapApplyOp (h : WfMem s) : WfMem (swapApplyOp s p) := by
  unfold swapApplyOp
  refine wfMem_ite ?_ h
  extract_lets +onlyGivenNames _ _ s₁
  have hs₁ : WfMem s₁ := wfMem_interrupt (wfMem_setReg h)
  exact wfMem_ite (wfMem_gkSwapped hs₁) hs₁

theorem wfMem_mailInOp (h : WfMem s) : WfMem (mailInOp s p hi) :=
  wfMem_gkRun (wfMem_interrupt (wfMem_setRegB (wfMem_setPort (wfMem_ite (wfMem_setRegB (wfMem_setReg h)) (wfMem_setReg h)))))

theorem wfMem_messageOp {ms : W32} (h : WfMem s) : WfMem (messageOp s p msg tag ms) :=
  wfMem_ite (wfMem_mailInOp (wfMem_setReg h)) h

theorem wfMem_windowExpiryOp (h : WfMem s) : WfMem (windowExpiryOp s p) := wfMem_ite (wfMem_gkWant h) h

theorem wfMem_intervalEndOp (h : WfMem s) : WfMem (intervalEndOp s p) := wfMem_ite (wfMem_gkWant (wfMem_setPort h)) h

theorem wfMem_gkDrain {e : List W32} (h : WfMem s) : WfMem (gkDrain s p e) := by
  unfold gkDrain
  refine wfMem_ite h (wfMem_ite ?_ (wfMem_ite (wfMem_gkWant h) h))
  extract_lets +onlyGivenNames _ _ s₁
  have hs₁ : WfMem s₁ := wfMem_gkScratchWrite h
  exact wfMem_ite (wfMem_gkWant hs₁) hs₁

theorem wfMem_gkPop (h : WfMem s) : WfMem (gkPop s m p) := by
  unfold gkPop
  extract_lets +onlyGivenNames s'₁
  have hs'₁ : WfMem s'₁ := wfMem_tlogPopOp h
  split
  · exact wfMem_ite (wfMem_gkDrain hs'₁) hs'₁
  · exact hs'₁

theorem wfMem_gkResetOp (h : WfMem s) : WfMem (gkResetOp s p) := wfMem_resetCore (wfMem_modGk h)

end

/-! #### Flash ports -/

section
variable {s t : State} {a addr bytes k m off opcode p : Nat} {status : Byte} {data : List Byte} {v : W32}

theorem wfMem_portRecord {rtype : Nat} (h : WfMem s) : WfMem (portRecord s p rtype addr) := wfMem_emit h

theorem wfMem_txnStartOp (h : WfMem s) : WfMem (txnStartOp s p) := by
  unfold txnStartOp
  refine wfMem_ite h (wfMem_ite ?_ ?_)
  · exact wfMem_portRecord (wfMem_setRegB (wfMem_setPort h))
  · exact wfMem_ite (wfMem_portRecord (wfMem_setRegB (wfMem_setPort h))) (wfMem_emitOut (wfMem_setPort h))

theorem wfMem_earlyData (h : WfMem s) : WfMem (earlyData s p a) := by
  unfold earlyData
  extract_lets +onlyGivenNames s₁
  have hs₁ : WfMem s₁ := wfMem_bump (wfMem_setRegB h)
  exact wfMem_ite hs₁ (wfMem_portRecord (wfMem_setPort hs₁))

theorem wfMem_trackMode {t : HostTxn} (h : WfMem s) : WfMem (trackMode s p t) := by
  unfold trackMode
  refine wfMem_ite (wfMem_setPort (wfMem_setReg h)) ?_
  extract_lets +onlyGivenNames _ _ _ _ _ _ s₁
  have hs₁ : WfMem s₁ := wfMem_setReg (wfMem_setReg h)
  exact wfMem_setPort (wfMem_ite (wfMem_hostModeReset hs₁) hs₁)

theorem wfMem_txnFinish {t : HostTxn} (h : WfMem s) : WfMem (txnFinish s p bytes t) := by
  unfold txnFinish
  extract_lets +onlyGivenNames _ _ s₁ s₂ s₃ _ s₄
  have hs₄ : WfMem s₄ := wfMem_trackMode (wfMem_releaseBus (wfMem_emitOut (wfMem_setPort h)))
  exact wfMem_ite (wfMem_tlogWrite hs₄) hs₄

theorem wfMem_discardFinish {t : HostTxn} (h : WfMem s) : WfMem (discardFinish s p bytes t) :=
  wfMem_tlogWrite (wfMem_emitOut (wfMem_setPort h))

theorem wfMem_txnEndOp (h : WfMem s) : WfMem (txnEndOp s p bytes) := by
  unfold txnEndOp
  split
  · exact h
  · exact wfMem_ite h (wfMem_ite (wfMem_discardFinish h) (wfMem_ite (wfMem_setPort h) (wfMem_txnFinish h)))

theorem wfMem_txnDecideOp {modeByte : Byte} {early : Bool} (h : WfMem s) :
    WfMem (txnDecideOp s p opcode addr modeByte early) := by
  unfold txnDecideOp
  split
  · exact h
  · refine wfMem_ite h ?_
    extract_lets +onlyGivenNames _ _ s₁ s₂ s₃
    have hs₂ : WfMem s₂ := wfMem_ite (wfMem_bump (wfMem_setPort h)) (wfMem_setPort h)
    have hs₃ : WfMem s₃ := wfMem_ite (wfMem_earlyData hs₂) hs₂
    split
    · exact wfMem_txnFinish hs₃
    · exact hs₃

theorem wfMem_ownEnd {cause : Nat} (h : WfMem s) : WfMem (ownEnd s p k cause) :=
  wfMem_ite (wfMem_setPort (wfMem_setReg h)) (wfMem_setReg h)

theorem wfMem_ownCmdWrite (h : WfMem s) : WfMem (ownCmdWrite s p k v) :=
  wfMem_ite (wfMem_ite h (wfMem_ite (wfMem_setReg (wfMem_plainWrite h)) (wfMem_ownEnd (wfMem_plainWrite h))))
    (wfMem_plainWrite h)

theorem wfMem_ownIssue (h : WfMem s) : WfMem (ownIssue s p k data) := by
  unfold ownIssue
  extract_lets +onlyGivenNames _ s₁
  have hs₁ : WfMem s₁ := wfMem_emitOut (wfMem_setPort h)
  exact wfMem_ite (wfMem_flashTouched hs₁) hs₁

theorem wfMem_ownStartOp (h : WfMem s) : WfMem (ownStartOp s p k) := by
  unfold ownStartOp
  refine wfMem_ite ?_ ?_
  · exact wfMem_ite (wfMem_ownEnd h) (wfMem_ite (wfMem_ite (wfMem_ownEnd (wfMem_dmaRead h)) (wfMem_ownIssue (wfMem_dmaRead h)))
        (wfMem_ownIssue h))
  · exact h

theorem wfMem_ownDoneOp (h : WfMem s) : WfMem (ownDoneOp s p k status data) := by
  unfold ownDoneOp
  refine wfMem_ite ?_ h
  split
  · exact wfMem_ownEnd (wfFst_dmaWrite h)
  · exact wfMem_ite (wfMem_ownEnd (wfMem_setRegF h)) h
  · exact wfMem_ownEnd h

theorem wfMem_pollTimeoutOp (h : WfMem s) : WfMem (pollTimeoutOp s p k status) := wfMem_ite (wfMem_ownEnd (wfMem_setRegF h)) h

theorem wfMem_quietOpenOp (h : WfMem s) : WfMem (quietOpenOp s p) := by
  unfold quietOpenOp
  split
  · exact wfMem_ite (wfMem_setRegB (wfMem_setPin h)) (wfMem_setPin h)
  · exact h

theorem wfMem_quietCloseOp (h : WfMem s) : WfMem (quietCloseOp s p) := by
  unfold quietCloseOp
  split
  · refine wfMem_ite ?_ (wfMem_setPin h)
    extract_lets +onlyGivenNames s₁
    have hs₁ : WfMem s₁ := wfMem_setRegB (wfMem_setPin h)
    split
    · exact wfMem_ite (wfMem_ownEnd hs₁) hs₁
    · exact hs₁
  · exact h

theorem wfSnd_auditEntry {i : Nat} (h : WfMem s) : WfSnd (auditEntry s p i) := wfSnd_mk (wfMem_dmaRead h)

theorem wfMem_auditMismatch (h : WfMem s) : WfMem (auditMismatch s p a) :=
  wfMem_holdOp (wfMem_setPlatStatus (wfMem_portRecord h))

theorem wfMem_auditCompare {p a : Nat} {digest : List Byte} (h : WfMem s) : WfMem (auditCompare s p a digest) := by
  unfold auditCompare
  split
  · split
    · next hentry =>
      have hread := (wfSnd_auditEntry h).of_eq hentry
      exact wfMem_ite hread (wfMem_auditMismatch hread)
    · next hentry => exact (wfSnd_auditEntry h).of_eq hentry
  · exact h

theorem wfMem_auditBlockOp {addr : W32} {entryHere : Bool} (h : WfMem s) : WfMem (auditBlockOp s p addr data entryHere) :=
  wfMem_ite (wfMem_ite (wfMem_auditCompare h) (wfMem_setPort h)) h

theorem wfMem_auditArrivalOp (h : WfMem s) : WfMem (auditArrivalOp s p) := by
  unfold auditArrivalOp
  split
  · exact h
  · exact wfMem_auditCompare (wfMem_setPort h)

theorem wfMem_sweepCharge {cost : Nat} (h : WfMem s) : WfMem (sweepCharge s p cost) := wfMem_setPort h

theorem wfMem_sweepCompare {p i a : Nat} {data : List Byte} (h : WfMem s) : WfMem (sweepCompare s p i a data) := by
  unfold sweepCompare
  split
  · next hentry =>
    have hread := (wfSnd_auditEntry h).of_eq hentry
    exact wfMem_ite hread (wfMem_portRecord (wfMem_setRegB hread))
  · next hentry => exact (wfSnd_auditEntry h).of_eq hentry

theorem wfMem_sweepBlockOp (h : WfMem s) : WfMem (sweepBlockOp s p data) := by
  unfold sweepBlockOp
  refine wfMem_ite ?_ h
  extract_lets +onlyGivenNames s₁ s₂
  have hs₂ : WfMem s₂ := wfMem_setReg (wfMem_sweepCompare (wfMem_emitOut (wfMem_sweepCharge h)))
  exact wfMem_ite (wfMem_bump hs₂) hs₂

theorem wfMem_ownPoll (h : WfMem s) : WfMem (ownPoll s p k) := wfMem_emitOut h

theorem wfMem_ownChange {bytes : List Byte} (h : WfMem s) : WfMem (ownChange s p k opcode addr bytes) :=
  wfMem_ownPoll (wfMem_flashTouched (wfMem_emitOut (wfMem_emitOut h)))

theorem wfMem_ownProgram {bytes : List Byte} (h : WfMem s) : WfMem (ownProgram s p k addr bytes) :=
  wfMem_foldl (fun _ _ h1 => wfMem_ownChange h1) h

theorem wfMem_gkScratchBusy (h : WfMem s) : WfMem (gkScratchBusy s m p) := wfMem_emit h

theorem wfMem_portWriteOp (h : WfMem s) : WfMem (portWriteOp s m p off v) := by
  unfold portWriteOp
  refine wfMem_ite (wfMem_ite (wfMem_setRegB h) (wfMem_plainWrite h)) (wfMem_ite (wfMem_ownCmdWrite h) (wfMem_ite ?_ ?_))
  · exact wfMem_ownCmdWrite h
  · refine wfMem_ite (wfMem_ite (wfMem_portBootDoneOp h) h) (wfMem_ite (wfMem_plainWrite h)
        (wfMem_ite (wfMem_ite (wfMem_writeIgnored h) ?_) (wfMem_ite ?_ ?_)))
    · extract_lets +onlyGivenNames s₁
      have hs₁ : WfMem s₁ := wfMem_ite (wfMem_swapOp h) h
      exact wfMem_ite (wfMem_copyActiveOp hs₁) hs₁
    · exact wfMem_tableWrite h
    · refine wfMem_ite (wfMem_ite (wfMem_tlogPopOp h) h) (wfMem_ite (wfMem_relStatusWrite h)
          (wfMem_ite (wfMem_ite (wfMem_gkResetOp h) h) (wfMem_ite ?_ ?_)))
      · exact wfMem_ite (wfMem_mailInOp h) h
      · refine wfMem_ite (wfMem_ite (wfMem_plainWrite h) h) (wfMem_ite (wfMem_ite (wfMem_plainWrite h) h) (wfMem_ite ?_ ?_))
        · exact wfMem_ite (wfMem_mailOutOp h) h
        · refine wfMem_ite (wfMem_ite ?_ (wfMem_plainWrite h)) (wfMem_ite (wfMem_ite (wfMem_gkScratchWrite h)
              (wfMem_gkScratchBusy h)) (wfMem_plainWrite h))
          extract_lets +onlyGivenNames s₁
          have hs₁ : WfMem s₁ := wfMem_ite (wfMem_inTakenOp h) h
          exact wfMem_ite (wfMem_setRegB hs₁) hs₁

theorem wfMem_portWrite (h : WfMem s) : WfMem (portWrite s m p off v) :=
  wfMem_guarded h (fun _ h1 => wfMem_granted h1 (fun _ h2 => wfMem_portWriteOp h2))

theorem wfSnd_portRead (h : WfMem s) : WfSnd (portRead s m p off) := by
  unfold portRead
  refine wfSnd_ite ?_ ?_
  · exact wfSnd_mk h
  · refine wfSnd_ite (wfSnd_mk h) (wfSnd_ite (wfSnd_mk h) (wfSnd_ite (wfSnd_mk h)
        (wfSnd_ite (wfSnd_mk h) (wfSnd_ite (wfSnd_mk h) (wfSnd_ite ?_ ?_)))))
    · exact wfSnd_ite (wfSnd_mk h) (wfSnd_mk (wfMem_gkScratchBusy h))
    · exact wfSnd_ite (wfSnd_mk h) (wfSnd_ite (wfSnd_mk h) (wfSnd_ite (wfSnd_mk h) (wfSnd_mk h)))

theorem wfMem_ownGo {kind : Nat} (h : WfMem s) : WfMem (ownGo s m p k kind v) := wfMem_ite (wfMem_portWrite h) h

theorem wfMem_portCmd (h : WfMem s) : WfMem (portCmd s m p off v) := wfMem_ite (wfMem_portWrite h) h

theorem wfMem_recoveredRecord (h : WfMem s) : WfMem (recoveredRecord s p) := wfMem_ite (wfMem_emit h) h

theorem wfMem_releaseOp (h : WfMem s) : WfMem (releaseOp s p) := by
  unfold releaseOp
  extract_lets +onlyGivenNames s'₁
  have hs'₁ : WfMem s'₁ := wfMem_platformReleaseOp h
  refine wfMem_ite ?_ hs'₁
  extract_lets +onlyGivenNames s'₁
  have hs'₁ : WfMem s'₁ := wfMem_ite (wfMem_recoveredRecord hs'₁) hs'₁
  exact wfMem_ite (wfMem_gkStart hs'₁) hs'₁

end

/-! #### The firewall -/

section
variable {s t : State} {c m p : Nat} {v : Violation}

theorem wfMem_latchStatic (h : WfMem s) : WfMem (latchStatic s p) := wfMem_setRegB h

theorem wfMem_freezeCore (h : WfMem s) : WfMem (freezeCore s c) := by
  unfold freezeCore
  exact wfMem_modCore (wfMem_revertBanks (wfMem_stopMaster h))

theorem wfMem_freezeSpoke (h : WfMem s) : WfMem (freezeSpoke s c) := wfMem_freezeCore (wfMem_ite (wfMem_wdmaStop h) h)

theorem wfMem_freezeGk (h : WfMem s) : WfMem (freezeGk s p) := wfMem_latchStatic (wfMem_freezeCore h)

theorem wfMem_freezeFunc {f : Nat} (h : WfMem s) : WfMem (freezeFunc s f) := wfMem_stopQueues (wfMem_setFunc h)

theorem wfMem_freezeChain {x : Nat} (h : WfMem s) : WfMem (freezeChain s x) :=
  wfMem_setCport (wfMem_revertBanks (wfMem_setRegF (wfMem_setRegB (wfMem_setLink h))))

theorem wfMem_freezeMaster (h : WfMem s) : WfMem (freezeMaster s m) := by
  unfold freezeMaster
  refine wfMem_ite ?_ ?_
  · exact wfMem_freezeSpoke h
  · exact wfMem_ite (wfMem_freezeGk h) (wfMem_ite (wfMem_freezeFunc h) (wfMem_ite (wfMem_freezeChain h)
        (wfMem_ite (wfMem_with_lc (wfMem_closeSession h)) h)))

theorem wfMem_noteFreeze {late : Bool} (h : WfMem s) : WfMem (noteFreeze s v late) := by
  unfold noteFreeze
  extract_lets +onlyGivenNames s₁ s₂ s₃
  have hs₃ : WfMem s₃ := wfMem_emit (wfMem_setPair (wfMem_setReg h))
  exact wfMem_ite hs₃ (wfMem_hubInt (wfMem_setRegB hs₃))

theorem wfMem_applyViolation (h : WfMem s) : WfMem (applyViolation s v) :=
  wfMem_ite (wfMem_deviceResetOp h) (wfMem_ite (wfMem_ite h (wfMem_noteFreeze h))
    (wfMem_ite h (wfMem_freezeMaster (wfMem_noteFreeze h))))

theorem wfMem_freezeOp (h : WfMem s) : WfMem (freezeOp s) := by
  unfold freezeOp
  split
  · exact h
  · exact wfMem_applyViolation (h.of_mem rfl)

theorem wfMem_thawMaster (h : WfMem s) : WfMem (thawMaster s m) :=
  wfMem_ite (wfMem_modCore h) (wfMem_ite (wfMem_setFunc h) (wfMem_setCport h))

theorem wfMem_unfreezeOp {v : W32} (h : WfMem s) : WfMem (unfreezeOp s v) :=
  wfMem_ite (wfMem_setReg h) (wfMem_ite (wfMem_setReg h) (wfMem_emit (wfMem_setReg (wfMem_thawMaster h))))

theorem wfMem_fwWrite {off : Nat} {v : W32} (h : WfMem s) : WfMem (fwWrite s off v) :=
  wfMem_ite (wfMem_unfreezeOp h) (wfMem_plainWrite h)

end

/-! #### I3C -/

section
variable {s t : State} {off : Nat} {v : W32}

theorem wfMem_i3cOut {b : Option (List Byte)} (h : WfMem s) : WfMem (i3cOut s b) := wfMem_emitOut h

theorem wfMem_i3cCcc {f : State → State} (h : WfMem s) (hf : ∀ x0, WfMem x0 → WfMem (f x0)) : WfMem (i3cCcc s f) :=
  wfMem_ite (hf _ (wfMem_i3cOut h)) (wfMem_i3cOut h)

theorem wfMem_i3cGet {b : List Byte} (h : WfMem s) : WfMem (i3cGet s b) := wfMem_ite (wfMem_i3cOut h) (wfMem_i3cOut h)

theorem wfMem_i3cAssign {addr : Nat} (h : WfMem s) : WfMem (i3cAssign s addr) := wfMem_setReg h

theorem wfMem_i3cTakeCfg (h : WfMem s) : WfMem (i3cTakeCfg s) := h.of_mem rfl

theorem wfMem_i3cRelease (h : WfMem s) : WfMem (i3cRelease s) := wfMem_i3cTakeCfg (wfMem_setReg h)

theorem wfMem_i3cIbi (h : WfMem s) : WfMem (i3cIbi s) := wfMem_ite (h.of_mem rfl) h

theorem wfMem_i3cEvents {events : BitVec 8} {en : Bool} (h : WfMem s) : WfMem (i3cEvents s events en) :=
  wfMem_ite (wfMem_ite (wfMem_i3cIbi (wfMem_setRegB h)) (wfMem_with_i3c (wfMem_setRegB h))) h

theorem wfMem_i3cWriteOp {data : List Byte} (h : WfMem s) : WfMem (i3cWriteOp s data) :=
  wfMem_ite (wfMem_i3cOut h) (wfMem_hubInt (wfMem_setReg (wfMem_with_i3c (wfMem_i3cOut h))))

theorem wfMem_i3cReadOp (h : WfMem s) : WfMem (i3cReadOp s) :=
  wfMem_ite (wfMem_setRegB (wfMem_with_i3c (wfMem_i3cOut h))) (wfMem_i3cOut h)

theorem wfMem_txGoOp (h : WfMem s) : WfMem (txGoOp s v) :=
  wfMem_ite (wfMem_i3cIbi (wfMem_setRegB (wfMem_plainWrite h))) (wfMem_plainWrite h)

theorem wfMem_rxFullClearOp (h : WfMem s) : WfMem (rxFullClearOp s) := wfMem_setRegB h

theorem wfMem_i3cCfgOp (h : WfMem s) : WfMem (i3cCfgOp s v) :=
  wfMem_ite (wfMem_plainWrite h) (wfMem_i3cTakeCfg (wfMem_plainWrite h))

theorem wfMem_i3cWrite (h : WfMem s) : WfMem (i3cWrite s off v) :=
  wfMem_ite (wfMem_i3cCfgOp h) (wfMem_ite (wfMem_ite (wfMem_rxFullClearOp h) h)
    (wfMem_ite (wfMem_txGoOp h) (wfMem_ite (h.of_mem rfl) h)))

theorem wfMem_i3cAccess {m : Nat} (h : WfMem s) : WfMem (i3cAccess s m off v) :=
  wfMem_guarded h (fun _ h1 => wfMem_granted h1 (fun _ h2 => wfMem_i3cWrite h2))

end

/-! #### PCIe -/

section
variable {s t : State} {f off stream : Nat} {write : Bool} {v : W32}

theorem wfMem_flushVector {i : Nat} (h : WfMem s) : WfMem (flushVector s f i) := wfMem_ite (wfMem_hostOut (wfMem_setVector h)) h

theorem wfMem_flushVectors (h : WfMem s) : WfMem (flushVectors s f) := wfMem_foldl (fun _ _ h1 => wfMem_flushVector h1) h

theorem wfMem_cfgWrite (h : WfMem s) : WfMem (cfgWrite s f off v) := by
  unfold cfgWrite
  extract_lets +onlyGivenNames _ s₁
  have hs₁ : WfMem s₁ := wfMem_setFunc h
  exact wfMem_ite (wfMem_setBusMaster hs₁) (wfMem_ite (wfMem_flushVectors (wfMem_setFunc hs₁)) hs₁)

theorem wfMem_configOp (h : WfMem s) : WfMem (configOp s f off write v) :=
  wfMem_ite h (wfMem_ite (wfMem_emitOut h) (wfMem_ite (wfMem_emitOut (wfMem_cfgWrite h)) (wfMem_emitOut h)))

theorem wfMem_barFaultOp {size : Nat} (h : WfMem s) : WfMem (barFaultOp s write off size) :=
  wfMem_ite h (wfMem_ite (wfMem_ite h (wfMem_emitOut h)) (wfMem_ite (wfMem_emit h) (wfMem_emitOut (wfMem_emit h))))

theorem wfMem_msixWrite (h : WfMem s) : WfMem (msixWrite s f off v) := by
  unfold msixWrite
  refine wfMem_ite h ?_
  dsimp only
  split
  · exact wfMem_setVector h
  · exact wfMem_setVector h
  · exact wfMem_setVector h
  · exact wfMem_flushVector (wfMem_setVector h)

theorem wfMem_spdmOp {code param : Nat} (h : WfMem s) : WfMem (spdmOp s code param) :=
  wfMem_ite h (wfMem_ite (wfMem_emitOut h) (wfMem_emitOut (wfMem_ite (h.of_mem rfl) (wfMem_ite (h.of_mem rfl) h))))

theorem wfMem_ideKm {f : State → State} (h : WfMem s) (hf : ∀ x0, WfMem x0 → WfMem (f x0)) : WfMem (ideKm s f) :=
  wfMem_ite h (wfMem_ite (hf _ h) (wfMem_emitOut h))

theorem wfMem_keyProgOp {key : BitVec 256} (h : WfMem s) : WfMem (keyProgOp s stream key) :=
  wfMem_ite (wfMem_emitOut h) (wfMem_emitOut (h.of_mem rfl))

theorem wfMem_keyGoOp (h : WfMem s) : WfMem (keyGoOp s stream) := wfMem_ite (wfMem_emitOut (h.of_mem rfl)) (wfMem_emitOut h)

theorem wfMem_keyStopOp (h : WfMem s) : WfMem (keyStopOp s stream) := wfMem_emitOut (h.of_mem rfl)

end

/-! #### The container format -/

section
variable {s t : State} {a hi lo : Nat}

theorem wfMem_flashProgram {a : Nat} {bs : List Byte} (h : WfMem s) : WfMem (flashProgram s a bs) := by
  induction bs generalizing s a with
  | nil => exact h
  | cons b bs ih => exact ih (h.of_mem rfl)

theorem wfMem_flashErase (h : WfMem s) : WfMem (flashErase s lo hi) := h.of_mem rfl

theorem wfMem_devProgram {bs : List Byte} (h : WfMem s) : WfMem (devProgram s a bs) :=
  wfMem_flashProgram (wfMem_foldl (fun _ _ h1 => wfMem_ite h1 (wfMem_ownChange h1)) h)

theorem wfMem_devErase (h : WfMem s) : WfMem (devErase s lo hi) :=
  wfMem_flashErase (wfMem_foldl (fun _ _ h1 => wfMem_ownChange h1) h)

theorem wfMem_setValid {v : Nat} (h : WfMem s) : WfMem (setValid s a v) := wfMem_devProgram h

theorem wfMem_writeRecord {b : List Byte} (h : WfMem s) : WfMem (writeRecord s a b) := wfMem_setValid (wfMem_devProgram h)

theorem wfMem_cfgProgram {i gen version : Nat} {tag body : List Byte} (h : WfMem s) :
    WfMem (cfgProgram s i gen version tag body) :=
  wfMem_devProgram (wfMem_devErase h)

end

end Sys2Proof.Machine
end

section
/-! SUPPORT. Memory in its canonical form: boot, recovery and updates. -/

namespace Sys2Proof.Machine

/-! #### Boot -/

section
variable {s t : State} {block code fail n : Nat} {c : Candidate}

theorem wfMem_setRom {r : RomPhase} (h : WfMem s) : WfMem (setRom s r) := h.of_mem rfl

theorem wfMem_romStart (h : WfMem s) : WfMem (romStart s) := wfMem_ite (wfMem_holdAll (wfMem_setRom h)) (wfMem_setRom h)

theorem wfMem_romEnterMode (h : WfMem s) : WfMem (romEnterMode s) := by
  unfold romEnterMode
  extract_lets +onlyGivenNames _ _ s₁
  have hs₁ : WfMem s₁ := wfMem_ite (wfMem_emitOut h) h
  exact wfMem_with_boot (wfMem_ite (wfMem_foldl (fun _ _ h1 => wfMem_emitOut h1) hs₁) hs₁)

theorem wfMem_romRead {a : Nat} (h : WfMem s) : WfMem (romRead s a n) := wfMem_emitOut h

theorem wfMem_romReadCopies (h : WfMem s) : WfMem (romReadCopies s) := wfMem_romRead (wfMem_romRead h)

theorem wfMem_candidateReads (h : WfMem s) : WfMem (candidateReads s c code block) :=
  wfMem_foldl (fun _ _ h1 => wfMem_romRead h1) (wfMem_ite (wfMem_romRead h) (wfMem_romRead (wfMem_romRead h)))

theorem wfMem_zeroLoaded {blocks : Nat} (h : WfMem s) : WfMem (zeroLoaded s blocks) := wfMem_wipeMem h

theorem wfMem_bootFail {slot : Nat} (h : WfMem s) : WfMem (bootFail s slot code block) := wfMem_emit h

theorem wfMem_layer0 (h : WfMem s) : WfMem (layer0 s) := wfMem_ite (wfMem_setSlot h) h

theorem wfMem_romLeave {part manifest : List Byte} {info : W32} {gen : Nat} (h : WfMem s) :
    WfMem (romLeave s part manifest info gen) :=
  wfMem_modCore (wfMem_with_lanes (wfMem_layer0 (wfMem_with_boot (wfMem_wrBytes h))))

theorem wfMem_romLoad (h : WfMem s) : WfMem (romLoad s c n fail) := wfMem_romLeave h

theorem wfMem_setRcvTarget {t : Nat} {k : RcvTarget} (h : WfMem s) : WfMem (setRcvTarget s t k) := h.of_mem rfl

theorem wfMem_holdReleased (h : WfMem s) : WfMem (holdReleased s) :=
  wfMem_foldl (fun _ _ h1 => wfMem_ite (wfMem_holdOp h1) h1) h

theorem wfMem_romListen (h : WfMem s) : WfMem (romListen s fail) := by
  unfold romListen
  extract_lets +onlyGivenNames _ s₁ _ s₂
  have hs₂ : WfMem s₂ := wfMem_with_boot (wfMem_holdReleased h)
  refine wfMem_ite ?_ ?_
  · exact wfMem_setRom hs₂
  · exact wfMem_emit (wfMem_pdReqOp (wfMem_setRegB (wfMem_setRegB (wfMem_setRcvTarget (wfMem_setRom hs₂)))))

theorem wfMem_romTry {l : List Candidate} {n fail : Nat} (h : WfMem s) : WfMem (romTry l n fail s) := by
  induction l generalizing n fail s with
  | nil => exact wfMem_romListen h
  | cons c l ih =>
    have hreads {code block : Nat} : WfMem (candidateReads s c code block) := wfMem_candidateReads h
    rw [romTry]
    split
    exact wfMem_ite (wfMem_romLoad hreads) (ih (wfMem_bootFail (wfMem_zeroLoaded hreads)))

theorem wfMem_romChoose (h : WfMem s) : WfMem (romChoose s) := by
  unfold romChoose
  refine wfMem_ite ?_ h
  extract_lets +onlyGivenNames s₁
  have hs₁ : WfMem s₁ := wfMem_romReadCopies (wfMem_romEnterMode h)
  exact wfMem_ite (wfMem_romListen hs₁) (wfMem_romTry hs₁)

theorem wfMem_romPower (h : WfMem s) : WfMem (romPower s) :=
  wfMem_ite (wfMem_setRom (wfMem_setStep (wfMem_pdReqOp (wfMem_selftestOp (wfMem_pdReqOp h))))) (wfMem_pdReqOp h)

theorem wfMem_romSelfTest {again : Bool} (h : WfMem s) : WfMem (romSelfTest s again) := by
  unfold romSelfTest
  refine wfMem_ite h (wfMem_ite ?_ ?_)
  · exact wfMem_ite (wfMem_setRom h) h
  · exact wfMem_ite (wfMem_holdAll (wfMem_setRom (wfMem_bootFail (h.of_mem rfl)))) (wfMem_setRom (wfMem_selftestOp h))

theorem wfMem_romChainPort {x : Nat} (h : WfMem s) : WfMem (romChainPort s x) :=
  wfMem_linkModeOp (wfMem_setPair (wfMem_setReg (wfMem_setPair (wfMem_handoverOp h))))

theorem wfMem_romChain (h : WfMem s) : WfMem (romChain s) := wfMem_ite (wfMem_romChainPort (wfMem_romChainPort h)) h

theorem wfMem_romStep (h : WfMem s) : WfMem (romStep s) := by
  unfold romStep
  refine wfMem_ite h ?_
  split
  · exact wfMem_romPower h
  · exact wfMem_romSelfTest h
  · exact wfMem_romChoose h
  · exact wfMem_romChain h
  · exact h

theorem wfMem_hubRestart (h : WfMem s) : WfMem (hubRestart s) :=
  wfMem_romStart (wfMem_modCore (wfMem_firmwareLost (wfMem_with_hubs_lanes_boot
    (wfMem_foldl (fun _ _ h1 => wfMem_coreLost (wfMem_stopMaster h1)) h))))

end

/-! #### Recovery -/

section
variable {s t : State} {code index k rtype seq tr : Nat} {c data : List Byte}

theorem wfMem_commitTail {copy : Nat} {digest : List Byte} (h : WfMem s) : WfMem (commitTail s copy digest) := by
  unfold commitTail
  extract_lets +onlyGivenNames s₁ s₂
  have hs₁ : WfMem s₁ := by
    unfold s₁
    split
    · exact wfMem_setValid h
    · exact h
  have hs₂ : WfMem s₂ := wfMem_ite (wfMem_setValid hs₁) hs₁
  exact wfMem_ite (wfMem_setValid hs₂) hs₂

theorem wfMem_commitSet (h : WfMem s) : WfMem (commitSet s k) :=
  wfMem_with_upd (wfMem_commitTail (wfMem_writeRecord (wfMem_devErase h)))

theorem wfMem_writeSet {o : OpState} (h : WfMem s) : WfMem (writeSet s k c o) :=
  wfMem_foldl (fun _ _ h1 => wfMem_devProgram h1) (wfMem_devProgram (wfMem_devErase h))

theorem wfMem_i3cRespond {bytes : List Byte} (h : WfMem s) : WfMem (i3cRespond s bytes) :=
  wfMem_i3cIbi (wfMem_setReg (h.of_mem rfl))

theorem wfMem_respond {state next : Nat} (h : WfMem s) : WfMem (respond s tr rtype seq state code next) := by
  unfold respond
  extract_lets +onlyGivenNames s₁
  have hs₁ : WfMem s₁ := wfMem_emitOut h
  refine wfMem_ite ?_ ?_
  · exact wfMem_setRegB (wfMem_setRegB (wfMem_foldl (fun _ _ h1 => wfMem_setReg h1) hs₁))
  · exact wfMem_ite (wfMem_i3cRespond hs₁) (wfMem_sendRaw hs₁)

theorem wfMem_rcvHeard {t : Nat} {f : State → State} (h : WfMem s) (hf : ∀ x0, WfMem x0 → WfMem (f x0)) :
    WfMem (rcvHeard s tr rtype seq t f) :=
  wfMem_ite h (wfMem_ite (wfMem_respond h) (wfMem_ite (wfMem_respond h) (hf _ h)))

theorem wfMem_rcvAnswer {t : Nat} (h : WfMem s) : WfMem (rcvAnswer s tr rtype seq t code) := wfMem_respond h

theorem wfMem_claimRecord {t : Nat} (h : WfMem s) : WfMem (claimRecord s t code) := wfMem_ite (wfMem_bootFail h) (wfMem_emit h)

theorem wfMem_endClaim {t : Nat} (h : WfMem s) : WfMem (endClaim s t code) := by
  unfold endClaim
  extract_lets +onlyGivenNames s₁ s₂
  have hs₂ : WfMem s₂ := wfMem_setRcvTarget (wfMem_ite (wfMem_wipeMem h) h)
  exact wfMem_ite hs₂ (wfMem_claimRecord hs₂)

theorem wfMem_setHeaderBuf {t : Nat} {b : List Byte} (h : WfMem s) : WfMem (setHeaderBuf s tr t b) := h.of_mem rfl

theorem wfMem_rcvHeader {t : Nat} (h : WfMem s) : WfMem (rcvHeader s tr seq t index data) := by
  unfold rcvHeader
  refine wfMem_ite (wfMem_rcvAnswer h) (wfMem_ite (wfMem_respond (wfMem_setHeaderBuf h)) ?_)
  extract_lets +onlyGivenNames _ s₁
  have hs₁ : WfMem s₁ := wfMem_setHeaderBuf h
  refine wfMem_ite ?_ ?_
  · exact wfMem_rcvAnswer (wfMem_setRcvTarget (wfMem_ite hs₁ (wfMem_setRegF hs₁)))
  · exact wfMem_rcvAnswer (wfMem_claimRecord hs₁)

theorem wfMem_rcvLeave (h : WfMem s) : WfMem (rcvLeave s c) := wfMem_romLeave (wfMem_setRegB h)

theorem wfMem_rcvChunk {t : Nat} (h : WfMem s) : WfMem (rcvChunk s tr seq t data) := by
  unfold rcvChunk
  extract_lets +onlyGivenNames _ _ s₁
  have hs₁ : WfMem s₁ := wfMem_setRcvTarget h
  refine wfMem_ite ?_ ?_
  · exact wfMem_rcvAnswer hs₁
  · refine wfMem_ite (wfMem_ite (wfMem_rcvAnswer (wfMem_endClaim hs₁)) (wfMem_rcvAnswer (wfMem_setRcvTarget hs₁)))
        (wfMem_ite ?_ ?_)
    · exact wfMem_ite (wfMem_rcvAnswer (wfMem_endClaim hs₁)) (wfMem_rcvAnswer hs₁)
    · refine wfMem_ite (wfMem_ite (wfMem_rcvAnswer (wfMem_endClaim hs₁)) (wfMem_rcvAnswer hs₁)) (wfMem_ite ?_ ?_)
      · exact wfMem_rcvAnswer (wfMem_endClaim (wfMem_wrBytes hs₁))
      · exact wfMem_ite (wfMem_rcvAnswer (wfMem_rcvLeave (wfMem_setRcvTarget (wfMem_wrBytes hs₁))))
            (wfMem_rcvAnswer (wfMem_wrBytes hs₁))

theorem wfMem_rcvStatusOp {t : Nat} (h : WfMem s) : WfMem (rcvStatusOp s tr seq t) :=
  wfMem_rcvHeard h (fun _ h1 => wfMem_setRcvTarget (wfMem_rcvAnswer h1))

theorem wfMem_rcvDataOp {t : Nat} (h : WfMem s) : WfMem (rcvDataOp s tr seq t index data) := by
  unfold rcvDataOp
  refine wfMem_rcvHeard h (fun _ h1 => ?_)
  refine wfMem_ite (wfMem_rcvAnswer h1) ?_
  split
  · exact wfMem_rcvAnswer h1
  · exact wfMem_rcvHeader h1
  · exact wfMem_ite (wfMem_rcvAnswer h1) (wfMem_ite (wfMem_rcvAnswer h1) (wfMem_rcvChunk h1))

theorem wfFst_rcvCommit (h : WfMem s) : WfFst (rcvCommit s c) :=
  wfFst_ite (wfFst_ite (wfFst_mk (wfMem_commitSet (wfMem_writeSet h))) (wfFst_mk (wfMem_writeSet h))) (wfFst_mk h)

theorem wfFst_rcvPlatform {t : Nat} (h : WfMem s) : WfFst (rcvPlatform s t c) :=
  wfFst_ite (wfFst_mk h) (wfFst_ite (wfFst_mk (h.of_mem rfl)) (wfFst_mk h))

theorem wfMem_rcvEndOp {t : Nat} (h : WfMem s) : WfMem (rcvEndOp s tr seq t) := by
  unfold rcvEndOp
  refine wfMem_rcvHeard h fun u hu => ?_
  refine wfMem_ite (wfMem_rcvAnswer hu) (wfMem_ite (wfMem_rcvAnswer hu) ?_)
  split
  next hend =>
  have hended := WfFst.of_eq (by
    split
    · exact wfFst_rcvPlatform hu
    · split
      · exact wfFst_rcvCommit hu
      · exact hu) hend
  exact wfMem_ite (wfMem_rcvAnswer (wfMem_setRcvTarget hended)) (wfMem_rcvAnswer (wfMem_endClaim hended))

theorem wfMem_rcvAbortOp {t : Nat} (h : WfMem s) : WfMem (rcvAbortOp s tr seq t) := by
  unfold rcvAbortOp
  refine wfMem_rcvHeard h (fun _ h1 => ?_)
  split
  · exact wfMem_ite (wfMem_rcvAnswer (wfMem_endClaim h1)) (wfMem_rcvAnswer h1)
  · exact wfMem_rcvAnswer h1

theorem wfMem_rcvTimeoutOp {t : Nat} (h : WfMem s) : WfMem (rcvTimeoutOp s t) := wfMem_ite (wfMem_endClaim h) h

theorem wfMem_rcvRequest {t : Nat} (h : WfMem s) : WfMem (rcvRequest s tr rtype seq t index data) := by
  unfold rcvRequest
  split
  · exact wfMem_rcvStatusOp h
  · exact wfMem_rcvDataOp h
  · exact wfMem_rcvEndOp h
  · exact wfMem_rcvAbortOp h
  · exact wfMem_ite h (wfMem_respond h)

end

/-! #### Updates -/

section
variable {s t : State} {code ftype report rtype tr x : Nat} {f : Frame} {u : FwSet} {bs data digest r : List Byte} {o : OpState}
  {act : State → State}

theorem wfMem_setUpd {u : Update} (h : WfMem s) : WfMem (setUpd s u) := h.of_mem rfl

theorem wfMem_updRecord {more : List W32} (h : WfMem s) : WfMem (updRecord s rtype digest more) := wfMem_hubBRecord h

theorem wfMem_updAnswer {seq detail next : Nat} (h : WfMem s) : WfMem (updAnswer s tr rtype seq digest code detail next) :=
  wfMem_ite (wfMem_respond h) (wfMem_sendRaw h)

theorem wfMem_tellSource (h : WfMem s) : WfMem (tellSource s tr digest code) := wfMem_ite (wfMem_emitOut h) (wfMem_updAnswer h)

theorem wfMem_offerTo (h : WfMem s) : WfMem (offerTo s x) := wfMem_ite (wfMem_sendRaw h) h

theorem wfMem_hubStore {a : Nat} (h : WfMem s) : WfMem (hubStore s a bs) := by
  unfold hubStore
  split
  · exact wfMem_ite (wfMem_offAccess h) (wfMem_ite (wfMem_wrBytes (wfMem_settleBank h)) h)
  · exact h

theorem wfMem_pumpPort (h : WfMem s) : WfMem (pumpPort s x) := by
  unfold pumpPort
  split
  · exact h
  · exact wfMem_setUpd (wfMem_foldl (fun _ _ h1 => wfMem_sendRaw h1) h)

theorem wfMem_pump (h : WfMem s) : WfMem (pump s) := wfMem_foldl (fun _ _ h1 => wfMem_ite h1 (wfMem_pumpPort h1)) h

theorem wfMem_offerOn (h : WfMem s) : WfMem (offerOn s) := wfMem_foldl (fun _ _ h1 => wfMem_ite h1 (wfMem_offerTo h1)) h

theorem wfMem_writeArm {t : Nat} (h : WfMem s) : WfMem (writeArm s digest t) := wfMem_writeRecord (wfMem_devErase h)

theorem wfMem_setArm {t : Nat} (h : WfMem s) : WfMem (setArm s t) := wfMem_setReg (wfMem_setPair h)

theorem wfMem_sendArm (h : WfMem s) : WfMem (sendArm s) := by
  unfold sendArm
  split
  · exact wfMem_sendAll h
  · exact h

theorem wfMem_armSelf {t : Nat} (h : WfMem s) : WfMem (armSelf s u t) :=
  wfMem_updRecord (wfMem_setUpd (wfMem_setArm (wfMem_writeArm h)))

theorem wfMem_withdrawSet (h : WfMem s) : WfMem (withdrawSet s digest) :=
  wfMem_ite h (wfMem_ite (wfMem_setUpd h) (wfMem_setUpd h))

theorem wfMem_abortSet (h : WfMem s) : WfMem (abortSet s digest) :=
  wfMem_updRecord (wfMem_setUpd (wfMem_withdrawSet (wfMem_sendAll h)))

theorem wfMem_armIfReady (h : WfMem s) : WfMem (armIfReady s) := by
  unfold armIfReady
  split
  · exact wfMem_ite (wfMem_sendArm (wfMem_setUpd (wfMem_armSelf (wfMem_setUpd h)))) h
  · exact h

theorem wfMem_takeReport {m : BitVec 128} (h : WfMem s) : WfMem (takeReport s m digest report) :=
  wfMem_ite (wfMem_abortSet (wfMem_setUpd h)) (wfMem_armIfReady (wfMem_setUpd h))

theorem wfMem_sendReport (h : WfMem s) : WfMem (sendReport s u report code) :=
  wfMem_ite (wfMem_takeReport h) (wfMem_ite h (wfMem_sendTo h))

theorem wfMem_failClaim (h : WfMem s) : WfMem (failClaim s code) := by
  unfold failClaim
  split
  · exact wfMem_sendReport (wfMem_setUpd h)
  · exact h

theorem wfMem_stagedCheck (h : WfMem s) : WfMem (stagedCheck s) := by
  unfold stagedCheck
  split
  · exact wfMem_ite (wfMem_sendReport (wfMem_updRecord (wfMem_setUpd h))) h
  · exact h

theorem wfMem_programParts (h : WfMem s) : WfMem (programParts s o) := wfMem_foldl (fun _ _ h1 => wfMem_devProgram h1) h

theorem wfMem_writeRegion {p base : Nat} (h : WfMem s) : WfMem (writeRegion s p base bs) :=
  wfMem_ownProgram (wfMem_foldl (fun _ _ h1 => wfMem_ownChange h1) h)

theorem wfMem_stageImages (h : WfMem s) : WfMem (stageImages s o) :=
  wfMem_foldl (fun _ _ h1 => wfMem_ite h1 (wfMem_setWp (wfMem_writeRegion (wfMem_setWp (wfMem_setUpd h1))))) h

theorem wfMem_stageConfig (h : WfMem s) : WfMem (stageConfig s u o) := by
  unfold stageConfig
  dsimp only
  split
  · exact h
  · exact wfMem_cfgProgram h

theorem wfMem_finishStaging (h : WfMem s) : WfMem (finishStaging s u o) :=
  wfMem_ite (wfMem_failClaim h) (wfMem_ite (wfMem_failClaim h) (wfMem_stagedCheck
    (wfMem_setUpd (wfMem_stageConfig (wfMem_stageImages h)))))

theorem wfMem_applyStream (h : WfMem s) : WfMem (applyStream s u) :=
  wfMem_ite (wfMem_failClaim h) (wfMem_ite (wfMem_failClaim h) (wfMem_ite (wfMem_finishStaging (wfMem_programParts h))
    (wfMem_programParts h)))

theorem wfMem_chunkMismatch {keep : Nat} (h : WfMem s) : WfMem (chunkMismatch s keep) :=
  wfMem_ite (wfMem_failClaim h) (wfMem_setUpd h)

theorem wfMem_takeManifest (h : WfMem s) : WfMem (takeManifest s) := by
  unfold takeManifest
  refine wfMem_ite (wfMem_chunkMismatch h) (wfMem_ite (wfMem_failClaim h) ?_)
  extract_lets +onlyGivenNames _ _ s₁ s₂
  have hs₂ : WfMem s₂ := wfMem_devProgram (wfMem_setUpd h)
  exact wfMem_pump (wfMem_ite (wfMem_tellSource hs₂) hs₂)

theorem wfMem_takeChunk {chunk : List Byte} (h : WfMem s) : WfMem (takeChunk s u chunk) := by
  unfold takeChunk
  extract_lets +onlyGivenNames _ s₁ _ s₂
  have hs₂ : WfMem s₂ := wfMem_setUpd (wfMem_hubStore h)
  refine wfMem_ite hs₂ (wfMem_ite (wfMem_takeManifest hs₂) (wfMem_ite (wfMem_chunkMismatch hs₂) ?_))
  extract_lets +onlyGivenNames _ s₁
  have hs₁ : WfMem s₁ := wfMem_pump (wfMem_setUpd hs₂)
  exact wfMem_ite (wfMem_ite (wfMem_failClaim hs₁) hs₁) (wfMem_applyStream hs₁)

theorem wfMem_updOfferOp (h : WfMem s) : WfMem (updOfferOp s tr f) := by
  unfold updOfferOp
  refine wfMem_ite (wfMem_updAnswer h) ?_
  split
  · exact wfMem_updAnswer h
  · split
    · exact wfMem_updAnswer h
    · exact wfMem_ite (wfMem_updAnswer h) (wfMem_updAnswer (wfMem_setUpd h))

theorem wfMem_claimHeader {c : UpdCandidate} (h : WfMem s) : WfMem (claimHeader s c r) := by
  unfold claimHeader
  refine wfMem_offerOn (wfMem_updRecord (wfMem_setUpd (wfMem_devErase ?_)))
  split
  · exact wfMem_tellSource h
  · exact h

theorem wfMem_conflictWith {old : FwSet} (h : WfMem s) : WfMem (conflictWith s old tr u) :=
  wfMem_updRecord (wfMem_tellSource (wfMem_tellSource (wfMem_setUpd h)))

theorem wfMem_afterCandidate (h : WfMem s) : WfMem (afterCandidate s) := wfMem_ite (wfMem_setUpd h) h

theorem wfMem_decideHeader {hs : List Byte} (h : WfMem s) : WfMem (decideHeader s c seq hs) := by
  unfold decideHeader
  dsimp only
  have hdrop : WfMem (setUpd s { s.upd with candidate := none }) := wfMem_setUpd h
  generalize setUpd s { s.upd with candidate := none } = u at hdrop
  have hanswer {code detail : Nat} : WfMem (updAnswer (afterCandidate u) c.tr 0x11 seq c.set.digest code detail 0) :=
    wfMem_updAnswer (wfMem_afterCandidate hdrop)
  split
  · exact hanswer
  · refine wfMem_ite hanswer (wfMem_ite hanswer ?_)
    split
    · exact hanswer
    · split
      · exact wfMem_ite (wfMem_conflictWith hdrop) (wfMem_updAnswer (wfMem_claimHeader hdrop))
      · exact wfMem_updAnswer (wfMem_claimHeader hdrop)

theorem wfMem_noClaim (h : WfMem s) : WfMem (updChunkOp.noClaim tr f s) := wfMem_ite (wfMem_updAnswer h) h

theorem wfMem_updChunkOp (h : WfMem s) : WfMem (updChunkOp s tr f) := by
  unfold updChunkOp
  dsimp only
  split
  · exact wfMem_ite (wfMem_updAnswer h) (wfMem_ite (wfMem_ite (wfMem_updAnswer (wfMem_setUpd h)) (wfMem_setUpd h))
      (wfMem_decideHeader h))
  · split
    · exact wfMem_ite (wfMem_noClaim h) (wfMem_ite (wfMem_updAnswer h) (wfMem_ite h
        (wfMem_ite (wfMem_updAnswer (wfMem_takeChunk h))
        (wfMem_ite (wfMem_updAnswer (wfMem_takeChunk h)) (wfMem_takeChunk h)))))
    · exact wfMem_noClaim h

theorem wfMem_updAnswerOp (h : WfMem s) : WfMem (updAnswerOp s x f) :=
  wfMem_ite h (wfMem_ite (wfMem_pumpPort (wfMem_setUpd (wfMem_setUpd h))) (wfMem_setUpd (wfMem_setUpd h)))

theorem wfMem_freeKeys (h : WfMem s) : WfMem (freeKeys s) := wfMem_foldl (fun _ _ h1 => wfMem_ite h1 (wfMem_wipeExtent h1)) h

theorem wfMem_activate {late : Bool} (h : WfMem s) : WfMem (activate s late) := by
  unfold activate
  extract_lets +onlyGivenNames _ s₁ s₂
  have hs₂ : WfMem s₂ := wfMem_ite (wfMem_setReg (wfMem_setUpd h)) (wfMem_setUpd h)
  refine wfMem_ite hs₂ (wfMem_ite ?_ ?_)
  · exact wfMem_ite hs₂ (wfMem_updRecord (wfMem_setUpd hs₂))
  · exact wfMem_hubRestart (wfMem_freeKeys (wfMem_commitSet hs₂))

theorem wfMem_activationOp (h : WfMem s) : WfMem (activationOp s) := wfMem_ite (wfMem_activate h) h

theorem wfMem_lateActivation (h : WfMem s) : WfMem (lateActivation s) := wfMem_ite (wfMem_activate h) h

theorem wfMem_neighbourRuns {manifest : List Byte} (h : WfMem s) : WfMem (neighbourRuns s manifest) :=
  wfMem_ite (wfMem_activate h) h

theorem wfMem_updArmOp (h : WfMem s) : WfMem (updArmOp s f) := by
  unfold updArmOp
  refine wfMem_ite h (wfMem_ite (wfMem_sendReport h) ?_)
  split
  · refine wfMem_ite h (wfMem_ite ?_ ?_)
    · exact wfMem_ite (wfMem_sendReport (wfMem_armSelf h)) (wfMem_activate (wfMem_sendReport (wfMem_armSelf h)))
    · exact wfMem_ite (wfMem_activate h) (wfMem_ite (wfMem_sendReport h) h)
  · exact h

theorem wfMem_updAbortOp (h : WfMem s) : WfMem (updAbortOp s f) := wfMem_withdrawSet h

theorem wfMem_updReportOp (h : WfMem s) : WfMem (updReportOp s f) := wfMem_ite (wfMem_takeReport h) h

theorem wfMem_updTimeoutOp (h : WfMem s) : WfMem (updTimeoutOp s) := by
  unfold updTimeoutOp
  refine wfMem_ite h ?_
  split
  · exact wfMem_tellSource (wfMem_afterCandidate (wfMem_setUpd h))
  · split
    · exact wfMem_ite (wfMem_failClaim (wfMem_tellSource h)) h
    · exact h

theorem wfMem_resendOp (h : WfMem s) : WfMem (resendOp s x) := by
  unfold resendOp
  split
  · exact wfMem_ite (wfMem_pumpPort (wfMem_setUpd h)) h
  · exact h

theorem wfMem_armWaitOp (h : WfMem s) : WfMem (armWaitOp s) := by
  unfold armWaitOp
  refine wfMem_ite ?_ h
  split
  · exact wfMem_abortSet h
  · exact h

theorem wfMem_updStatusOp (h : WfMem s) : WfMem (updStatusOp s tr) := wfMem_respond h

theorem wfMem_migrateConfig (h : WfMem s) : WfMem (migrateConfig s) := by
  unfold migrateConfig
  dsimp only
  split
  · exact wfMem_updRecord (wfMem_setValid (wfMem_cfgProgram h))
  · exact h

theorem wfMem_writeFirst (h : WfMem s) : WfMem (writeFirst s) := wfMem_writeRecord (wfMem_devErase h)

theorem wfMem_resetWorkers (h : WfMem s) : WfMem (resetWorkers s) :=
  wfMem_foldl (fun _ _ h1 => wfMem_ite (wfMem_latchStatic (wfMem_gkResetOp h1)) h1)
    (wfMem_foldl (fun _ _ h1 => wfMem_ite (wfMem_resetCore h1) h1) h)

theorem wfMem_firstStart (h : WfMem s) : WfMem (firstStart s) := by
  unfold firstStart
  extract_lets +onlyGivenNames _ s₁ s₂
  have hs₂ : WfMem s₂ := wfMem_resetWorkers (wfMem_writeFirst (wfMem_migrateConfig (wfMem_ite h (wfMem_commitTail h))))
  exact wfMem_sendReport (wfMem_updRecord (wfMem_setUpd (wfMem_ite (wfMem_setReg hs₂) hs₂)))

theorem wfMem_resumeUpdate (h : WfMem s) : WfMem (resumeUpdate s) := by
  unfold resumeUpdate
  exact wfMem_ite (wfMem_setArm (wfMem_setUpd h)) (wfMem_ite (wfMem_stagedCheck (wfMem_setUpd h)) h)

theorem wfMem_firmwareStart (h : WfMem s) : WfMem (firmwareStart s) := by
  unfold firmwareStart
  refine wfMem_ite h (wfMem_ite (wfMem_setUpd h) ?_)
  extract_lets +onlyGivenNames _ _ s₁ _ _ s₂ s₃
  have hs₂ : WfMem s₂ := wfMem_setUpd (wfMem_setUpd h)
  have hs₃ : WfMem s₃ := wfMem_ite (wfMem_commitSet (wfMem_hubBRecord hs₂)) hs₂
  exact wfMem_resumeUpdate (wfMem_ite (wfMem_setUpd hs₃) (wfMem_firstStart hs₃))

theorem wfMem_askImages (h : WfMem s) : WfMem (askImages s) :=
  wfMem_foldl (fun _ _ h1 => wfMem_ite (wfMem_sendOn (h1.of_mem rfl)) (h1.of_mem rfl)) h

theorem wfMem_lateCheck (h : WfMem s) : WfMem (updTick.lateCheck s) := wfMem_ite (wfMem_lateActivation h) h

theorem wfMem_updTick (h : WfMem s) : WfMem (updTick s) := by
  unfold updTick
  refine wfMem_ite h ?_
  extract_lets +onlyGivenNames s₁ s₂ _ s₃ s₄
  have hs₁ : WfMem s₁ := wfMem_askImages (wfMem_lateCheck (wfMem_stagedCheck h))
  have hs₂ : WfMem s₂ := wfMem_ite (wfMem_activate hs₁) hs₁
  have hs₃ : WfMem s₃ := wfMem_ite (wfMem_sendArm hs₂) hs₂
  have hs₄ : WfMem s₄ := by
    unfold s₄
    refine wfMem_ite (wfMem_foldl (fun _ _ h1 => ?_) hs₃) hs₃
    split
    · exact wfMem_ite h1 (wfMem_offerTo h1)
    · exact wfMem_offerTo h1
  split
  · exact wfMem_ite (wfMem_sendReport hs₄) hs₄
  · exact hs₄

theorem wfMem_updFrame {pacerOnly : Bool} (h : WfMem s) (hact : ∀ x0, WfMem x0 → WfMem (act x0)) :
    WfMem (updFrame s x ftype f pacerOnly act) := by
  unfold updFrame
  refine wfMem_ite h (wfMem_ite (wfMem_ite (wfMem_relay (wfMem_noteSeen h)) h) (wfMem_ite ?_ ?_))
  · exact wfMem_ite (wfMem_consume (wfFst_receive h)) (hact _ (wfMem_ite (wfMem_relay (wfMem_consume (wfFst_receive h)))
        (wfMem_consume (wfFst_receive h))))
  · exact wfFst_receive h

theorem wfMem_updHear (h : WfMem s) (hact : ∀ x0, WfMem x0 → WfMem (act x0)) : WfMem (updHear s tr ftype rtype f act) :=
  wfMem_ite (wfMem_updFrame h (fun _ h1 => hact _ h1)) (wfMem_ite (wfMem_respond h) (wfMem_ite (hact _ h) h))

theorem wfMem_rcvMsgOp (h : WfMem s) : WfMem (rcvMsgOp s x f) := by
  unfold rcvMsgOp
  refine wfMem_ite h (wfMem_ite (wfFst_receive h) (wfMem_ite (wfMem_bump (wfMem_consume (wfFst_receive h))) (wfMem_ite ?_ ?_)))
  · exact wfMem_ite (wfMem_respond (wfMem_consume (wfFst_receive h))) (wfMem_consume (wfFst_receive h))
  · exact wfMem_rcvRequest (wfMem_consume (wfFst_receive h))

theorem wfMem_linkUpEvent (h : WfMem s) : WfMem (linkUpEvent s x) :=
  wfMem_ite (wfMem_offerTo (wfMem_linkUpOp h)) (wfMem_linkUpOp h)

theorem wfMem_rollAnswerEvent (h : WfMem s) : WfMem (rollAnswerEvent s x f) := by
  unfold rollAnswerEvent
  refine wfMem_onFrame h (fun _ h1 => ?_)
  extract_lets +onlyGivenNames s₁ _ _ s₂
  have hs₂ : WfMem s₂ := wfMem_ite (wfMem_offerTo (wfMem_rollAnswerOp h1)) (wfMem_rollAnswerOp h1)
  exact wfMem_ite (wfMem_neighbourRuns hs₂) hs₂

theorem wfMem_imageQueryOp (h : WfMem s) : WfMem (imageQueryOp s x f) := by
  unfold imageQueryOp
  refine wfMem_onFrame h (fun _ h1 => ?_)
  split
  · exact wfMem_sendRaw h1
  · exact h1

theorem wfMem_frameArrives {t : Nat} (h : WfMem s) : WfMem (frameArrives s x f t) := by
  unfold frameArrives
  split
  · exact wfMem_helloOp h
  · exact wfMem_delayReqOp h
  · exact wfMem_delayRespOp h
  · exact wfMem_timeOp h
  · exact wfMem_onFrame h (fun _ h1 => wfMem_rollCallOp h1)
  · exact wfMem_rollAnswerEvent h
  · exact wfMem_onFrame h (fun _ h1 => wfMem_rosterOp h1)
  · exact wfMem_onFrame h (fun _ h1 => wfMem_pacerAssignOp h1)
  · exact wfMem_onFrame h (fun _ h1 => wfMem_topoChangeOp h1)
  · exact wfMem_updHear h (fun _ h1 => wfMem_updOfferOp h1)
  · exact wfMem_updHear h (fun _ h1 => wfMem_updAnswerOp h1)
  · exact wfMem_updHear h (fun _ h1 => wfMem_updChunkOp h1)
  · exact wfMem_updFrame h (fun _ h1 => wfMem_updReportOp h1)
  · exact wfMem_updFrame h (fun _ h1 => wfMem_updArmOp h1)
  · exact wfMem_updFrame h (fun _ h1 => wfMem_updAbortOp h1)
  · exact wfMem_rcvMsgOp h
  · exact wfMem_imageQueryOp h
  · exact wfMem_onDelivery h
  · exact wfMem_badFrameOp h

theorem wfMem_rxFullOp (h : WfMem s) : WfMem (rxFullOp s x) := by
  unfold rxFullOp
  refine wfMem_ite (wfMem_setRegB h) ?_
  split
  · exact wfMem_frameArrives h
  · exact wfMem_bump h

theorem wfMem_hostMessage (h : WfMem s) : WfMem (hostMessage s tr r data) := by
  unfold hostMessage
  refine wfMem_ite h (wfMem_ite (wfMem_respond h) ?_)
  split
  · exact wfMem_updHear h (fun _ h1 => wfMem_updOfferOp h1)
  · exact wfMem_updHear h (fun _ h1 => wfMem_updChunkOp h1)
  · exact wfMem_updHear h (fun _ h1 => wfMem_updStatusOp h1)
  · exact wfMem_rcvRequest h

theorem wfMem_mailboxRequest (h : WfMem s) : WfMem (mailboxRequest s) := wfMem_ite h (wfMem_hostMessage h)

theorem wfMem_i3cTake (h : WfMem s) : WfMem (i3cTake s) := by
  unfold i3cTake
  split
  · exact h
  · refine wfMem_ite h ?_
    extract_lets +onlyGivenNames _ _ s₁
    have hs₁ : WfMem s₁ := wfMem_rxFullClearOp (h.of_mem rfl)
    exact wfMem_ite (wfMem_hostMessage hs₁) hs₁

theorem wfMem_i3cMessageOp (h : WfMem s) : WfMem (i3cMessageOp s data) :=
  wfMem_ite (wfMem_i3cTake (wfMem_i3cWriteOp h)) (wfMem_i3cWriteOp h)

theorem wfMem_waitingChunks (h : WfMem s) : WfMem (waitingChunks s) := by
  unfold waitingChunks
  extract_lets +onlyGivenNames s₁
  have hs₁ : WfMem s₁ := wfMem_ite (wfMem_mailboxRequest h) h
  exact wfMem_ite (wfMem_i3cTake hs₁) hs₁

theorem wfMem_rcvCtrlWrite {v : W32} (h : WfMem s) : WfMem (rcvCtrlWrite s v) :=
  wfMem_ite (wfMem_mailboxRequest (wfMem_setRegB (wfMem_plainWrite h))) (wfMem_plainWrite h)

end

end Sys2Proof.Machine
end

section
/-! SUPPORT. Memory in its canonical form: services, verification, the bus. -/

namespace Sys2Proof.Machine

/-! #### Trust services -/

section
variable {s t : State} {c g group id q r : Nat} {j : Job}

theorem wfMem_bankReach {m a n : Nat} (h : WfMem s) : WfMem (bankReach s m a n) := by
  unfold bankReach
  refine wfMem_foldl (fun _ _ h1 => ?_) h
  split
  · exact wfMem_ite (wfMem_offAccess h1) (wfMem_ite (wfMem_settleBank h1) (wfMem_violate h1))
  · exact h1

theorem wfMem_jobWrite {off : Nat} {bs : List Byte} (h : WfMem s) : WfMem (jobWrite s c off bs) := by
  unfold jobWrite
  split
  · exact wfMem_ite (wfMem_setJob (wfFst_bufferWrite h)) (wfFst_bufferWrite h)
  · exact h

theorem wfMem_svcFinish {e : SvcEnd} (h : WfMem s) : WfMem (svcFinish s c j e) := by
  unfold svcFinish
  extract_lets +onlyGivenNames s₁ s₂
  have hs₂ : WfMem s₂ := wfMem_jobWrite (wfMem_ite h (wfMem_jobWrite h))
  refine wfMem_ite ?_ ?_
  · refine wfMem_ite ?_ (wfMem_ite (wfMem_diagEntry (wfMem_emit hs₂)) (wfMem_ite (wfMem_diagEntry hs₂) hs₂))
    split
    · exact wfMem_setJob hs₂
    · exact hs₂
  · exact wfMem_ite (wfMem_diagEntry hs₂) hs₂

theorem wfMem_svcRun {c service op : Nat} {ops : List Nat} {body : Bool} {used : List (Nat × Nat)}
    {f : State → Job → State × SvcEnd} (h : WfMem s) (hf : ∀ t, WfMem t → ∀ j, WfFst (f t j)) :
    WfMem (svcRun s c service op ops body used f) := by
  unfold svcRun
  split
  · exact h
  · refine wfMem_ite h (wfMem_ite (wfMem_svcFinish h) (wfMem_ite h ?_))
    extract_lets t
    have ht : WfMem t := wfMem_bankReach h
    exact wfMem_ite (wfMem_svcFinish ht) (wfMem_ite (wfMem_svcFinish ht)
      (wfMem_ite (wfMem_svcFinish ht) (wfMem_svcFinish (hf _ ht _))))

theorem wfMem_reserveBank {b : Nat} (h : WfMem s) : WfMem (reserveBank s b) := by
  unfold reserveBank
  refine wfMem_ite ?_ h
  extract_lets +onlyGivenNames _ s₁ s₂
  have hs₂ : WfMem s₂ := wfMem_ite (wfMem_handoverOp h) (wfMem_setReg (wfMem_handoverOp h))
  exact wfMem_ite (wfMem_wrBytes hs₂) hs₂

theorem wfMem_layer1 (h : WfMem s) : WfMem (layer1 s) := wfMem_setSlot (wfMem_setSlot h)

theorem wfMem_deriveTicketKeys (h : WfMem s) : WfMem (deriveTicketKeys s q) := by
  unfold deriveTicketKeys
  refine wfMem_ite h ?_
  dsimp only
  split
  · exact h
  · split
    · exact h
    · exact wfMem_with_svc (wfMem_putExtent (wfMem_putExtent h))

theorem wfMem_servicesTick (h : WfMem s) : WfMem (servicesTick s) := by
  unfold servicesTick
  refine wfMem_ite h ?_
  extract_lets s₁ s₂ s₃ s₄
  have h₁ : WfMem s₁ := wfMem_ite (wfMem_layer0 h) h
  have h₂ : WfMem s₂ := wfMem_ite (wfMem_layer1 h₁) h₁
  have h₃ : WfMem s₃ := by
    refine wfMem_ite ?_ h₂
    split
    · next htake => exact (wfMem_of_dripTake h₂ htake).of_mem rfl
    · exact h₂
  have h₄ : WfMem s₄ := wfMem_ite h₃ (wfMem_foldl (fun _ _ h => wfMem_reserveBank h) h₃)
  exact wfMem_foldl (fun _ _ h => wfMem_ite (wfMem_deriveTicketKeys h) h) h₄

theorem wfFst_verifyOp (h : WfMem s) : WfFst (verifyOp s c j) := wfFst_ite (wfFst_mk h) (wfFst_ite (wfFst_mk h) (wfFst_mk h))

theorem wfFst_publishSet {b : List Byte} (h : WfMem s) : WfFst (publishSet s id group b) := by
  unfold publishSet
  dsimp only
  split
  · exact wfFst_mk (wfMem_hubBRecord (wfMem_hubStore (wfMem_with_svc (wfMem_hubStore (wfMem_bankReach h)))))
  · exact wfFst_mk (wfMem_bankReach h)

theorem wfFst_refsetLoadOp (h : WfMem s) : WfFst (refsetLoadOp s c j) := by
  unfold refsetLoadOp
  refine wfFst_ite (wfFst_mk h) (wfFst_ite (wfFst_mk h) (wfFst_ite ?_ ?_))
  · exact wfFst_mk h
  · exact wfFst_ite (wfFst_mk h) (wfFst_ite (wfFst_mk (h.of_mem rfl)) (wfFst_ite (wfFst_publishSet (h.of_mem rfl))
        (wfFst_mk (h.of_mem rfl))))

theorem wfMem_reachSet (h : WfMem s) : WfMem (reachSet s c id group) := by
  unfold reachSet
  dsimp only
  split
  · exact wfMem_bankReach (wfMem_bankReach h)
  · exact (wfMem_bankReach h)

theorem wfMem_reachRecord (h : WfMem s) : WfMem (reachRecord s c g r) := wfMem_bankReach h

theorem wfMem_storeAppraisal {result version : Nat} {workload digest binding : List Byte} (h : WfMem s) :
    WfMem (storeAppraisal s g r result version id workload digest binding) :=
  wfMem_hubStore (wfMem_bankReach h)

theorem wfFst_appraiseOp (h : WfMem s) : WfFst (appraiseOp s c j) := by
  have hreach : WfMem (reachSet s c (field (jobArgs s c) 0 4) j.group) := wfMem_reachSet h
  unfold appraiseOp
  refine wfFst_ite (wfFst_mk h) ?_
  split
  · exact wfFst_mk h
  · dsimp only
    split
    · exact wfFst_mk hreach
    · exact wfFst_ite (wfFst_mk hreach) (wfFst_ite (wfFst_mk hreach)
        (wfFst_mk (wfMem_ite hreach (wfMem_storeAppraisal hreach))))

theorem wfFst_recordStatusOp (h : WfMem s) : WfFst (recordStatusOp s c j) := by
  unfold recordStatusOp
  refine wfFst_ite (wfFst_mk h) ?_
  dsimp only
  split
  · exact wfFst_mk (wfMem_reachRecord h)
  · exact wfFst_mk (wfMem_reachRecord h)

theorem wfFst_policySetOp (h : WfMem s) : WfFst (policySetOp s c j) := by
  unfold policySetOp
  split
  · exact wfFst_mk h
  · exact wfFst_ite (wfFst_mk h) (wfFst_mk (wfMem_hubBRecord (h.of_mem rfl)))

theorem wfFst_selfCheckFailed (h : WfMem s) : WfFst (selfCheckFailed s c) := wfFst_mk (wfMem_emit h)

theorem wfMem_of_hubDrip {n : Nat} {bs : List Byte} (h : WfMem s) (ht : hubDrip s n = some (bs, t)) : WfMem t := by
  unfold hubDrip at ht
  split at ht
  · obtain ⟨r, htake, hr⟩ := Option.map_eq_some_iff.1 ht
    cases hr
    exact wfMem_of_dripTake h htake
  · cases ht

theorem wfFst_ticketOp {c : Nat} {j : Job} (h : WfMem s) : WfFst (ticketOp s c j) := by
  unfold ticketOp
  refine wfFst_ite (wfFst_mk h) ?_
  extract_lets +onlyGivenNames t
  have ht : WfMem t := wfMem_reachRecord h
  clear_value t
  have hdrip {bs u} (hr : hubDrip t 8 = some (bs, u)) : WfMem u := wfMem_of_hubDrip ht hr
  generalize freshRecord .. = fresh, ticketKeysOf .. = keys
  generalize hubDrip .. = drip at hdrip ⊢
  obtain _ | rec := fresh
  · exact wfFst_mk ht
  · obtain _ | ⟨ec, pq⟩ := keys
    · exact wfFst_mk ht
    · obtain _ | ⟨bs, u⟩ := drip
      · exact wfFst_mk ht
      · have hu : WfMem u := hdrip rfl
        exact wfFst_ite (wfFst_mk (hu.of_mem rfl)) (wfFst_selfCheckFailed (hu.of_mem rfl))

theorem wfFst_ticketKeysOp (h : WfMem s) : WfFst (ticketKeysOp s j) := by
  unfold ticketKeysOp
  split
  · exact wfFst_mk h
  · exact wfFst_mk h

theorem wfFst_keyReleaseOp {c : Nat} {j : Job} (h : WfMem s) : WfFst (keyReleaseOp s c j) := by
  unfold keyReleaseOp
  refine wfFst_ite (wfFst_mk h) (wfFst_ite (wfFst_mk h) (wfFst_ite (wfFst_mk h) ?_))
  extract_lets +onlyGivenNames t
  have ht : WfMem t := wfMem_reachRecord h
  clear_value t
  have hdrip {bs u} (hr : hubDrip t 8 = some (bs, u)) : WfMem u := wfMem_of_hubDrip ht hr
  generalize hubDrip .. = drip at hdrip ⊢
  extract_lets +onlyGivenNames policy
  generalize freshRecord .. = fresh
  obtain _ | rec := fresh
  · exact wfFst_mk ht
  · refine wfFst_ite (wfFst_mk ht) (wfFst_ite (wfFst_mk ht) (wfFst_ite (wfFst_mk ht) (wfFst_ite (wfFst_mk ht) ?_)))
    obtain _ | ⟨bs, u⟩ := drip
    · exact wfFst_mk ht
    · have hu : WfMem u := hdrip rfl
      exact wfFst_ite (wfFst_mk hu) (wfFst_selfCheckFailed hu)

theorem wfFst_deriveOp (h : WfMem s) : WfFst (deriveOp s c j) := by
  unfold deriveOp
  refine wfFst_ite (wfFst_mk h) (wfFst_ite (wfFst_mk h) (wfFst_ite (wfFst_mk h) (wfFst_ite (wfFst_mk h) ?_)))
  split
  · exact wfFst_mk h
  · exact wfFst_mk (wfMem_putExtent h)

theorem wfFst_signOp {c : Nat} {j : Job} (h : WfMem s) : WfFst (signOp s c j) := by
  unfold signOp
  refine wfFst_ite (wfFst_mk h) (wfFst_ite (wfFst_mk h) (wfFst_ite (wfFst_mk h) ?_))
  split
  · exact wfFst_mk h
  · next hdrip =>
    have hdrawn := wfMem_of_hubDrip h hdrip
    exact wfFst_ite (wfFst_mk hdrawn) (wfFst_selfCheckFailed hdrawn)

theorem wfMem_queueCreateBy {words : List W32} (h : WfMem s) : WfMem (queueCreateBy s q words) :=
  wfMem_ite h (wfMem_ite (wfMem_queueCreateOp h) (wfMem_adminEnd h))

theorem wfMem_adminOp {f : State → State} (h : WfMem s) (hf : ∀ x0, WfMem x0 → WfMem (f x0)) : WfMem (adminOp s f) :=
  wfMem_ite (hf _ h) h

end

/-! #### Verification of platforms -/

section
variable {s : State} {ep i k p : Nat}

theorem wfMem_readyCore {c : Nat} (h : WfMem s) : WfMem (readyCore s c) := wfMem_ite (wfMem_setRegF h) h

theorem wfMem_gkPrepare (h : WfMem s) : WfMem (gkPrepare s p) := by
  unfold gkPrepare
  refine wfMem_ite ?_ h
  split
  · exact h
  · exact wfMem_ite (wfMem_readyCore (wfMem_gkScratchWrite (wfMem_gkScratchWrite (wfMem_setRegB h)))) (wfMem_setRegB h)

theorem wfMem_finishBoot (h : WfMem s) : WfMem (finishBoot s) :=
  wfMem_bootDoneOp (wfMem_with_boot (wfMem_foldl (fun _ _ h1 => wfMem_gkPrepare h1)
    (wfMem_ite (wfMem_foldl (fun _ _ h1 => wfMem_ite (wfMem_readyCore h1) h1) h) h)))

theorem wfMem_firmwareTick (h : WfMem s) : WfMem (firmwareTick s) := by
  unfold firmwareTick
  refine wfMem_ite ?_ ?_
  · exact h
  · exact wfMem_ite (wfMem_pdReqOp h) (wfMem_ite (wfMem_ite (wfMem_layer1 h) h)
        (wfMem_ite (h.of_mem rfl) (wfMem_ite h (wfMem_finishBoot h))))

theorem wfMem_setPlatWork {w : Option PlatWork} (h : WfMem s) : WfMem (setPlatWork s p w) := h.of_mem rfl

theorem wfMem_verifyBanks (h : WfMem s) : WfMem (verifyBanks s p) :=
  wfMem_foldl (fun _ _ h1 => wfMem_ite (wfMem_setReg (wfMem_handoverOp h1)) h1) h

theorem wfMem_portSetup (h : WfMem s) : WfMem (portSetup s p) := by
  unfold portSetup
  dsimp only
  split
  · exact wfMem_setReg (wfMem_setReg (wfMem_setReg (wfMem_emitOut h)))
  · exact wfMem_setRegF (wfMem_emitOut h)

theorem wfMem_loadTable {c : List Byte} (h : WfMem s) : WfMem (loadTable s p c) :=
  wfMem_setReg (wfMem_setReg (wfMem_setPair (wfFst_dmaWrite h)))

theorem wfMem_ownBlockRead {a : Nat} (h : WfMem s) : WfMem (ownBlockRead s p k a) := wfMem_emitOut (wfMem_setPort h)

theorem wfSnd_loadedEntry (h : WfMem s) : WfSnd (loadedEntry s p i) := wfSnd_mk (wfMem_dmaRead h)

theorem wfSnd_primaryBlock (h : WfMem s) : WfSnd (primaryBlock s p i) := wfSnd_mk (wfSnd_loadedEntry (wfMem_ownBlockRead h))

theorem wfSnd_verifyManifest (h : WfMem s) : WfSnd (verifyManifest s p) := by
  have hready : WfMem (gkPrepare (verifyBanks (portSetup s p) p) p) := wfMem_gkPrepare (wfMem_verifyBanks (wfMem_portSetup h))
  unfold verifyManifest
  dsimp only
  exact wfSnd_mk (wfMem_ite (wfMem_loadTable hready) hready)

theorem wfMem_attemptFailed {code : Nat} {w : PlatWork} (h : WfMem s) : WfMem (attemptFailed s p k code w) :=
  wfMem_setPlatWork (wfMem_emit h)

theorem wfMem_verified {attempt : Option Nat} (h : WfMem s) : WfMem (verified s p ep attempt) := by
  unfold verified
  extract_lets +onlyGivenNames _ _ s'₁
  have hs'₁ : WfMem s'₁ := wfMem_verifyWrite h
  refine wfMem_ite (wfMem_setPlatWork hs'₁) ?_
  split
  · exact wfMem_attemptFailed hs'₁
  · exact wfMem_setPlatWork hs'₁

theorem wfMem_verifyStep {done good : State → State} {bad : State → Nat → State} (h : WfMem s)
    (hdone : ∀ x0, WfMem x0 → WfMem (done x0)) (hgood : ∀ x0, WfMem x0 → WfMem (good x0))
    (hbad : ∀ x0, WfMem x0 → ∀ x1, WfMem (bad x0 x1)) :
    WfMem (verifyStep s p i done good bad) := by
  unfold verifyStep
  split
  · exact wfMem_ite (hgood _ (wfSnd_verifyManifest h)) (hbad _ (wfSnd_verifyManifest h) _)
  · exact wfMem_ite (hdone _ h) (wfMem_ite (hgood _ (wfSnd_primaryBlock h)) (hbad _ (wfSnd_primaryBlock h) _))

theorem wfMem_startAttempt (h : WfMem s) : WfMem (startAttempt s p k) := wfMem_platWrite h

theorem wfMem_nextSource (h : WfMem s) : WfMem (nextSource s p k ep) := by
  unfold nextSource
  refine wfMem_ite ?_ ?_
  · exact wfMem_setPlatWork h
  · exact wfMem_ite (wfMem_setPlatWork (wfMem_startAttempt h)) (wfMem_ite (wfMem_setPlatWork (wfMem_startAttempt h))
        (wfMem_setPlatWork h))

theorem wfMem_sourceStep (h : WfMem s) : WfMem (sourceStep s p k ep i) := by
  unfold sourceStep
  split
  · exact wfMem_attemptFailed h
  · dsimp only
    split
    · exact wfMem_ite (wfMem_setPlatWork h) (wfMem_attemptFailed h)
    · exact wfMem_ite (wfMem_setPlatWork h) (wfMem_ite (wfMem_setPlatWork (wfMem_ownBlockRead h))
          (wfMem_attemptFailed (wfMem_ownBlockRead h)))

theorem wfMem_rewriteBlock {base e : Nat} {bs : List Byte} (h : WfMem s) : WfMem (rewriteBlock s p base bs e) := by
  unfold rewriteBlock
  extract_lets +onlyGivenNames _ _ _ _ s₁
  have hs₁ : WfMem s₁ := wfMem_foldl (fun _ _ h1 => wfMem_ownBlockRead h1) h
  refine wfMem_ite ?_ ?_
  · exact hs₁
  · exact wfMem_ite (wfMem_ownProgram (wfMem_ownChange hs₁)) (wfMem_foldl (fun _ _ h1 => wfMem_ownProgram (wfMem_ownChange h1))
        hs₁)

theorem wfMem_writeStep (h : WfMem s) : WfMem (writeStep s p k ep i) := by
  unfold writeStep
  refine wfMem_ite ?_ ?_
  · exact wfMem_setPlatWork (wfMem_rewriteBlock (wfMem_setWp h))
  · exact wfMem_ite (wfMem_setPlatWork (wfMem_rewriteBlock (wfMem_setWp h))) (wfMem_setPlatWork (wfMem_setWp (wfMem_setWp h)))

theorem wfMem_skipPart (h : WfMem s) : WfMem (skipPart s p) := wfMem_updRecord (wfMem_setUpd h)

theorem wfMem_beginVerify (h : WfMem s) : WfMem (beginVerify s p ep) := by
  unfold beginVerify
  split
  · exact wfMem_ite (wfMem_setPlatWork h) (wfMem_setPlatWork (wfMem_skipPart h))
  · exact wfMem_setPlatWork h

theorem wfMem_platStep (h : WfMem s) : WfMem (platStep s p) := by
  unfold platStep
  split
  · exact wfMem_beginVerify h
  · exact wfMem_verifyStep h (fun _ h1 => wfMem_verified h1) (fun _ h1 => wfMem_setPlatWork h1)
        (fun _ h1 _ => wfMem_setPlatWork h1)
  · exact wfMem_nextSource h
  · exact wfMem_sourceStep h
  · exact h
  · exact wfMem_writeStep h
  · exact wfMem_verifyStep h (fun _ h1 => wfMem_verified h1) (fun _ h1 => wfMem_setPlatWork h1)
        (fun _ h1 _ => wfMem_ite (wfMem_setPlatWork h1) (wfMem_attemptFailed h1))
  · exact wfMem_ite h (wfMem_beginVerify h)

theorem wfMem_platTick (h : WfMem s) : WfMem (platTick s p) :=
  wfMem_ite (wfMem_setPlatWork h) (wfMem_ite (wfMem_setUpd (wfMem_setPlatWork h))
    (wfMem_ite (wfMem_pdReqOp h) (wfMem_ite h (wfMem_platStep h))))

theorem wfMem_platformsTick (h : WfMem s) : WfMem (platformsTick s) :=
  wfMem_ite (wfMem_foldl (fun _ _ h1 => wfMem_platTick h1) h) h

theorem wfMem_journalCommit (h : WfMem s) : WfMem (journalCommit s) :=
  wfMem_commitDoneOp (wfMem_writeRecord (wfMem_devProgram (wfMem_devErase h)))

theorem wfMem_journalTick (h : WfMem s) : WfMem (journalTick s) := wfMem_ite (wfMem_journalCommit h) h

theorem wfMem_shippedTick (h : WfMem s) : WfMem (shippedTick s) :=
  wfMem_journalTick (wfMem_platformsTick (wfMem_firmwareTick h))

end

/-! #### Reads and writes over the map -/

section
variable {s t : State} {a b blk m n off w : Nat} {v : W32}

theorem wfMem_deny (h : WfMem s) : WfMem (deny s m a) := wfMem_violate h

theorem wfMem_denyBank (h : WfMem s) : WfMem (denyBank s m a) := wfMem_violate h

theorem wfMem_setShadow {v : Option W32} (h : WfMem s) : WfMem (setShadow s m a v) := h.of_mem rfl

theorem wfSnd_pairRead {m a step : Nat} {isLo : Nat → Bool} {ok : Bool} {read : State → Nat → W32 × State} (h : WfMem s)
    (hread : ∀ t, WfMem t → ∀ a, WfSnd (read t a)) : WfSnd (pairRead s m a isLo ok read step) := by
  unfold pairRead
  split
  · exact wfMem_setShadow (hread _ h _)
  · split
    · split
      · exact wfMem_setShadow h
      · exact hread _ h _
    · exact hread _ h _

theorem wfSnd_blockRead (h : WfMem s) : WfSnd (blockRead s m blk off) := by
  unfold blockRead
  split
  · exact wfSnd_mk h
  · exact wfSnd_mk h
  · exact wfSnd_mk h
  · exact wfSnd_mk h
  · exact wfSnd_mk h
  · exact wfSnd_mk h
  · exact wfSnd_mk h
  · exact wfSnd_mk h
  · exact wfSnd_mk h
  · exact wfSnd_mk h
  · exact wfSnd_dripRead h
  · exact wfSnd_mk h
  · exact wfSnd_portRead h
  · exact wfSnd_portRead h
  · exact wfSnd_portRead h
  · exact wfSnd_portRead h
  · exact wfSnd_mk h
  · exact wfSnd_mk h

theorem wfMem_chainHubWrite (h : WfMem s) : WfMem (chainHubWrite s m off v) := by
  unfold chainHubWrite
  refine wfMem_ite ?_ ?_
  · exact wfMem_ite (wfMem_linkModeOp h) (wfMem_ite (wfMem_setReg h) (wfMem_ite h
        (wfMem_ite (wfMem_txCtrlOp h) (wfMem_plainWrite h))))
  · exact wfMem_ite (wfMem_plainWrite h) h

theorem wfMem_chainPfWrite (h : WfMem s) : WfMem (chainPfWrite s off v) := by
  unfold chainPfWrite
  refine wfMem_ite ?_ (wfMem_ite (wfMem_plainWrite h) (wfMem_ite (wfMem_tunRxWrite h) h))
  extract_lets +onlyGivenNames s₁
  have hs₁ : WfMem s₁ := wfMem_ite (wfMem_txFullClearOp h) h
  exact wfMem_ite (wfMem_rxFullOp hs₁) hs₁

theorem wfMem_hostWrite (h : WfMem s) : WfMem (hostWrite s off v) := by
  unfold hostWrite
  refine wfMem_ite (wfMem_ite h (wfMem_plainWrite h)) (wfMem_ite ?_ ?_)
  · exact wfMem_ite (wfMem_ite h (wfMem_queueOffReq (wfMem_setRegB h))) (wfMem_ite (wfMem_queueOnOp (wfMem_plainWrite h))
        (wfMem_plainWrite h))
  · exact wfMem_ite (wfMem_ite (wfMem_doorbellOp h) h) (wfMem_ite (wfMem_rcvCtrlWrite h)
        (wfMem_ite (h.of_mem rfl) (wfMem_plainWrite h)))

theorem wfMem_bankRegWrite (h : WfMem s) : WfMem (bankRegWrite s m off v) := by
  unfold bankRegWrite
  refine wfMem_ite h ?_
  split
  · exact wfMem_handoverOp h
  · exact wfMem_ite (wfMem_plainWrite h) (wfMem_deny h)
  · exact wfMem_ite (wfMem_bankStatusWrite h) (wfMem_deny h)
  · exact h

theorem wfMem_blockWrite (h : WfMem s) : WfMem (blockWrite s m blk off v) := by
  unfold blockWrite
  dsimp only
  split
  · exact wfMem_ite (wfMem_pwrWrite h) (wfMem_deny h)
  · exact wfMem_ite (wfMem_platWrite h) (wfMem_deny h)
  · exact wfMem_ite (wfMem_otpWrite h) (wfMem_deny h)
  · exact wfMem_lcWrite h
  · exact wfMem_ite (wfMem_chWrite h) (wfMem_deny h)
  · exact wfMem_ite (wfMem_laneWrite h) (wfMem_ite h (wfMem_deny h))
  · exact wfMem_ite (wfMem_ite (wfMem_fwWrite h) (wfMem_deny h)) (wfMem_bankRegWrite h)
  · exact wfMem_ite (wfMem_fsWrite h) (wfMem_deny h)
  · exact wfMem_ite (wfMem_ptWrite h) (wfMem_deny h)
  · exact wfMem_ite (wfMem_chainHubWrite h) (wfMem_ite (wfMem_chainPfWrite h) (wfMem_deny h))
  · exact wfMem_ite (wfMem_dripWrite h) (wfMem_deny h)
  · exact wfMem_ite (wfMem_i3cWrite h) (wfMem_deny h)
  · exact wfMem_portWrite h
  · exact wfMem_portWrite h
  · exact wfMem_portWrite h
  · exact wfMem_portWrite h
  · exact wfMem_ite (wfMem_hostWrite h) (wfMem_deny h)
  · exact wfMem_ite h (wfMem_deny h)

theorem wfSnd_bankRead (h : WfMem s) : WfSnd (bankRead s m b a n) :=
  wfSnd_ite (wfSnd_mk (wfMem_offAccess h)) (wfSnd_ite (wfSnd_mk (wfMem_coreServed (wfMem_settleBank h)))
    (wfSnd_mk (wfMem_denyBank h)))

theorem wfMem_bankWrite {view v : Nat} (h : WfMem s) : WfMem (bankWrite s m b view a n v) :=
  wfMem_ite (wfMem_offAccess h) (wfMem_ite (wfMem_wrMem (wfMem_coreServed (wfMem_settleBank h))) (wfMem_denyBank h))

theorem wfSnd_readWords {a n : Nat} {f : State → Nat → W32 × State} (hf : ∀ t, WfMem t → ∀ a, WfSnd (f t a)) (h : WfMem s) :
    WfSnd (readWords f s a n) := by
  unfold readWords
  split
  · exact hf _ (hf _ h _) _
  · exact hf _ h _

theorem wfMem_writeWords {f : State → Nat → W32 → State} {v : Nat} (hf : ∀ x0, WfMem x0 → ∀ x1, ∀ x2, WfMem (f x0 x1 x2))
    (h : WfMem s) :
    WfMem (writeWords f s a n v) :=
  wfMem_ite (hf _ (hf _ h _ _) _ _) (hf _ h _ _)

theorem wfMem_wheelCtrlWrite (h : WfMem s) : WfMem (wheelCtrlWrite s m w off v) := by
  unfold wheelCtrlWrite
  refine wfMem_ite (wfMem_handoverOp h) (wfMem_ite (wfMem_spokeResetWrite h) (wfMem_ite (wfMem_deny h)
      (wfMem_ite (wfMem_bankStatusWrite h) (wfMem_ite ?_ ?_))))
  · exact wfMem_ite (wfMem_relStatusWrite h) (wfMem_deny h)
  · exact wfMem_ite (wfMem_ite (wfMem_wdmaGoOp (wfMem_plainWrite h)) (wfMem_plainWrite h)) (wfMem_plainWrite h)

theorem wfSnd_wheelRead (h : WfMem s) : WfSnd (wheelRead s m w off n) := by
  unfold wheelRead
  dsimp only
  split
  · exact wfSnd_ite (wfSnd_ite (wfSnd_mk h) (wfSnd_mk (wfMem_scratchBusy h)))
        (wfSnd_ite (wfSnd_mk h) (wfSnd_mk (wfMem_denyBank h)))
  · exact wfSnd_bankRead h
  · exact wfSnd_ite (wfSnd_mk h) (wfSnd_mk (wfMem_deny h))
  · exact wfSnd_mk (wfMem_violate h)
  · exact wfSnd_ite (wfSnd_readWords (fun _ h1 _ => wfSnd_mk h1) h) (wfSnd_mk (wfMem_deny h))
  · exact wfSnd_ite (wfSnd_mk h) (wfSnd_mk (wfMem_deny h))
  · exact wfSnd_ite (wfSnd_readWords (fun _ h1 _ => wfSnd_mk h1) h) (wfSnd_mk (wfMem_deny h))
  · exact wfSnd_mk h

theorem wfMem_wheelWrite {v : Nat} (h : WfMem s) : WfMem (wheelWrite s m w off n v) := by
  unfold wheelWrite
  dsimp only
  split
  · exact wfMem_ite (wfMem_ite (wfMem_wrMem h) (wfMem_scratchBusy h)) (wfMem_denyBank h)
  · exact wfMem_bankWrite h
  · exact wfMem_ite (wfMem_areaWrite h) (wfMem_deny h)
  · exact wfMem_violate h
  · exact wfMem_writeWords (fun _ h1 _ _ => wfMem_crankRegWrite h1) h
  · exact wfMem_laneWrite h
  · exact wfMem_writeWords (fun _ h1 _ _ => wfMem_wheelCtrlWrite h1) h
  · exact h

theorem wfMem_bcastOp {v : Nat} (h : WfMem s) : WfMem (bcastOp s m off n v) := by
  unfold bcastOp
  refine wfMem_ite ?_ ?_
  · exact wfMem_deny h
  · exact wfMem_modCore (wfMem_setHub (wfMem_foldl (fun _ _ h1 => wfMem_ite (wfMem_offAccess h1)
        (wfMem_ite (wfMem_emit h1) (wfMem_wheelWrite (wfMem_wakeWheel h1)))) h))

theorem wfSnd_blockWord (h : WfMem s) : WfSnd (blockWord s m a) := by
  unfold blockWord
  split
  · exact wfSnd_ite (wfSnd_mk (wfMem_offAccess h)) (wfSnd_ite (wfSnd_blockRead h) (wfSnd_mk (wfMem_deny h)))
  · exact wfSnd_mk h

theorem wfSnd_wheelWord {m w a : Nat} (h : WfMem s) : WfSnd (wheelWord s m w a) := by
  unfold wheelWord atWheel
  split
  · exact h
  · split
    · exact wfMem_offAccess h
    · exact wfSnd_wheelRead (wfMem_wakeWheel h)

theorem wfSnd_targetRead {m a n : Nat} {x : Target} (h : WfMem s) : WfSnd (targetRead s m a n x) := by
  have hdeny : WfMem (deny s m a) := wfMem_deny h
  have hite {c : Prop} [Decidable c] {v : Nat} {r : Nat × State} (hr : WfSnd r) : WfSnd (if c then r else (v, deny s m a)) :=
    wfSnd_ite hr (wfSnd_mk hdeny)
  cases x with
  | rom => exact hite (wfSnd_mk h)
  | sram => exact hite (wfSnd_mk h)
  | recorder off => exact hite (wfSnd_readWords (fun _ h _ => wfSnd_mk h) h)
  | block blk off => exact wfSnd_readWords (fun _ h _ => wfSnd_pairRead h fun _ h _ => wfSnd_blockWord h) h
  | bank b view p => exact wfSnd_bankRead h
  | wheel w off =>
    unfold targetRead
    dsimp only
    split
    · exact wfSnd_pairRead h fun _ h _ => wfSnd_wheelWord h
    · unfold atWheel
      split
      · exact h
      · split
        · exact wfMem_offAccess h
        · exact wfSnd_wheelRead (wfMem_wakeWheel h)
  | bcast off => exact h
  | qctx q off => exact hite (wfSnd_readWords (fun _ h _ => wfSnd_mk h) h)
  | qalias off => exact h
  | fabric off => exact hite (wfSnd_readWords (fun _ h _ => wfSnd_mk h) h)
  | jobWindow c off => exact h
  | msix f off => exact hite (wfSnd_readWords (fun _ h _ => wfSnd_mk h) h)
  | hole => exact hdeny

theorem wfSnd_busRead (h : WfMem s) : WfSnd (busRead s m a n) :=
  wfSnd_ite (wfSnd_mk (wfMem_offAccess h)) (wfSnd_ite (wfSnd_mk (wfMem_deny h)) (wfSnd_targetRead h))

theorem wfMem_targetWrite {m a n v : Nat} {x : Target} (h : WfMem s) : WfMem (targetWrite s m a n v x) := by
  have hdeny : WfMem (deny s m a) := wfMem_deny h
  cases x with
  | rom => exact wfMem_ite h hdeny
  | sram => exact wfMem_ite (wfMem_wrMem h) hdeny
  | recorder off => exact wfMem_ite h hdeny
  | block blk off => exact wfMem_ite (wfMem_laneWrite h) (wfMem_writeWords (fun _ h _ _ => wfMem_blockWrite h) h)
  | bank b view p => exact wfMem_bankWrite h
  | wheel w off => exact wfMem_ite h (wfMem_ite (wfMem_offAccess h) (wfMem_wheelWrite (wfMem_wakeWheel h)))
  | bcast off => exact wfMem_bcastOp h
  | qctx q off => exact wfMem_ite (wfMem_writeWords (fun _ h _ _ => wfMem_ctxWriteOp h) h) hdeny
  | qalias off => exact wfMem_writeWords (fun _ h _ _ => wfMem_aliasWriteOp h) h
  | fabric off => exact wfMem_ite (wfMem_writeWords (fun _ h _ _ => wfMem_qfWrite h) h) hdeny
  | jobWindow c off => exact wfMem_ite h (wfMem_ite (wfMem_jobWindowOp h) hdeny)
  | msix f off => exact wfMem_ite (wfMem_writeWords (fun _ h _ _ => wfMem_msixWrite h) h) hdeny
  | hole => exact hdeny

theorem wfMem_busWrite {v : Nat} (h : WfMem s) : WfMem (busWrite s m a n v) :=
  wfMem_ite (wfMem_offAccess h) (wfMem_ite (wfMem_deny h) (wfMem_targetWrite h))

theorem wfMem_ackOp {c : Nat} (h : WfMem s) : WfMem (ackOp s c w) :=
  wfMem_ite h (wfMem_modCore (wfMem_ite (wfMem_setHub h) (wfMem_ite (wfMem_setHub h) h)))

end

end Sys2Proof.Machine
end

section
/-! SUPPORT. Memory in its canonical form: instructions, debug, one cycle. -/

namespace Sys2Proof.Machine

/-! #### Windows and exceptions -/

section
variable {s t : State} {c : Nat} {pc : W64}

theorem wfMem_ownWrite {a n v : Nat} (h : WfMem s) : WfMem (ownWrite s c a n v) :=
  wfMem_ite (wfMem_wrMem h) (wfMem_ite (wfMem_gkScratchWrite h) (wfMem_wrMem h))

theorem wfMem_spillGroup (h : WfMem s) : WfMem (spillGroup s c) := by
  unfold spillGroup
  extract_lets +onlyGivenNames _ s₁
  have hs₁ : WfMem s₁ := wfMem_foldl (fun _ _ h1 => wfMem_ownWrite h1) h
  split
  · exact wfMem_setCore hs₁
  · exact wfMem_setCore (wfMem_ownWrite hs₁)

theorem wfSnd_spillTo {c wp n : Nat} (h : WfMem s) : WfSnd (spillTo s c wp n) := by
  induction n generalizing s with
  | zero => exact h
  | succ n ih =>
    rw [spillTo]
    split
    · exact h
    · split
      · exact ih (wfMem_spillGroup h)
      · exact h

theorem wfMem_fillGroup (h : WfMem s) : WfMem (fillGroup s c) :=
  wfMem_ite (wfMem_modCore (wfSnd_drawWords (n := 16) h)) (wfMem_ite (wfMem_setCore h) (wfMem_setCore h))

theorem wfMem_fillTo {c wp n : Nat} (h : WfMem s) : WfMem (fillTo s c wp n) := by
  induction n generalizing s with
  | zero => exact h
  | succ n ih => exact wfMem_ite h (ih (wfMem_fillGroup h))

theorem wfSnd_slideUp {c d code : Nat} {ret : W64} (h : WfMem s) : WfSnd (slideUp s c d code ret) := by
  unfold slideUp
  dsimp only
  split
  · next hspill => exact (wfSnd_spillTo h).of_eq hspill
  · next hspill => exact wfMem_modCore ((wfSnd_spillTo h).of_eq hspill)

theorem wfMem_slideDown {d : Nat} (h : WfMem s) : WfMem (slideDown s c d) := wfMem_modCore (wfMem_fillTo (wfMem_modCore h))

theorem wfMem_haltCore {cause addr : Nat} (h : WfMem s) : WfMem (haltCore s c cause addr) := by
  unfold haltCore
  refine wfMem_ite (wfMem_deviceResetOp h) ?_
  extract_lets +onlyGivenNames s₁ s₂
  have hs₂ : WfMem s₂ := wfMem_modCore (wfMem_stopMaster (wfMem_emit h))
  exact wfMem_ite (wfMem_latchStatic hs₂) hs₂

theorem wfMem_enterHandler {c : Nat} {info : W32} {pc fpc : W64} {addr : Option W64} (h : WfMem s) :
    WfMem (enterHandler s c info pc fpc addr) := by
  unfold enterHandler
  dsimp only
  split
  · next hslide => exact wfMem_modCore ((wfSnd_slideUp (wfMem_modCore h)).of_eq hslide)
  · next hslide => exact wfMem_haltCore ((wfSnd_slideUp (wfMem_modCore h)).of_eq hslide)

theorem wfMem_raiseTrap {t : Trap} {fpc : W64} {wide : Bool} {left : optParam (Option Nat) none} (h : WfMem s) :
    WfMem (raiseTrap s c t pc fpc wide left) :=
  wfMem_ite (wfMem_haltCore h) (wfMem_enterHandler h)

theorem wfMem_raiseFetch {a : W64} (h : WfMem s) : WfMem (raiseFetch s c pc a) := wfMem_raiseTrap h

theorem wfMem_interruptEntryOp (h : WfMem s) : WfMem (interruptEntryOp s c) := wfMem_ite (wfMem_enterHandler h) h

theorem wfMem_timerFireOp (h : WfMem s) : WfMem (timerFireOp s c) :=
  wfMem_ite (wfMem_interrupt (wfMem_ite (wfMem_wakeWheel (wfMem_modCore h)) (wfMem_modCore h))) h

end

/-! #### The instructions -/

section
variable {s t : State} {a c d len n : Nat} {r : RunState} {v : W32}

theorem wfMem_setPc {pc : W64} (h : WfMem s) : WfMem (setPc s c pc) := wfMem_modCore h

theorem wfMem_advance (h : WfMem s) : WfMem (advance s c len) := wfMem_setPc h

theorem wfSnd_dataRead (h : WfMem s) : WfSnd (dataRead s c a n) := wfSnd_ite (wfSnd_mk h) (wfSnd_busRead h)

theorem wfMem_dataWrite {v : Nat} (h : WfMem s) : WfMem (dataWrite s c a n v) :=
  wfMem_ite (wfMem_ownWrite h) (wfMem_busWrite (wfMem_ite (wfMem_modCore h) h))

theorem wfMem_baseUpdate {mode : AddrMode} (h : WfMem s) : WfMem (baseUpdate s c a mode n) := by
  unfold baseUpdate
  split
  · exact wfMem_wr h
  · exact wfMem_wr h
  · exact h

theorem wfSnd_crRead (h : WfMem s) : WfSnd (crRead s c n) := wfSnd_pairRead h (fun _ h1 _ => wfSnd_mk h1)

theorem wfMem_crwOp (h : WfMem s) : WfMem (crwOp s c n v) := wfMem_ite (wfMem_timerFireOp (wfMem_modCore h)) (wfMem_modCore h)

theorem wfMem_measureLockOp (h : WfMem s) : WfMem (measureLockOp s v) := wfMem_ite (h.of_mem rfl) h

theorem wfMem_pcrWrite (h : WfMem s) : WfMem (pcrWrite s c n v) := by
  unfold pcrWrite
  refine wfMem_ite (wfMem_setHub h) (wfMem_ite (wfMem_setHub h) (wfMem_ite ?_ ?_))
  · exact wfMem_ite (h.of_mem rfl) h
  · exact wfMem_ite (wfMem_ite (wfMem_measureLockOp h) h) (wfMem_ite (wfMem_ite (h.of_mem rfl) h)
        (wfMem_ite (wfMem_ite (h.of_mem rfl) h) h))

theorem wfMem_gate (h : WfMem s) : WfMem (gate s c len r) := wfMem_modCore (wfMem_dropSpokeToken (wfMem_advance h))

theorem wfMem_waitOp (h : WfMem s) : WfMem (waitOp s c len) := wfMem_wakeCore (wfMem_gate h)

theorem wfMem_waitJobOp (h : WfMem s) : WfMem (waitJobOp s c len d) :=
  wfMem_wakeCore (wfMem_gate (wfMem_ite (wfMem_endJob h) h))

theorem wfMem_fenceOp (h : WfMem s) : WfMem (fenceOp s c len) := wfMem_ite (wfMem_advance h) (wfMem_modCore (wfMem_advance h))

theorem wfMem_hubcallOp {n : BitVec 12} {v : W64} (h : WfMem s) : WfMem (hubcallOp s c len d n v) :=
  wfMem_hubInt (wfMem_modCore (wfMem_gate h))

theorem wfMem_hubcallEnd {v : W64} (h : WfMem s) : WfMem (hubcallEnd s c v) := by
  unfold hubcallEnd
  split
  · exact wfMem_readmit (wfMem_modCore (wfMem_wr h))
  · exact h

theorem wfMem_hubcallAnswerOp {v : W64} (h : WfMem s) : WfMem (hubcallAnswerOp s c v) := wfMem_ite (wfMem_hubcallEnd h) h

theorem wfMem_hubcallTimeoutOp (h : WfMem s) : WfMem (hubcallTimeoutOp s c) := wfMem_ite (wfMem_hubcallEnd (wfMem_emit h)) h

theorem wfMem_waitEndOp (h : WfMem s) : WfMem (waitEndOp s c) := wfMem_ite (wfMem_modCore h) h

/-- An instruction ends with memory in its canonical form. -/
def WfEnded : Ended → Prop
  | .ok s => WfMem s
  | .trap s _ => WfMem s

theorem wfEnded_callTo {c len : Nat} {slide16 : Bool} {a : W64} (h : WfMem s) : WfEnded (callTo s c len slide16 a) := by
  unfold callTo
  split
  · next hslide => exact wfMem_setPc ((wfSnd_slideUp h).of_eq hslide)
  · next hslide => exact (wfSnd_slideUp h).of_eq hslide

theorem wfEnded_retTo {c : Nat} (h : WfMem s) : WfEnded (retTo s c) := by
  unfold retTo
  dsimp only
  split
  · exact h
  · split
    · exact h
    · exact wfMem_setPc (wfMem_slideDown h)

theorem wfEnded_excRetTo {c : Nat} (h : WfMem s) : WfEnded (excRetTo s c) := by
  unfold excRetTo
  dsimp only
  split
  · exact h
  · split
    · exact h
    · split
      · exact h
      · exact wfMem_modCore (wfMem_slideDown h)

theorem wfEnded_loadTo {c len d a : Nat} {mode : AddrMode} {size : BitVec 3} (h : WfMem s) :
    WfEnded (loadTo s c len d a mode size) := by
  unfold loadTo
  dsimp only
  split
  · exact h
  · exact wfMem_wr (wfSnd_dataRead (wfMem_advance (wfMem_baseUpdate h)))

theorem wfEnded_storeFrom {c len d a : Nat} {mode : AddrMode} {size : BitVec 3} (h : WfMem s) :
    WfEnded (storeFrom s c len d a mode size) := by
  unfold storeFrom
  dsimp only
  split
  · exact h
  · exact wfMem_dataWrite (wfMem_advance (wfMem_baseUpdate h))

theorem wfEnded_ite {q : Prop} [Decidable q] {x y : Ended} (hx : WfEnded x) (hy : WfEnded y) :
    WfEnded (if q then x else y) := by
  split <;> assumption

/-- A written register and the step over the instruction. -/
theorem wfMem_advance_wr {c len d : Nat} {v : W64} (h : WfMem s) : WfMem (advance (wr s c d v) c len) :=
  wfMem_advance (wfMem_wr h)

theorem wfEnded_runOp {c len : Nat} {op : SpokeOp} (h : WfMem s) : WfEnded (runOp s c len op) := by
  cases op with
  | reserved priv => exact h
  | alu f d a b => exact wfEnded_ite h (wfMem_advance_wr h)
  | alui f d a v => exact wfMem_advance_wr h
  | leapc d imm => exact wfMem_advance_wr h
  | sel d r a b => exact wfMem_advance_wr h
  | load d a mode size => exact wfEnded_loadTo h
  | store d a mode size => exact wfEnded_storeFrom h
  | branch nz r off => exact wfMem_ite (wfMem_setPc h) (wfMem_advance h)
  | br off => exact wfMem_setPc h
  | call off slide16 => exact wfEnded_callTo h
  | callr a slide16 => exact wfEnded_ite h (wfEnded_callTo h)
  | jr a => exact wfEnded_ite h (wfMem_setPc h)
  | ret => exact wfEnded_retTo h
  | rep r => exact h
  | repi n => exact h
  | wait => exact wfMem_waitOp h
  | waitJob d => exact wfMem_waitJobOp h
  | fence => exact wfMem_fenceOp h
  | hubcall d a n => exact wfMem_hubcallOp h
  | excRet => exact wfEnded_excRetTo h
  | crr d n => exact wfMem_advance (wfMem_wr (wfSnd_crRead h))
  | crw n a => exact wfMem_crwOp (wfMem_advance h)
  | pcrr d n => exact wfMem_advance_wr h
  | pcrw n a => exact wfMem_pcrWrite (wfMem_advance h)
  | intoff d => exact wfMem_modCore (wfMem_advance_wr h)
  | inton => exact wfMem_modCore (wfMem_advance h)

theorem wfMem_repLoop {c r len n : Nat} {pre fpc : W64} {op : SpokeOp} (h : WfMem s) :
    WfMem (repLoop c r len pre fpc op n s) := by
  induction n generalizing s with
  | zero => exact wfMem_setPc h
  | succ n ih =>
    have hrun : WfEnded (runOp (setPc s c fpc) c len op) := wfEnded_runOp (wfMem_setPc h)
    rw [repLoop]
    split
    · next hend =>
      rw [hend] at hrun
      exact wfMem_raiseTrap (wfMem_setPc hrun)
    · next hend =>
      rw [hend] at hrun
      exact wfMem_ite hrun (wfMem_ite (wfMem_setPc (wfMem_wr hrun)) (ih (wfMem_wr hrun)))

theorem wfMem_repiLoop {c len n : Nat} {fpc : W64} {op : SpokeOp} (h : WfMem s) : WfMem (repiLoop c len fpc op n s) := by
  induction n generalizing s with
  | zero => exact wfMem_setPc h
  | succ n ih =>
    have hrun : WfEnded (runOp (setPc s c fpc) c len op) := wfEnded_runOp (wfMem_setPc h)
    rw [repiLoop]
    split
    · next hend =>
      rw [hend] at hrun
      exact wfMem_raiseTrap hrun
    · next hend =>
      rw [hend] at hrun
      exact wfMem_ite hrun (ih hrun)

theorem wfMem_prefixOp {count : Option Nat} (h : WfMem s) : WfMem (prefixOp s c len count n) := by
  unfold prefixOp
  dsimp only
  split
  · exact wfMem_raiseFetch h
  · split
    · exact wfMem_raiseTrap h
    · split
      · exact wfMem_repLoop h
      · exact wfMem_repiLoop h

theorem wfMem_runIssued {c len : Nat} {op : SpokeOp} (h : WfMem s) : WfMem (runIssued s c len op) := by
  have hrun : WfEnded (runOp s c len op) := wfEnded_runOp h
  unfold runIssued
  split
  · exact wfMem_prefixOp h
  · exact wfMem_prefixOp h
  · split
    · next hend =>
      rw [hend] at hrun
      exact hrun
    · next hend =>
      rw [hend] at hrun
      exact wfMem_raiseTrap hrun

theorem wfMem_issue {op : SpokeOp} (h : WfMem s) : WfMem (issue s c len op) := by
  unfold issue
  refine wfMem_ite h (wfMem_ite (wfMem_raiseFetch h) ?_)
  split
  · exact wfMem_raiseTrap h
  · exact wfMem_runIssued h

theorem wfMem_issueAlu {f : Alu} {b : Nat} {wide : Bool} (h : WfMem s) : WfMem (issueAlu s f c d a b wide) := wfMem_issue h

theorem wfMem_illegalOp (h : WfMem s) : WfMem (illegalOp s c) := by
  unfold illegalOp
  split
  · exact h
  · exact wfMem_ite (wfMem_issue h) h

theorem wfMem_fetchFaultOp (h : WfMem s) : WfMem (fetchFaultOp s c) := by
  unfold fetchFaultOp
  refine wfMem_ite h ?_
  split
  · exact wfMem_raiseFetch h
  · split
    · exact wfMem_ite (wfMem_issue h) h
    · exact wfMem_ite (wfMem_issue h) h
    · exact h

theorem wfMem_releasedCore (h : WfMem s) : WfMem (releasedCore s c r) := wfMem_modCore h

theorem wfMem_coreReleaseOp (h : WfMem s) : WfMem (coreReleaseOp s c) := by
  unfold coreReleaseOp
  refine wfMem_ite (wfMem_ite (wfMem_askAdmission (wfMem_releasedCore h)) ?_) h
  extract_lets +onlyGivenNames s₁
  have hs₁ : WfMem s₁ := wfMem_releasedCore h
  refine wfMem_ite ?_ ?_
  · exact wfMem_romStart hs₁
  · exact wfMem_ite (wfMem_firmwareStart hs₁) (wfMem_ite (wfMem_gkStart hs₁) hs₁)

end

/-! #### Debug accesses -/

section
variable {s t : State} {a : Nat} {write : Bool} {v : W32}

theorem wfMem_debugStep {c : Nat} (h : WfMem s) : WfMem (debugStep s c) := by
  unfold debugStep
  refine wfMem_ite h (wfMem_modCore ?_)
  split
  · exact wfMem_issue (wfMem_modCore h)
  · exact wfMem_fetchFaultOp (wfMem_modCore h)

theorem wfSnd_debugAct {y : Config.Debug} (h : WfMem s) : WfSnd (debugAct s write v y) := by
  unfold debugAct
  split
  · exact wfSnd_mk (wfMem_modCore h)
  · exact wfSnd_mk (wfMem_modCore h)
  · exact wfSnd_mk (wfMem_debugStep h)
  · exact wfSnd_mk (wfMem_resetCore h)
  · exact wfSnd_mk h
  · exact wfSnd_ite (wfSnd_mk (wfMem_wrBytes h)) (wfSnd_mk h)
  · exact wfSnd_mk h
  · exact wfSnd_mk h

theorem wfSnd_debugOp {d : Config.Debug} (h : WfMem s) : WfSnd (debugOp s a write v d) := by
  unfold debugOp
  split
  · exact wfSnd_mk (wfMem_violate h)
  · exact wfSnd_ite (wfSnd_mk (wfMem_violate h)) (wfSnd_ite (wfSnd_mk (wfMem_offAccess h)) (wfSnd_debugAct h))

theorem wfSnd_lanternAccess (h : WfMem s) : WfSnd (lanternAccess s a write v) := by
  unfold lanternAccess
  split
  · exact wfSnd_debugOp h
  · exact wfSnd_ite (wfSnd_mk (wfMem_busWrite h)) (wfSnd_mk (wfSnd_busRead h))

theorem wfMem_lnAccessOp {dr : BitVec 96} (h : WfMem s) : WfMem (lnAccessOp s dr) := by
  unfold lnAccessOp
  refine wfMem_ite h ?_
  extract_lets +onlyGivenNames _ s₁
  have hs₁ : WfMem s₁ := h.of_mem rfl
  refine wfMem_ite ?_ ?_
  · exact wfMem_emitOut hs₁
  · exact wfMem_ite (wfMem_emitOut (wfSnd_drawWord (wfSnd_lanternAccess hs₁))) (wfMem_emitOut (wfSnd_lanternAccess hs₁))

end

/-! #### One cycle -/

section
variable {s : State}

theorem wfMem_cycleTick (h : WfMem s) : WfMem (cycleTick s) := wfMem_foldl (fun _ _ h1 => wfMem_ite (wfMem_setCore h1) h1) h

theorem wfMem_crankTick (h : WfMem s) : WfMem (crankTick s) := wfMem_foldl (fun _ _ h1 => wfMem_syncsTick h1) h

theorem wfMem_brakeTick (h : WfMem s) : WfMem (brakeTick s) :=
  wfMem_foldl (fun _ _ h1 => wfMem_ite (wfMem_emitOut (wfMem_setPort h1)) h1) h

theorem wfMem_dripTick (h : WfMem s) : WfMem (dripTick s) := wfMem_ite (wfMem_dripFill h) h

theorem wfMem_tickOp (h : WfMem s) : WfMem (tickOp s) := by
  unfold tickOp
  refine wfMem_ite (h.of_mem rfl) ?_
  extract_lets +onlyGivenNames s₁ s₂
  have hs₂ : WfMem s₂ := wfMem_dripTick (wfMem_brakeTick (wfMem_settleDomains
      (wfMem_crankTick (wfMem_cycleTick (wfMem_with_time (h.of_mem rfl))))))
  exact wfMem_shippedTick (wfMem_servicesTick (wfMem_waitingChunks (wfMem_updTick
      (wfMem_romStep (wfMem_ite (wfMem_challengeReqOp hs₂) hs₂)))))

end

end Sys2Proof.Machine
end

section
/-! SUPPORT. Memory in its canonical form: every command. -/

namespace Sys2Proof.Machine

/-! #### Every command -/

/-- The next state, if there is one, has memory in its canonical form. -/
def WfNext (o : Host.Outcome State Fault Refusal) : Prop := ∀ t, o = .next t → WfMem t

theorem wfNext {t : State} (h : WfMem t) : WfNext (.next t) := by
  intro u hu
  cases hu
  exact h

theorem wfNext_exec {i : Instr} {s : State} (h : WfMem s) : WfNext (exec i s) := by
  cases i with
  | add => exact wfNext (wfMem_issueAlu h)
  | sub => exact wfNext (wfMem_issueAlu h)
  | and => exact wfNext (wfMem_issueAlu h)
  | or => exact wfNext (wfMem_issueAlu h)
  | xor => exact wfNext (wfMem_issueAlu h)
  | mov => exact wfNext (wfMem_issueAlu h)
  | sll => exact wfNext (wfMem_issue h)
  | srl => exact wfNext (wfMem_issue h)
  | sra => exact wfNext (wfMem_issue h)
  | rol => exact wfNext (wfMem_issue h)
  | ror => exact wfNext (wfMem_issue h)
  | neg => exact wfNext (wfMem_issue h)
  | abs => exact wfNext (wfMem_issue h)
  | mul => exact wfNext (wfMem_issue h)
  | mulhs => exact wfNext (wfMem_issue h)
  | mulhu => exact wfNext (wfMem_issue h)
  | div => exact wfNext (wfMem_issue h)
  | divu => exact wfNext (wfMem_issue h)
  | rem => exact wfNext (wfMem_issue h)
  | remu => exact wfNext (wfMem_issue h)
  | addi => exact wfNext (wfMem_issue h)
  | andi => exact wfNext (wfMem_issue h)
  | ori => exact wfNext (wfMem_issue h)
  | xori => exact wfNext (wfMem_issue h)
  | slli => exact wfNext (wfMem_issue h)
  | srli => exact wfNext (wfMem_issue h)
  | srai => exact wfNext (wfMem_issue h)
  | rori => exact wfNext (wfMem_issue h)
  | cati => exact wfNext (wfMem_issue h)
  | leapc => exact wfNext (wfMem_issue h)
  | ceq => exact wfNext (wfMem_issueAlu h)
  | cne => exact wfNext (wfMem_issueAlu h)
  | clt => exact wfNext (wfMem_issueAlu h)
  | cltu => exact wfNext (wfMem_issueAlu h)
  | cle => exact wfNext (wfMem_issueAlu h)
  | cleu => exact wfNext (wfMem_issueAlu h)
  | sel => exact wfNext (wfMem_issue h)
  | ceqi => exact wfNext (wfMem_issue h)
  | cnei => exact wfNext (wfMem_issue h)
  | clti => exact wfNext (wfMem_issue h)
  | cltui => exact wfNext (wfMem_issue h)
  | clei => exact wfNext (wfMem_issue h)
  | cleui => exact wfNext (wfMem_issue h)
  | cgti => exact wfNext (wfMem_issue h)
  | cgtui => exact wfNext (wfMem_issue h)
  | ld => exact wfNext (wfMem_issue h)
  | st => exact wfNext (wfMem_issue h)
  | bz => exact wfNext (wfMem_issue h)
  | bnz => exact wfNext (wfMem_issue h)
  | br => exact wfNext (wfMem_issue h)
  | call => exact wfNext (wfMem_issue h)
  | callr => exact wfNext (wfMem_issue h)
  | jr => exact wfNext (wfMem_issue h)
  | ret => exact wfNext (wfMem_issue h)
  | rep => exact wfNext (wfMem_issue h)
  | repi => exact wfNext (wfMem_issue h)
  | illegalInstruction => exact wfNext (wfMem_illegalOp h)
  | fetchFault => exact wfNext (wfMem_fetchFaultOp h)
  | wait => exact wfNext (wfMem_issue h)
  | waitJob => exact wfNext (wfMem_issue h)
  | waitEnd => exact wfNext (wfMem_waitEndOp h)
  | fence => exact wfNext (wfMem_issue h)
  | hubcall => exact wfNext (wfMem_issue h)
  | hubcallAnswer => exact wfNext (wfMem_hubcallAnswerOp h)
  | hubcallTimeout => exact wfNext (wfMem_hubcallTimeoutOp h)
  | excRet => exact wfNext (wfMem_issue h)
  | crr => exact wfNext (wfMem_issue h)
  | crw => exact wfNext (wfMem_issue h)
  | pcrr => exact wfNext (wfMem_issue h)
  | pcrw => exact wfNext (wfMem_issue h)
  | intoff => exact wfNext (wfMem_issue h)
  | inton => exact wfNext (wfMem_issue h)
  | measureLock => exact wfNext (wfMem_issue h)
  | interruptEntry => exact wfNext (wfMem_interruptEntryOp h)
  | timerCompareFire => exact wfNext (wfMem_timerFireOp h)
  | coreRelease => exact wfNext (wfMem_coreReleaseOp h)
  | pelotonTimeReached => exact wfNext (wfMem_pelotonReachedOp h)
  | lockstepMismatch => exact wfNext (wfMem_lockstepOp h)
  | spokeReset => exact wfNext (wfMem_onWheel h (fun _ h1 => wfMem_spokeResetWrite (wfMem_wakeWheel h1)))
  | handoverWrite => exact wfNext (wfMem_handoverBy h)
  | bankWipeDone => exact wfNext (wfMem_bankWipeDoneOp h)
  | dmaStarved => exact wfNext (wfMem_dmaStarvedOp h)
  | wdmaGo => exact wfNext (wfMem_wdmaGoBy h)
  | wdmaBeat => exact wfNext (wfMem_wdmaBeatOp h)
  | wdmaDone => exact wfNext (wfMem_wdmaDoneOp h)
  | bcastWrite => exact wfNext (wfMem_ite (wfMem_bcastOp h) h)
  | ctxClaim => exact wfNext (wfMem_onWheel h (fun _ h1 => wfMem_ctxClaimOp (wfMem_wakeWheel h1)))
  | crankGrant => exact wfNext (wfMem_crankGrantOp h)
  | ctxRelease => exact wfNext (wfMem_onWheel h (fun _ h1 => wfMem_ctxReleaseOp (wfMem_wakeWheel h1)))
  | cmdHi => exact wfNext (wfMem_onWheel h (fun _ h1 => wfMem_ite (wfMem_cmdHiOp (wfMem_wakeWheel h1)) h1))
  | notify => exact wfNext (wfMem_crankRow h (fun _ h1 _ => wfMem_afterNotify h1))
  | yieldpt => exact wfNext (wfMem_crankRow h (fun _ h1 _ => wfMem_afterYield h1))
  | mode => exact wfNext (wfMem_crankRow h (fun _ h1 _ => wfMem_afterMode h1))
  | syncs => exact wfNext (wfMem_crankRow h (fun _ h1 _ => wfMem_noAfter h1))
  | accclr => exact wfNext (wfMem_crankRow h (fun _ h1 _ => wfMem_noAfter h1))
  | setsel => exact wfNext (wfMem_crankRow h (fun _ h1 _ => wfMem_noAfter h1))
  | macw => exact wfNext (wfMem_crankRow h (fun _ h1 _ => wfMem_noAfter h1))
  | accldw => exact wfNext (wfMem_crankRow h (fun _ h1 _ => wfMem_noAfter h1))
  | accstw => exact wfNext (wfMem_crankRow h (fun _ h1 _ => wfMem_noAfter h1))
  | carry => exact wfNext (wfMem_crankRow h (fun _ h1 _ => wfMem_noAfter h1))
  | macl => exact wfNext (wfMem_crankRow h (fun _ h1 _ => wfMem_noAfter h1))
  | lq => exact wfNext (wfMem_crankRow h (fun _ h1 _ => wfMem_noAfter h1))
  | lld => exact wfNext (wfMem_crankRow h (fun _ h1 _ => wfMem_noAfter h1))
  | lst => exact wfNext (wfMem_crankRow h (fun _ h1 _ => wfMem_noAfter h1))
  | movb => exact wfNext (wfMem_crankRow h (fun _ h1 _ => wfMem_noAfter h1))
  | selb => exact wfNext (wfMem_crankRow h (fun _ h1 _ => wfMem_noAfter h1))
  | declassify => exact wfNext (wfMem_crankRow h (fun _ h1 _ => wfMem_afterDeclassify h1))
  | pairv => exact wfNext (wfMem_crankRow h (fun _ h1 _ => wfMem_noAfter h1))
  | verdict => exact wfNext (wfMem_crankRow h (fun _ h1 _ => wfMem_noAfter h1))
  | yieldOverrun => exact wfNext (wfMem_yieldOverrunOp h)
  | crankWipeDone => exact wfNext (wfMem_crankWipeDoneOp h)
  | sAreaTransfer => exact wfNext (wfMem_sAreaTransferOp h)
  | laneClaim => exact wfNext (wfMem_laneAccess h)
  | laneGrant => exact wfNext (wfMem_laneGrantOp h)
  | laneRelease => exact wfNext (wfMem_laneAccess h)
  | laneWipeDone => exact wfNext (wfMem_laneWipeDoneOp h)
  | init => exact wfNext (wfMem_laneCmdWrite h)
  | absorbSlot => exact wfNext (wfMem_laneCmdWrite h)
  | absorbHold => exact wfNext (wfMem_laneCmdWrite h)
  | finish => exact wfNext (wfMem_laneCmdWrite h)
  | save => exact wfNext (wfMem_laneCmdWrite h)
  | restore => exact wfNext (wfMem_laneCmdWrite h)
  | exportWrapped => exact wfNext (wfMem_laneCmdWrite h)
  | importWrapped => exact wfNext (wfMem_laneCmdWrite h)
  | laneData => exact wfNext (wfMem_laneAccess h)
  | declaredLengthWrite => exact wfNext (wfMem_laneAccess h)
  | laneOpDone => exact wfNext (wfMem_laneOpDoneOp h)
  | slotAlloc => exact wfNext (wfMem_chAccess h (fun _ h1 => wfMem_chStart (wfMem_setChBank h1)
      (fun _ h2 => wfMem_slotAllocOp h2)))
  | slotFree => exact wfNext (wfMem_chAccess h (fun _ h1 => wfMem_chStart (wfMem_setChBank h1)
      (fun _ h2 => wfMem_slotFreeOp h2)))
  | slotInfo => exact wfNext (wfMem_chAccess h (fun _ h1 => wfMem_chStart (wfMem_setChBank h1)
      (fun _ h2 => wfMem_slotInfoOp h2)))
  | xfer => exact wfNext (wfMem_chAccess h (fun _ h1 => wfMem_chStart (wfMem_setChBank h1) (fun _ h2 => wfMem_xferOp h2)))
  | unwrapBegin => exact wfNext (wfMem_chAccess h (fun _ h1 => wfMem_chStart (wfMem_setChBank h1)
      (fun _ h2 => wfMem_unwrapBeginOp h2)))
  | unwrapEnd => exact wfNext (wfMem_chAccess h (fun _ h1 => wfMem_chStart h1 (fun _ h2 => wfMem_unwrapEndOp h2)))
  | chFeed => exact wfNext (wfMem_chAccess h (fun _ h1 => wfMem_chFeedOp h1))
  | chamberCmdDone => exact wfNext (wfMem_chamberDoneOp h)
  | slot0Load => exact wfNext (wfMem_slot0LoadOp h)
  | read => exact wfNext (wfMem_otpCommand h)
  | program => exact wfNext (wfMem_otpCommand h)
  | lock => exact wfNext (wfMem_otpCommand h)
  | sealCalc => exact wfNext (wfMem_otpCommand h)
  | genUds => exact wfNext (wfMem_otpCommand h)
  | repair => exact wfNext (wfMem_otpCommand h)
  | otpCommandDone => exact wfNext (wfMem_otpDone h)
  | pumpIdleOff => exact wfNext (wfMem_pumpIdleOp h)
  | sensingComplete => exact wfNext (wfMem_sensingOp h)
  | lcRequest => exact wfNext (wfMem_lcWrite h)
  | transitionStep => exact wfNext (wfMem_transitionStepOp h)
  | eraseFault => exact wfNext (wfMem_eraseFaultOp h)
  | idcode => exact wfNext (wfMem_lanternShift h)
  | sample => exact wfNext (wfMem_boundaryOp h)
  | extest => exact wfNext (wfMem_boundaryOp h)
  | lnUid => exact wfNext (wfMem_uidOp h)
  | lnMailbox => exact wfNext (wfMem_mailboxOp h)
  | lnAccess => exact wfNext (wfMem_lnAccessOp h)
  | bypass => exact wfNext (wfMem_bypassOp h)
  | lanternEscape => exact wfNext (wfMem_ite (wfMem_escapeOp h) h)
  | lnChallengeReq => exact wfNext (wfMem_lcWrite h)
  | challengeExpiry => exact wfNext (wfMem_endChallenge h)
  | certClaim => exact wfNext (wfMem_lcWrite h)
  | certSubmit => exact wfNext (wfMem_lcWrite h)
  | certCheck => exact wfNext (wfMem_certCheckOp h)
  | certTimeout => exact wfNext (wfMem_certTimeoutOp h)
  | lnAuthGrant => exact wfNext (wfMem_lcWrite h)
  | lnClose => exact wfNext (wfMem_lcWrite h)
  | porstNRise => exact wfNext (wfMem_porstRiseOp h)
  | porstNAssert => exact wfNext (wfMem_porstAssertOp h)
  | deviceReset => exact wfNext (wfMem_deviceResetEvent h)
  | tamperN => exact wfNext (wfMem_tamperOp h)
  | supplyTrip => exact wfNext (wfMem_supplyTripOp h)
  | supplyRelease => exact wfNext (wfMem_supplyReleaseOp h)
  | vddAonLow => exact wfNext (wfMem_aonLowOp h)
  | vddAonPowerUp => exact wfNext (wfMem_aonPowerUpOp h)
  | setImages => exact wfNext (wfMem_verifyBy h)
  | setRecovery => exact wfNext (wfMem_verifyBy h)
  | setGo => exact wfNext (wfMem_verifyBy h)
  | clearGo => exact wfNext (wfMem_verifyBy h)
  | hold => exact wfNext (wfMem_platBy h (fun _ h1 => wfMem_holdOp h1))
  | platformRelease => exact wfNext (wfMem_releaseOp h)
  | delayDone => exact wfNext (wfMem_ite (wfMem_delayDoneOp h) h)
  | powerGoodStable => exact wfNext (wfMem_powerGoodStableOp h)
  | powerGoodFall => exact wfNext (wfMem_ite (wfMem_powerGoodFallOp h) h)
  | pctlAlertFall => exact wfNext (wfMem_ite (wfMem_alertFallOp h) h)
  | pctlCfgWrite => exact wfNext (wfMem_byHubA h (fun _ h1 => wfMem_ite (wfMem_pctlCfgOp h1) h1))
  | auxTxdata => exact wfNext (wfMem_byHubA h (fun _ h1 => wfMem_auxTxOp h1))
  | auditBlock => exact wfNext (wfMem_auditBlockOp h)
  | auditEntryArrival => exact wfNext (wfMem_auditArrivalOp h)
  | start => exact wfNext (wfMem_platBy h (fun _ h1 => wfMem_startOp h1))
  | quarantinedClear => exact wfNext (wfMem_platBy h (fun _ h1 => wfMem_quarantineClearOp h1))
  | hostTransactionStart => exact wfNext (wfMem_txnStartOp h)
  | hostDecision => exact wfNext (wfMem_txnDecideOp h)
  | hostTransactionEnd => exact wfNext (wfMem_txnEndOp h)
  | ownRead => exact wfNext (wfMem_ownGo h)
  | ownWrite => exact wfNext (wfMem_ownGo h)
  | ownNoData => exact wfNext (wfMem_ownGo h)
  | ownPoll => exact wfNext (wfMem_ownGo h)
  | ownCmdStart => exact wfNext (wfMem_ownStartOp h)
  | ownCmdDone => exact wfNext (wfMem_ownDoneOp h)
  | ownPollTimeout => exact wfNext (wfMem_pollTimeoutOp h)
  | quietOpen => exact wfNext (wfMem_quietOpenOp h)
  | quietClose => exact wfNext (wfMem_quietCloseOp h)
  | sweepBlock => exact wfNext (wfMem_sweepBlockOp h)
  | portBootDone => exact wfNext (wfMem_portCmd h)
  | swap => exact wfNext (wfMem_portCmd h)
  | swapApply => exact wfNext (wfMem_swapApplyOp h)
  | copyActive => exact wfNext (wfMem_portCmd h)
  | copyDone => exact wfNext (wfMem_copyDoneOp h)
  | tlogPop => exact wfNext (wfMem_guarded h (fun _ h1 => wfMem_granted h1 (fun _ h2 => wfMem_gkPop h2)))
  | gkReset => exact wfNext (wfMem_portCmd h)
  | gkMailboxIn => exact wfNext (wfMem_portCmd h)
  | gkMailboxOut => exact wfNext (wfMem_portCmd h)
  | inTaken => exact wfNext (wfMem_portCmd h)
  | gkBootDoneMsg => exact wfNext (wfMem_messageOp h)
  | openWindow => exact wfNext (wfMem_messageOp h)
  | closeWindow => exact wfNext (wfMem_messageOp h)
  | updateWindowExpiry => exact wfNext (wfMem_windowExpiryOp h)
  | intervalEnd => exact wfNext (wfMem_intervalEndOp h)
  | configRequest => exact wfNext (wfMem_configOp h)
  | perstN => exact wfNext (wfMem_perstOp h)
  | flr => exact wfNext (wfMem_flrOp h)
  | barAccessFault => exact wfNext (wfMem_barFaultOp h)
  | spdmRequest => exact wfNext (wfMem_spdmOp h)
  | query => exact wfNext (wfMem_ideKm h (fun _ h1 => wfMem_emitOut h1))
  | keyProg => exact wfNext (wfMem_ideKm h (fun _ h1 => wfMem_keyProgOp h1))
  | kSetGo => exact wfNext (wfMem_ideKm h (fun _ h1 => wfMem_keyGoOp h1))
  | kSetStop => exact wfNext (wfMem_ideKm h (fun _ h1 => wfMem_keyStopOp h1))
  | funcVecWrite => exact wfNext (wfMem_qfAccess h (fun _ h1 => wfMem_funcVecOp h1))
  | funcEnable => exact wfNext (wfMem_qfAccess h (fun _ h1 => wfMem_funcEnableOp h1))
  | queueEnable => exact wfNext (wfMem_qfAccess h (fun _ h1 => wfMem_ite (wfMem_queueOnOp h1) h1))
  | queueDisable => exact wfNext (wfMem_qfAccess h (fun _ h1 => wfMem_ite (wfMem_queueOffReq h1) h1))
  | queueOff => exact wfNext (wfMem_queueOffOp h)
  | qgroupAliasWrite => exact wfNext (wfMem_guarded h (fun _ h1 => wfMem_aliasWriteOp h1))
  | doorbell => exact wfNext (wfMem_ite (wfMem_guarded h (fun _ h1 => wfMem_ite (wfMem_doorbellOp h1) h1)) h)
  | entryFetch => exact wfNext (wfMem_entryFetchOp h)
  | payloadFetch => exact wfNext (wfMem_payloadFetchOp h)
  | jobDispatch => exact wfNext (wfMem_jobDispatchOp h)
  | jobWindowStore => exact wfNext (wfMem_guarded h (fun _ h1 => wfMem_jobWindowOp h1))
  | jobCompletion => exact wfNext (wfMem_jobCompletionOp h)
  | jobTimeout => exact wfNext (wfMem_jobTimeoutOp h)
  | qfBootDone => exact wfNext (wfMem_qfAccess h (fun _ h1 => wfMem_bootDoneOp h1))
  | queueCreate => exact wfNext (wfMem_queueCreateBy h)
  | queueDestroy => exact wfNext (wfMem_adminOp h (fun _ h1 => wfMem_queueDestroyOp h1))
  | queueSet => exact wfNext (wfMem_adminOp h (fun _ h1 => wfMem_queueSetOp h1))
  | funcSet => exact wfNext (wfMem_adminOp h (fun _ h1 => wfMem_funcSetOp h1))
  | verify => exact wfNext (wfMem_svcRun h (fun _ h1 _ => wfFst_verifyOp h1))
  | appraise => exact wfNext (wfMem_svcRun h (fun _ h1 _ => wfFst_appraiseOp h1))
  | refsetLoad => exact wfNext (wfMem_svcRun h (fun _ h1 _ => wfFst_refsetLoadOp h1))
  | policySet => exact wfNext (wfMem_svcRun h (fun _ h1 _ => wfFst_policySetOp h1))
  | ticketKeys => exact wfNext (wfMem_svcRun h (fun _ h1 _ => wfFst_ticketKeysOp h1))
  | recordStatus => exact wfNext (wfMem_svcRun h (fun _ h1 _ => wfFst_recordStatusOp h1))
  | ticket => exact wfNext (wfMem_svcRun h (fun _ h1 _ => wfFst_ticketOp h1))
  | keyRelease => exact wfNext (wfMem_svcRun h (fun _ h1 _ => wfFst_keyReleaseOp h1))
  | derive => exact wfNext (wfMem_svcRun h (fun _ h1 _ => wfFst_deriveOp h1))
  | sign => exact wfNext (wfMem_svcRun h (fun _ h1 _ => wfFst_signOp h1))
  | rcvStatus => exact wfNext (wfMem_rcvStatusOp h)
  | rcvData => exact wfNext (wfMem_rcvDataOp h)
  | rcvEnd => exact wfNext (wfMem_rcvEndOp h)
  | rcvAbort => exact wfNext (wfMem_rcvAbortOp h)
  | rcvTimeout => exact wfNext (wfMem_rcvTimeoutOp h)
  | linkModeWrite => exact wfNext (wfMem_chainBy h (fun _ h1 => wfMem_ite (wfMem_linkModeOp h1) h1))
  | linkUp => exact wfNext (wfMem_linkUpEvent h)
  | blockLockLoss => exact wfNext (wfMem_blockLossOp h)
  | helloTimeout => exact wfNext (wfMem_helloTimeoutOp h)
  | helloInterval => exact wfNext (wfMem_helloIntervalOp h)
  | hello => exact wfNext (wfMem_ite (wfMem_helloOp h) h)
  | delayReq => exact wfNext (wfMem_ite (wfMem_delayReqOp h) h)
  | delayResp => exact wfNext (wfMem_ite (wfMem_delayRespOp h) h)
  | time => exact wfNext (wfMem_ite (wfMem_timeOp h) h)
  | rollCall => exact wfNext (wfMem_onFrame h (fun _ h1 => wfMem_rollCallOp h1))
  | rollAnswer => exact wfNext (wfMem_rollAnswerEvent h)
  | roster => exact wfNext (wfMem_onFrame h (fun _ h1 => wfMem_rosterOp h1))
  | pacerAssign => exact wfNext (wfMem_onFrame h (fun _ h1 => wfMem_pacerAssignOp h1))
  | topoChange => exact wfNext (wfMem_onFrame h (fun _ h1 => wfMem_topoChangeOp h1))
  | rcvMsg => exact wfNext (wfMem_rcvMsgOp h)
  | imageQuery => exact wfNext (wfMem_imageQueryOp h)
  | imageOffer => exact wfNext (wfMem_onDelivery h)
  | cpTxGo => exact wfNext (wfMem_chainBy h (fun _ h1 => wfMem_ite (wfMem_txCtrlOp h1) h1))
  | cpTxDone => exact wfNext (wfMem_txDoneOp h)
  | rxFull => exact wfNext (wfMem_chainBy h (fun _ h1 => wfMem_ite (wfMem_rxFullOp h1) h1))
  | txFullClear => exact wfNext (wfMem_chainBy h (fun _ h1 => wfMem_ite (wfMem_txFullClearOp h1) h1))
  | syncIntervalTick => exact wfNext (wfMem_syncTickOp h)
  | holdover => exact wfNext (wfMem_holdoverOp h)
  | rollInterval => exact wfNext (wfMem_rollIntervalOp h)
  | rollWait => exact wfNext (wfMem_rollWaitOp h)
  | ptSet => exact wfNext (wfMem_granted h (fun _ h1 => wfMem_ptSetOp h1))
  | armFire => exact wfNext (wfMem_armFireOp h)
  | updOffer => exact wfNext (wfMem_updHear h (fun _ h1 => wfMem_updOfferOp h1))
  | updAnswer => exact wfNext (wfMem_ite (wfMem_updFrame h (fun _ h1 => wfMem_updAnswerOp h1)) h)
  | updChunk => exact wfNext (wfMem_updHear h (fun _ h1 => wfMem_updChunkOp h1))
  | updStatus => exact wfNext (wfMem_ite (wfMem_respond h) (wfMem_ite (wfMem_updStatusOp h) h))
  | updReport => exact wfNext (wfMem_updFrame h (fun _ h1 => wfMem_updReportOp h1))
  | updArm => exact wfNext (wfMem_updFrame h (fun _ h1 => wfMem_updArmOp h1))
  | updAbort => exact wfNext (wfMem_updFrame h (fun _ h1 => wfMem_updAbortOp h1))
  | updTimeout => exact wfNext (wfMem_updTimeoutOp h)
  | forwardResend => exact wfNext (wfMem_resendOp h)
  | armWait => exact wfNext (wfMem_armWaitOp h)
  | activation => exact wfNext (wfMem_activationOp h)
  | freeze => exact wfNext (wfMem_freezeOp h)
  | unfreeze => exact wfNext (wfMem_guarded h (fun _ h1 => wfMem_byHubA h1 (fun _ h2 => wfMem_unfreezeOp h2)))
  | recordArrival => exact wfNext (wfMem_recordArrivalOp h)
  | recordStore => exact wfNext (wfMem_recordStoreOp h)
  | fsFreeze => exact wfNext (wfMem_byHub h (fun _ h1 => wfMem_fsFreezeOp h1))
  | fsThaw => exact wfNext (wfMem_byHub h (fun _ h1 => wfMem_fsThawOp h1))
  | mergeEnd => exact wfNext (wfMem_mergeEndOp h)
  | freezeTimeout => exact wfNext (wfMem_freezeTimeoutOp h)
  | fsRelease => exact wfNext (wfMem_byHub h (fun _ h1 => wfMem_fsReleaseOp h1))
  | commit => exact wfNext (wfMem_byHub h (fun _ h1 => wfMem_commitOp h1))
  | commitDone => exact wfNext (wfMem_byHub h (fun _ h1 => wfMem_commitDoneOp h1))
  | droppedClr => exact wfNext (wfMem_byHub h (fun _ h1 => wfMem_droppedClrOp h1))
  | fsSwGo => exact wfNext (wfMem_byHub h (fun _ h1 => wfMem_fsSwGoOp h1))
  | pdReqWrite => exact wfNext (wfMem_byHubA h (fun _ h1 => wfMem_pdReqOp h1))
  | domainOn => exact wfNext (wfMem_domainOnOp h)
  | domainOff => exact wfNext (wfMem_domainOffOp h)
  | domainFault => exact wfNext (wfMem_domainFaultOp h)
  | wheelFreqWrite => exact wfNext (wfMem_byHubA h (fun _ h1 => wfMem_ite (wfMem_wheelFreqOp h1) h1))
  | relockDone => exact wfNext (wfMem_relockDoneOp h)
  | clockFault => exact wfNext (wfMem_clockFaultOp h)
  | wheelPark => exact wfNext (wfMem_wheelParkOp h)
  | wheelUnpark => exact wfNext (wfMem_wheelUnparkOp h)
  | wheelWarmWrite => exact wfNext (wfMem_byHubA h (fun _ h1 => wfMem_wheelWarmOp h1))
  | governorRequest => exact wfNext (wfMem_governorRequestOp h)
  | governorDecision => exact wfNext (wfMem_governorDecisionOp h)
  | admissionGrant => exact wfNext (wfMem_admissionGrantOp h)
  | recomputeEnd => exact wfNext (wfMem_recomputeEndOp h)
  | currentCeilingWrite => exact wfNext (wfMem_byHubA h (fun _ h1 => wfMem_ceilingWriteOp h1))
  | active => exact wfNext (wfMem_byHubA h (fun _ h1 => wfMem_powerReqOp h1))
  | low => exact wfNext (wfMem_byHubA h (fun _ h1 => wfMem_powerReqOp h1))
  | standby => exact wfNext (wfMem_byHubA h (fun _ h1 => wfMem_powerReqOp h1))
  | deep => exact wfNext (wfMem_byHubA h (fun _ h1 => wfMem_powerReqOp h1))
  | powerSequenceDone => exact wfNext (wfMem_seqDoneOp h)
  | wakeTime => exact wfNext (wfMem_wakeTimeOp h)
  | pwrWake => exact wfNext (wfMem_pwrWakeOp h)
  | entdaa => exact wfNext (wfMem_ite (wfMem_i3cOut h) (wfMem_i3cCcc h (fun _ h1 => wfMem_i3cAssign h1)))
  | setdasa => exact wfNext (wfMem_ite (wfMem_i3cOut h) (wfMem_i3cCcc h (fun _ h1 => wfMem_i3cAssign h1)))
  | setaasa => exact wfNext (wfMem_ite (wfMem_i3cOut h) (wfMem_i3cCcc h (fun _ h1 => wfMem_i3cAssign h1)))
  | enec => exact wfNext (wfMem_i3cCcc h (fun _ h1 => wfMem_i3cEvents h1))
  | disec => exact wfNext (wfMem_i3cCcc h (fun _ h1 => wfMem_i3cEvents h1))
  | rstdaa => exact wfNext (wfMem_i3cCcc h (fun _ h1 => wfMem_i3cRelease h1))
  | setmwl => exact wfNext (wfMem_i3cCcc h (fun _ h1 => wfMem_ite (h1.of_mem rfl) h1))
  | setmrl => exact wfNext (wfMem_i3cCcc h (fun _ h1 => wfMem_ite (h1.of_mem rfl) h1))
  | getmwl => exact wfNext (wfMem_i3cGet h)
  | getmrl => exact wfNext (wfMem_i3cGet h)
  | getpid => exact wfNext (wfMem_i3cGet h)
  | getbcr => exact wfNext (wfMem_i3cGet h)
  | getdcr => exact wfNext (wfMem_i3cGet h)
  | getstatus => exact wfNext (wfMem_i3cGet h)
  | getmxds => exact wfNext (wfMem_i3cGet h)
  | i3cPrivateWrite => exact wfNext (wfMem_i3cMessageOp h)
  | i3cPrivateRead => exact wfNext (wfMem_i3cReadOp h)
  | txGo => exact wfNext (wfMem_i3cAccess h)
  | rxFullClear => exact wfNext (wfMem_i3cAccess h)
  | selftest => exact wfNext (wfMem_guarded h (fun _ h1 => wfMem_byHubA h1 (fun _ h2 => wfMem_selftestOp h2)))
  | selftestEnd => exact wfNext (wfMem_selftestEndOp h)
  | healthFail => exact wfNext (wfMem_healthFailOp h)
  | dripData => exact wfNext (wfMem_dripDataRead h)
  | registerWrite => exact wfNext (wfMem_ite (wfMem_busWrite h) h)
  | jobBufferWipeDone => exact wfNext (wfMem_bufferWipeDoneOp h)
  | blockLockAcquired => exact wfNext (wfMem_blockLockOp h)
  | powerGoodRise => exact wfNext (wfMem_ite (wfMem_powerGoodRiseOp h) h)
  | auxTxDone => exact wfNext (wfMem_auxDoneOp h)
  | badFrame => exact wfNext (wfMem_badFrameOp h)
  | accessAcknowledged => exact wfNext (wfMem_ackOp h)

/-- Settles O59: memory changes only by written bytes and wiped ranges, each of which keeps the canonical form, and every
operation is composed of these and of changes beside memory. -/
theorem memoryStaysCanonical : Obligations.MemoryStaysCanonical := by
  unfold Obligations.MemoryStaysCanonical
  intro s t hwf hstep
  have hnext : WfNext (step s) := by
    unfold step
    split
    · exact wfNext (wfMem_tickOp hwf)
    · next rest _ => exact wfNext_exec (wfMem_with_pending hwf)
  exact hnext t hstep

end Sys2Proof.Machine
end
